-- ==== Sys2Proof/Word.lean ====
section
/-! DEFINITION. Sys2Proof/Word.lean: the word types of the RLS6128 model (R195, R199, R5). -/

namespace Sys2Proof

abbrev Byte := BitVec 8
abbrev Word := BitVec 64

/-- Device time: 48 bits of nanoseconds (R476). -/
abbrev Time := BitVec 48

/-- A tagged word (R195): 4 tag bits and 64 payload bits. -/
structure TWord where
  tag : BitVec 4
  pay : Word
  deriving DecidableEq, Repr

/-- The tag codes of R195. -/
def tagUnset : BitVec 4 := 0x0
def tagInt : BitVec 4 := 0x1
def tagCount : BitVec 4 := 0x2
def tagHaddr : BitVec 4 := 0x3
def tagSaddr : BitVec 4 := 0x4
def tagStatus : BitVec 4 := 0x5
def tagHandle : BitVec 4 := 0x6
def tagBytes : BitVec 4 := 0x7
def tagNotValid : BitVec 4 := 0x8
def tagPoison : BitVec 4 := 0xF

/-- The word that nothing has written: tag UNSET, payload 0 (R195, R199). -/
def TWord.unset : TWord := ⟨tagUnset, 0⟩

end Sys2Proof
end

