-- ==== Sys2Proof/Syntax.lean ====
section
/-! DEFINITION. Sys2Proof/Syntax.lean: the commands, one constructor per row of spec/opcode_table.json, and the types of
their operands. What lies outside the chip (host memory, devices, flash, pins) reaches it as an operand (log 3). -/

namespace Sys2Proof

/-- How a host read ended (R65): successful, Unsupported Request, Completer Abort, completion timeout or poisoned. -/
inductive CplStatus where
  | ok | ur | ca | timeout | poison
  deriving DecidableEq, Repr

/-- How a memory or Armature delivers a word: sound, with a single-bit error corrected, or uncorrectable (R14, R196, R289, R400). -/
inductive Ecc where
  | sound | corrected | bad
  deriving DecidableEq, Repr

/-- An upset that ECC corrects, or cannot. -/
def eccOf (u : Option Bool) : Ecc :=
  match u with
  | none => .sound
  | some true => .corrected
  | some false => .bad

/-- How a LIST_DEVICES goes: the records written when a quad reset began, none where none did, and how the buffer's words read back. -/
structure ListRun where
  cut : Option Nat
  ecc : Ecc
  deriving DecidableEq, Repr

/-- What a read of host memory by the supervisor or Plinth brings: how it ended, how further completions of it failed (R534), how the
words that it passed through were delivered, and its bytes. -/
structure HostData where
  st : CplStatus
  more : List CplStatus
  ecc : Ecc
  data : List Byte
  deriving DecidableEq, Repr

/-- Every completion of the read came sound. -/
def HostData.ok (d : HostData) : Bool := d.st = .ok && d.more.all (· = .ok) && d.ecc ≠ .bad

/-- The two transports of the SPDM responder (R51, R53). -/
inductive Transport where
  | doe | mctp
  deriving DecidableEq, Repr

/-- The sub-streams of the Link IDE stream (R54). -/
inductive SubStream where
  | posted | nonPosted | completion
  deriving DecidableEq, Repr

/-- What a device reports at the end of an exchange (R184); `moved` is the count of data bytes moved and `more` says that the
device had more than COUNT bytes. -/
inductive DevStatus where
  | scsi (status : Byte) (key : BitVec 4) (asc : Byte) (filemark eom ili : Bool)
  | nvme (sct : BitVec 3) (sc : Byte) (dnr : Bool)
  | pmemDone
  | pmemRefused
  deriving DecidableEq, Repr

structure DevAnswer where
  st : DevStatus
  moved : Nat
  more : Bool
  sense : List Byte
  pos : Option Nat
  deriving DecidableEq, Repr

/-- A frame or TLP from the lanes of a quad (R306): its bytes without the link CRC, the exchange its header names, the byte of
the exchange's data at which its payload starts, and the header length. -/
structure Frame where
  port : Nat
  bytes : List Byte
  crcBad : Bool
  cut : Bool
  idx : Nat
  off : Nat
  hdr : Nat
  deriving DecidableEq, Repr

/-- What a read of a context finds (R399, R400): nothing, a single-bit error that is corrected, or an uncorrectable word: FTAG, the
FPAY word of one frame word, or a word at offset 0x00 to 0x77. -/
inductive CtxFault where
  | sound | corrected | ftag | fpay (i : Nat) | low
  deriving DecidableEq, Repr

/-- A word that a bundle finds uncorrectable as it reads it (R14, R196, R289): a frame word or a local-window word of the thread, a word
of the global scratchpad, the payload that Armature brings to a read of it, or a word of the segment that holds sense data. `corrected` is
a single-bit error in one of the words that it reads (R400). -/
inductive BadWord where
  | corrected
  | frame (n : Nat)
  | win (w : Nat)
  | gs (w : Nat)
  | fabric
  | sense (k : Nat)
  deriving DecidableEq, Repr

/-- A release of buffered stores outside a bundle, of a thread or a subchannel: the words of the global scratchpad that its set and clear
stores find uncorrectable, and how many single-bit errors were corrected (R196, R400). -/
structure Release where
  of_ : Nat
  bad : List Nat
  fixed : Nat
  deriving DecidableEq, Repr

/-- A thread's turn at its engine: the thread, and the words that its bundle finds uncorrectable or corrected. -/
structure Turn where
  th : Nat
  bad : List BadWord
  deriving DecidableEq, Repr

/-- An operand, and how the word that carries it is delivered (R14, R314, R399, R400). -/
structure Checked (α : Type) where
  val : α
  ecc : Ecc
  deriving DecidableEq, Repr

/-- The word that carries an operand is uncorrectable. -/
def Checked.ue {α : Type} (c : Checked α) : Bool := c.ecc = .bad

/-- What the write engine finds as it reads a piece (R14, R196, R289, R400): the buffer words that the buffer finds uncorrectable, those that
Armature does, the words of the global scratchpad, written in part, that it finds uncorrectable, and how many single-bit errors were
corrected. -/
structure PieceFault where
  buffer : BitVec 8
  arm : BitVec 8
  gs : List Nat
  fixed : Nat
  deriving DecidableEq, Repr

/-- What the read engine takes and finds at a request (R14, R196, R291): the number of a free segment, the words of the global scratchpad
that it finds uncorrectable, those that Armature brings so, and how many single-bit errors were corrected. -/
structure ReadSeg where
  seg : Nat
  bad : List Nat
  arm : List Nat
  fixed : Nat
  deriving DecidableEq, Repr

/-- What a restore finds (R196, R400): how the checkpoint record is delivered, and the words of the global scratchpad that its loads
find uncorrectable as they are issued again. -/
structure RestoreFault where
  ckpt : Ecc
  bad : List Nat
  deriving DecidableEq, Repr

/-- What the lane transmitter finds in the payload of a frame (R14, R289, R400): nothing, a single-bit error that is corrected, or an
uncorrectable word, of the buffer or on Armature. -/
inductive FrameFault where
  | sound | corrected | buffer | fabric
  deriving DecidableEq, Repr

/-- The FIFO words of a frame that fail their parity, those that Armature finds uncorrectable on their way to the buffer, and how many
single-bit errors it corrects there (R14, R314, R400). -/
structure BadFifo where
  parity : List Nat
  arm : List Nat
  fixed : Nat
  deriving DecidableEq, Repr

/-- The completion of a read of one ring slot: how it ended, and the slot, as Armature brings it (R14, R84). -/
structure SlotData where
  st : CplStatus
  slot : Checked (BitVec 512)
  deriving DecidableEq, Repr

/-- A memory request of a device to its root port (R358); `fault`: how the buffer and Armature deliver the words of a read, and `bad`: the
64-byte words of a write that Armature finds uncorrectable on their way to the buffer, or corrects (R14, R289, R400). -/
structure DevMemReq where
  write : Bool
  addr : Word
  len : Nat
  data : List Byte
  segs : List Nat
  fault : FrameFault
  bad : List Nat
  fixed : Nat
  deriving DecidableEq, Repr

/-- The causes of a path fault that R359 and R377 name. -/
inductive PathFaultKind where
  | errFatal | dlDown | presenceLost
  deriving DecidableEq, Repr

/-- The lane codes and corrections of R379: `slow` is a phy whose partner offers only 3 or 1.5 Gbit/s, `miswired` one that learns an
address (R364). -/
inductive LaneCode where
  | short | open_ | rate | slow | polarity | reversed
  | miswired (addr : Word)
  deriving DecidableEq, Repr

/-- The rates of a training: the highest that the link partner offers, and the one reached (R356). -/
structure LinkRate where
  partner : Nat
  reached : Nat
  deriving DecidableEq, Repr

/-- A lane that trained, with the SAS address that its phy learnt in IDENTIFY (R364). -/
structure TrainedLane where
  lane : Nat
  addr : Word
  deriving DecidableEq, Repr

/-- A controller behind a root port, by its CNTLID (R359). -/
structure PortCtrl where
  port : Nat
  ctrl : Word
  deriving DecidableEq, Repr

/-- A port, and whether the test that the event brings passes: the readback of PWREN, or the test of the I2C segment (R383). -/
structure PortTest where
  port : Nat
  ok : Bool
  deriving DecidableEq, Repr

/-- A quad, and the ports whose PERST_N reads low as it is released (R383). -/
structure QuadTest where
  quad : Nat
  perstBad : BitVec 4
  deriving DecidableEq, Repr

/-- What the SFDP tables of a flash device say: whether they declare octal DTR of profile 1.0, and its size in Mbit (R525). -/
structure FlashDev where
  octal : Bool
  mbit : Nat
  deriving DecidableEq, Repr

/-- The flash devices and the start of the quads at a boot: the boot time in µs, and the I2C segments that fail their test, bit 4q + p
(R383, R434, R525). -/
structure BootTest where
  micros : Nat
  i2cBad : BitVec 128
  flash0 : FlashDev
  flash1 : FlashDev
  deriving DecidableEq, Repr

/-- The algorithms of R52. -/
inductive SpdmAlg where
  | ecdsaP384 | sha384 | ecdheSecp384r1 | aes256Gcm
  deriving DecidableEq, Repr

/-- The SPDM exchange with a device that offers it (R375): the version, BCD, the algorithms, the certificate chain, the signed
measurements, the signature, and its length in µs. -/
structure SpdmRun where
  version : Nat
  algs : List SpdmAlg
  cert : List Byte
  meas : List Byte
  sig : List Byte
  micros : Nat
  deriving DecidableEq, Repr

/-- One identity read of R374: the kind (1 to 4), the identity, the response bytes that the digest runs over, the SPDM exchange where
the device offers it, and whether an expander is table-routed (R363). -/
structure IdentityRead where
  kind : Nat
  serial : BitVec 160
  fwrev : Word
  model : BitVec 192
  resp : List Byte
  spdm : Option SpdmRun
  target : Word
  func : Nat
  table : Bool
  deriving DecidableEq, Repr

/-- What a run finds (R369): a namespace with its command set and metadata (R362), an SSP logical unit with its peripheral device type,
an STP or SATA device, or a PCIe function with its class code and the lengths of its BARs. -/
inductive Found where
  | nvmeNs (nvm : Bool) (mdBytes : Nat) (pi : Bool)
  | lun (pdt : Byte) (pi : Bool)
  | stp
  | pcieFn (cls : BitVec 24) (bars : List Nat)
  deriving DecidableEq, Repr

/-- One device found by a discovery run (R369, R371): what it is, how many expander levels down it stands, whether its identification
failed, and what was read of it. `uid` 0 means that it has no identifier; `nqn` is the subsystem NQN of an NVMe namespace, and empty for
other kinds (R370). -/
structure Finding where
  what : Found
  level : Nat
  failed : Bool
  uid : BitVec 128
  nqn : List Byte
  nblocks : Word
  blksize : Nat
  maxxfer : Nat
  maxblk : Nat
  lunid : Word
  fwrev : List Byte
  model : List Byte
  rate : Nat
  target : Word
  func : Nat
  deriving DecidableEq, Repr

/-- The mailbox channels of R454. -/
inductive Chan where
  | hostSup | supHost | hostPln | plnHost | supPln | plnSup
  | cluSup (k : Nat)
  | supClu (k : Nat)
  deriving DecidableEq, Repr

/-- A doorbell or status register of the mailboxes: the host's for the supervisor or Plinth (R460), or in a private map that of the
receiver or sender of a channel (R458, R459). -/
inductive MbReg where
  | host (plinth : Bool)
  | inner (ch : Chan)
  deriving DecidableEq, Repr

/-- The two instances of the interrupt controller (R466). -/
inductive IcInst where
  | sup | pln
  deriving DecidableEq, Repr

/-- The supply rails of R517. -/
inductive Rail where
  | vaon | vioAon | vcore | vsram | vhl | vhlh | vpq | vpqh | vio18 | vsb33
  deriving DecidableEq, Repr

/-- The JTAG instructions that R527 tells apart. Those that select the boundary register shift cells out of it and others in, as the
standard defines. -/
inductive JtagOp where
  | bypass | idcode
  | extest (cells : List Bool)
  | boundary (cells : List Bool)
  | other (code : Byte)
  deriving DecidableEq, Repr

/-- A rail that leaves its range, above it or below (R520). -/
structure RailFault where
  rail : Rail
  above : Bool
  deriving DecidableEq, Repr

/-- The configuration registers that take effect when Bus Master Enable is set (R32, R33, R44, R47): the tag enables, PASID
Enable, Enable Relaxed Ordering, Max Payload Size and Max Read Request Size in bytes. -/
structure HostCfg where
  tag14 : Bool
  tag10 : Bool
  pasid : Bool
  relaxed : Bool
  mps : Nat
  mrrs : Nat
  deriving DecidableEq, Repr

/-- The commands: one constructor per row of spec/opcode_table.json, in its order. -/
inductive Instr where
  | wholePush (q : Nat) (entry : BitVec 512)
  | tornPush (q : Nat) (be : BitVec 64)
  | sqDoorbell (q : Nat) (be : BitVec 8) (val : Word)
  | cqDoorbell (q : Nat) (be : BitVec 8) (val : Word)
  | poisonedTlpReceived
  | registerWrite (bar off size : Nat) (allBytes : Bool) (val : Word)
  | msixUnmask (vec : Option Nat)
  | busMasterEnableSet (cfg : HostCfg)
  | busMasterEnableCleared
  | memorySpaceEnableCleared
  | d3hotEntry
  | flr
  | linkResetEvent
  | hostLinkRateChange (rate width : Nat) (flit : Bool)
  | hostCompletionTimeout (tag : Nat)
  | ideCheckFailure
  | keyProg (session : Nat) (sub : SubStream) (tx k1 : Bool) (key : BitVec 256)
  | keySetGo (session : Nat) (sub : SubStream) (tx k1 : Bool)
  | keySetStop (session : Nat) (sub : SubStream) (tx k1 : Bool)
  | keySetSwitch (sub : SubStream) (k1 : Bool)
  | spdmGetVersion (tr : Transport)
  | spdmGetCapabilities (tr : Transport)
  | spdmNegotiateAlgorithms (tr : Transport)
  | spdmGetDigests (tr : Transport)
  | spdmGetCertificate (tr : Transport) (slot off len : Nat)
  | spdmChallenge (tr : Transport) (slot : Nat) (nonce : BitVec 256)
  | spdmGetMeasurements (tr : Transport) (index : Nat) (nonce : BitVec 256)
  | spdmKeyExchange (tr : Transport) (id : Nat)
  | spdmFinish (tr : Transport) (id : Nat)
  | spdmHeartbeat (tr : Transport) (id : Nat)
  | spdmKeyUpdate (tr : Transport) (id : Nat)
  | spdmEndSession (tr : Transport) (id : Nat)
  | spdmUnsupportedRequest (tr : Transport) (code : Byte)
  | doeDiscovery (index : Nat)
  | mctpControlMessage (setEid : Option Byte)
  | ringFetch (q tag : Nat)
  | ringFetchComplete (tag : Nat) (st : CplStatus) (slots : Checked (List (BitVec 512)))
  | phaseStaleReread (q tag : Nat) (data : SlotData)
  | nopEntry (q : Nat)
  | start (q : Nat) (ecc : Ecc)
  | resume (q : Nat)
  | halt (q : Nat)
  | clear (q : Nat)
  | fenceRelease (q : Nat)
  | finalStatusPending (rel : Release)
  | aggregationTimerExpiry (q : Nat)
  | adminEnable (val : Word)
  | adminDisable (val : Word)
  | adminUndefinedOpcode
  | createSq (text : HostData)
  | createCq
  | deleteQueue
  | resetQueue
  | modifySq (text : HostData)
  | pauseQueue
  | queryQueue
  | loadSegmentTable (buf : HostData)
  | deleteSegmentTable
  | configureSubchannel
  | querySubchannel
  | listDevices (w : ListRun)
  | createDevice
  | setPathSet (buf : HostData)
  | deletePathSet
  | deleteDevice
  | setLegacyFifo
  | maquetteCommit
  | qevtRead (size : Nat)
  | legFifoRead (size : Checked Nat)
  | dispatch (sch th : Nat) (ue : CtxFault)
  | threadRestore (th th' : Nat) (fault : RestoreFault)
  | textLineFetch (th tag : Nat)
  | textLineArrival (tag : Nat) (st : CplStatus) (line : Checked (BitVec 512))
  | threadStop (th : Nat)
  | autoCommit (rel : Release)
  | opNop (turn : Turn)
  | opEnd (turn : Turn)
  | opMove (turn : Turn)
  | opAdd (turn : Turn)
  | opSub (turn : Turn)
  | opMul (turn : Turn)
  | opDiv (turn : Turn)
  | opNeg (turn : Turn)
  | opAnd (turn : Turn)
  | opOr (turn : Turn)
  | opXor (turn : Turn)
  | opAndn (turn : Turn)
  | opShl (turn : Turn)
  | opShr (turn : Turn)
  | opSar (turn : Turn)
  | opCmp (turn : Turn)
  | opTst (turn : Turn)
  | opTtag (turn : Turn)
  | opGtag (turn : Turn)
  | opCvt (turn : Turn)
  | opOffs (turn : Turn)
  | opExts (turn : Turn)
  | opRdcc (turn : Turn)
  | opStat (turn : Turn)
  | opBcc (turn : Turn)
  | opBds (turn : Turn)
  | opBal (turn : Turn)
  | opLdh (turn : Turn)
  | opLdhr (turn : Turn)
  | opSth (turn : Turn)
  | opSthr (turn : Turn)
  | opLdg (turn : Turn)
  | opStg (turn : Turn)
  | hostLoadReturn (tag : Nat) (st : CplStatus) (data : Checked (BitVec 128))
  | opSegaddr (turn : Turn)
  | opDevh (turn : Turn)
  | opRpt (turn : Turn)
  | opMovb (turn : Turn)
  | opCmpb (turn : Turn)
  | opScnb (turn : Turn)
  | opFilb (turn : Turn)
  | opTas (turn : Turn)
  | opLrs (turn : Turn)
  | opScs (turn : Turn)
  | opCommit (turn : Turn)
  | opWaith (turn : Turn)
  | opWaitg (turn : Turn)
  | opRead (turn : Turn)
  | opWrite (turn : Turn)
  | opControl (turn : Turn)
  | opSense (turn : Turn)
  | opNvme (turn : Turn)
  | opScsi (turn : Turn)
  | opPmem (turn : Turn)
  | customerInstruction (turn : Turn)
  | exchangeSend (sch idx : Nat)
  | exchangeReachedDevice (x : Nat)
  | exchangeEnd (x : Nat) (ans : DevAnswer) (ecc : Ecc)
  | abortAnswered (x : Nat)
  | exchangeAbortTimeout (x : Nat)
  | escalationHardReset (x : Nat)
  | subchannelTimeout (sch : Nat)
  | timeoutSpan (sch : Nat)
  | frameReceive (quad : Nat) (fr : Frame)
  | frameMove (quad : Nat) (bad : BadFifo) (segs : List Nat)
  | frameTransmit (quad : Nat) (parityBad : Bool) (fault : FrameFault)
  | segmentAllocate (d piece : Nat) (segs : List Nat)
  | dmaChannelGrant (d : Nat)
  | dmaWriteIssue (d piece : Nat) (fault : PieceFault)
  | dmaWriteVisible (d piece : Nat)
  | dmaReadIssue (d piece tag : Nat) (seg : ReadSeg)
  | dmaReadCompletion (tag : Nat) (st : CplStatus) (data : Checked (List Byte))
  | fifoWatermarkWrite (quad : Nat) (hi4 : Option Bool) (val : Word)
  | meridianGrant (res : Nat)
  | costOverrun (sch : Nat)
  | freezeDrained
  | capacityRetest (change : Nat)
  | deadlineWatchExpiry (sch : Nat)
  | discoveryRunStart (quad port : Nat) (ids : List IdentityRead)
  | discoveryRunEnd (quad port : Nat) (found : List Finding)
  | portLinkUp (quad port : Nat) (rate : LinkRate) (lanes : List TrainedLane)
  | errCorMessage (quad port : Nat)
  | errNonfatalMessage (quad port : Nat)
  | pathFault (quad port : Nat) (kind : PathFaultKind)
  | controllerFatal (quad : Nat) (ctrl : PortCtrl)
  | transportFailure (x : Nat)
  | ghostDeath (g : Nat) (rdy0 : Bool) (pos : Option Nat)
  | nvmeAsyncEvent (quad port : Nat)
  | sasBroadcastChange (quad port : Nat)
  | deviceMemoryRequest (quad port : Nat) (req : DevMemReq)
  | connectionIdleClose (quad phy : Nat)
  | laneFault (quad lane : Nat) (code : LaneCode)
  | presenceAssert (quad port : Nat)
  | presenceDebounced (quad port : Nat) (readbackOk : Bool) (i2cOk : Bool)
  | powerDelayExpiry (quad port : Nat) (readbackOk : Bool)
  | presenceDeassert (quad : Nat) (i2c : PortTest)
  | pwrenOffDelayExpiry (quad : Nat) (pwren : PortTest)
  | nolinkRetry (quad port : Nat)
  | sgpioFrame (quad : Nat) (readbackOk : Bool)
  | mgmtPoll (quad port : Nat) (resp : Option (BitVec 24))
  | qreset (quad : Nat)
  | quadReset (quad : QuadTest)
  | sbretry (quad : Nat) (stillFaulty : BitVec 17)
  | tallyCheck
  | tallyAudit (line : Nat)
  | tallySnap
  | engineFault (cluster engine : Nat)
  | engineHang (cluster engine : Nat)
  | clusterFault (cluster : Nat)
  | clusterReset (cluster : Nat) (selfTestOk : Bool)
  | controlCompareError (block : Nat)
  | supervisorLockstepMismatch
  | plinthLockstepMismatch
  | crystalLoss
  | crystalReturn
  | boot (a b : Option (List Byte)) (start : BootTest)
  | almanacWrite
  | extend (block : HostData)
  | extendLock
  | quote (block : HostData)
  | getNonce (block : HostData)
  | flashUpdate (block image : HostData)
  | flashUpdateEnd (ok : Bool)
  | decodeLoad (block body : HostData)
  | decodeRetireTimeout
  | generationSwitch
  | plinthBadOp
  | plinthAccessRefused (requester : Nat) (write : Bool) (addr : Word)
  | tamperAssert
  | tamperRelease
  | mailboxSend (ch : Chan) (bit size : Nat) (word : Word)
  | mailboxReceive (ch : Chan) (size : Nat)
  | mailboxStatusWrite (reg : MbReg) (stat : Bool) (half : Option Bool) (val : Word)
  | ping
  | icAck (inst : IcInst) (owner : Bool)
  | icEoi (inst : IcInst)
  | icPendSet (inst : IcInst) (i : Nat) (val : Word)
  | icPendClr (inst : IcInst) (i : Nat) (val : Word)
  | icMaskSet (inst : IcInst) (i : Nat) (val : Word)
  | icMaskClr (inst : IcInst) (i : Nat) (val : Word)
  | icCntRead (inst : IcInst) (i : Nat) (owner : Bool)
  | supervisorTimerExpiry (n : Nat)
  | watchdogWrite
  | watchdogExpiry
  | clusterIdle (cluster : Nat)
  | clusterWake (cluster : Nat)
  | clusterWakeDone (cluster : Nat)
  | maxstateWrite (val : Word)
  | vcoreStep (up acked : Bool)
  | avsRetry (acked : Bool)
  | hostReferenceLoss
  | portReferenceLoss (half : Bool)
  | powerOn
  | perstNWarmReset
  | perstNDeassert
  | pwrokFall
  | railOutOfRange (f : RailFault)
  | thermalTrip
  | jtagInstruction (ir : JtagOp)
  | powerStateD0
  | memorySpaceEnableSet
  | registerReadClear (bar off size : Nat) (allBytes : Bool)
  | correctableLinkError
  | pmemReadCompletionTimeout (x : Nat)
  | hostReferenceReturn
  | portReferenceReturn (half : Bool)
  | pwrokRise
  | railReturn (rail : Rail)
  | undefinedOpcode (th : Nat)
  | privilegedOpcode (th : Nat)
  | testLogicReset
  deriving DecidableEq, Repr

end Sys2Proof
end

