-- ==== Sys2Proof/Config.lean ====
section
/-! DEFINITION. Sys2Proof/Config.lean: what one part fixes and the spec does not give as a number: fuses, keys, hashes,
signatures and random numbers (logs 7 and 8). None has a body, so no proof can lean on a value. -/

namespace Sys2Proof.Config

/-- SHA-384 of a byte string (R416 item 4), uninterpreted (log 7, DESIGN CHOICE). -/
opaque sha384 : List Byte → BitVec 384

/-- Whether an ECDSA P-384 signature verifies: key, digest, signature (R423), uninterpreted (log 7, DESIGN CHOICE). -/
opaque verify : List Byte → BitVec 384 → List Byte → Bool

/-- The signature by a private key over a byte string; the counter makes each one fresh (log 7, DESIGN CHOICE). -/
opaque signWith : List Byte → Nat → List Byte → List Byte

/-- The n-th output of Plinth's random number generator (R442) (log 8, DESIGN CHOICE). -/
opaque random : Nat → BitVec 256

/-- The Ewesor signing keys held in ROM, by KEYID (R421), and the recovery key (R447 step 2). -/
opaque romKey : Nat → List Byte
opaque recoveryKey : List Byte

/-- The fuses (R418): the identity seed, the serial number and the Ewesor signature. -/
opaque seed : BitVec 384
opaque serial : BitVec 64
opaque fuseSignature : List Byte

/-- The derivation of the identity key pair from a seed (R418), private and public: the same at every start. -/
opaque deriveSecret : BitVec 384 → List Byte
opaque deriveKey : BitVec 384 → List Byte

/-- The identity public key. -/
def identityKey : List Byte := deriveKey seed

/-- The signature by the identity key over a byte string (R418, R443). -/
def sign (n : Nat) (b : List Byte) : List Byte := signWith (deriveSecret seed) n b

/-- The Ewesor root certificate, and in ROM the stepping intermediate certificate and the template of the device certificate (R418). -/
opaque rootCert : List Byte
opaque intermediateCert : List Byte
opaque certTemplate : List Byte

/-- The device certificate that a template gives with a serial number, a public key and a signature (R418). -/
opaque deviceCert : List Byte → BitVec 64 → List Byte → List Byte → List Byte

/-- The certificate chain of SPDM slot 0 (R418). -/
def chain0 : List Byte :=
  rootCert ++ intermediateCert ++ deviceCert certTemplate serial identityKey (fuseSignature.take 96)

/-- The digest of the Plinth ROM (R444 index 1). -/
opaque romDigest : BitVec 384

/-- How far a background flash write is after a time in ns (R447, R452): whether it erases (0), programs (1) or verifies (2), and the KiB
programmed; the spec gives no times (log 77, DESIGN CHOICE). -/
opaque flashStage : Nat → Nat
opaque flashKib : Nat → Nat

/-- ROM version of BOOT-START (R434). -/
opaque romVersion : BitVec 32

/-- The supervisor timers that Obulo arms when it starts or when one has acted (R479), each with its time in ns: what Obulo times is its
own (log 54, DESIGN CHOICE). -/
opaque supTimer : Nat → Nat → Option Nat

/-- Whether Plinth's random number generator fails its health test at a draw, and whether a word of Plinth SRAM reads back uncorrectable
(R471): events of the hardware that no command carries (log 8, DESIGN CHOICE). -/
opaque rngFails : Nat → Bool
opaque sramUpset : Nat → Bool

/-- Whether a counter of the Tally reads back with a single-bit error (R400): no command carries it (log 8, DESIGN CHOICE). -/
opaque tallyUpset : Nat → Bool

/-- The body of an SPDM response whose layout the SPDM standard gives and the spec does not (log 12, PRESUMED). -/
opaque spdmBody : Nat → Byte → List Byte

/-- The MCTP control response body, likewise (log 12, PRESUMED). -/
opaque mctpBody : Nat → List Byte

/-- SQHD of an entry whose submission queue is gone: the spec gives no consumption index then (log 15, DESIGN CHOICE). -/
opaque absentSqhd : Nat → BitVec 17

/-- Whether an NVMe namespace is ready when TEST-READY asks (R164): the device decides, and no command carries it (log 16, DESIGN CHOICE). -/
opaque nsReady : Nat → Bool

/-- The logical object position that a quad reads from a sequential device on its own account (R408): the device decides, and no
command carries it (log 18, DESIGN CHOICE). None when the read fails. -/
opaque readPosition : Nat → Option Nat

/-- The number of I/O queue pairs above one that a controller offers (R360 step 3): the device decides (log 20, DESIGN CHOICE). -/
opaque pairOffer : Nat → Nat

/-- The ACL field of a controller, by quad, port and CNTLID: how many Abort commands above one it takes at once (R366): the device decides
(log 20, DESIGN CHOICE). -/
opaque abortLimit : Nat → Nat → Word → Nat

/-- Whether a trust anchor signed the top certificate of a device's chain, and the chain holds under it (R375, R426); the key of its leaf;
and the digest that the device signs over a nonce and its measurements (log 12, PRESUMED). -/
opaque anchored : List Byte → List Byte → Bool
opaque leafKey : List Byte → List Byte
opaque measDigest : BitVec 256 → List Byte → BitVec 384

/-- What a byte of a quad's NVMe queue RAM reads as where the device has written none: the spec gives the places of the quad's entries
nowhere (R358) (log 71, DESIGN CHOICE). -/
opaque queueRam : Nat → Nat → Byte

/-- The faulted sideband of a quad that still fails when a register write tests it, in the layout of PQ_SB_STAT (R383): no command carries
it (log 33, DESIGN CHOICE). -/
opaque stillFaulty : Nat → BitVec 17

/-- Whether a word of the transfer buffer behind a QUERY_SUBCHANNEL reads back upset, and whether ECC can correct it (R289): an event of
the hardware that no operand of the command carries (log 67). -/
opaque bufferUpset : Nat → Option Bool

/-- Whether a word of the global scratchpad that a write keeps in part reads back upset, and whether ECC can correct it (R196): an event of
the hardware that no operand carries (log 8). -/
opaque scratchUpset : Nat → Option Bool

/-- The Max Payload Size that the link of a root port of a quad carries (R170). -/
opaque portMps : Nat → Nat → Nat

/-- Whether the device of an exchange leaves its abort at a function reset unanswered for 50 ms (R60 step 3): the device decides, and no
command carries it (log 73, DESIGN CHOICE). -/
opaque abortUnanswered : Nat → Nat → Bool

end Sys2Proof.Config
end

