-- ==== Sys2Proof/Machine/State.lean ====
section
/-! DEFINITION. Sys2Proof/Machine/State.lean: the state of the RLS6128 as plain data, and the state right after
power-on (R493 step 1). The fields follow the chapters of the spec; INVENTORY.md names the rule of each. -/

namespace Sys2Proof.Machine

/-- A finite map from numbers, its keys strictly rising. -/
abbrev AMap (α : Type) := List (Nat × α)

/-! ## The host link (02) -/

/-- What the endpoint serves: nothing before its release (R23), the recovery subset (R59) or everything. -/
inductive EpMode where
  | held | recovery | normal
  deriving DecidableEq, Repr

structure VecEntry where
  addr : Word
  data : BitVec 32
  masked : Bool
  deriving DecidableEq, Repr

/-- The AER bits that R65 and R56 set. -/
structure Aer where
  ur : Bool
  poisoned : Bool
  cplTimeout : Bool
  correctable : Bool
  ide : Bool
  deriving DecidableEq, Repr

structure IdeKey where
  sub : SubStream
  tx : Bool
  k1 : Bool
  key : BitVec 256
  active : Bool
  deriving DecidableEq, Repr

structure Ide where
  secure : Bool
  keys : List IdeKey
  setK1 : List (SubStream × Bool)
  discarding : Bool
  deriving DecidableEq, Repr

structure SpdmConn where
  version : Bool
  caps : Bool
  algs : Bool
  deriving DecidableEq, Repr

structure SpdmSession where
  id : Nat
  tr : Transport
  finished : Bool
  updates : Nat
  deriving DecidableEq, Repr

/-- What a host read was made for (R534): `n` ring slots from slot `pos` of a queue's ring on, a line of program text, a load of a
thread, or `len` bytes of a piece of a descriptor. -/
inductive ReadUnit where
  | ring (q pos n : Nat)
  | text (th line : Nat)
  | load (th id : Nat)
  | dma (d piece off len : Nat)
  deriving DecidableEq, Repr

/-- The capability structures of configuration space (R31). -/
inductive CapName where
  | powerManagement | pciExpress | msix | aer | serialNumber | secondaryPcie | dataLinkFeature | phy16 | phy32 | phy64
  | laneMargining | pasid | device3 | readinessTime | flitLogging | doe | ide
  deriving DecidableEq, Repr

/-- A capability structure: its configuration offset and the offset that its link names, 0 at the end of a list (R31). -/
structure Cap where
  name : CapName
  off : Nat
  next : Nat
  deriving DecidableEq, Repr

/-- The features whose capability bits R29 fixes; a number stands where R29 gives one. `rates` are the PCIe generations of
the rates that the link keeps outside training. -/
structure Features where
  rates : List Nat
  widths : List Nat
  flitMode : Bool
  maxPayload : Nat
  tag10 : Bool
  tag14 : Bool
  pasidWidth : Nat
  pasidExec : Bool
  pasidPriv : Bool
  msixVectors : Nat
  msi : Bool
  intx : Bool
  aer : Bool
  serialNumber : Bool
  doeInstances : Nat
  ideStreams : Nat
  selectiveIde : Bool
  flr : Bool
  drs : Bool
  frs : Bool
  laneMargining : Bool
  d1 : Bool
  d2 : Bool
  pme : Bool
  aspmL0s : Bool
  aspmL1 : Bool
  l1Substates : Bool
  l0p : Bool
  sriov : Bool
  ats : Bool
  pri : Bool
  resizableBar : Bool
  ptm : Bool
  tph : Bool
  ltr : Bool
  idOrdering : Bool
  noSnoop : Bool
  timeoutRanges : List Char
  deriving DecidableEq, Repr

/-- The Readiness Time Reporting capability (R58): times in ms. -/
structure Readiness where
  valid : Bool
  immediate : Bool
  resetTime : Nat
  dlUpTime : Nat
  flrTime : Nat
  d3hotToD0 : Nat
  deriving DecidableEq, Repr

/-- Configuration space (R29 to R31, R36, R58, R64): the header, the BAR registers as dwords, the capability structures in link
order, the feature bits and the readiness times. The Subsystem IDs stand in `Link`. -/
structure CfgSpace where
  vendor : BitVec 16
  device : BitVec 16
  revision : Byte
  classCode : BitVec 24
  headerType : Byte
  intPin : Byte
  bars : List (BitVec 32)
  romBar : BitVec 32
  caps : List Cap
  features : Features
  readiness : Readiness
  noSoftReset : Bool
  deriving DecidableEq, Repr

structure Link where
  ep : EpMode
  ready : Bool
  linkUp : Bool
  rate : Nat
  width : Nat
  flit : Bool
  tagw : BitVec 2
  bme : Bool
  mse : Bool
  d3 : Bool
  rdLimit : Nat
  ideReq : Bool
  pasidEn : Bool
  relaxed : Bool
  mps : Nat
  mrrs : Nat
  ssvid : BitVec 16
  ssid : BitVec 16
  msixEn : Bool
  fmask : Bool
  vecs : AMap VecEntry
  pba : List Nat
  aer : Aer
  urSent : Nat
  cplErr : Nat
  cplTimeout : Nat
  poisonRx : Nat
  ide : Ide
  spdmDoe : SpdmConn
  spdmMctp : SpdmConn
  sessions : List SpdmSession
  eid : Byte
  reads : AMap ReadUnit
  noIssue : List Nat
  cfg : CfgSpace
  almPage : BitVec 3
  deriving DecidableEq, Repr

/-! ## Queues (03) -/

/-- The states of R91; ABSENT is the absence of the record. -/
inductive QState where
  | active | paused | error
  deriving DecidableEq, Repr

/-- A ring block that is being read (R81): its first slot, its slots, how many of them have been asked for, and those that have
arrived, by slot. -/
structure Block where
  start : Nat
  n : Nat
  asked : Nat
  got : AMap (BitVec 512)
  deriving DecidableEq, Repr

/-- A submission queue. Positions count modulo 2 × size; `past` is how many entries beyond T have been taken (R83), `taken`
holds entries taken and not yet presented, `reading` the tags of ring reads in flight for `block`, `ahead` whether the manager may
look beyond T before the next doorbell, `bell` the time of the last doorbell or push (R326), `accepts` the effective acceptance
times of R335, the latest first. -/
structure SQ where
  log2 : Nat
  base : Word
  pasid : Option (BitVec 20)
  cqid : Nat
  cls : Nat
  push : Bool
  deadline : Nat
  rate : Nat
  burst : Nat
  cost : Nat
  textStb : Nat
  textKib : Nat
  text : List Byte
  st : QState
  cause : Nat
  latched : Nat
  t : Nat
  c : Nat
  past : Nat
  tries : Nat
  staleDue : Time
  capture : AMap (BitVec 512)
  taken : List (BitVec 512)
  fenceOk : Bool
  reading : List Nat
  block : Option Block
  ahead : Bool
  bell : Time
  vclock : Time
  accepts : List Time
  deriving DecidableEq, Repr

/-- A completion that is not carried by a context: an admin, reject or NOP completion (R79). -/
structure Comp where
  ctype : Nat
  reason : Nat
  cid : BitVec 16
  sch : Nat
  sqid : Nat
  status : Nat
  result : Word
  time : Time
  cls : Nat
  deriving DecidableEq, Repr

/-- One place of a held list (R98, R99): a subchannel, or a completion of the overflow area. -/
inductive Held where
  | sub (sch : Nat)
  | comp (c : Comp)
  deriving DecidableEq, Repr

structure CQ where
  log2 : Nat
  base : Word
  pasid : Option (BitVec 20)
  legacy : Bool
  ien : Bool
  vector : Nat
  aggCount : Nat
  aggTime : Nat
  st : QState
  cause : Nat
  latched : Nat
  head : Nat
  tail : Nat
  held : List Held
  unann : Nat
  annBg : Bool
  annDl : Time
  aggDue : Option Time
  deriving DecidableEq, Repr

structure QEvent where
  qid : Nat
  full : Bool
  cause : Nat
  index : Nat
  wrap : Bool
  deriving DecidableEq, Repr

/-- An entry of the legacy status FIFO (R117), without its TAG. -/
structure LegEntry where
  sch : Nat
  dstat : Byte
  cstat : BitVec 16
  cls : Nat
  inter : Bool
  cid : BitVec 16
  deriving DecidableEq, Repr

/-- The plan of R345: what a passed Maquette installs, and the command that it completes. -/
inductive Plan where
  | create (q : Nat) (r : SQ)
  | modify (q : Nat) (r : SQ)
  | remove
  deriving DecidableEq, Repr

structure Commit where
  plan : Plan
  cid : Option (BitVec 16)
  deriving DecidableEq, Repr

structure Queues where
  sqs : AMap SQ
  cqs : AMap CQ
  qevt : List QEvent
  qevtLost : Bool
  pushDiscard : Nat
  dbDiscard : Nat
  captureFallback : Nat
  ringFull : Nat
  admEnable : Bool
  admReady : Bool
  admSqLog2 : Nat
  admCqLog2 : Nat
  admSqBase : Word
  admCqBase : Word
  admWait : Option (BitVec 512)
  legOn : Bool
  leg : List LegEntry
  waiting : List (Nat × Held)
  gone : AMap SQ
  deriving DecidableEq, Repr

/-! ## Subchannels and programs (04, 05) -/

inductive SchState where
  | disabled | idle | startPending | active | waiting | suspended | statusPending | haltPending | clearPending
  deriving DecidableEq, Repr

/-- The context of R121. HNEXT, HEND, DNEXT and DEND are computed from the held list and the dispatch queue. `finTime` and
`istTime` are the times that dword 7 of R79 asks for: when the final status became pending, and when the latest intermediate
status was made. `lpd` is the quad and port of the path that LPATH names. -/
structure Ctx where
  state : SchState
  cls : Nat
  dreq : Bool
  held : Bool
  resreq : Bool
  haltreq : Bool
  clrreq : Bool
  tmout : Bool
  disend : Bool
  cid : BitVec 16
  sqid : Nat
  cqid : Nat
  stb : Nat
  sqv : Bool
  cqv : Bool
  stv : Bool
  pset : Nat
  psv : Bool
  pgen : BitVec 16
  lpath : BitVec 3
  lpd : Option (Nat × Nat)
  ic : Word
  tmoDef : BitVec 32
  tmoCur : BitVec 32
  expiry : Time
  elaps : BitVec 16
  dstat : Byte
  cstat : BitVec 16
  pchk : Byte
  residual : BitVec 32
  iscnt : BitVec 16
  istot : BitVec 16
  gen : BitVec 32
  deadline : Time
  xout : Nat
  budget : BitVec 32
  cc : BitVec 4
  ds : Byte
  kpasid : Option (BitVec 20)
  f : List TWord
  finTime : Time
  istTime : Time
  deriving DecidableEq, Repr

inductive StoreKind where
  | hostSlot | hostRaw | plain | setView | clearView
  deriving DecidableEq, Repr

/-- An entry of the store buffer (R223). `addr` is a host address, or a word index of the global scratchpad. -/
structure Store where
  kind : StoreKind
  addr : Nat
  pasid : Option (BitVec 20)
  val : TWord
  deriving DecidableEq, Repr

inductive XOp where
  | read | write | control | sense | nvme | scsi | pmem
  deriving DecidableEq, Repr

/-- An extent of a descriptor (R296). -/
structure Extent where
  host : Bool
  addr : Word
  pasid : Option (BitVec 20)
  len : Nat
  skip : Bool
  deriving DecidableEq, Repr

/-- A piece waits to be sent (`redrive`: once more after a failed exchange, on the given path when the path stays up), is an
exchange, has ended with a device status and a count of bytes moved, or has ended with none (abort, loss, no path). -/
inductive PieceSt where
  | unsent (redrive : Bool) (samePath : Option Nat)
  | sent (x : Nat)
  | ended (dstat : Byte) (moved : Nat)
  | cut
  deriving DecidableEq, Repr

/-- A piece of a command that goes to the device as one exchange (R166). -/
structure Piece where
  off : Nat
  len : Nat
  blk : Nat
  nblk : Nat
  st : PieceSt
  deriving DecidableEq, Repr

/-- A command of a program; `aborted`: the abort of a CLEAR or timeout has ended it (R181). -/
structure Cmd where
  no : Nat
  op : XOp
  code : Nat
  chc : Bool
  ist : Bool
  hlf : Bool
  count : Nat
  toMem : Bool
  blk : Word
  entry : BitVec 512
  cdbLen : Nat
  ext : List Extent
  pieces : List Piece
  fails : List (Nat × Time)
  p0 : Option Nat
  half : Bool
  full : Bool
  poison : Bool
  ended : Bool
  aborted : Bool
  deriving DecidableEq, Repr

/-- What a program without a thread waits for (R124): its dispatch, its commands (R175), a RESUME (R129), an exchange for its command (R16),
or, once it has executed END, that XOUT is 0 (R188). -/
inductive Wait where
  | dispatch | commands | spn | room | fin
  deriving DecidableEq, Repr

/-- What ends a program early: the number of the breaking command and what the FINAL carries (R176, R187). -/
structure Break where
  no : Nat
  dstat : Byte
  residual : BitVec 32
  deriving DecidableEq, Repr

/-- What the 6128 keeps for a program that runs, beside its context: the queue and relative deadline of its START, its wait,
its commands, the break, whether it has ended, whether the SPN at IC is passed (R178), its held sense (R171), the stores that
END holds until XOUT is 0 (R188), its cost and demotion (R335), whether its host-access record is written (R65) and its
deadline watch counted (R479). -/
structure Prog where
  sq : Nat
  rel : Nat
  wait : Wait
  cmds : List Cmd
  nextNo : Nat
  brk : Option Break
  ending : Bool
  resumed : Bool
  sense : List Byte
  senseSeg : Option Nat
  stores : List Store
  cost : Nat
  bg : Bool
  demoted : Bool
  recorded : Bool
  missed : Bool
  deriving DecidableEq, Repr

/-- Where a device answers on a port through which it was found (R145). -/
structure DevTarget where
  quad : Nat
  port : Nat
  target : Word
  deriving DecidableEq, Repr

/-- A device-table entry (R145): `lunid` and `barLen` complete its targets. -/
structure DevEntry where
  disc : Nat
  discId : Word
  kind : Nat
  seq : Bool
  targets : List DevTarget
  lunid : Word
  barLen : Nat
  deriving DecidableEq, Repr

structure PathDesc where
  quad : Nat
  port : Nat
  pref : Bool
  deriving DecidableEq, Repr

structure PathSet where
  gen : BitVec 16
  dev : Nat
  paths : List PathDesc
  deriving DecidableEq, Repr

structure Subch where
  ctx : AMap Ctx
  prog : AMap Prog
  timeouts : Nat
  abortLost : Nat
  rejBusy : Nat
  rejDisabled : Nat
  writtenOff : Nat
  devs : AMap DevEntry
  psets : AMap PathSet
  deriving DecidableEq, Repr

/-! ## Sirax threads (06, 07, 08) -/

/-- A segment descriptor (R207); `view` is the VIEW of R317. -/
structure Seg where
  base : Word
  limit : Word
  pasid : BitVec 20
  pv : Bool
  type : BitVec 4
  r : Bool
  w : Bool
  x : Bool
  deriving DecidableEq, Repr

/-- A place that a bundle writes: a frame word, CC, or a word of the local window through a view (0 plain, 1 set, 2 clear). -/
inductive Loc where
  | frame (n : Nat)
  | cc
  | win (w view : Nat)
  deriving DecidableEq, Repr

/-- A result not yet visible (R218): readable from the bundle numbered `at_` on. -/
structure PendW where
  loc : Loc
  val : TWord
  at_ : Nat
  deriving DecidableEq, Repr

/-- An outstanding load (R221): the frame word it loads, or 64 and 65 for a unit that a block-repeat step reads through BLK0
and BLK1 (R257). `got` holds the return buffer's word; `fail` a failure under R251. -/
structure Load where
  id : Nat
  host : Bool
  dst : Nat
  addr : Nat
  pasid : Option (BitVec 20)
  raw : Bool
  got : Option TWord
  fail : Bool
  deriving DecidableEq, Repr

/-- A line of program text in the line buffer of a thread (R154). -/
structure Line where
  addr : Nat
  data : BitVec 512
  deriving DecidableEq, Repr

/-- An element of a data-chained group that is being gathered (R173, R174). -/
structure GElem where
  op : XOp
  handle : Word
  dir : Bool
  count : Nat
  blk : Word
  ext : Extent
  deriving DecidableEq, Repr

/-- A thread that runs a program (R203). `cur` is the bundle of a repetition or block run, decoded once; `issue` numbers the
bundles for the distances; `since` counts those since the last commit point (R401); `stat0` is what STAT reads (R241); `group`
holds a data-chained group so far; `replay` and `replayTo` are the generation items of R282. -/
structure Thread where
  sch : Nat
  ic : Word
  cc : BitVec 4
  ds : Byte
  rptAct : Bool
  rptI : Bool
  rptRem : Nat
  rptIdx : Nat
  blk0 : TWord
  blk1 : TWord
  blk2 : TWord
  pbr : Option Word
  delay : Bool
  stb : Nat
  budget : BitVec 32
  f : List TWord
  win : AMap TWord
  sbuf : List Store
  loads : List Load
  pend : List PendW
  issue : Nat
  since : Nat
  resv : Option Nat
  gen : BitVec 32
  lines : List Line
  group : List GElem
  stat0 : Word
  spnOk : Bool
  cur : Option (BitVec 128)
  replay : Bool
  replayTo : BitVec 32
  deriving DecidableEq, Repr

/-- The own effect of a commit point (R224, R226): none, a TAS or an SCS on a word of the global scratchpad, the issue of a transfer
command. -/
inductive CkEffect where
  | none
  | tas (w : Nat)
  | scs (w : Nat)
  | issue (no : Nat)
  deriving DecidableEq, Repr

/-- A checkpoint record (R226): the thread with its outstanding loads, the buffered stores that the commit point releases, its own
effect and the done flag, which the boundary sets once it has performed both. -/
structure Ckpt where
  th : Thread
  stores : List Store
  effect : CkEffect
  done : Bool
  deriving DecidableEq, Repr

/-- The two checkpoint records of a thread (R226): `valid` names the valid one. -/
structure CkPair where
  valid : Bool
  rec0 : Option Ckpt
  rec1 : Option Ckpt
  deriving DecidableEq, Repr

structure DecEntry where
  nops : Nat
  rptok : Bool
  ccmode : Nat
  nstep : Nat
  rtag : BitVec 4
  maskA : BitVec 16
  maskB : BitVec 16
  name : BitVec 48
  steps : List (BitVec 32)
  deriving DecidableEq, Repr

structure DecLoad where
  entries : AMap DecEntry
  body : List Byte
  due : Time
  deriving DecidableEq, Repr

/-- The Sirax side. `recent` holds, for each engine, the threads of its last three issues, the latest first (R205); `lastIssue` the time of
its last issue, and `readyAt`, for each thread, since when it has what it waited for (R402); `micro` the thread whose routine its microsequencer runs, with the cycles left (R275). -/
structure Sirax where
  segTabs : AMap (List Seg)
  threads : AMap Thread
  ckpt : AMap CkPair
  stopped : AMap Thread
  recent : AMap (List Nat)
  lastIssue : AMap Time
  readyAt : AMap Time
  micro : AMap (Nat × Nat)
  gs : AMap TWord
  bank0 : AMap DecEntry
  bank1 : AMap DecEntry
  body0 : List Byte
  body1 : List Byte
  bank : Bool
  retiring : Bool
  gen : BitVec 32
  fixed : Bool
  loads : Nat
  refused : Nat
  unloaded : Nat
  load : Option DecLoad
  deriving DecidableEq, Repr

/-! ## Data movement (09) -/

/-- The owner of a segment (R290): the exchange `x`, 4096 × quad + index, with the piece of a command that it carries; held sense;
a zero block of an exchange to come; channel S. -/
inductive SegOwner where
  | xfer (sch cmd pc x : Nat)
  | sense (sch : Nat)
  | zero (sch cmd : Nat)
  | sup
  deriving DecidableEq, Repr

/-- A HELD segment (R290): the 512-byte piece it holds, its direction, its bytes, which of them are valid, and the poison
flag of each buffer word. -/
structure HeldSeg where
  owner : SegOwner
  piece : Nat
  toMem : Bool
  data : List Byte
  mask : BitVec 512
  poison : BitVec 8
  deriving DecidableEq, Repr

/-- A 512-byte piece in the hands of a DMA engine, of the exchange `x` of piece `pc` of the command. A write piece is ready since a
time, has `asked` of its bytes in requests, and is issued once all are; a read piece fills with the bytes asked for and received. -/
structure DmaPiece where
  idx : Nat
  pc : Nat
  x : Nat
  issued : Bool
  asked : Nat
  got : Nat
  since : Time
  deriving DecidableEq, Repr

/-- A DMA descriptor (R296). `lo` is the offset of its range in the command's data; `mayFrom` is the moment since when the piece that it asks
for next may be filled (R326); `spans` are the offsets done, from which LOW follows; `moved` are the offsets done that were not cancelled, `badWords` the words of the global scratchpad that took poisoned bytes. -/
structure Desc where
  sch : Nat
  cmd : Nat
  rd : Bool
  lo : Nat
  count : Nat
  done : Nat
  moved : List (Nat × Nat)
  spans : List (Nat × Nat)
  halfEn : Bool
  fullEn : Bool
  poison : Bool
  badWords : List Nat
  chan : Bool
  pieces : List DmaPiece
  mayFrom : Time
  deriving DecidableEq, Repr

/-- A FIFO word with its sideband (R305): 64 data bytes; TYPE 0 none, 1 HEAD, 2 DATA, 3 LAST. -/
structure FifoWord where
  type : BitVec 2
  vb : BitVec 6
  p : Bool
  par : BitVec 16
  data : List Byte
  deriving DecidableEq, Repr

/-- A frame in a FIFO: its words, and what its header says. -/
structure RxFrame where
  fr : Frame
  words : List FifoWord
  fstat : Nat
  time : Time
  deriving DecidableEq, Repr

/-- The two banks of a FIFO (R304, R309): the words in the bank that the writer fills, those left in the bank that the reader
empties, and which bank the writer fills. -/
structure Banks where
  wr : Nat
  left : Nat
  bank : Bool
  deriving DecidableEq, Repr

/-- The FIFOs of a quad (R304, R309): the frames of each side and its banks, the stop state, whether receive is stopped in
band, and the FIFO words that the quad lets its link partner send (R311). -/
structure Fifo where
  rx : List RxFrame
  rxB : Banks
  stop : Bool
  inband : Bool
  credit : Nat
  stops : Nat
  tx : List RxFrame
  txB : Banks
  high : Nat
  low : Nat
  txFaults : List Time
  deriving DecidableEq, Repr

/-- A device's read of an aperture that waits (R294): byte `off` of exchange `x`'s data on, how the words that it passes through are
delivered, and whether its bytes are there, so that it waits for EGRESS (R325). -/
structure DevRead where
  x : Nat
  port : Nat
  addr : Word
  off : Nat
  len : Nat
  fault : FrameFault
  due : Bool
  deriving DecidableEq, Repr

/-- A descriptor of the supervisor on channel S (R296, R302): its range, the bytes done, and POISON. -/
structure SupDesc where
  ext : Extent
  done : Nat
  poison : Bool
  deriving DecidableEq, Repr

/-- Data movement. `flowN` shows the pins FLOW_N that are driven low (R312). -/
structure Dma where
  segs : AMap HeldSeg
  descs : AMap Desc
  nextDesc : Nat
  sRd : Option SupDesc
  sWr : Option SupDesc
  fifos : List Fifo
  devReads : List DevRead
  flowEn : BitVec 16
  flowN : BitVec 16
  fifoParity : Nat
  tbEccUe : Nat
  fifoOverrun : Nat
  freeRefused : Nat
  deriving DecidableEq, Repr

/-! ## Meridian (10) -/

/-- Who asks for a resource: a program's dispatch, a ring fetch, a write or read descriptor, a program's exchange, the supervisor (1)
and Plinth (0) for themselves, by their requester index (R11), the completions of a queue, the message of a vector, the host writes of
a program's cluster, or the data that an exchange owes its device (R325). -/
inductive ReqWho where
  | dispatch (sch : Nat)
  | ring (q : Nat)
  | write (d : Nat)
  | read (d : Nat)
  | exch (sch : Nat)
  | own (rix : Nat)
  | comp (q : Nat)
  | msix (v : Nat)
  | store (sch : Nat)
  | answer (x : Nat)
  deriving DecidableEq, Repr

/-- A request (R326, R329): its resource, key, requester index, subchannel, age and whether it is granted. -/
structure Req where
  res : Nat
  bg : Bool
  dl : Time
  rix : Nat
  sch : Nat
  seq : Nat
  who : ReqWho
  granted : Bool
  deriving DecidableEq, Repr

/-- Who waits at a bound: a text fetch or a load of a thread, a ring queue's reread, a descriptor for a channel or for the segments of
a piece, the front frame of a quad, a device's write to an exchange's aperture, held sense or a zero block of a program, channel S, or
the loads of a thread that is to be restored. -/
inductive WaitWho where
  | text (th : Nat)
  | load (th : Nat)
  | reread (q : Nat)
  | chan (d : Nat)
  | seg (d piece : Nat)
  | frame (quad : Nat)
  | dev (x : Nat)
  | own (sch : Nat)
  | sup
  | restore (th : Nat)
  deriving DecidableEq, Repr

/-- A waiter at a bound (R16, R17): its bound, its class, the key of R329, its requester index and subchannel, and its age. -/
structure Waiter where
  bound : Nat
  cls : Nat
  bg : Bool
  dl : Time
  rix : Nat
  sch : Nat
  seq : Nat
  who : WaitWho
  deriving DecidableEq, Repr

/-- The demand that one queue of classes 0 to 6 places on the schedule (R341). -/
structure Demand where
  cls : Nat
  deadline : Nat
  rate : Nat
  burst : Nat
  cost : Nat
  textKib : Nat
  deriving DecidableEq, Repr

/-- A refusal of the Maquette test (R344). -/
structure Refuse where
  code : Nat
  kind : Nat
  index : Nat
  ppm : Nat
  deriving DecidableEq, Repr

structure ClassRec where
  budget : Nat
  hbr : Nat
  hbw : Nat
  eb : Nat
  resThr : Nat
  resTag : Nat
  resRd : Nat
  resWr : Nat
  resExch : Nat
  resSeg : Nat
  deriving DecidableEq, Repr

structure Sched where
  admitted : BitVec 8
  engCap : Nat
  hlCap : Nat
  egrCap : Nat
  expClusters : BitVec 16
  textArea : Nat
  expWin : Nat
  budget7 : Nat
  cls : List ClassRec
  deriving DecidableEq, Repr

structure Meridian where
  reqs : List Req
  nextReq : Nat
  waits : List Waiter
  sched : Sched
  boot : Option (List Byte)
  valid : Bool
  degraded : Bool
  failKind : Nat
  failIndex : Nat
  commit : Option Commit
  leaving : List Demand
  retests : List Nat
  lastCode : Nat
  lastKind : Nat
  lastIndex : Nat
  gen : Nat
  frzEng : Bool
  frzRd : Bool
  frzWr : Bool
  frzEgr : BitVec 32
  drained : Bool
  policed : Nat
  overrun : Nat
  refused : Nat
  commits : Nat
  passed : Bool
  deriving DecidableEq, Repr

/-! ## Quads and devices (11) -/

structure QuadRec where
  mode : Nat
  flags : BitVec 6
  rateCap : Nat
  pmemBar : Nat
  pwrDelay : Nat
  high : Nat
  low : Nat
  pins : List Word
  deriving DecidableEq, Repr

/-- An NVMe controller of a port (R360): its CNTLID, the I/O queue pairs that it offers, and those that it has. -/
structure Ctrl where
  id : Word
  offer : Nat
  pairs : Nat
  deriving DecidableEq, Repr

/-- What a run has read at a port: the device, and whether its form is SPDM-SIGNED (R374 to R376). -/
structure PortId where
  kind : Nat
  target : Word
  func : Nat
  signed : Bool
  payload : List Byte
  deriving DecidableEq, Repr

/-- A port of a quad. `ids` are the identities that the run in progress has read. `pm` says that its root port has ASPM L1 enabled, or its
phys slumber, since its link came up (R386); `used` is the time of its last frame; `expander` says that the last discovery run found an
expander there (R363, R367). -/
structure Port where
  st : BitVec 2
  rate : Nat
  width : Nat
  pinned : Bool
  devs : Nat
  dgen : BitVec 32
  present : Bool
  debounce : Option Time
  pwren : Bool
  perst : Bool
  powerDue : Option Time
  offDue : Option Time
  retryDue : Option Time
  pollDue : Option Time
  running : Bool
  rerun : Bool
  ids : List PortId
  ctrls : List Ctrl
  unlisted : Nat
  i2cOpen : Bool
  mgmt : BitVec 25
  pm : Bool
  used : Time
  expander : Bool
  deriving DecidableEq, Repr

/-- How the lanes of a port are powered (R488). -/
inductive LanePower where
  | down | detecting | active | resting
  deriving DecidableEq, Repr

/-- A lane or phy: its code and corrections of R379, whether it carries the link, whether its phy stays down for its rate (R356), and the
SAS address that it learnt (R364). -/
structure Lane where
  code : BitVec 4
  polinv : Bool
  rev : Bool
  inuse : Bool
  off : Bool
  addr : Word
  deriving DecidableEq, Repr

/-- A lane with nothing to report. -/
def Lane.reset : Lane := ⟨0, false, false, false, false, 0⟩

structure Conn where
  phy : Nat
  target : Word
  pinned : Bool
  idleDue : Option Time
  deriving DecidableEq, Repr

structure Quad where
  cfg : QuadRec
  ports : List Port
  lanes : List Lane
  pwrenF : BitVec 4
  perstF : BitVec 4
  i2cF : BitVec 4
  nolinkF : BitVec 4
  sgpioF : Bool
  sgpioDue : Option Time
  locate : BitVec 4
  fault : BitVec 4
  linkDown : Nat
  corMsg : Nat
  devUr : Nat
  escalate : Nat
  resetReq : Bool
  conns : List Conn
  deriving DecidableEq, Repr

/-- Why a discovery run left a path DOWN, where the spec names a reason (R376, R377). -/
inductive PathWhy where
  | none | attest | uidChanged
  deriving DecidableEq, Repr

/-- A path entry of a discovery record (R371), with the path state of R377. `lost` says that the path went DOWN since the last run of its
port; `func` is the function of a PMEM endpoint. -/
structure DiscPath where
  quad : Nat
  port : Nat
  up : Bool
  lost : Bool
  func : Nat
  rate : Nat
  target : Word
  why : PathWhy
  deriving DecidableEq, Repr

structure DiscRec where
  dgen : BitVec 32
  kind : Nat
  seq : Bool
  pi : Bool
  pdt : Byte
  reason : Nat
  uid : BitVec 128
  nqn : List Byte
  nblocks : Word
  blksize : Nat
  maxxfer : Nat
  maxblk : Nat
  dev : Option Nat
  lunid : Word
  fwrev : Word
  model : BitVec 320
  almSeq : BitVec 32
  barLen : Nat
  paths : List DiscPath
  deriving DecidableEq, Repr

/-- `queued`: the exchange is held and its command waits for room at the device (R16, bounds 38 and 39). -/
inductive ExSt where
  | queued | sent | reached | aborting | lost
  deriving DecidableEq, Repr

/-- A device exchange, keyed by 4096 × quad + index: the piece of the command it carries, the key of its request (R329), its path, its block range, what the
device's evidence says (R392), the abort and escalation timers (R367), whether its abort serves a redrive (R405), and the bytes
sent to the device; `ctrl` is its target or controller, `abortCmd` says that an Abort command for it is outstanding there: one that is
being aborted without a timer waits to send it (R366). `kind` is that of its device when it was placed. An exchange that a resend has
replaced carries no piece any more. -/
structure Exch where
  sch : Nat
  cmd : Nat
  pc : Nat
  quad : Nat
  port : Nat
  path : Nat
  pgen : BitVec 16
  dev : Nat
  kind : Nat
  pair : Nat
  st : ExSt
  abortDue : Option Time
  escDue : Option Time
  redrive : Bool
  lo : Nat
  hi : Nat
  sentOff : Nat
  bg : Bool
  dl : Time
  ctrl : Word
  deriving DecidableEq, Repr

/-- An Abort command that is outstanding at an NVMe controller, for the exchange `x` (R366). -/
structure AbortCmd where
  x : Nat
  quad : Nat
  port : Nat
  ctrl : Word
  deriving DecidableEq, Repr

/-- A ghost (R407): the device, path and block range, the piece whose redrive it does not hold back, its exchange, the device's discovery
record, and the time of its death;
`abortDue` is set when a CLEAR waits for it (R413). -/
structure Ghost where
  dev : Nat
  quad : Nat
  port : Nat
  lo : Nat
  hi : Nat
  sch : Nat
  cmd : Nat
  pc : Nat
  x : Nat
  disc : Nat
  due : Option Time
  abortDue : Option Time
  deriving DecidableEq, Repr

structure SeqPos where
  pos : Option Nat
  lost : Bool
  deriving DecidableEq, Repr

/-- The tuning of a lane from the SERDES section (R427). -/
structure LaneTune where
  preset : Nat
  swing : Nat
  ctle : Nat
  dfe : Bool
  deriving DecidableEq, Repr

/-- `tune`: the lanes that have a setting, 0 to 127 of the quads and 128 to 143 of the host link; any other adapts by itself (R427). -/
structure Devices where
  quads : List Quad
  tune : AMap LaneTune
  disc : AMap DiscRec
  dgen : BitVec 32
  exch : AMap Exch
  aborts : List AbortCmd
  ghosts : AMap Ghost
  nextGhost : Nat
  seqPos : AMap SeqPos
  qram : AMap Byte
  deriving DecidableEq, Repr

/-! ## Tally and recovery (12) -/

/-- A Tally line (R394). `skew` is the error of its held counter: 0 unless a counting fault occurred. -/
structure Line4 where
  issued : Word
  returned : Word
  skew : Word
  diff : BitVec 48
  fails : Nat
  mism : Bool
  deriving DecidableEq, Repr

structure Tally where
  lines : List Line4
  snapValid : Bool
  snap : List Word
  audits : List Nat
  lastAudit : Nat
  checks : BitVec 48
  engRestore : Nat
  cluFence : Nat
  redrive : Nat
  supRestart : Nat
  ce : Nat
  ue : Nat
  fenced : BitVec 16
  fencedBefore : BitVec 16
  spareUsed : BitVec 16
  failed : List Nat
  bndHwm : List Nat
  bndWait : List Nat
  deriving DecidableEq, Repr

/-! ## Plinth and the Almanac (13) -/

/-- A record on its way into the Almanac: TYPE, SOURCE and the 180 payload bytes of R432, and the vectors whose messages announce it
(R473). -/
structure AlmReq where
  type : Nat
  source : Nat
  payload : List Byte
  len : Nat
  vecs : List Nat
  deriving DecidableEq, Repr

structure AlmRec where
  seq : Nat
  time : Time
  type : Nat
  source : Nat
  bootno : Nat
  len : Nat
  payload : List Byte
  chain : BitVec 384
  crc : BitVec 32
  deriving DecidableEq, Repr

structure Almanac where
  slots : AMap AlmRec
  next : Nat
  head : BitVec 384
  pinnedEnd : BitVec 384
  tailAnchor : BitVec 384
  queue : List AlmReq
  hold : List AlmReq
  suppressed : AMap Nat
  deriving DecidableEq, Repr

/-- The facts that Plinth keeps of the booted image (R421 to R426). -/
structure ImgFacts where
  version : BitVec 32
  minver : BitVec 32
  keyid : BitVec 8
  cosign : Bool
  custkey : List Byte
  updkey : List Byte
  anchors : List (List Byte)
  lock : BitVec 256
  flags : BitVec 16
  header : List Byte
  bodies : AMap (List Byte)
  inForce : AMap (List Byte)
  slot1 : Bool
  deriving DecidableEq, Repr

structure FlashJob where
  target : Bool
  version : BitVec 32
  digest : BitVec 384
  kib : Nat
  since : Time
  deriving DecidableEq, Repr

structure Plinth where
  alm : Almanac
  started : Bool
  img : Option ImgFacts
  mode : Nat
  tamper : Bool
  tamperLow : Bool
  tamperLock : Bool
  lastEdge : Option Time
  extLock : Bool
  aValid : Bool
  bValid : Bool
  aCode : Nat
  bCode : Nat
  bootno : Nat
  updState : Nat
  updTarget : Bool
  updResult : Nat
  updProgress : Nat
  job : Option FlashJob
  violation : Nat
  supprCnt : Nat
  refused : Nat
  tamperEdges : Nat
  nonce : Option (BitVec 256)
  quotes : Nat
  quote : List Byte
  req : Option Word
  readDue : Option (Nat × Time)
  deriving DecidableEq, Repr

/-! ## Mailboxes and interrupts (14) -/

structure Box where
  word : Word
  full : Bool
  bit : Nat
  owed : Bool
  deriving DecidableEq, Repr

/-- The events a sender sees of one channel (R459). -/
structure Sender where
  empty : Bool
  aborted : Bool
  overrun : Bool
  deriving DecidableEq, Repr

structure Bell where
  db : BitVec 32
  mask : BitVec 32
  deriving DecidableEq, Repr

/-- The host's side of a pair of channels (R460). -/
structure HostMb where
  bell : Bell
  ieEmpty : Bool
  ieAborted : Bool
  deriving DecidableEq, Repr

/-- The mailboxes (14). `rungHost` and `rungSup` are the bits of Plinth's doorbell that the host and the supervisor have rung, for its two
sources (R471). -/
structure Mail where
  boxes : List Box
  senders : List Sender
  sup : HostMb
  pln : HostMb
  supBell : Bell
  plnBell : Bell
  cluBells : List Bell
  notices : List Word
  rungHost : BitVec 32
  rungSup : BitVec 32
  deriving DecidableEq, Repr

/-- An interrupt controller (R466, R467): `run` 16 is IDLE. -/
structure Ic where
  pend : BitVec 256
  mask : BitVec 256
  prio : BitVec 1024
  cnt : List Nat
  stack : List Nat
  run : Nat
  under : Bool
  deriving DecidableEq, Repr

/-! ## Nightwatch, power and pins (15, 17) -/

inductive CluSt where
  | run | nap | doze | sleep
  deriving DecidableEq, Repr

/-- A cluster (R482): `table` says that it holds its copy of the decode table, `pad` that its scratchpad is powered, UNSET but for the
windows of its threads (R483), and `cache` names the queues whose resident text its instruction cache holds (R155). -/
structure Cluster where
  st : CluSt
  awake : Bool
  waking : Bool
  table : Bool
  pad : Bool
  cache : List Nat
  deriving DecidableEq, Repr

/-- A cluster in SLEEP, which keeps nothing (R482). -/
def Cluster.off : Cluster := ⟨.sleep, false, false, false, false, []⟩


structure Power where
  aon : Bool
  released : Bool
  perstLow : Bool
  perstWas : Bool
  holdDue : Option Time
  pwrok : Bool
  railsBad : List Rail
  sbLow : Bool
  held : Bool
  bootDue : Bool
  trip : Bool
  xtalOk : Bool
  fallback : Bool
  hrefOk : Bool
  pref0 : Bool
  pref1 : Bool
  coreLock : Bool
  plinthLock : Bool
  qlock : BitVec 32
  clusters : List Cluster
  maxState : Nat
  awakeN : Nat
  vcore : Nat
  vcoreTry : Option Nat
  vcoreDue : Time
  dozeWakes : Nat
  sleepWakes : Nat
  demandWakes : Nat
  sleeps : Nat
  maxLag : Nat
  dlMiss : Nat
  last : Nat
  warm : Nat
  flrs : Nat
  wdog : Nat
  wdogDue : Option Time
  timers : AMap Time
  supUp : Bool
  jtag : JtagOp
  extest : Bool
  cells : List Bool
  phase : Nat
  deriving DecidableEq, Repr

/-! ## What leaves the chip -/

/-- The SMP functions of R363. -/
inductive SmpFn where
  | reportGeneral | reportManufacturer | discover | discoverList | reportRoute | configureRoute | phyControl
  deriving DecidableEq, Repr

/-- What Plinth does with a flash device at a boot (R525): the pulse on its reset, the read of its SFDP tables, the command that puts it in
8D-8D-8D mode, and the read of its copy, in that mode or in 1S-1S-1S. -/
inductive FlashCmd where
  | resetPulse | readSfdp | enterOctal
  | readImage (octal : Bool)
  deriving DecidableEq, Repr

/-- How a quad enables a controller (R360 step 1): the entries of the admin pair, CC.MPS in bytes, CC.IOSQES and CC.IOCQES, round-robin
arbitration and the NVM command set. -/
structure CtrlEnable where
  adminEntries : Nat
  pageSize : Nat
  iosqes : Nat
  iocqes : Nat
  roundRobin : Bool
  nvm : Bool
  deriving DecidableEq, Repr

/-- What a quad asks a controller for on its admin queue (R360 step 2): Identify Controller, the active namespace list, and Identify
Namespace for each active namespace. -/
inductive IdentifyCmd where
  | controller | activeList | namespaces
  deriving DecidableEq, Repr

/-- The I/O queues of a controller (R360 steps 3 and 4): the pairs and their entries, the MSI-X vectors of their completion queues and
where those are aimed, coalescing, Autonomous Power State Transitions, and the Asynchronous Event Requests kept. -/
structure CtrlSetup where
  pairs : Nat
  entries : Nat
  vectors : Nat
  msixAt : Word
  coalesce : Bool
  apst : Bool
  aers : Nat
  deriving DecidableEq, Repr

/-- One item that leaves the chip (log 4). A device command leaves with its submission entry or CDB, the data that the 6128 itself gives with it, and whether it carries task attribute SIMPLE. -/
inductive Out where
  | readData (bar off size : Nat) (val : Word)
  | readUr (bar off size : Nat)
  | msix (vec : Nat) (addr : Word) (data : BitVec 32)
  | cqe (q slot : Nat) (addr : Word) (pasid : Option (BitVec 20)) (entry : BitVec 256)
  | hostWrite (addr : Word) (pasid : Option (BitVec 20)) (relaxed poisoned : Bool) (data : List Byte)
  | hostRead (tag : Nat) (addr : Word) (pasid : Option (BitVec 20)) (relaxed : Bool) (len : Nat)
  | drs
  | frs
  | rrs

  | spdm (tr : Transport) (code : Byte) (body : List Byte)
  | spdmVersion (tr : Transport) (major minor : Nat)
  | spdmAlgs (tr : Transport) (algs : List SpdmAlg)
  | doe (body : List Byte)
  | mctp (body : List Byte)
  | devCmd (x : Nat) (target : Word) (bytes param : List Byte) (simple redrive : Bool)
  | pmemRead (x : Nat) (bar : Word) (off len : Nat)
  | pmemWrite (x : Nat) (bar : Word) (off : Nat) (data : List Byte)
  | devAbort (x : Nat)
  | phyReset (quad port : Nat) (target : Word)
  | linkReset (quad port : Nat)
  | ctrlReset (quad port : Nat) (ctrl : Word)
  | ctrlEnable (quad port : Nat) (ctrl : Word) (setup : CtrlEnable)
  | nvmeIdentify (quad port : Nat) (ctrl : Word) (what : IdentifyCmd)
  | ctrlInit (quad port : Nat) (ctrl : Word) (setup : CtrlSetup)
  | lunReset (quad port : Nat) (target lun : Word)
  | nexusTime (quad port : Nat) (target : Word) (ms : Nat)
  | smp (quad port : Nat) (target : Word) (fn : SmpFn)
  | aerClear (quad port : Nat)
  | timeoutRange (quad port : Nat)
  | identify (quad phy id : Nat)
  | devData (x off : Nat) (data : List Byte)
  | devMem (quad port : Nat) (addr : Word) (data : List Byte)
  | devUr (quad port : Nat) (addr : Word)
  | frame (quad port : Nat) (data : List Byte) (invalid : Bool)
  | train (quad port : Nat) (sris : Bool)
  | closeConn (quad phy : Nat)
  | linkPower (quad port : Nat) (on nak : Bool)
  | linkWake (quad port : Nat)
  | pin (quad port kind : Nat) (level : Bool)
  | inband (quad : Nat) (stop : Bool)
  | credit (quad words : Nat)
  | sgpio (quad : Nat) (bits : BitVec 12)
  | i2c (quad port : Nat)
  | avs (mv : Nat)
  | flash (target : Bool) (data : List Byte)
  | flashCmd (device : Bool) (cmd : FlashCmd)
  | thermtrip
  | jtagData (bits : BitVec 32) (len : Nat)
  | boundaryShift (cells : List Bool)
  | boundaryDrive (cells : List Bool)
  | icRead (val : Word)
  | accessRead (requester : Nat) (val : Word)
  | mbRead (ch : Chan) (val : Word)
  deriving DecidableEq, Repr

/-- The whole machine. -/
structure State where
  time : Time
  link : Link
  q : Queues
  sub : Subch
  sx : Sirax
  dma : Dma
  md : Meridian
  dev : Devices
  tally : Tally
  pl : Plinth
  mail : Mail
  ic : Ic
  icPl : Ic
  pw : Power
  fresh : Nat
  out : List Out
  pending : List Instr
  deriving DecidableEq, Repr

/-- Why a step could stop. No command of this model does: every event of the spec leaves a next state. -/
inductive Fault where
  /-- Raised by nothing; kept so that the type has a member. Safe. -/
  | none
  deriving DecidableEq, Repr

/-- Why a command could have no meaning. -/
inductive Refusal where
  /-- Raised by an arm of `exec` whose command has no meaning yet; the argument is the row's mnemonic. Safe. -/
  | notModelled (mnemonic : String)
  deriving DecidableEq, Repr

/-! ## Reset values -/

/-- The capability structures at the offsets and in the order of R31. The list of the first 256 bytes ends at MSI-X, and the extended
list starts at 0x100 (log 63, PRESUMED). -/
def CfgSpace.capsOf : List Cap :=
  [⟨.powerManagement, 0x40, 0x50⟩, ⟨.pciExpress, 0x50, 0xB0⟩, ⟨.msix, 0xB0, 0⟩, ⟨.aer, 0x100, 0x150⟩,
    ⟨.serialNumber, 0x150, 0x160⟩, ⟨.secondaryPcie, 0x160, 0x1A0⟩, ⟨.dataLinkFeature, 0x1A0, 0x1B0⟩, ⟨.phy16, 0x1B0, 0x200⟩,
    ⟨.phy32, 0x200, 0x240⟩] ++
  [⟨.phy64, 0x240, 0x260⟩, ⟨.laneMargining, 0x260, 0x2B0⟩, ⟨.pasid, 0x2B0, 0x2C0⟩, ⟨.device3, 0x2C0, 0x2D0⟩,
    ⟨.readinessTime, 0x2D0, 0x2E0⟩, ⟨.flitLogging, 0x2E0, 0x300⟩, ⟨.doe, 0x300, 0x320⟩, ⟨.ide, 0x320, 0⟩]

/-- R29; the completion timeout ranges are those of R65. -/
def Features.supported : Features where
  rates := [6, 5, 4, 3]
  widths := [16, 8, 4, 2, 1]
  flitMode := true
  maxPayload := 512
  tag10 := true
  tag14 := true
  pasidWidth := 20
  pasidExec := false
  pasidPriv := false
  msixVectors := 2048
  msi := false
  intx := false
  aer := true
  serialNumber := true
  doeInstances := 1
  ideStreams := 1
  selectiveIde := false
  flr := true
  drs := true
  frs := true
  laneMargining := true
  d1 := false
  d2 := false
  pme := false
  aspmL0s := false
  aspmL1 := false
  l1Substates := false
  l0p := false
  sriov := false
  ats := false
  pri := false
  resizableBar := false
  ptm := false
  tph := false
  ltr := false
  idOrdering := false
  noSnoop := false
  timeoutRanges := ['A', 'B', 'C', 'D']

/-- R30, R36, R58, R64. The BAR registers show their type bits and no address yet (log 63, PRESUMED). -/
def CfgSpace.reset : CfgSpace where
  vendor := 0x1F6A
  device := 0x6128
  revision := 0x10
  classCode := 0x018000
  headerType := 0
  intPin := 0
  bars := [0x4, 0, 0xC, 0, 0x4, 0]
  romBar := 0
  caps := CfgSpace.capsOf
  features := Features.supported
  readiness := ⟨true, false, 300, 300, 100, 10⟩
  noSoftReset := true

/-- (log 13, PRESUMED) -/
def Link.reset : Link where
  ep := .held
  ready := false
  linkUp := false
  rate := 0
  width := 0
  flit := false
  tagw := 0
  bme := false
  mse := false
  d3 := false
  rdLimit := 256
  ideReq := false
  pasidEn := false
  relaxed := true
  mps := 128
  mrrs := 512
  ssvid := 0x1F6A
  ssid := 0
  msixEn := false
  fmask := false
  vecs := []
  pba := []
  aer := ⟨false, false, false, false, false⟩
  urSent := 0
  cplErr := 0
  cplTimeout := 0
  poisonRx := 0
  ide := ⟨false, [], [], false⟩
  spdmDoe := ⟨false, false, false⟩
  spdmMctp := ⟨false, false, false⟩
  sessions := []
  eid := 0
  reads := []
  noIssue := []
  cfg := CfgSpace.reset
  almPage := 0

def Queues.reset : Queues where
  sqs := []
  cqs := []
  qevt := []
  qevtLost := false
  pushDiscard := 0
  dbDiscard := 0
  captureFallback := 0
  ringFull := 0
  admEnable := false
  admReady := false
  admSqLog2 := 0
  admCqLog2 := 0
  admSqBase := 0
  admCqBase := 0
  admWait := none
  legOn := false
  leg := []
  waiting := []
  gone := []

/-- A context with every field 0 (R136). -/
def Ctx.zero : Ctx where
  state := .disabled
  cls := 0
  dreq := false
  held := false
  resreq := false
  haltreq := false
  clrreq := false
  tmout := false
  disend := false
  cid := 0
  sqid := 0
  cqid := 0
  stb := 0
  sqv := false
  cqv := false
  stv := false
  pset := 0
  psv := false
  pgen := 0
  lpath := 0
  lpd := none
  ic := 0
  tmoDef := 0
  tmoCur := 0
  expiry := 0
  elaps := 0
  dstat := 0
  cstat := 0
  pchk := 0
  residual := 0
  iscnt := 0
  istot := 0
  gen := 0
  deadline := 0
  xout := 0
  budget := 0
  cc := 0
  ds := 0
  kpasid := none
  f := List.replicate 16 TWord.unset
  finTime := 0
  istTime := 0

def Subch.reset : Subch where
  ctx := []
  prog := []
  timeouts := 0
  abortLost := 0
  rejBusy := 0
  rejDisabled := 0
  writtenOff := 0
  devs := []
  psets := []

def Sirax.reset : Sirax where
  segTabs := []
  threads := []
  ckpt := []
  stopped := []
  recent := []
  lastIssue := []
  readyAt := []
  micro := []
  gs := []
  bank0 := []
  bank1 := []
  body0 := []
  body1 := []
  bank := false
  retiring := false
  gen := 1
  fixed := false
  loads := 0
  refused := 0
  unloaded := 0
  load := none

def Fifo.reset : Fifo where
  rx := []
  rxB := ⟨0, 0, false⟩
  stop := false
  inband := false
  credit := 256
  stops := 0
  tx := []
  txB := ⟨0, 0, false⟩
  high := 192
  low := 64
  txFaults := []

def Dma.reset : Dma where
  segs := []
  descs := []
  nextDesc := 0
  sRd := none
  sWr := none
  fifos := List.replicate 32 Fifo.reset
  devReads := []
  flowEn := 0
  flowN := 0
  fifoParity := 0
  tbEccUe := 0
  fifoOverrun := 0
  freeRefused := 0

def ClassRec.zero : ClassRec := ⟨0, 0, 0, 0, 0, 0, 0, 0, 0, 0⟩

/-- No admitted classes: every reservation 0 (R340). -/
def Sched.noClasses : Sched where
  admitted := 0
  engCap := 850
  hlCap := 900
  egrCap := 900
  expClusters := 0
  textArea := 64
  expWin := 10000
  budget7 := 0
  cls := List.replicate 7 ClassRec.zero

def Meridian.reset : Meridian where
  reqs := []
  nextReq := 0
  waits := []
  sched := Sched.noClasses
  boot := Option.none
  valid := false
  degraded := false
  failKind := 0
  failIndex := 0
  commit := Option.none
  leaving := []
  retests := []
  lastCode := 0
  lastKind := 0
  lastIndex := 0
  gen := 0
  frzEng := false
  frzRd := false
  frzWr := false
  frzEgr := 0
  drained := true
  policed := 0
  overrun := 0
  refused := 0
  commits := 0
  passed := false

def QuadRec.off : QuadRec := ⟨0, 0, 0, 0, 0, 192, 64, [0, 0, 0, 0]⟩

def Port.reset : Port where
  st := 0
  rate := 0
  width := 0
  pinned := false
  devs := 0
  dgen := 0
  present := false
  debounce := none
  pwren := false
  perst := true
  powerDue := none
  offDue := none
  retryDue := none
  pollDue := none
  running := false
  rerun := false
  ids := []
  ctrls := []
  unlisted := 0
  i2cOpen := false
  mgmt := 0
  pm := false
  used := 0
  expander := false

def Quad.reset : Quad where
  cfg := QuadRec.off
  ports := List.replicate 4 Port.reset
  lanes := List.replicate 4 Lane.reset
  pwrenF := 0
  perstF := 0
  i2cF := 0
  nolinkF := 0
  sgpioF := false
  sgpioDue := none
  locate := 0
  fault := 0
  linkDown := 0
  corMsg := 0
  devUr := 0
  escalate := 0
  resetReq := false
  conns := []

def Devices.reset : Devices where
  quads := List.replicate 32 Quad.reset
  tune := []
  disc := []
  dgen := 0
  exch := []
  aborts := []
  ghosts := []
  nextGhost := 0
  seqPos := []
  qram := []

def Line4.zero : Line4 := ⟨0, 0, 0, 0, 0, false⟩

def Tally.reset : Tally where
  lines := List.replicate 4 Line4.zero
  snapValid := false
  snap := List.replicate 12 0
  audits := []
  lastAudit := 0
  checks := 0
  engRestore := 0
  cluFence := 0
  redrive := 0
  supRestart := 0
  ce := 0
  ue := 0
  fenced := 0
  fencedBefore := 0
  spareUsed := 0
  failed := []
  bndHwm := List.replicate 41 0
  bndWait := List.replicate 41 0

def Almanac.reset : Almanac := ⟨[], 0, 0, 0, 0, [], [], []⟩

def Plinth.reset : Plinth where
  alm := Almanac.reset
  started := false
  img := none
  mode := 0
  tamper := false
  tamperLow := false
  tamperLock := false
  lastEdge := none
  extLock := false
  aValid := false
  bValid := false
  aCode := 0
  bCode := 0
  bootno := 0
  updState := 0
  updTarget := false
  updResult := 0
  updProgress := 0
  job := none
  violation := 0
  supprCnt := 0
  refused := 0
  tamperEdges := 0
  nonce := none
  quotes := 0
  quote := []
  req := none
  readDue := none

def Box.reset : Box := ⟨0, false, 0, false⟩
def Sender.reset : Sender := ⟨false, false, false⟩
def Bell.reset : Bell := ⟨0, 0xFFFFFFFF⟩
/-- A doorbell inside the 6128: its mask has no stated reset value; it starts open (log 30, DESIGN CHOICE). -/
def Bell.inner : Bell := ⟨0, 0⟩
def HostMb.reset : HostMb := ⟨Bell.reset, false, false⟩

def Mail.reset : Mail where
  boxes := List.replicate 38 Box.reset
  senders := List.replicate 38 Sender.reset
  sup := HostMb.reset
  pln := HostMb.reset
  supBell := Bell.inner
  plnBell := Bell.inner
  cluBells := List.replicate 16 Bell.inner
  notices := []
  rungHost := 0
  rungSup := 0

def Ic.reset : Ic where
  pend := 0
  mask := BitVec.allOnes 256
  prio := 0
  cnt := List.replicate 256 0
  stack := []
  run := 16
  under := false

def Power.reset : Power where
  aon := true
  released := false
  perstLow := true
  perstWas := false
  holdDue := none
  pwrok := false
  railsBad := []
  sbLow := false
  held := false
  bootDue := false
  trip := false
  xtalOk := false
  fallback := false
  hrefOk := false
  pref0 := false
  pref1 := false
  coreLock := false
  plinthLock := false
  qlock := 0
  clusters := List.replicate 16 Cluster.off
  maxState := 3
  awakeN := 0
  vcore := 750
  vcoreTry := none
  vcoreDue := 0
  dozeWakes := 0
  sleepWakes := 0
  demandWakes := 0
  sleeps := 0
  maxLag := 0
  dlMiss := 0
  last := 1
  warm := 0
  flrs := 0
  wdog := 0
  wdogDue := none
  timers := []
  supUp := false
  jtag := .idcode
  extest := false
  cells := []
  phase := 0

/-- The state right after power-on (R493 step 1): every register at its reset value, power-on release still to come
(log 6, DESIGN CHOICE). -/
def State.reset : State where
  time := 0
  link := Link.reset
  q := Queues.reset
  sub := Subch.reset
  sx := Sirax.reset
  dma := Dma.reset
  md := Meridian.reset
  dev := Devices.reset
  tally := Tally.reset
  pl := Plinth.reset
  mail := Mail.reset
  ic := Ic.reset
  icPl := Ic.reset
  pw := Power.reset
  fresh := 0
  out := []
  pending := []

end Sys2Proof.Machine
end

