-- ==== Sys2Proof/Machine/Ops.lean ====
section
/-! DEFINITION. Sys2Proof/Machine/Ops.lean: the operations every family uses: finite maps, bytes, counters, device time, the
outbox, MSI-X messages, Almanac records and interrupt sources. -/

namespace Sys2Proof.Machine

/-! ## Finite maps -/

def AMap.get? {α : Type} (m : AMap α) (k : Nat) : Option α :=
  match m with
  | [] => none
  | (j, v) :: m => if j = k then some v else AMap.get? m k

/-- Store a value, keeping the keys in rising order. -/
def AMap.put {α : Type} (m : AMap α) (k : Nat) (v : α) : AMap α :=
  match m with
  | [] => [(k, v)]
  | (j, w) :: m => if k < j then (k, v) :: (j, w) :: m else if k = j then (k, v) :: m else (j, w) :: AMap.put m k v

def AMap.del {α : Type} (m : AMap α) (k : Nat) : AMap α :=
  match m with
  | [] => []
  | (j, w) :: m => if j = k then m else (j, w) :: AMap.del m k

def AMap.getD {α : Type} (m : AMap α) (k : Nat) (d : α) : α := (AMap.get? m k).getD d

def AMap.has {α : Type} (m : AMap α) (k : Nat) : Bool := (AMap.get? m k).isSome

/-- Apply a function to the value at a key, if there is one. -/
def AMap.upd {α : Type} (m : AMap α) (k : Nat) (f : α → α) : AMap α :=
  match AMap.get? m k with
  | none => m
  | some v => AMap.put m k (f v)

/-- Store a value, or remove the key when the value is the default: the canonical form of a memory. -/
def AMap.store {α : Type} [DecidableEq α] (m : AMap α) (k : Nat) (v d : α) : AMap α :=
  if v = d then AMap.del m k else AMap.put m k v

/-- The keys rise strictly. -/
def AMap.sorted {α : Type} (m : AMap α) : Bool :=
  match m with
  | [] => true
  | [_] => true
  | (j, _) :: (k, w) :: m => decide (j < k) && AMap.sorted ((k, w) :: m)

/-- The canonical form of a memory: keys rise and no entry holds the default. -/
def AMap.wf {α : Type} [DecidableEq α] (m : AMap α) (d : α) : Bool :=
  AMap.sorted m && m.all (fun e => e.2 ≠ d)

/-! ## Lists -/

/-- Change element `k` of a list. -/
def modAt {α : Type} (l : List α) (k : Nat) (f : α → α) : List α :=
  match l, k with
  | [], _ => []
  | a :: l, 0 => f a :: l
  | a :: l, k + 1 => a :: modAt l k f

def sumBy {α : Type} (f : α → Nat) (l : List α) : Nat :=
  match l with
  | [] => 0
  | a :: l => f a + sumBy f l

/-- How many numbers below `n` have a property. -/
def countBelow (n : Nat) (p : Nat → Bool) : Nat := ((List.range n).filter p).length

/-! ## Bytes (R5) -/

/-- The `n` low bytes of a number, least significant first. -/
def leBytes (n v : Nat) : List Byte :=
  match n with
  | 0 => []
  | n + 1 => BitVec.ofNat 8 v :: leBytes n (v / 256)

/-- The number that bytes spell, least significant first. -/
def ofLe (bs : List Byte) : Nat :=
  match bs with
  | [] => 0
  | b :: bs => b.toNat + 256 * ofLe bs

/-- The number in bytes `off` to `off + n - 1`. -/
def rd (bs : List Byte) (off n : Nat) : Nat := ofLe ((bs.drop off).take n)

def slice (bs : List Byte) (off n : Nat) : List Byte := (bs.drop off).take n

/-- Bytes padded with zeros, or cut, to a length. -/
def fit (n : Nat) (bs : List Byte) : List Byte := bs.take n ++ List.replicate (n - bs.length) 0

def allZero (bs : List Byte) : Bool := bs.all (· == 0)

/-- Bits `[lo + n - 1 : lo]` of a number. -/
def bits (v lo n : Nat) : Nat := v / 2 ^ lo % 2 ^ n

def b2n (b : Bool) : Nat := if b then 1 else 0

/-- Overwrite bytes of a list from an offset on. -/
def patch (bs : List Byte) (off : Nat) (d : List Byte) : List Byte :=
  let bs := bs ++ List.replicate (off - bs.length) 0
  bs.take off ++ d ++ bs.drop (off + d.length)

/-- One step of CRC-32C, reflected (R433). -/
def crcBit (n : Nat) (c : BitVec 32) : BitVec 32 :=
  match n with
  | 0 => c
  | n + 1 => crcBit n (if c.getLsbD 0 then (c >>> 1) ^^^ 0x82F63B78#32 else c >>> 1)

/-- CRC-32C of bytes: initial value and final XOR 0xFFFF_FFFF (R433). -/
def crc32c (bs : List Byte) : BitVec 32 :=
  (bs.foldl (fun c b => crcBit 8 (c ^^^ b.setWidth 32)) 0xFFFFFFFF#32) ^^^ 0xFFFFFFFF#32

/-! ## Counters and device time -/

/-- A counter of R6 that stops at its largest value. -/
def sat (bitsN n : Nat) : Nat := min n (2 ^ bitsN - 1)

def inc16 (n : Nat) : Nat := sat 16 (n + 1)

/-- Whether device time has reached a due time: the signed 48-bit difference of R329 is not negative. -/
def reached (now due : Time) : Bool := (now - due).toNat < 2 ^ 47

/-- Whether one device time comes strictly before another, by the signed difference of R329. -/
def before (a b : Time) : Bool := 2 ^ 47 ≤ (a - b).toNat

/-- (log 2, DESIGN CHOICE) -/
def addNs (t : Time) (n : Nat) : Time := t + BitVec.ofNat 48 n

/-! ## State updates, one per block -/

def State.onLink (s : State) (f : Link → Link) : State := { s with link := f s.link }
def State.onQ (s : State) (f : Queues → Queues) : State := { s with q := f s.q }
def State.onSub (s : State) (f : Subch → Subch) : State := { s with sub := f s.sub }
def State.onSx (s : State) (f : Sirax → Sirax) : State := { s with sx := f s.sx }
def State.onDma (s : State) (f : Dma → Dma) : State := { s with dma := f s.dma }
def State.onMd (s : State) (f : Meridian → Meridian) : State := { s with md := f s.md }
def State.onDev (s : State) (f : Devices → Devices) : State := { s with dev := f s.dev }
def State.onTally (s : State) (f : Tally → Tally) : State := { s with tally := f s.tally }
def State.onPl (s : State) (f : Plinth → Plinth) : State := { s with pl := f s.pl }
def State.onMail (s : State) (f : Mail → Mail) : State := { s with mail := f s.mail }
def State.onIc (s : State) (f : Ic → Ic) : State := { s with ic := f s.ic }
def State.onIcPl (s : State) (f : Ic → Ic) : State := { s with icPl := f s.icPl }
def State.onPw (s : State) (f : Power → Power) : State := { s with pw := f s.pw }

/-- Something leaves the chip (log 4, DESIGN CHOICE). -/
def State.emit (s : State) (o : Out) : State := { s with out := s.out ++ [o] }

def State.emits (s : State) (os : List Out) : State := { s with out := s.out ++ os }

/-! ## Records of the Almanac (R434, R436, R437) -/

/-- Hand a record to the Almanac writer; an EVENT record that finds the queue of 256 full is counted instead, and the source of any other
record waits (R437). -/
def State.record (s : State) (type source : Nat) (payload : List Byte) (len : Nat) : State :=
  let r : AlmReq := ⟨type, source, fit 180 payload, len, []⟩
  if s.pl.alm.queue.length < 256 then
    s.onPl fun p => { p with alm := { p.alm with queue := p.alm.queue ++ [r] } }
  else if type ≠ 0xC then s.onPl fun p => { p with alm := { p.alm with hold := p.alm.hold ++ [r] } }
  else
    let k := rd payload 0 1 * 65536 + rd payload 2 2
    s.onPl fun p => { p with
      supprCnt := inc16 p.supprCnt,
      alm := { p.alm with suppressed := AMap.put p.alm.suppressed k (AMap.getD p.alm.suppressed k 0 + 1) } }

/-- An EVENT record (R436): block, code and four arguments (log 22, DEDUCED). -/
def State.event (s : State) (source block code a0 a1 a2 a3 : Nat) : State :=
  s.record 0xC source (leBytes 2 block ++ leBytes 2 code ++ leBytes 4 a0 ++ leBytes 4 a1 ++ leBytes 8 a2 ++ leBytes 8 a3) 28

/-! ## Interrupt sources (R466, R468) -/

def Ic.count (ic : Ic) (src : Nat) : Ic := { ic with cnt := modAt ic.cnt src fun n => sat 8 (n + 1) }

/-- One occurrence of a cause: its counter rises and its line, high for the moment, sets the pending bit
(log 21, DESIGN CHOICE). -/
def Ic.raise (ic : Ic) (src : Nat) : Ic :=
  { Ic.count ic src with pend := ic.pend ||| (1#256 <<< src) }

def State.irq (s : State) (src : Nat) : State := s.onIc fun ic => ic.raise src
def State.irqPl (s : State) (src : Nat) : State := s.onIcPl fun ic => ic.raise src

/-- Do something to the state a number of times. -/
def State.iter (n : Nat) (f : State → State) (s : State) : State :=
  match n with
  | 0 => s
  | n + 1 => State.iter n f (f s)

/-- Single-bit errors that a read corrects: CE of TL_MEMERR counts them (R400, R415). -/
def State.corrected (s : State) (n : Nat) : State := if n = 0 then s else s.onTally fun t => { t with ce := sat 32 (t.ce + n) }

/-- What a delivery counts in CE. -/
def State.eccFix (s : State) (e : Ecc) : State := if e = .corrected then s.corrected 1 else s

/-- Unsupported Request, sent or for a discarded or refused write (R47, R65). -/
def State.urSent (s : State) : State :=
  s.onLink fun l => { l with urSent := inc16 l.urSent, aer := { l.aer with ur := true } }

/-! ## The MSI-X table (R50) -/

/-- The table entry of a vector; an entry that nothing has written is masked (log 13, PRESUMED). -/
def Link.vec (l : Link) (v : Nat) : VecEntry := AMap.getD l.vecs v ⟨0, 0, true⟩

/-- Whether the endpoint may send memory requests and messages: released, Bus Master Enable, D0, and IDE secure where the
image requires it (R55, R60, R64). -/
def Link.mayIssue (l : Link) : Bool :=
  l.ep ≠ .held && l.bme && !l.d3 && (!l.ideReq || l.ide.secure) && !l.ide.discarding

/-- Whether a message on a vector goes out now. -/
def Link.deliverable (l : Link) (v : Nat) : Bool :=
  l.mayIssue && l.msixEn && !l.fmask && !(l.vec v).masked

/-- Restart count and timer of R103 for the queues of a vector (R474). -/
def announce (v : Nat) (cqs : AMap CQ) : AMap CQ :=
  cqs.map fun e => if e.2.ien && e.2.vector = v then (e.1, { e.2 with unann := 0, aggDue := none }) else e

/-- A timer acts now: MAXLAG keeps the largest lateness, in units of 100 ns (R498) (log 74, DEDUCED). -/
def State.late (s : State) (due : Time) : State :=
  s.onPw fun p => { p with maxLag := max p.maxLag (min 0xFFFF ((s.time - due).toNat / 100)) }

/-! ## Timers of one kind that fall due together act in the order of their numbers (R480) -/

/-- The states in which the timer runs (R124). -/
def SchState.timed (t : SchState) : Bool := t = .startPending || t = .active || t = .waiting || t = .haltPending

/-- The timeout of a subchannel is armed. -/
def Ctx.armed (c : Ctx) : Bool := c.state.timed && c.tmoCur ≠ 0

/-- A port or exchange timer of a quad is due at a time. -/
def State.quadDue (s : State) (quad : Nat) (t : Time) : Bool :=
  ((s.dev.quads[quad]?).any fun q => q.sgpioDue = some t || q.conns.any (fun c => c.idleDue = some t)
      || q.ports.any fun p => [p.debounce, p.powerDue, p.offDue, p.retryDue, p.pollDue].contains (some t))
    || s.dev.exch.any (fun e => e.2.quad = quad && (e.2.abortDue = some t || e.2.escDue = some t))
    || s.dev.ghosts.any fun e => e.2.quad = quad && (e.2.due = some t || e.2.abortDue = some t)

/-- A timer of a quad acts: it is due, and no quad of a lower number has one due at the same time. -/
def State.quadTimer (s : State) (quad : Nat) (t : Time) : Bool :=
  reached s.time t && !(List.range quad).any fun q => s.quadDue q t

/-- The timeout of a subchannel acts. -/
def State.subTimer (s : State) (sch : Nat) (t : Time) : Bool :=
  reached s.time t && !s.sub.ctx.any fun e => e.1 < sch && e.2.armed && e.2.expiry = t

/-- The aggregation timer of a completion queue acts. -/
def State.aggTimer (s : State) (q : Nat) (t : Time) : Bool :=
  reached s.time t && !s.q.cqs.any fun e => e.1 < q && e.2.ien && e.2.aggDue = some t

/-- A supervisor timer acts. -/
def State.supTimer (s : State) (n : Nat) (t : Time) : Bool :=
  reached s.time t && !s.pw.timers.any fun e => e.1 < n && e.2 = t

/-! ## Access to the maps of the state -/

def State.ctxOf (s : State) (sch : Nat) : Ctx := AMap.getD s.sub.ctx sch Ctx.zero
def State.setCtx (s : State) (sch : Nat) (c : Ctx) : State :=
  s.onSub fun b => { b with ctx := AMap.store b.ctx sch c Ctx.zero }
def State.modCtx (s : State) (sch : Nat) (f : Ctx → Ctx) : State := s.setCtx sch (f (s.ctxOf sch))

def Prog.zero : Prog where
  sq := 0
  rel := 0
  wait := .dispatch
  cmds := []
  nextNo := 0
  brk := none
  ending := false
  resumed := false
  sense := []
  senseSeg := none
  stores := []
  cost := 0
  bg := false
  demoted := false
  recorded := false
  missed := false

def State.progOf (s : State) (sch : Nat) : Prog := AMap.getD s.sub.prog sch Prog.zero
def State.setProg (s : State) (sch : Nat) (p : Prog) : State :=
  s.onSub fun b => { b with prog := AMap.put b.prog sch p }
def State.modProg (s : State) (sch : Nat) (f : Prog → Prog) : State := s.setProg sch (f (s.progOf sch))
def State.delProg (s : State) (sch : Nat) : State := s.onSub fun b => { b with prog := AMap.del b.prog sch }

def State.sq? (s : State) (q : Nat) : Option SQ := AMap.get? s.q.sqs q
def State.cq? (s : State) (q : Nat) : Option CQ := AMap.get? s.q.cqs q
def State.setSq (s : State) (q : Nat) (r : SQ) : State := s.onQ fun x => { x with sqs := AMap.put x.sqs q r }
def State.setCq (s : State) (q : Nat) (r : CQ) : State := s.onQ fun x => { x with cqs := AMap.put x.cqs q r }

def State.th? (s : State) (th : Nat) : Option Thread := AMap.get? s.sx.threads th
def State.setTh (s : State) (th : Nat) (t : Thread) : State := s.onSx fun x => { x with threads := AMap.put x.threads th t }
def State.delTh (s : State) (th : Nat) : State := s.onSx fun x => { x with threads := AMap.del x.threads th }

def State.modQuad (s : State) (q : Nat) (f : Quad → Quad) : State := s.onDev fun d => { d with quads := modAt d.quads q f }
def State.quadOf (s : State) (q : Nat) : Quad := s.dev.quads.getD q Quad.reset
def State.modPort (s : State) (q p : Nat) (f : Port → Port) : State :=
  s.modQuad q fun x => { x with ports := modAt x.ports p f }
def State.portOf (s : State) (q p : Nat) : Port := (s.quadOf q).ports.getD p Port.reset
def State.modFifo (s : State) (q : Nat) (f : Fifo → Fifo) : State := s.onDma fun d => { d with fifos := modAt d.fifos q f }
def State.fifoOf (s : State) (q : Nat) : Fifo := s.dma.fifos.getD q Fifo.reset

/-! ## The Tally's lines (R394) -/

def State.tallyIssue (s : State) (line n : Nat) : State :=
  s.onTally fun t => { t with lines := modAt t.lines line fun l => { l with issued := l.issued + BitVec.ofNat 64 n } }
def State.tallyReturn (s : State) (line n : Nat) : State :=
  s.onTally fun t => { t with lines := modAt t.lines line fun l => { l with returned := l.returned + BitVec.ofNat 64 n } }

/-! ## In-flight bounds (R16, R20) -/

/-- Exchanges of a quad that hold a unit of its bound: a lost one holds none (R395). -/
def Exch.live (e : Exch) : Bool := e.st ≠ .lost

/-- The largest count of any key in a list. -/
def maxCount (ks : List Nat) : Nat := (ks.map fun k => ks.count k).foldl max 0

/-- Exchanges that hold a device command slot, by the I/O queue pair of an NVMe controller or by SCSI logical unit; lost ones keep theirs
(R395), queued ones have none yet. -/
def State.slotKeys (s : State) (nvme : Bool) : List Nat :=
  (s.dev.exch.filter fun e => e.2.st ≠ .queued && e.2.kind = if nvme then 1 else 2).map fun e =>
    if nvme then ((e.2.quad * 4 + e.2.port) * 2 ^ 64 + e.2.ctrl.toNat) * 64 + e.2.pair else e.2.dev

/-- Entries a held place will write (R20): one each for a status and an accumulated intermediate count. -/
def State.heldUnits (s : State) (h : Held) : Nat :=
  match h with
  | .comp _ => 1
  | .sub sch =>
    let c := s.ctxOf sch
    b2n (c.state = .statusPending) + b2n (c.iscnt ≠ 0)

/-- The present occupancy of a bound (R16, R20) (log 23, DEDUCED). -/
def State.occ (s : State) (n : Nat) : Nat :=
  if n = 0 then (s.sub.ctx.filter fun e => !(e.2.state = .disabled || e.2.state = .idle)).length
  else if n = 1 then s.sx.threads.length
  else if n = 2 then s.link.reads.length
  else if n = 3 then (s.dma.descs.filter fun e => e.2.rd && e.2.chan).length
  else if n = 4 then (s.dma.descs.filter fun e => !e.2.rd && e.2.chan).length
  else if n ≤ 36 then (s.dev.exch.filter fun e => e.2.quad = n - 5 && e.2.live).length
  else if n = 37 then s.dma.segs.length
  else if n = 38 then maxCount (s.slotKeys true)
  else if n = 39 then maxCount (s.slotKeys false)
  else if n = 40 then sumBy (fun e => sumBy s.heldUnits e.2.held) s.q.cqs
  else 0

/-- The limit of a bound (R16): bound 2 follows R32, bound 40 has none. -/
def State.limit (s : State) (n : Nat) : Nat :=
  if n = 0 then 1048576 else if n = 1 then 4096 else if n = 2 then s.link.rdLimit
  else if n = 3 || n = 4 then 512 else if n ≤ 36 then 4096 else if n = 37 then 131072
  else if n = 38 then 64 else if n = 39 then 256 else 0

/-- Note the occupancy of a bound in its high-water mark (R20) (log 23, DEDUCED). -/
def State.mark (s : State) (n : Nat) : State :=
  let o := s.occ n
  s.onTally fun t => { t with bndHwm := modAt t.bndHwm n fun h => max h o }

/-- A request found the bound full (R20). -/
def State.waited (s : State) (n : Nat) : State :=
  s.onTally fun t => { t with bndWait := modAt t.bndWait n fun w => sat 32 (w + 1) }

end Sys2Proof.Machine
end

