-- ==== Sys2Proof/Machine/Sched.lean ====
section
/-! DEFINITION. Sys2Proof/Machine/Sched.lean: Meridian's keys, requests, pools and the Maquette test. -/

namespace Sys2Proof.Machine

/-! ## Threads and clusters (R15, R402, R205) -/

/-- Threads are numbered 288 to a cluster and 32 to an engine; engine 8 is the spare. -/
def thCluster (th : Nat) : Nat := th / 288
def thEngine (th : Nat) : Nat := th % 288 / 32

def State.cluOf (s : State) (k : Nat) : Cluster := s.pw.clusters.getD k Cluster.off
def State.modClu (s : State) (k : Nat) (f : Cluster → Cluster) : State :=
  s.onPw fun p => { p with clusters := modAt p.clusters k f }

def State.fencedN (s : State) : Nat := countBelow 16 fun k => s.tally.fenced.getLsbD k

/-- An engine takes programs: its cluster runs or naps, with its decode-table copy and scratchpad (R483), is not fenced or in reset, and the
engine has not failed; the spare only when it is in use (R402, R403, R487). -/
def State.engineUp (s : State) (th : Nat) : Bool :=
  let k := thCluster th
  let e := thEngine th
  let c := s.cluOf k
  k < 16 && (c.st = .run || c.st = .nap) && !c.waking && c.table && c.pad && !s.tally.fenced.getLsbD k
    && !s.tally.failed.contains (k * 9 + e) && (e < 8 || s.tally.spareUsed.getLsbD k)

def State.threadsOn (s : State) (k : Nat) : Nat := (s.sx.threads.filter fun e => thCluster e.1 = k).length

/-! ## Pools and reservations (R336, R337) -/

def Sched.rec_ (m : Sched) (c : Nat) : ClassRec := m.cls.getD c ClassRec.zero

/-- The reservation of a class in the pool of a bound, in effect under the read bound of R32 (R337). -/
def State.resv (s : State) (m : Sched) (n c : Nat) : Nat :=
  let r := m.rec_ c
  if 7 ≤ c then 0
  else if n = 1 then r.resThr
  else if n = 2 then r.resTag * s.link.rdLimit / 8192
  else if n = 3 then r.resRd
  else if n = 4 then r.resWr
  else if n ≤ 36 then r.resExch
  else if n = 37 then r.resSeg
  else 0

/-- The class of the program on a subchannel. -/
def State.clsOf (s : State) (sch : Nat) : Nat := (s.ctxOf sch).cls

def State.readClass (s : State) (u : ReadUnit) : Nat :=
  match u with
  | .ring q _ _ => ((s.sq? q).map (·.cls)).getD 7
  | .text th _ => ((s.th? th).map fun t => s.clsOf t.sch).getD 7
  | .load th _ => ((s.th? th).map fun t => s.clsOf t.sch).getD 7
  | .dma d _ _ _ => ((AMap.get? s.dma.descs d).map fun e => s.clsOf e.sch).getD 7

/-- Units of a pool that a class holds. -/
def State.used (s : State) (n c : Nat) : Nat :=
  if n = 1 then (s.sx.threads.filter fun e => s.clsOf e.2.sch = c).length
  else if n = 2 then (s.link.reads.filter fun e => s.readClass e.2 = c).length
  else if n = 3 then (s.dma.descs.filter fun e => e.2.rd && e.2.chan && s.clsOf e.2.sch = c).length
  else if n = 4 then (s.dma.descs.filter fun e => !e.2.rd && e.2.chan && s.clsOf e.2.sch = c).length
  else if n ≤ 36 then
    (s.dev.exch.filter fun e => e.2.quad = n - 5 && e.2.live && s.clsOf e.2.sch = c).length
  else if n = 37 then
    (s.dma.segs.filter fun e =>
      (match e.2.owner with
       | .xfer sch _ _ _ => s.clsOf sch
       | .sense sch => s.clsOf sch
       | .zero sch _ => s.clsOf sch
       | .sup => 7) = c).length
  else 0

/-- A unit is free to a class: within its reservation, or in the unreserved part (R336). -/
def State.poolFree (s : State) (n c : Nat) : Bool :=
  let res := s.resv s.md.sched n
  s.occ n < s.limit n &&
  ((c < 7 && s.used n c < res c) ||
   (sumBy (fun i => s.used n i - res i) (List.range 7) + s.used n 7 <
      s.limit n - sumBy res (List.range 7)))

/-- How many class 0 threads a cluster keeps warm: the reservation spread evenly over the express clusters (R338), lower
clusters first (log 14, DESIGN CHOICE). -/
def State.warmOf (s : State) (k : Nat) : Nat :=
  let m := s.md.sched
  let n := countBelow 16 fun i => m.expClusters.getLsbD i
  let i := countBelow k fun i => m.expClusters.getLsbD i
  if n = 0 || !m.expClusters.getLsbD k then 0
  else (m.rec_ 0).resThr / n + (if i < (m.rec_ 0).resThr % n then 1 else 0)

/-- Warm threads of a cluster that no class 0 program holds (log 14, DESIGN CHOICE). -/
def State.warmFree (s : State) (k : Nat) : Nat :=
  s.warmOf k - (s.sx.threads.filter fun e => thCluster e.1 = k && s.clsOf e.2.sch = 0).length

/-- An instruction cache loads the resident text of a queue (R155). -/
def Cluster.load (c : Cluster) (q : Nat) : Cluster := { c with cache := if c.cache.contains q then c.cache else c.cache ++ [q] }

/-- The instruction caches that have power load the resident text of a queue (R155, R482). -/
def State.cacheText (s : State) (q : Nat) : State :=
  s.onPw fun p => { p with clusters := p.clusters.map fun c => if c.pad then c.load q else c }

/-- A class 0 program may start on a cluster: one of EXP_CLUSTERS (R338), or any while none of those runs (log 64, DESIGN CHOICE). -/
def State.expHome (s : State) (k : Nat) : Bool :=
  let m := s.md.sched.expClusters
  m.getLsbD k || !((List.range 16).any fun i => m.getLsbD i && !s.tally.fenced.getLsbD i)

/-- A thread may take a program of a class: it is free, its engine is up, a program of class 0 finds its text there, and no other class
takes a free warm thread (log 14, DESIGN CHOICE). -/
def State.threadFree (s : State) (th c : Nat) : Bool :=
  s.engineUp th && !AMap.has s.sx.threads th
    && (if c = 0 then s.expHome (thCluster th) else s.threadsOn (thCluster th) + s.warmFree (thCluster th) < 256)

/-! ## Deadlines and keys (R326 to R329) -/

/-- The submission queue that a subchannel is still bound to. -/
def State.boundSq (s : State) (sch : Nat) : Option SQ :=
  let c := s.ctxOf sch
  if c.sqv then s.sq? c.sqid else none

/-- The relative deadline D of a program's requests: that of its queue now, so that a MODIFY_SQ counts from the next request on
(R115, R327, R333); without the queue, the one that the program started with. -/
def State.relOf (s : State) (sch : Nat) : Nat := ((s.boundSq sch).map (·.deadline)).getD (s.progOf sch).rel

/-- The class by which a program's requests are stamped: that of its queue now, else the one it started with (R115, R333)
(log 68, DEDUCED). -/
def State.stampCls (s : State) (sch : Nat) : Nat := ((s.boundSq sch).map (·.cls)).getD (s.clsOf sch)

/-- The stamp of a request of a queue made at a time: whether it carries the class 7 key, and bits [47:0] of the key. -/
def stampClass (now base : Time) (cls rel : Nat) (v : Time) : Bool × Time :=
  if cls = 0 then (false, base)
  else if cls ≤ 5 then (false, addNs base rel)
  else if cls = 6 then (false, addNs (if before now v then v else now) 2000)
  else (true, now)

/-- The virtual clock of a program's class 6 queue; without the queue, the present time. -/
def State.vclockOf (s : State) (sch : Nat) : Time :=
  ((s.boundSq sch).map (·.vclock)).getD s.time

/-- The stamp of a request of a program; a demoted program carries the class 7 key (R335). -/
def State.stamp (s : State) (sch : Nat) (base : Time) : Bool × Time :=
  if (s.progOf sch).demoted then (true, s.time)
  else stampClass s.time base (s.stampCls sch) (s.relOf sch) (s.vclockOf sch)

/-- The ranking of R329. -/
def Req.less (a b : Req) : Bool :=
  if a.bg ≠ b.bg then b.bg
  else if a.dl ≠ b.dl then before a.dl b.dl
  else if a.rix ≠ b.rix then a.rix < b.rix
  else if a.sch ≠ b.sch then a.sch < b.sch
  else a.seq < b.seq

/-! ## Rings of completion queues (R68), as far as the ranking looks at them -/

def CQ.size (r : CQ) : Nat := 2 ^ r.log2

/-- Distance from one position to another, modulo twice the size. -/
def ringDist (size a b : Nat) : Nat := (b + 2 * size - a % (2 * size)) % (2 * size)

/-- R68: full when the indices are equal and the wrap bits differ. -/
def CQ.room (r : CQ) : Bool := ringDist r.size r.head r.tail < r.size

def CQ.toLegacy (r : CQ) (legOn : Bool) : Bool := r.legacy && legOn

/-- The completion can go now: the ring has room, or the legacy FIFO has. -/
def State.hasRoom (s : State) (r : CQ) : Bool :=
  if r.toLegacy s.q.legOn then s.q.leg.length < 4096 else r.room

/-- A queue has completions that its ring could take once HOST-WRITE is granted. -/
def State.compDue (s : State) (q : Nat) : Bool :=
  match s.cq? q with
  | none => false
  | some r => !r.toLegacy s.q.legOn && s.link.mayIssue && r.st = .active && r.room
    && (!r.held.isEmpty || s.q.waiting.any fun e => e.1 = q)

/-- The thread that runs a subchannel's program. -/
def State.thOf (s : State) (sch : Nat) : Option Nat := (s.sx.threads.find? fun e => e.2.sch = sch).map (·.1)

/-- A program has host writes to make: at its thread's next bundle, or when it has ended and XOUT is 0 (R224, R188, R171). -/
def State.storeDue (s : State) (sch : Nat) : Bool :=
  s.link.mayIssue && ((s.thOf sch).any s.engineUp
    || ((s.ctxOf sch).xout = 0 && (s.progOf sch).stores.any fun e => e.kind = .hostSlot || e.kind = .hostRaw))

/-- Add a request unless the same requester already waits. -/
def State.request (s : State) (res : Nat) (key : Bool × Time) (rix sch : Nat) (who : ReqWho) : State :=
  if s.md.reqs.any (fun r => r.who = who) then s
  else s.onMd fun m => { m with
    reqs := m.reqs ++ [⟨res, key.1, key.2, rix, sch, m.nextReq, who, false⟩], nextReq := m.nextReq + 1 }

/-- A request leaves the ranking, served or withdrawn (R332). -/
def State.withdraw (s : State) (who : ReqWho) : State :=
  s.onMd fun m => { m with reqs := m.reqs.filter fun r => r.who ≠ who }

def State.granted (s : State) (who : ReqWho) : Bool := s.md.reqs.any fun r => r.who = who && r.granted

/-- The freeze bit of a resource (R334). -/
def Meridian.frozen (m : Meridian) (res : Nat) : Bool :=
  if res = 0 then m.frzEng else if res = 1 then m.frzRd else if res = 2 then m.frzWr else m.frzEgr.getLsbD (res - 3)

/-- A granted request on a frozen resource. -/
def Meridian.holding (m : Meridian) : Bool := m.reqs.any fun r => r.granted && m.frozen r.res

/-- R334: once every frozen resource has released its grant, source 10 rises (R470). -/
def State.freezeDrained (s : State) : State :=
  if !s.md.drained && !s.md.holding then (s.onMd fun m => { m with drained := true }).irq 10 else s

/-- Whether the resource behind a request can serve it now: a thread, a read tag, a segment path. A program draws on the reservations of
its CLASS, whatever its queue has become (log 68, DEDUCED). -/
def State.servable (s : State) (r : Req) : Bool :=
  match r.who with
  | .dispatch sch => s.poolFree 1 (s.clsOf sch)
  | .ring q => s.poolFree 2 (((s.sq? q).map (·.cls)).getD 7)
  | .read d => s.poolFree 2 (((AMap.get? s.dma.descs d).map fun e => s.clsOf e.sch).getD 7)
  | .write _ => true
  | .exch sch => s.poolFree (5 + (r.res - 3)) (s.clsOf sch)
    || s.dev.exch.any fun e => e.2.st = .queued && e.2.sch = sch && e.2.quad = r.res - 3
  | .own _ => s.link.mayIssue && (r.res ≠ 1 || s.poolFree 2 7)
  | .comp q => s.compDue q
  | .msix v => s.link.pba.contains v && s.link.deliverable v
  | .store sch => s.storeDue sch
  | .answer x => (s.dma.devReads.any fun d => d.x = x && d.due) || (AMap.get? s.dev.exch x).any fun e => e.kind = 3 && (e.st = .sent || e.st = .reached)

/-- A request that its own row serves once it is the next to be granted: Meridian grants it there. -/
def ReqWho.selfServed (w : ReqWho) : Bool :=
  match w with
  | .own _ => true
  | .store _ => true
  | .dispatch _ => false
  | .ring _ => false
  | .write _ => false
  | .read _ => false
  | .exch _ => false
  | .comp _ => false
  | .msix _ => false
  | .answer _ => false

/-- The waiting request with the smallest key. -/
def leastReq (l : List Req) : Option Req :=
  match l with
  | [] => none
  | r :: l =>
    match leastReq l with
    | none => some r
    | some b => if b.less r then some b else some r


/-- A request that is made and served in one step would be granted now: the resource is not frozen, nobody holds it, and no waiting
request of another has a smaller key; a request that waits already keeps the key stamped on it (R326, R329, R331, R334). Every further
request with that key in the same step would win its own decision too. -/
def State.winsAs (s : State) (res : Nat) (key : Bool × Time) (rix sch : Nat) (who : ReqWho) : Bool :=
  let me := (s.md.reqs.find? fun r => r.who = who).getD ⟨res, key.1, key.2, rix, sch, s.md.nextReq, who, false⟩
  !s.md.frozen res && !(s.md.reqs.any fun r => r.res = res && r.granted && r.who ≠ who)
    && !(s.md.reqs.any fun r => r.res = res && r.who ≠ who && s.servable r && r.less me)

/-- The same for a request that never waits among those of Meridian. -/
def State.wins (s : State) (res : Nat) (key : Bool × Time) (rix sch : Nat) : Bool := s.winsAs res key rix sch (.dispatch sch)

/-! ## MSI-X messages (R50, R325, R473, R474) -/

/-- The key of a vector's message: that of the first entry which it announces (R326); other vectors are of the supervisor and carry the
class 7 key (log 46, DEDUCED). -/
def State.vecKey (s : State) (v : Nat) : Bool × Time :=
  match s.q.cqs.find? fun e => e.2.ien && e.2.vector = v && e.2.unann ≠ 0 with
  | some e => (e.2.annBg, e.2.annDl)
  | none => (true, s.time)

/-- Send the message of a vector, with the address and data of this moment. -/
def State.sendMsix (s : State) (v : Nat) : State :=
  let e := s.link.vec v
  (((s.withdraw (.msix v)).onLink fun l => { l with pba := l.pba.filter (· ≠ v) }).onQ fun q =>
    { q with cqs := announce v q.cqs }).emit (.msix v e.addr e.data)

/-- The message of a vector goes when HOST-WRITE is granted to it; until then, and while it is masked, its pending bit records it
(R50, R325). -/
def State.message (s : State) (v : Nat) : State :=
  if s.link.deliverable v && s.winsAs 2 (s.vecKey v) 3 0 (.msix v) then s.sendMsix v
  else
    let s1 := s.onLink fun l => { l with pba := if l.pba.contains v then l.pba else l.pba ++ [v] }
    if s.link.deliverable v then s1.request 2 (s.vecKey v) 3 0 (.msix v) else s1

/-- Signal a vector now. Vectors 6 and 7 are never signalled (R48); recovery mode sends vectors 0, 2 and 5 alone (R59)
(log 25, DEDUCED). -/
def State.signalNow (s : State) (v : Nat) : State :=
  if v = 6 || v = 7 || 2048 ≤ v || (s.link.ep = .recovery && !(v = 0 || v = 2 || v = 5)) then s else s.message v

/-- A record announced by a vector. -/
def AlmReq.tell (r : AlmReq) (v : Nat) : AlmReq := { r with vecs := r.vecs ++ [v] }

/-- Signal a vector. Vectors 4 and 5 announce an Almanac record: their message follows the writing of the record that was handed over
last, where one still waits (R473) (log 25, DEDUCED). -/
def State.signal (s : State) (v : Nat) : State :=
  let a := s.pl.alm
  if (v = 4 || v = 5) && !a.hold.isEmpty then
    s.onPl fun p => { p with alm := { p.alm with hold := modAt p.alm.hold (p.alm.hold.length - 1) (·.tell v) } }
  else if (v = 4 || v = 5) && !a.queue.isEmpty then
    s.onPl fun p => { p with alm := { p.alm with queue := modAt p.alm.queue (p.alm.queue.length - 1) (·.tell v) } }
  else s.signalNow v

/-- A recovery: one Almanac record and vector 4 (R400) (log 22, DEDUCED). -/
def State.recovery (s : State) (source code a0 a1 a2 : Nat) : State :=
  (s.event source 10 code a0 a1 a2 0).signal 4

/-- Ask for a thread (R128, R129): DREQ, the deadline stamped, a wait counted when the thread pool is full. -/
def State.requeueAt (s : State) (sch : Nat) (base : Time) : State :=
  let key := s.stamp sch base
  let s1 := (s.modCtx sch fun c => { c with dreq := true, deadline := key.2 }).modProg sch fun p => { p with missed := false, bg := key.1 }
  let s2 := if s.poolFree 1 (s.clsOf sch) then s1 else s1.waited 1
  s2.request 0 key 3 sch (.dispatch sch)

def State.requeue (s : State) (sch : Nat) : State := s.requeueAt sch s.time

/-! ## Waiters at a bound (R16, R17, R20) -/

/-- A piece waits to be sent. -/
def PieceSt.waits (t : PieceSt) : Bool :=
  match t with
  | .unsent _ _ => true
  | .sent _ => false
  | .ended _ _ => false
  | .cut => false

/-- The key of a program's present dispatch, as stamped (R326, R329); a demoted program carries the class 7 key. -/
def State.dispKey (s : State) (sch : Nat) : Bool × Time :=
  ((s.progOf sch).demoted || (s.progOf sch).bg, (s.ctxOf sch).deadline)

/-- The key of a request that carries the program's dispatch deadline (R326): a class 6 request is stamped by the virtual clock of this
moment (R328), a class 7 one and one of a demoted program by the device time of this moment (R329, R335). -/
def State.progKey (s : State) (sch : Nat) : Bool × Time :=
  if (s.progOf sch).demoted || 6 ≤ s.stampCls sch then s.stamp sch s.time else (false, (s.ctxOf sch).deadline)

/-- The key of a request that waits, stamped once (R326). -/
def State.reqKey (s : State) (who : ReqWho) (key : Bool × Time) : Bool × Time :=
  match s.md.reqs.find? fun r => r.who = who with
  | some r => (r.bg, r.dl)
  | none => key

/-- The ranking of R17 is that of R329. -/
def Waiter.less (a b : Waiter) : Bool :=
  Req.less ⟨a.bound, a.bg, a.dl, a.rix, a.sch, a.seq, .dispatch a.sch, false⟩ ⟨b.bound, b.bg, b.dl, b.rix, b.sch, b.seq, .dispatch b.sch, false⟩

/-- What a waiter waits for is still to be done. -/
def State.stillWaits (s : State) (w : Waiter) : Bool :=
  match w.who with
  | .text th => (s.th? th).any fun t => t.sch = w.sch
  | .load th => (s.th? th).any fun t => t.sch = w.sch
  | .reread q => (s.sq? q).any fun r => r.tries ≠ 0
  | .chan d => (AMap.get? s.dma.descs d).any fun x =>
    !x.chan && (if x.rd then x.done < x.count else x.pieces.any fun p => !p.issued)
  | .seg d piece => (AMap.get? s.dma.descs d).any fun x => x.done < x.count && !x.pieces.any fun p => p.idx = piece
  | .frame quad => !(s.fifoOf quad).rx.isEmpty
  | .dev x => (AMap.get? s.dev.exch x).any fun e => e.sch = w.sch && (e.st = .sent || e.st = .reached)
  | .own sch => AMap.has s.sub.prog sch
  | .restore th => AMap.has s.sx.stopped th
  | .sup => s.dma.sRd.isSome || s.dma.sWr.isSome

/-- The place of a waiter at a bound: the one it holds, or a new one behind the others. -/
def State.placeAt (s : State) (n : Nat) (key : Bool × Time) (rix sch cls : Nat) (who : WaitWho) : Waiter :=
  match s.md.waits.find? fun w => w.bound = n && w.who = who with
  | some w => w
  | none => ⟨n, cls, key.1, key.2, rix, sch, s.md.nextReq, who⟩

/-- A request may take a unit of a bound now: a unit is free to its class, and no waiter with a smaller key could take it (R17). -/
def State.turn (s : State) (n : Nat) (key : Bool × Time) (rix sch cls : Nat) (who : WaitWho) : Bool :=
  s.poolFree n cls && !(s.md.waits.any fun w => w.bound = n && w.who ≠ who && s.stillWaits w && s.poolFree n w.cls
    && w.less (s.placeAt n key rix sch cls who))

/-- A request leaves the waiters of a bound. -/
def State.unwait (s : State) (n : Nat) (who : WaitWho) : State :=
  s.onMd fun m => { m with waits := m.waits.filter fun w => !(w.bound = n && w.who = who) }

/-- A request joins the waiters of a bound, and counts once if it found the bound full (R20). -/
def State.await (s : State) (n : Nat) (key : Bool × Time) (rix sch cls : Nat) (who : WaitWho) : State :=
  if s.md.waits.any fun w => w.bound = n && w.who = who then s
  else (if s.poolFree n cls then s else s.waited n).onMd fun m => { m with
    waits := (m.waits.filter s.stillWaits) ++ [⟨n, cls, key.1, key.2, rix, sch, m.nextReq, who⟩], nextReq := m.nextReq + 1 }

/-- A text fetch or a load of a thread, or a reread: it asks for HOST-READ in the step that issues it. -/
def WaitWho.hostRead (w : WaitWho) : Bool :=
  match w with
  | .text _ => true
  | .load _ => true
  | .reread _ => true
  | .chan _ => false
  | .seg _ _ => false
  | .frame _ => false
  | .dev _ => false
  | .own _ => false
  | .sup => false
  | .restore _ => true

/-- What a grant of a resource chooses; a resource other than ENGINE has one holder at a time (R331), HOST-READ goes first to a
text fetch, load or reread that waits with a smaller key and could be served, and a request that its own row serves takes its turn
there. -/
def State.nextGrant (s : State) (res : Nat) : Option Req :=
  if s.md.frozen res || (res ≠ 0 && s.md.reqs.any fun r => r.res = res && r.granted) then none
  else match leastReq (s.md.reqs.filter fun r => r.res = res && !r.granted && s.servable r) with
    | none => none
    | some r =>
      if r.who.selfServed then none
      else if res = 1 && s.md.waits.any fun w => w.who.hostRead && s.stillWaits w && s.poolFree 2 w.cls
          && Req.less ⟨1, w.bg, w.dl, w.rix, w.sch, w.seq, .dispatch w.sch, false⟩ r then none
      else some r

/-- A granted dispatch comes first among those that have been granted and could take a thread (R17, R329). -/
def State.leastGranted (s : State) (sch : Nat) : Bool :=
  match s.md.reqs.find? fun r => r.who = .dispatch sch && r.granted with
  | none => false
  | some r => !(s.md.reqs.any fun x => x.res = 0 && x.granted && s.servable x && x.less r)

/-! ## Policing (R335) -/

/-- The effective acceptance time of a start, and whether it was policed. -/
def SQ.effective (r : SQ) (now : Time) (expWin : Nat) : Time × Bool :=
  if 5 < r.cls || r.burst = 0 then (now, false)
  else match r.accepts[r.burst - 1]? with
    | none => (now, false)
    | some a =>
      let due := addNs a (if r.cls = 0 then expWin else r.deadline)
      if before now due then (due, true) else (now, false)

/-! ## The Maquette test (R341 to R346) -/

/-- The demand of a queue record. -/
def SQ.demand (r : SQ) : Demand := ⟨r.cls, r.deadline, r.rate, r.burst, r.cost, r.textKib⟩

/-- The demands of the committed schedule: one for each submission queue of classes 0 to 6. -/
def demandsOf (sqs : AMap SQ) : List Demand :=
  ((sqs.filter fun e => e.1 ≠ 0 && e.2.cls < 7).map fun e => e.2.demand)

/-- The committed demand: of every queue, and of a deleted one until its commit (R345). -/
def State.demands (s : State) : List Demand := demandsOf s.q.sqs ++ s.md.leaving

/-- Units of work per start on a resource. -/
def Sched.unit (m : Sched) (d : Demand) (res : Nat) : Nat :=
  let r := m.rec_ d.cls
  if res = 0 then d.cost else if res = 1 then r.hbr else if res = 2 then r.hbw else r.eb

/-- The rate of R341, in units per ns. -/
def Sched.rho (m : Sched) (d : Demand) (res : Nat) : Rat :=
  let r := m.rec_ d.cls
  let w : Rat := (m.unit d res : Rat)
  if d.cls = 0 then d.burst * w / m.expWin
  else if d.cls ≤ 5 then d.burst * w / d.deadline
  else if res = 0 then d.cost * d.rate / (1000 * (r.hbr + r.hbw : Nat))
  else d.rate / 1000

/-- The demand-bound term of R341. -/
def Sched.delta (m : Sched) (d : Demand) (res l : Nat) : Rat :=
  let w : Rat := (m.unit d res : Rat)
  if d.cls = 0 then d.burst * w * (l / m.expWin + 1 : Nat)
  else if d.cls ≤ 5 then d.burst * w * (l / d.deadline : Nat)
  else m.rho d res * l

def sumRat (l : List Rat) : Rat :=
  match l with
  | [] => 0
  | a :: l => a + sumRat l

/-- Bytes per ns and lane of a PCIe generation, in thousandths (R342, R356). -/
def pcieRate (gen : Nat) : Nat :=
  if gen = 6 then 6875 else if gen = 5 then 3800 else if gen = 4 then 1900 else if gen = 3 then 950 else 0

def sasRate (code : Nat) : Nat := if code = 4 then 2400 else if code = 3 then 1200 else if code = 2 then 600 else 0

/-- Lanes that a mode gives a port (R353). -/
def modeLanes (mode p : Nat) : List Nat :=
  if mode = 1 || mode = 6 then if p = 0 then [0, 1, 2, 3] else []
  else if mode = 2 || mode = 5 then if p = 0 then [0, 1] else if p = 1 then [2, 3] else []
  else if mode = 3 || mode = 4 then if p < 4 then [p] else []
  else if mode = 7 then if p = 0 then [0, 1] else if p = 1 then [2] else if p = 2 then [3] else []
  else []

def isPcie (mode : Nat) : Bool := 1 ≤ mode && mode ≤ 3
def isSas (mode : Nat) : Bool := 4 ≤ mode && mode ≤ 7

/-- Thousandths of a byte per ns of one port: of all its lanes in PCIe mode, of one phy in SAS mode. A port that is up counts
at its rate and width, another at what R342 assumes. -/
def portRaw (mode : Nat) (p : Nat) (port : Port) : Option Nat :=
  if (modeLanes mode p).isEmpty then none
  else if isPcie mode then
    some (if port.st = 2 then pcieRate port.rate * port.width else 3800 * (modeLanes mode p).length)
  else some (if port.st = 2 then sasRate port.rate else 2400)

/-- The narrowest port of a quad. -/
def quadRaw (q : Quad) : Nat :=
  let l := (List.range 4).filterMap fun p => portRaw q.cfg.mode p (q.ports.getD p Port.reset)
  l.foldl min (l.headD 0)

/-- The usable capacity of R342. -/
def State.kappa (s : State) (m : Sched) (res : Nat) : Rat :=
  if res = 0 then (8 * (16 - max 1 s.fencedN) * m.engCap : Nat) / 1000
  else if res ≤ 2 then (s.link.width * pcieRate s.link.rate * m.hlCap : Nat) / 1000000
  else (quadRaw (s.quadOf (res - 3)) * m.egrCap : Nat) / 1000000

/-- The blocking term of R342. -/
def State.beta (s : State) (m : Sched) (res : Nat) : Rat :=
  if res = 0 then 40 * s.kappa m 0
  else if res ≤ 2 then 512
  else if isSas (s.quadOf (res - 3)).cfg.mode then 1104 else 512

/-- (log 46, DEDUCED) -/
def ppm (x : Rat) : Nat := min (x * 1000000).floor.toNat 0xFFFFFFFF

/-- The kind and index of a resource in the codes of R344. -/
def resKind (res : Nat) : Nat × Nat := if res ≤ 2 then (res + 1, 0) else (4, res - 3)

/-- MD_LOAD of a resource: committed u / κ in parts per million, and κ in thousandths (R351); a quad in OFF mode carries no demand
(R341). -/
def State.utilPpm (s : State) (res : Nat) : Nat :=
  let m := s.md.sched
  let u := sumRat (s.demands.map fun d => m.rho d res)
  if u = 0 || (3 ≤ res && (s.quadOf (res - 3)).cfg.mode = 0) then 0 else if s.kappa m res = 0 then 0xFFFFFFFF else ppm (u / s.kappa m res)

def State.capOf (s : State) (res : Nat) : Nat := (s.kappa s.md.sched res * 1000).floor.toNat

/-- The smallest number of a list that has a property. -/
def leastSuch (p : Nat → Bool) (l : List Nat) : Option Nat :=
  match l with
  | [] => none
  | a :: l =>
    match leastSuch p l with
    | none => if p a then some a else none
    | some b => if p a && a < b then some a else some b

/-- The interval lengths of the demand-bound test, none longer than h (log 46, DEDUCED). -/
def testPoints (ds : List Demand) (h : Nat) : List Nat :=
  (if 2000 ≤ h then [2000] else []) ++
  (ds.filter fun d => 1 ≤ d.cls && d.cls ≤ 5 && 0 < d.deadline).flatMap fun d =>
    (List.range (h / d.deadline)).map fun k => (k + 1) * d.deadline

/-- The test of one resource (R343) (log 46, DEDUCED). -/
def State.testRes (s : State) (m : Sched) (ds : List Demand) (res : Nat) : Option Refuse :=
  let u := sumRat (ds.map fun d => m.rho d res)
  let k := s.kappa m res
  let kind := resKind res
  let b2 := s.beta m res + sumRat ((ds.filter fun d => d.cls = 0).map fun d => m.delta d res 0)
  if k < u || (0 < b2 && u = k) then
    some ⟨4, kind.1, kind.2, if k = 0 then 0xFFFFFFFF else ppm (u / k)⟩
  else if b2 ≤ 0 then none
  else
    let load (l : Nat) : Rat := sumRat (ds.map fun d => m.delta d res l) + s.beta m res
    let h := (b2 / (k - u)).floor.toNat
    match leastSuch (fun l => k * l < load l) (testPoints ds h) with
    | some l => some ⟨5, kind.1, kind.2, ppm (load l / (k * l))⟩
    | none => none

/-- The need of a class in a pool (R343). -/
def Sched.need (m : Sched) (ds : List Demand) (c n : Nat) : Nat :=
  let r := m.rec_ c
  let k := sumBy (fun d => if d.cls = 6 then 1 else d.burst) (ds.filter fun d => d.cls = c)
  if n = 2 then k * ((r.hbr + 511) / 512)
  else if n = 3 then if r.hbr = 0 then 0 else k
  else if n = 4 then if r.hbw = 0 then 0 else k
  else if n = 37 then k * min 4096 ((max r.hbr r.hbw + 511) / 512)
  else k

def firstSome {α β : Type} (f : α → Option β) (l : List α) : Option β :=
  match l with
  | [] => none
  | a :: l => match f a with
    | some b => some b
    | none => firstSome f l

/-- The pools of the test, in bound order; the device exchanges once (R343). -/
def poolBounds : List Nat := [1, 2, 3, 4, 5, 37]

/-- The resources that the test visits: OFF quads are left out (R341). -/
def State.resources (s : State) : List Nat :=
  [0, 1, 2] ++ ((List.range 32).filter fun q => (s.quadOf q).cfg.mode ≠ 0).map (· + 3)

/-- The capacity part of the test: resources, pools, resident text. -/
def State.testCapacity (s : State) (m : Sched) (ds : List Demand) : Option Refuse :=
  match firstSome (s.testRes m ds) s.resources with
  | some r => some r
  | none =>
    match firstSome (fun n => firstSome (fun c =>
        if s.resv m n c < m.need ds c n then
          some (⟨6, 5, n, if s.resv m n c = 0 then 0xFFFFFFFF else ppm (m.need ds c n / s.resv m n c)⟩ : Refuse)
        else none) (List.range 7)) poolBounds with
    | some r => some r
    | none =>
      if m.textArea < sumBy (·.textKib) (ds.filter fun d => d.cls = 0) then some ⟨7, 0, 0, 0⟩ else none

/-- Whether a new record of a queue adds demand to the old one (R346): a new queue, a change of class, or a raised term. -/
def Demand.adds (d : Demand) (old : Option Demand) : Bool :=
  match old with
  | none => true
  | some o =>
    o.cls ≠ d.cls || o.textKib < d.textKib || o.cost < d.cost || o.burst < d.burst || o.rate < d.rate
      || d.deadline < o.deadline

/-- The Maquette test of one changed queue (R343): `others` are the demands of every other queue, `old` its own before. -/
def State.maquette (s : State) (others : List Demand) (old : Option Demand) (d : Demand) : Option Refuse :=
  let m := s.md.sched
  if s.md.degraded && d.adds old then some ⟨8, s.md.failKind, s.md.failIndex, 0⟩
  else if !s.md.valid then some ⟨1, 0, 0, 0⟩
  else if !m.admitted.getLsbD d.cls then some ⟨2, 0, d.cls, 0⟩
  else if 1 ≤ d.cls && d.cls ≤ 5 && d.deadline < 4 * d.cost + 900 then some ⟨3, 1, 0, 0⟩
  else s.testCapacity m (others ++ [d])

def Refuse.result (r : Refuse) : Word :=
  BitVec.ofNat 64 (r.code + r.kind * 2 ^ 8 + r.index * 2 ^ 16 + r.ppm * 2 ^ 32)

/-- The re-test of R346, after a change of the resource `change`. -/
def State.retest (s : State) (change : Nat) : State :=
  match s.testCapacity s.md.sched s.demands with
  | some r =>
    let s1 := s.onMd fun m => { m with degraded := true, failKind := r.kind, failIndex := r.index }
    let s2 := s1.event 1 3 3 r.kind r.index 0 0
    if s.md.degraded then s2 else s2.signal 4
  | none =>
    if s.md.degraded then
      ((s.onMd fun m => { m with degraded := false, failKind := 0, failIndex := 0 }).event 1 3 4 0 0 0 0).signal 4
    else s.event 1 3 2 change 0 0 0

/-- A capacity change of a resource: the supervisor hears of it on source 9 (R470), and a re-test falls due (R346). -/
def State.capacity (s : State) (change : Nat) : State :=
  (s.irq 9).onMd fun m => { m with retests := if m.retests.contains change then m.retests else m.retests ++ [change] }

/-! ## The boot schedule (R339, R340) -/

def recDefault (c : Nat) : ClassRec :=
  if c = 0 then ⟨1000000, 0, 4160, 80, 128, 0, 16, 32, 64, 1024⟩
  else if c ≤ 5 then ⟨1000000, 4160, 4160, 4240, 192, 512, 32, 32, 192, 8192⟩
  else ⟨1000000, 65536, 65536, 65600, 256, 1024, 64, 64, 256, 16384⟩

/-- The schedule of an image without the section (R339). -/
def Sched.default : Sched where
  admitted := 0x7F
  engCap := 850
  hlCap := 900
  egrCap := 900
  expClusters := 0xFFFF
  textArea := 64
  expWin := 10000
  budget7 := 1000000
  cls := (List.range 7).map recDefault

def budgetOf (n : Nat) : Nat := if n = 0 then 1000000 else n

/-- A class record of the section body. -/
def readRec (b : List Byte) (c : Nat) : ClassRec :=
  let o := 32 + 48 * c
  ⟨budgetOf (rd b o 4), rd b (o + 4) 4, rd b (o + 8) 4, rd b (o + 12) 4, rd b (o + 16) 2, rd b (o + 18) 2, rd b (o + 20) 2,
    rd b (o + 22) 2, rd b (o + 24) 2, rd b (o + 28) 4⟩

def readSched (b : List Byte) : Sched where
  admitted := BitVec.ofNat 8 (rd b 2 1)
  engCap := rd b 4 2
  hlCap := rd b 6 2
  egrCap := rd b 8 2
  expClusters := BitVec.ofNat 16 (rd b 10 2)
  textArea := rd b 12 1
  expWin := rd b 16 4
  budget7 := budgetOf (rd b 20 4)
  cls := (List.range 7).map (readRec b)

/-- The limit of a pool in R16, against which R340 tests the reservations. -/
def poolLimit (n : Nat) : Nat :=
  if n = 1 then 4096 else if n = 2 then 8192 else if n = 3 || n = 4 then 512 else if n = 37 then 131072 else 4096

def ClassRec.pool (r : ClassRec) (n : Nat) : Nat :=
  if n = 1 then r.resThr else if n = 2 then r.resTag else if n = 3 then r.resRd else if n = 4 then r.resWr
  else if n = 37 then r.resSeg else r.resExch

/-- The reserved bytes of the body are 0, FMT is 1 and every field is in range: the first rule of R340. -/
def schedFieldsOk (b : List Byte) (m : Sched) : Bool :=
  b.length = 368 && rd b 0 2 = 1 && rd b 3 1 = 0 && rd b 13 3 = 0 && rd b 24 8 = 0 && !m.admitted.getLsbD 7
    && (List.range 7).all (fun c => rd b (32 + 48 * c + 26) 2 = 0 && rd b (32 + 48 * c + 32) 16 = 0)
    && 1 ≤ m.engCap && m.engCap ≤ 1000 && 1 ≤ m.hlCap && m.hlCap ≤ 1000 && 1 ≤ m.egrCap && m.egrCap ≤ 1000
    && 1 ≤ m.textArea && m.textArea ≤ 128 && 1000 ≤ m.expWin && m.expWin ≤ 1000000

/-- The number, counted from 1, of the first rule of R340 that a schedule breaks; 0 for none. -/
def schedRule (b : List Byte) (m : Sched) : Nat :=
  let r := m.rec_
  if !schedFieldsOk b m then 1
  else if !((List.range 7).all fun c => m.admitted.getLsbD c ||
      { r c with budget := 0 } = ClassRec.zero) then 2
  else if !(poolBounds.all fun n => sumBy (fun c => (r c).pool n) (List.range 7) ≤ poolLimit n) then 3
  else if m.admitted.getLsbD 0 && (m.expClusters = 0 ||
      256 * countBelow 16 (fun k => m.expClusters.getLsbD k) < (r 0).resThr) then 4
  else if m.admitted.getLsbD 6 && (r 6).hbr + (r 6).hbw = 0 then 5
  else 0

/-- Keep the budgets of a rejected body and take every other value of a schedule with no classes (R340), those in range too (log 64,
DESIGN CHOICE). -/
def Sched.refused (m : Sched) : Sched :=
  { Sched.noClasses with expClusters := 0xFFFF, budget7 := m.budget7, cls := m.cls.map fun r => { ClassRec.zero with budget := r.budget } }

/-- Test and commit the boot schedule: no queue demand, SCHED_GEN 0 (R340, R345). -/
def State.commitBoot (s : State) (body : Option (List Byte)) : State :=
  match body with
  | none => s.onMd fun m => { m with sched := Sched.default, valid := true, gen := 0 }
  | some b =>
    let m0 := readSched b
    let rule := schedRule b m0
    if rule = 0 then s.onMd fun m => { m with sched := m0, valid := true, gen := 0 }
    else (s.onMd fun m => { m with sched := m0.refused, valid := false, gen := 0 }).event 1 3 1 rule 0 0 0

/-- The budget of a class in the committed schedule (R193). -/
def Sched.budget (m : Sched) (c : Nat) : Nat := if c = 7 then budgetOf m.budget7 else budgetOf (m.rec_ c).budget

end Sys2Proof.Machine
end

