-- ==== Sys2Proof/Machine/Complete.lean ====
section
/-! DEFINITION. Sys2Proof/Machine/Complete.lean: queue positions, queue events, and posting completions to rings, the legacy
FIFO and held lists. -/

namespace Sys2Proof.Machine

/-! ## Rings (R68 to R70) -/

/-- Ring size. -/
def SQ.size (r : SQ) : Nat := 2 ^ r.log2

def ringNext (size p : Nat) : Nat := (p + 1) % (2 * size)

/-- The phase of an entry at a position (R70): 1 in the laps whose wrap bit is 0. -/
def ringPhase (size p : Nat) : Bool := p / size % 2 = 0

/-- Index and wrap bit as the formats place them: the wrap bit above 16 bits. -/
def ringBits (size p : Nat) : Nat := p % size + 65536 * (p / size % 2)

/-! ## Queue events (R95) -/

/-- Report an event in QM_QEVT and signal vector 3; the event that finds 256 waiting is dropped. -/
def State.queueEvent (s : State) (q : Nat) (full : Bool) (cause index : Nat) (wrap : Bool) : State :=
  let s1 := if s.q.qevt.length < 256 then
      s.onQ fun x => { x with qevt := x.qevt ++ [⟨q, full, cause, index, wrap⟩] }
    else s.onQ fun x => { x with qevtLost := true }
  (s1.irq 1).signal 3

/-! ## Completion entries (R79) -/

/-- SQHD with its wrap bit: the consumption index of a submission queue now (log 15, DESIGN CHOICE). -/
def State.sqhd (s : State) (q : Nat) : Nat :=
  match s.sq? q with
  | some r => ringBits r.size r.c
  | none => (Config.absentSqhd s.fresh).toNat

def cqeBits (c : Comp) (sqhd : Nat) (phase : Bool) : BitVec 256 :=
  BitVec.ofNat 256 (c.ctype + c.reason * 2 ^ 8 + c.cid.toNat * 2 ^ 16 + c.sch * 2 ^ 32 + sqhd * 2 ^ 64 + c.sqid * 2 ^ 96
    + b2n phase * 2 ^ 127 + c.status * 2 ^ 128 + c.result.toNat * 2 ^ 160 + (c.time.toNat % 2 ^ 32) * 2 ^ 224)

/-- The INTERMEDIATE entry of a subchannel (R182). -/
def interComp (sch : Nat) (c : Ctx) : Comp where
  ctype := 2
  reason := 0
  cid := c.cid
  sch := sch
  sqid := c.sqid
  status := c.dstat.toNat + c.cstat.toNat * 2 ^ 16
  result := BitVec.ofNat 64 (c.residual.toNat + c.iscnt.toNat * 2 ^ 32 + c.gen.toNat % 2 ^ 16 * 2 ^ 48)
  time := c.istTime
  cls := c.cls

/-- The FINAL entry of a subchannel (R140). -/
def finalComp (sch : Nat) (c : Ctx) : Comp where
  ctype := 1
  reason := 0
  cid := c.cid
  sch := sch
  sqid := c.sqid
  status := c.dstat.toNat + c.pchk.toNat * 2 ^ 8 + c.cstat.toNat * 2 ^ 16
  result := BitVec.ofNat 64 (c.residual.toNat + c.istot.toNat * 2 ^ 32 + c.gen.toNat % 2 ^ 16 * 2 ^ 48)
  time := c.finTime
  cls := c.cls

/-! ## The request of a completion (R325, R326) -/

/-- The key of a completion: the time at which it became pending, plus D of its CLASS (R326); one of the admin queue carries the class 7
key. -/
def State.compStamp (s : State) (cls sqid : Nat) (t : Time) : Bool × Time :=
  match s.sq? sqid with
  | some r => stampClass t t cls r.deadline r.vclock
  | none => stampClass t t cls 0 t

/-- The key of the next entry of a held or waiting place: an intermediate count first (R99). -/
def State.heldKey (s : State) (h : Held) : Bool × Time :=
  match h with
  | .comp c => if c.sqid = 0 then (true, c.time) else s.compStamp c.cls c.sqid c.time
  | .sub sch =>
    let c := s.ctxOf sch
    s.compStamp c.cls c.sqid (if c.iscnt ≠ 0 then c.istTime else c.finTime)

def Held.sch (h : Held) : Nat :=
  match h with
  | .comp c => c.sch
  | .sub sch => sch

/-- A completion goes now: into the legacy FIFO, which is on-die, or on the host link once HOST-WRITE is its queue's (R64, R116, R325). -/
def State.canWrite (s : State) (q : Nat) (r : CQ) (h : Held) : Bool :=
  r.toLegacy s.q.legOn || (s.link.mayIssue && s.winsAs 2 (s.heldKey h) 3 h.sch (.comp q))

/-- The completion that a queue writes next: what waits for its grant stands before what is held. -/
def State.nextComp (s : State) (q : Nat) (r : CQ) : Option Held :=
  match s.q.waiting.find? fun e => e.1 = q with
  | some e => some e.2
  | none => r.held.head?

/-- Ask Meridian for the write of a queue's next completion. -/
def State.wantComp (s : State) (q : Nat) : State :=
  match s.cq? q with
  | none => s
  | some r =>
    match s.nextComp q r with
    | none => s
    | some h => if r.toLegacy s.q.legOn || r.st ≠ .active || !r.room then s else s.request 2 (s.heldKey h) 3 h.sch (.comp q)

/-! ## Writing one entry -/

/-- R103: count the entry, and start the aggregation timer at the first one not yet announced, whose key the message carries (R326). -/
def CQ.counted (r : CQ) (now : Time) (key : Bool × Time) : CQ :=
  { r with
    unann := r.unann + 1, annBg := if r.unann = 0 then key.1 else r.annBg, annDl := if r.unann = 0 then key.2 else r.annDl,
    aggDue := if r.unann = 0 && r.aggTime ≠ 0 then some (addNs now (r.aggTime * 1000)) else r.aggDue }

/-- R103, R474: the message falls due when AGG_COUNT entries are unannounced. -/
def State.announceAt (s : State) (q : Nat) : State :=
  match s.cq? q with
  | none => s
  | some r => if r.ien && r.aggCount ≤ r.unann then s.signal r.vector else s

/-- R117: a completion as the legacy FIFO holds it (log 58, DEDUCED). A REJECT or NOP completion shows DSTAT and CSTAT 0, its type
and reason have no field, and SCH keeps its low 16 bits (log 64, DESIGN CHOICE). -/
def legOf (c : Comp) : LegEntry where
  sch := c.sch
  dstat := BitVec.ofNat 8 (if c.ctype ≤ 2 then c.status % 256 else 0)
  cstat := BitVec.ofNat 16 (if c.ctype ≤ 2 then c.status / 2 ^ 16 else 0)
  cls := c.cls
  inter := c.ctype = 2
  cid := c.cid

/-- Write one completion: into the legacy FIFO (R116), or at the tail of the ring, which serves the queue's request. A ring whose PASID is
disabled refuses the request (R47): the entry is not accepted, and so neither counted nor announced (R474). -/
def State.writeComp (s : State) (q : Nat) (r : CQ) (c : Comp) : State :=
  let key := s.heldKey (.comp c)
  if r.toLegacy s.q.legOn then
    ((s.setCq q (r.counted s.time key)).onQ fun x => { x with leg := x.leg ++ [legOf c] }).announceAt q
  else
    let tail := ringNext r.size r.tail
    let s1 := { s with fresh := s.fresh + 1 }.withdraw (.comp q)
    if r.pasid.isSome && !s.link.pasidEn then (s1.setCq q { r with tail := tail }).urSent
    else
      let slot := r.tail % r.size
      let s2 := ((s1.setCq q { r.counted s.time key with tail := tail }).emit (.cqe q slot (r.base + BitVec.ofNat 64 (32 * slot)) r.pasid
        (cqeBits c (s.sqhd c.sqid) (ringPhase r.size r.tail)))).announceAt q
      if q = 1 && !s.hasRoom { r with tail := tail } then s2.irq 2 else s2

/-- R102: the ring-full event of a queue. Such an event latches no position: INDEX and WRAP are 0 (log 64, DESIGN CHOICE). -/
def State.ringFullEvent (s : State) (q : Nat) : State :=
  let s1 := (s.onQ fun x => { x with ringFull := inc16 x.ringFull }).queueEvent q true 0 0 false
  if q = 1 then s1.irq 2 else s1

/-- Link a place onto the held list (R98, R99): the first one raises the ring-full event (R102). A subchannel stands once. -/
def State.hold (s : State) (q : Nat) (r : CQ) (h : Held) : State :=
  let s1 := s.setCq q { r with held := match h with
    | .sub _ => if r.held.contains h then r.held else r.held ++ [h]
    | .comp _ => r.held ++ [h] }
  let s2 := match h with
    | .sub sch => s1.modCtx sch fun c => { c with held := true }
    | .comp _ => s1
  let s3 := if r.held.isEmpty then s2.ringFullEvent q else s2
  (s3.waited 40).mark 40

/-! ## The end of a subchannel's status (R134, R138) -/

/-- Clear every binding (R138). -/
def Ctx.unbind (c : Ctx) : Ctx :=
  { c with sqid := 0, cqid := 0, stb := 0, sqv := false, cqv := false, stv := false, pset := 0, psv := false, kpasid := none }

/-- R134: the FINAL has been written; the subchannel becomes IDLE, or DISABLED with its bindings cleared. -/
def State.finalWritten (s : State) (sch : Nat) : State :=
  ((s.modCtx sch fun c =>
    if c.disend then { c.unbind with state := .disabled, held := false } else { c with state := .idle, held := false }).tallyReturn 0 1)

/-- Write what a subchannel owes, one entry: its intermediate count first, then its final status (R99). Answers whether
anything is left to write. -/
def State.writeSub (s : State) (q : Nat) (r : CQ) (sch : Nat) : State × Bool :=
  let c := s.ctxOf sch
  if c.iscnt ≠ 0 then
    let s1 := (s.writeComp q r (interComp sch c)).modCtx sch fun c => { c with iscnt := 0 }
    (s1, c.state = .statusPending)
  else if c.state = .statusPending then ((s.writeComp q r (finalComp sch c)).finalWritten sch, false)
  else (s, false)

/-- R100: drain the held list in order while the queue is ACTIVE, there is room, and the write of the next entry is granted. -/
def State.drain (n : Nat) (s : State) (q : Nat) : State :=
  match n with
  | 0 => s
  | n + 1 =>
    match s.cq? q with
    | none => s
    | some r =>
      match r.held with
      | [] => s
      | h :: rest =>
        if r.st = .active && s.hasRoom r && s.canWrite q r h then
          match h with
          | .comp c => State.drain n (s.writeComp q { r with held := rest } c) q
          | .sub sch =>
            let x := s.writeSub q r sch
            let s1 := if x.2 then x.1 else
              match x.1.cq? q with
              | some r1 => (x.1.setCq q { r1 with held := rest }).modCtx sch fun c => { c with held := false }
              | none => x.1
            State.drain n s1 q
        else s

/-- Drain as far as the list, the ring and Meridian allow; what is left with room asks for its grant. -/
def State.drainAll (s : State) (q : Nat) : State :=
  match s.cq? q with
  | none => s
  | some r => (State.drain (2 * r.held.length) s q).wantComp q

/-! ## Posting -/

/-- The held list takes what comes now, whatever the link does: the queue is PAUSED or in ERROR, something is held already, or
the ring is full (R98). -/
def State.mustHold (s : State) (r : CQ) : Bool := r.st ≠ .active || !r.held.isEmpty || !s.hasRoom r

/-- Completions that only lack the link or their grant wait in order (R64, R325). -/
def State.parkComps (s : State) (q : Nat) (l : List Held) : State :=
  (s.onQ fun x => { x with waiting := x.waiting ++ l.map fun h => (q, h) }).wantComp q

/-- Send what one place owes, at most `n` entries: it is held, waits for its grant, or is written. Answers whether it waits. -/
def State.sendOne (n : Nat) (s : State) (q : Nat) (h : Held) : State × Bool :=
  match n with
  | 0 => (s, false)
  | n + 1 =>
    match s.cq? q with
    | none => (s, false)
    | some r =>
      if s.mustHold r then (s.hold q r h, false)
      else if !s.canWrite q r h then (s, true)
      else match h with
        | .comp c => (s.writeComp q r c, false)
        | .sub sch =>
          let x := s.writeSub q r sch
          if x.2 then State.sendOne n x.1 q h else (x.1, false)

/-- Send places in order; the first that waits for its grant keeps the others behind it. -/
def State.sendAll (l : List Held) (s : State) (q : Nat) : State :=
  match l with
  | [] => s
  | h :: l =>
    let x := s.sendOne 2 q h
    if x.2 then x.1.parkComps q (h :: l) else State.sendAll l x.1 q

/-- Send one place, behind what its queue has waiting. -/
def State.sendHeld (s : State) (q : Nat) (h : Held) : State :=
  if s.q.waiting.any fun e => e.1 = q then s.parkComps q [h] else State.sendAll [h] s q

/-- Post a completion of the admin queue, a reject or a NOP completion (R80, R98). While the link cannot carry it, or HOST-WRITE is
another's, it waits (R64, R325). -/
def State.postComp (s : State) (q : Nat) (c : Comp) : State := if (s.cq? q).isSome then s.sendHeld q (.comp c) else s

/-- Post what a subchannel owes: an intermediate count, a final status, or both. -/
def State.postSub (s : State) (sch : Nat) : State :=
  let q := (s.ctxOf sch).cqid
  if (s.cq? q).isNone then s
  else if (s.ctxOf sch).held then (s.waited 40).mark 40
  else if s.q.waiting.contains (q, .sub sch) then s
  else s.sendHeld q (.sub sch)

/-- What waited goes out, in order; what finds its queue full, PAUSED or in ERROR goes to the held list (R64, R98). -/
def State.unpark (s : State) (q : Nat) : State :=
  let parked := (s.q.waiting.filter fun e => e.1 = q).map (·.2)
  if parked.isEmpty then s
  else State.sendAll parked (s.onQ fun x => { x with waiting := x.waiting.filter fun e => e.1 ≠ q }) q

/-- What waits and what is held go on: their request was granted, or the link carries them again. -/
def State.sendComps (s : State) (q : Nat) : State := (s.unpark q).drainAll q

/-- When the next entry of a place became pending (R79). -/
def State.heldTime (s : State) (h : Held) : Time :=
  match h with
  | .comp c => c.time
  | .sub sch => if (s.ctxOf sch).iscnt ≠ 0 then (s.ctxOf sch).istTime else (s.ctxOf sch).finTime

/-- The ACTIVE legacy-routed queue whose next completion became pending first; of two at one time, the lower queue ID
(log 64, DESIGN CHOICE). -/
def State.legHead (s : State) : Option Nat :=
  (s.q.cqs.foldl (fun (a : Option (Nat × Time)) e =>
    match (if e.2.legacy && e.2.st = .active then s.nextComp e.1 e.2 else none), a with
    | none, _ => a
    | some h, none => some (e.1, s.heldTime h)
    | some h, some b => if before (s.heldTime h) b.2 then some (e.1, s.heldTime h) else a) none).map (·.1)

/-- The next completion of a queue goes. -/
def State.sendFirst (s : State) (q : Nat) : State :=
  match s.q.waiting.find? fun e => e.1 = q with
  | some e => State.sendAll [e.2] (s.onQ fun x => { x with waiting := x.waiting.erase e }) q
  | none => State.drain 1 s q

/-- R116, R117: completions enter the legacy FIFO in pending order while it has room. -/
def State.fillLegacy (n : Nat) (s : State) : State :=
  match n with
  | 0 => s
  | n + 1 =>
    if !s.q.legOn || 4096 ≤ s.q.leg.length then s
    else match s.legHead with
      | none => s
      | some q => State.fillLegacy n (s.sendFirst q)

/-- Every completion of the legacy-routed queues that can enter the FIFO does. -/
def State.drainLegacy (s : State) : State :=
  State.fillLegacy (2 * (s.q.waiting.length + sumBy (fun e => if e.2.legacy then e.2.held.length else 0) s.q.cqs)) s

/-- Post what waited and drain every held list, queue by queue (R64). -/
def State.postWaiting (s : State) : State := s.q.cqs.foldl (fun t e => t.sendComps e.1) s

/-- The messages that pending bits record and that can go now, in the order in which the bits were set (R50) (log 64, DESIGN CHOICE). -/
def State.sendPending (s : State) : State :=
  s.link.pba.foldl (fun t v => if t.link.deliverable v then t.message v else t) s

def admLog2Ok (n : Nat) : Bool := 1 ≤ n && n ≤ 12

/-- The admin pair runs: ENABLE is 1 and both sizes are in range (R104). -/
def Queues.admOn (x : Queues) : Bool := x.admEnable && admLog2Ok x.admSqLog2 && admLog2Ok x.admCqLog2

/-- The admin pair stops once ENABLE is 0 and no command is in progress: READY falls, and the pair is gone (R104). A completion that still
stands on queue 1's held list keeps READY 1 until it is written (log 64, DESIGN CHOICE). -/
def State.admSettle (s : State) : State :=
  let busy := match s.sq? 0 with
    | some r => !r.taken.isEmpty
    | none => false
  let owed := match s.cq? 1 with
    | some r => !r.held.isEmpty
    | none => false
  if s.q.admOn || !s.q.admReady || busy || owed || s.q.waiting.any (fun e => e.1 = 1) then s
  else s.onQ fun x => { x with admReady := false, sqs := AMap.del x.sqs 0, cqs := AMap.del x.cqs 1 }

/-- The link can issue again: waiting completions, held lists, pending messages (R64). -/
def State.linkResumes (s : State) : State :=
  (s.postWaiting.admSettle).sendPending

/-! ## Rejects (R77, R127) and the admin completion (R108) -/

/-- A REJECT on the paired completion queue; REJ_BUSY and REJ_DISABLED count (R150) (log 58, DEDUCED). -/
def State.reject (s : State) (cq : Nat) (reason : Nat) (cid : BitVec 16) (sch sqid cls : Nat) : State :=
  let s1 := if reason = 2 then s.onSub fun b => { b with rejBusy := inc16 b.rejBusy }
    else if reason = 3 then s.onSub fun b => { b with rejDisabled := inc16 b.rejDisabled } else s
  s1.postComp cq ⟨4, reason, cid, sch, sqid, 0, 0, s.time, cls⟩

/-- Reject, NOP and admin completions in the overflow area of a completion queue (R98). -/
def State.overflowUse (s : State) (q : Nat) : Nat :=
  match s.cq? q with
  | none => 0
  | some r =>
    (r.held.filter fun h => match h with
      | .comp _ => true
      | .sub _ => false).length
    + (s.q.waiting.filter fun e => e.1 = q && (match e.2 with
      | .comp _ => true
      | .sub _ => false)).length

end Sys2Proof.Machine
end

