-- ==== Sys2Proof/Machine/Units.lean ====
section
/-! DEFINITION. Sys2Proof/Machine/Units.lean: units of the bounded pools taken and returned, each with its Tally line and
high-water mark (R20, R394), and the words of the global scratchpad. -/

namespace Sys2Proof.Machine

/-! ## Threads (bound 1) -/

/-- A thread has what it waited for: from now on its engine is watched (R402). -/
def State.nowReady (s : State) (th : Nat) : State := s.onSx fun x => { x with readyAt := AMap.put x.readyAt th s.time }

/-- The class 0 queue whose resident text a program reads, which the instruction cache of its cluster holds (R155). -/
def State.textQueue (s : State) (sch : Nat) : Option Nat :=
  let c := s.ctxOf sch
  if c.sqv && ((s.sq? c.sqid).any fun r => r.cls = 0) then some c.sqid else none

/-- A thread takes a program; its cluster leaves NAP, and its instruction cache holds the program's resident text (R155). -/
def State.takeThread (s : State) (th : Nat) (t : Thread) : State :=
  ((((s.nowReady th).setTh th t).modClu (thCluster th) fun c =>
    { (match s.textQueue t.sch with
      | some q => c.load q
      | none => c) with st := .run }).tallyIssue 1 1).mark 1

/-- No thread: the owner of the reads that a thread abandoned. -/
def noThread : Nat := 4608

/-- A read of a thread loses its owner; its tag stays in use until it is answered. -/
def ReadUnit.orphan (u : ReadUnit) (th : Nat) : ReadUnit :=
  match u with
  | .text t l => .text (if t = th then noThread else t) l
  | .load t i => .load (if t = th then noThread else t) i
  | .ring q p n => .ring q p n
  | .dma d p o l => .dma d p o l

/-- What is left of a descriptor on channel S. -/
def SupDesc.left (d : Option SupDesc) : Nat := (d.map fun x => x.ext.len - x.done).getD 0

/-- The reads of a thread are abandoned (R221). -/
def State.orphans (s : State) (th : Nat) : State :=
  s.onLink fun l => { l with reads := l.reads.map fun e => (e.1, e.2.orphan th) }

/-- A thread gives up its program: its reads are abandoned, its checkpoint records go, and with them its request for host writes. -/
def State.dropThread (s : State) (th : Nat) : State :=
  match s.th? th with
  | some t => (((s.delTh th).orphans th |>.onSx fun x => { x with ckpt := AMap.del x.ckpt th, readyAt := AMap.del x.readyAt th }).withdraw
      (.store t.sch)).tallyReturn 1 1
  | none => s

/-! ## Host reads (bound 2) -/

/-- No piece: what a read of a descriptor fills whose piece has left the engine. -/
def noPiece : Nat := 2 ^ 40

/-- The reads under way for pieces of a descriptor lose them; their tags stay in use until they are answered. -/
def State.orphanDma (s : State) (d : Nat) (ks : List Nat) : State :=
  s.onLink fun l => { l with reads := l.reads.map fun e => match e.2 with
    | .dma d' k a n => if d' = d && ks.contains k then (e.1, .dma d noPiece a n) else e
    | .ring _ _ _ => e
    | .text _ _ => e
    | .load _ _ => e }

def State.takeRead (s : State) (tag : Nat) (u : ReadUnit) : State :=
  ((s.onLink fun l => { l with reads := AMap.put l.reads tag u }).tallyIssue 1 1).mark 2
def State.dropRead (s : State) (tag : Nat) : State :=
  if AMap.has s.link.reads tag then
    (s.onLink fun l => { l with reads := AMap.del l.reads tag, noIssue := l.noIssue.filter (· ≠ tag) }).tallyReturn 1 1
  else s

/-- A tag of the width in use that no read holds (R32). -/
def State.tagFree (s : State) (tag : Nat) : Bool :=
  !AMap.has s.link.reads tag && tag < 2 ^ (if s.link.tagw = 2 then 14 else if s.link.tagw = 1 then 10 else 8)

/-- How a failed or poisoned completion counts (R65, R66). -/
def State.countCpl (s : State) (st : CplStatus) : State :=
  match st with
  | .ok => s
  | .ur => s.onLink fun l => { l with cplErr := inc16 l.cplErr }
  | .ca => s.onLink fun l => { l with cplErr := inc16 l.cplErr }
  | .timeout => s.onLink fun l => { l with cplTimeout := inc16 l.cplTimeout, aer := { l.aer with cplTimeout := true } }
  | .poison => s.onLink fun l => { l with poisonRx := inc16 l.poisonRx }

/-- A read request leaves for the host; one whose PASID is disabled at this moment does not, and counts as answered with
Unsupported Request (R47) (log 26, DEDUCED). -/
def State.hostRead (s : State) (tag : Nat) (addr : Word) (pasid : Option (BitVec 20)) (len : Nat) : State :=
  if pasid.isSome && !s.link.pasidEn then s.onLink fun l => { l with noIssue := l.noIssue ++ [tag] }
  else s.emit (.hostRead tag addr pasid s.link.relaxed len)

/-- How a read ended: one that was not issued ended with Unsupported Request (R47) (log 26, DEDUCED). -/
def State.cplOf (s : State) (tag : Nat) (st : CplStatus) : CplStatus := if s.link.noIssue.contains tag then .ur else st

/-- A completion that arrives on a discarding IDE stream is discarded; its read ends with a timeout (R56). -/
def Link.drops (l : Link) (st : CplStatus) : Bool := l.ide.discarding && st ≠ .timeout

/-- A write that carries a PASID does not leave while PASID Enable is 0 (R47). -/
def State.refusesWrite (s : State) (pasid : Option (BitVec 20)) : Bool := pasid.isSome && !s.link.pasidEn

/-- A write request leaves for the host (R44); one whose PASID is disabled does not, and counts as refused (R47, R65)
(log 26, DEDUCED). -/
def State.hostWrite (s : State) (addr : Word) (pasid : Option (BitVec 20)) (poisoned : Bool) (data : List Byte) : State :=
  if s.refusesWrite pasid then s.urSent
  else s.emit (.hostWrite addr pasid s.link.relaxed poisoned data)

/-- The runs of `n` bytes from byte `a` of a segment that lie in poisoned buffer words: each with its offset in the run and its length. -/
def poisonRuns (p : BitVec 8) (a n : Nat) : List (Nat × Nat) :=
  (List.range 8).filterMap fun k =>
    let lo := max a (64 * k)
    let hi := min (a + n) (64 * k + 64)
    if p.getLsbD k && lo < hi then some (lo - a, hi - lo) else none

/-- The words of the global scratchpad that bytes [addr, addr + n) touch. -/
def gsWords (addr n : Nat) : List Nat := (List.range ((addr + n + 7) / 8 - addr / 8)).map (addr / 8 + ·)

/-- The length of the next request of a run of bytes: within the maximum, within 4 KiB, and short up to the next 64-byte
boundary when it does not start on one (R33, R300). -/
def reqLen (addr left max : Nat) : Nat :=
  min (min left (4096 - addr % 4096)) (if addr % 64 = 0 then max else 64 - addr % 64)

/-- Write bytes to host memory, in as many requests as Max Payload Size asks for (R33). -/
def State.hostWrites (n : Nat) (s : State) (addr : Word) (pasid : Option (BitVec 20)) (poisoned : Bool)
    (data : List Byte) : State :=
  match n with
  | 0 => s
  | n + 1 =>
    if data.isEmpty then s
    else
      let k := reqLen addr.toNat data.length s.link.mps
      State.hostWrites n (s.hostWrite addr pasid poisoned (data.take k)) (addr + BitVec.ofNat 64 k) pasid poisoned (data.drop k)

/-! ## DMA channels (bounds 3 and 4) -/

def State.modDesc (s : State) (d : Nat) (f : Desc → Desc) : State :=
  s.onDma fun x => { x with descs := AMap.upd x.descs d f }

def State.takeChan (s : State) (d : Nat) (rd : Bool) : State :=
  ((s.modDesc d fun x => { x with chan := true }).tallyIssue 1 1).mark (if rd then 3 else 4)

def State.dropChan (s : State) (d : Nat) : State :=
  match AMap.get? s.dma.descs d with
  | some x => if x.chan then (s.modDesc d fun x => { x with chan := false }).tallyReturn 1 1 else s
  | none => s

/-! ## Segments (bound 37) -/

/-- The lowest number from `n` on that is no key of a map with rising keys. -/
def AMap.gap {α : Type} (m : AMap α) (n : Nat) : Nat :=
  match m with
  | [] => n
  | (k, _) :: m => if k = n then AMap.gap m (n + 1) else if k < n then AMap.gap m n else n

def State.segFree (s : State) (n : Nat) : Bool := n < 131072 && !AMap.has s.dma.segs n

def State.allocSeg (s : State) (n : Nat) (h : HeldSeg) : State :=
  ((s.onDma fun x => { x with segs := AMap.put x.segs n h }).tallyIssue 2 1).mark 37

/-- R396: a line of the Tally has failed its check. The first failure since its bit was cleared latches the difference, writes a
record, signals vector 4 and starts an audit. -/
def State.mismatch (s : State) (line : Nat) (diff : Word) : State :=
  let l := s.tally.lines.getD line Line4.zero
  let s1 := s.onTally fun t => { t with lines := modAt t.lines line fun l => { l with fails := inc16 l.fails } }
  if l.mism then s1
  else
    let s2 := s1.onTally fun t => { t with
      lines := modAt t.lines line fun l => { l with mism := true, diff := diff.setWidth 48 }, audits := t.audits ++ [line] }
    ((s2.event 1 10 1 line 0 diff.toNat 0).irq 7).signal 4

/-- Free a segment of an owner; a free of one that is FREE, or that has another owner, is refused, and the Tally hears of it
(R292). -/
def State.releaseSeg (s : State) (n : Nat) (o : SegOwner) : State :=
  if (AMap.get? s.dma.segs n).any (fun h => h.owner = o) then (s.onDma fun x => { x with segs := AMap.del x.segs n }).tallyReturn 2 1
  else ((s.onDma fun x => { x with freeRefused := inc16 x.freeRefused }).event 1 4 1 n 0 0 0).mismatch 2 0

/-- Free every segment whose owner has a property. -/
def State.releaseSegs (s : State) (p : HeldSeg → Bool) : State :=
  (s.dma.segs.filter fun e => p e.2).foldl (fun t e => t.releaseSeg e.1 e.2.owner) s

/-- The segment that holds a piece of a transfer. -/
def State.segOf (s : State) (o : SegOwner) (piece : Nat) : Option Nat :=
  ((s.dma.segs.find? fun e => e.2.owner = o && e.2.piece = piece)).map (·.1)

/-! ## Exchanges (bounds 5 to 36, 38, 39) -/

/-- Whether the command of an exchange holds a slot of bound 38 or 39 once it is sent. -/
def Exch.slotUnits (e : Exch) : Nat := if e.kind = 1 || e.kind = 2 then 1 else 0

/-- The units of bounds 5 to 36, 38 and 39 that an exchange holds: a lost one its slot alone (R395), a queued one its exchange
alone. -/
def Exch.units (e : Exch) : Nat := b2n e.live + (if e.st = .queued then 0 else e.slotUnits)

def State.modExch (s : State) (x : Nat) (f : Exch → Exch) : State :=
  s.onDev fun d => { d with exch := AMap.upd d.exch x f }

def State.takeExch (s : State) (x : Nat) (e : Exch) : State :=
  (((((s.onDev fun d => { d with exch := AMap.put d.exch x e }).tallyIssue 1 e.units).mark (5 + e.quad)).mark 38).mark 39)

/-! ## BUF_WAIT and flow control (R294, R311, R312) -/

/-- BUF_WAIT of a quad: an allocation for it waits (R294). -/
def State.bufWait (s : State) (quad : Nat) : Bool :=
  s.md.waits.any fun w => w.bound = 37 && w.rix = 32 + quad && s.stillWaits w

/-- A pin FLOW_N is driven low while a quad of its pair is in the stop state or waits for a segment (R312). -/
def State.flowLow (s : State) (k : Nat) : Bool :=
  s.dma.flowEn.getLsbD k && ([2 * k, 2 * k + 1].any fun q => (s.fifoOf q).stop || s.bufWait q)

/-- A quad stops receive in band: a root port returns no credits, a SAS quad sends no RRDY (R311). -/
def State.inbandStop (s : State) (quad : Nat) : Bool := (s.fifoOf quad).stop || s.bufWait quad

/-- The FIFO words that a quad lets its link partner send (R311). -/
def State.rxCredit (s : State) (quad : Nat) : Nat :=
  let b := (s.fifoOf quad).rxB
  if s.inbandStop quad then 0 else (128 - b.wr) + (if b.left = 0 then 128 else 0)

/-- The credit that a quad advertises follows its room (R311). -/
def State.creditSync (s : State) (quad : Nat) : State :=
  let n := s.rxCredit quad
  if n = (s.fifoOf quad).credit then s else (s.modFifo quad fun f => { f with credit := n }).emit (.credit quad n)

/-- The in-band stop of a quad, its credit and its pin FLOW_N follow a change; the pin is told apart by kind 3. -/
def State.flowSync (s : State) (quad : Nat) : State :=
  let stop := s.inbandStop quad
  let s1 := (if stop = (s.fifoOf quad).inband then s
    else (s.modFifo quad fun f => { f with inband := stop }).emit (.inband quad stop)).creditSync quad
  let k := quad / 2
  let low := s1.flowLow k
  if low = s1.dma.flowN.getLsbD k then s1
  else (s1.onDma fun d => { d with flowN := d.flowN ^^^ (1#16 <<< k) }).emit (.pin k 0 3 (!low))

/-- The same for every quad. -/
def State.flowSyncAll (s : State) : State := (List.range 32).foldl State.flowSync s

/-- An allocation for a quad waits, in the order of R17; BUF_WAIT follows (R294, R312). -/
def State.segWait (s : State) (quad sch : Nat) (who : WaitWho) : State :=
  (s.await 37 (s.progKey sch) (32 + quad) sch (s.clsOf sch) who).flowSync quad

/-- An allocation for a quad has been served; BUF_WAIT follows (R294, R312). -/
def State.segGot (s : State) (quad : Nat) (who : WaitWho) : State := (s.unwait 37 who).flowSync quad

/-- Allocations that nothing needs any more no longer wait; BUF_WAIT of their quads follows (R294, R312). -/
def State.segLeave (s : State) (p : WaitWho → Bool) : State :=
  let gone := s.md.waits.filter fun w => w.bound = 37 && p w.who
  if gone.isEmpty then s
  else gone.foldl (fun t w => t.flowSync (w.rix - 32)) (s.onMd fun m => { m with waits := m.waits.filter fun w => !(w.bound = 37 && p w.who) })

/-! ## The end of an exchange -/

/-- What a device reaches at: its target through a port, as its device-table entry holds it (R145). -/
def State.targetOf (s : State) (dev : Nat) (pd : PathDesc) : Word :=
  match AMap.get? s.sub.devs dev with
  | none => 0
  | some d => ((d.targets.find? fun t => t.quad = pd.quad && t.port = pd.port).map (·.target)).getD 0

def State.devKind (s : State) (dev : Nat) : Nat := ((AMap.get? s.sub.devs dev).map (·.kind)).getD 0

/-- Two exchanges are those of one NVMe controller. -/
def Exch.sameCtrl (e f : Exch) : Bool :=
  e.kind = 1 && f.kind = 1 && e.quad = f.quad && e.port = f.port && e.ctrl = f.ctrl

/-- An Abort command stands at a controller. -/
def AbortCmd.at_ (a : AbortCmd) (quad port : Nat) (ctrl : Word) : Bool := a.quad = quad && a.port = port && a.ctrl = ctrl

/-- An abort may go to the device: an NVMe controller takes ACL + 1 Abort commands at once (R366). -/
def State.mayAbort (s : State) (e : Exch) : Bool :=
  e.kind ≠ 1 || (s.dev.aborts.filter fun a => a.at_ e.quad e.port e.ctrl).length ≤ Config.abortLimit e.quad e.port e.ctrl

/-- The abort of an exchange goes to its device, and its timer of 50 ms starts; a PMEM endpoint is sent nothing (R366). -/
def State.sendAbort (s : State) (x : Nat) (e : Exch) : State :=
  let s1 := s.modExch x fun e => { e with abortDue := some (addNs s.time 50000000) }
  if e.kind = 3 then s1
  else (if e.kind = 1 then s1.onDev fun d => { d with aborts := d.aborts ++ [⟨x, e.quad, e.port, e.ctrl⟩] } else s1).emit (.devAbort x)

/-- An Abort command of a controller has completed: the next exchange that waits for it is aborted, the lowest index first (R366)
(log 42, DEDUCED). -/
def State.nextAbort (s : State) (a : AbortCmd) : State :=
  match s.dev.exch.find? fun f => f.2.st = .aborting && f.2.abortDue.isNone && f.2.kind = 1 && a.at_ f.2.quad f.2.port f.2.ctrl with
  | some (x, f) => if s.mayAbort f then s.sendAbort x f else s
  | none => s

/-- The Abort commands at a controller are gone with it: it is reset, or its port is down. -/
def State.forgetAborts (s : State) (p : AbortCmd → Bool) : State :=
  s.onDev fun d => { d with aborts := d.aborts.filter fun a => !p a }

/-- What an exchange asked for as it moved data is wanted no more: its reads of the aperture, its turn at EGRESS, its writes that wait for a
segment (R294, R332). -/
def State.quitExch (s : State) (x : Nat) : State :=
  ((s.onDma fun d => { d with devReads := d.devReads.filter fun r => r.x ≠ x }).withdraw (.answer x)).segLeave (· = .dev x)

/-- An exchange leaves the table: its units return, and reads of its aperture that wait go with it. -/
def State.dropExch (s : State) (x : Nat) : State :=
  match AMap.get? s.dev.exch x with
  | some e => (((s.onDev fun d => { d with exch := AMap.del d.exch x }).quitExch x).tallyReturn 1 e.units).flowSync e.quad
  | none => s

/-! ## The global scratchpad (R316 to R319, R263) -/

def State.gsRead (s : State) (w : Nat) : TWord := AMap.getD s.sx.gs w TWord.unset

/-- Write a word: every reservation on it ends (R263). -/
def State.gsWrite (s : State) (w : Nat) (v : TWord) : State :=
  s.onSx fun x => { x with
    gs := AMap.store x.gs w v TWord.unset,
    threads := x.threads.map fun e => if e.2.resv = some w then (e.1, { e.2 with resv := none }) else e }

/-- R318: the tag of a word after a store through the set or clear view. -/
def viewTag (t : BitVec 4) : BitVec 4 :=
  if t = tagUnset || t = tagInt then tagInt
  else if t = tagCount then tagCount
  else if t = tagPoison then tagPoison
  else tagBytes

/-- R318: the word after a store through the set or clear view with a mask. -/
def viewWord (old : TWord) (set : Bool) (mask : Word) : TWord :=
  if old.tag = tagPoison then old
  else
    let p : Word := if old.tag = tagUnset then 0 else old.pay
    let v : Word := if set then p ||| mask else p &&& ~~~mask
    ⟨viewTag old.tag, if old.tag = tagCount then v &&& 0xFFFFFFFF#64 else v⟩

/-- A word as an uncorrectable read delivers it (R14, R196). -/
def spoilWord (w : TWord) : TWord := ⟨tagPoison, w.pay⟩

/-- A read finds a word of the global scratchpad uncorrectable: it stands with tag POISON from now on. -/
def State.gsSpoil (s : State) (w : Nat) : State := s.onSx fun x => { x with gs := AMap.put x.gs w (spoilWord (AMap.getD x.gs w TWord.unset)) }

/-- An uncorrectable word (R400): UE of TL_MEMERR, a record, and its source at the supervisor (R470) (log 60, DEDUCED). -/
def State.memError (s : State) (src a0 a1 a2 : Nat) : State :=
  ((s.onTally fun t => { t with ue := inc16 t.ue }).event 1 10 8 a0 a1 a2 0).irq src

/-- A read finds a word of the global scratchpad uncorrectable (R14, R196, R400). -/
def State.gsFault (s : State) (sch w : Nat) : State := (s.memError 4 0 0 sch).gsSpoil w

/-- A word of the global scratchpad is read because a write outside the write engine's requests keeps bytes of it: an upset there is an event
that no operand carries, so it is free (R162, R196) (log 8, DESIGN CHOICE). -/
def State.gsKeep (s : State) (sch w : Nat) : State :=
  let s1 : State := { s with fresh := s.fresh + 1 }
  match Config.scratchUpset s.fresh with
  | none => s1
  | some true => s1.corrected 1
  | some false => s1.gsFault sch w

/-- The words of the global scratchpad of which a write of bytes [addr, addr + n) keeps bytes, and which it so reads (R162): the first
where the range starts within it, and the last unless the data ends there. -/
def partWords (addr n : Nat) (last : Bool) : List Nat :=
  (if addr % 8 = 0 then [] else [addr / 8]) ++ (if last || (addr + n) % 8 = 0 then [] else [(addr + n) / 8])

/-- The bytes of a scratch word, and whether it is poisoned. -/
def wordBytes (w : TWord) : List Byte := leBytes 8 w.pay.toNat

/-- Write bytes at a byte address of the global scratchpad (R162): whole words with tag BYTES. The bytes below an unaligned start are
kept; above the last byte stand zeros where the range ends there (`last`), and else what was there. Words with a poisoned byte, now
or before in `bad`, take tag POISON (R315). -/
def State.gsBytes (n : Nat) (s : State) (addr : Nat) (bs : List Byte) (bad : List Nat) (last : Bool) : State :=
  match n with
  | 0 => s
  | n + 1 =>
    if bs.isEmpty then s
    else
      let o := addr % 8
      let old := wordBytes (s.gsRead (addr / 8))
      let part := bs.take (8 - o)
      let above := if last then [] else old.drop (o + part.length)
      let v : TWord := ⟨if bad.contains (addr / 8) then tagPoison else tagBytes, BitVec.ofNat 64 (ofLe (old.take o ++ part ++ above))⟩
      State.gsBytes n (s.gsWrite (addr / 8) v) (addr + part.length) (bs.drop (8 - o)) bad last

/-- The unused bytes of a last partial word are 0 (R162): the bytes from `addr` on, at most `n`, up to the end of their word. -/
def State.gsTail (s : State) (sch addr n : Nat) : State :=
  let o := addr % 8
  let s := if o = 0 then s else s.gsKeep sch (addr / 8)
  let old := s.gsRead (addr / 8)
  if o = 0 then s
  else s.gsWrite (addr / 8) { old with pay := BitVec.ofNat 64 (ofLe (patch (wordBytes old) o (List.replicate (min n (8 - o)) 0))) }

/-- Bytes of the global scratchpad, each with whether its word is poisoned. -/
def State.gsFetch (s : State) (addr len : Nat) : List (Byte × Bool) :=
  let w0 := addr / 8
  let n := (addr + len + 7) / 8 - w0
  let ws := (List.range n).map fun i => s.gsRead (w0 + i)
  ((ws.flatMap fun w => (wordBytes w).map fun b => (b, decide (w.tag = tagPoison))).drop (addr % 8)).take len

end Sys2Proof.Machine
end

