-- ==== Sys2Proof/Machine/Life.lean ====
section
/-! DEFINITION. Sys2Proof/Machine/Life.lean: the life of a program between its START and its final status: intermediate
statuses, descriptors, the ends of exchanges and commands, breaks, aborts, timeouts and the final status. -/

namespace Sys2Proof.Machine

/-! ## CSTAT (R186) -/

def cstProgramCheck : Nat := 0
def cstHostAccess : Nat := 1
def cstPoison : Nat := 2
def cstNoPath : Nat := 3
def cstHalted : Nat := 4
def cstCleared : Nat := 5
def cstTimeout : Nat := 6
def cstChainBroken : Nat := 7
def cstLost : Nat := 8

def Ctx.setCst (c : Ctx) (b : Nat) : Ctx := { c with cstat := c.cstat ||| (1#16 <<< b) }

/-! ## Timeouts (R143) -/

def spanNs : Nat := 2 ^ 46

/-- arm of R143. -/
def Ctx.arm (c : Ctx) (now : Time) (rem : Nat) : Ctx :=
  { c with elaps := BitVec.ofNat 16 (rem / spanNs), expiry := addNs now (rem % spanNs) }

/-- suspend of R143: the time left, held in ELAPS and EXPIRY. -/
def Ctx.pauseTimer (c : Ctx) (now : Time) : Ctx :=
  if c.tmoCur = 0 then c
  else
    let left := c.elaps.toNat * spanNs + (c.expiry - now).toNat
    { c with elaps := BitVec.ofNat 16 (left / spanNs), expiry := BitVec.ofNat 48 (left % spanNs) }

/-- resume of R143. -/
def Ctx.resumeTimer (c : Ctx) (now : Time) : Ctx :=
  if c.tmoCur = 0 then c else c.arm now (c.elaps.toNat * spanNs + c.expiry.toNat)

/-! ## Intermediate statuses (R141) -/

/-- One intermediate status: ISCNT stops at 0xFFFF, ISTOT wraps. -/
def State.intermediate (s : State) (sch : Nat) : State :=
  (s.modCtx sch fun c => { c with
    iscnt := BitVec.ofNat 16 (min 0xFFFF (c.iscnt.toNat + 1)), istot := c.istot + 1, istTime := s.time }).postSub sch

/-! ## Pieces and commands of a program -/

/-- The device status and bytes moved of a piece that has been answered. -/
def PieceSt.answer (t : PieceSt) : Option (Byte × Nat) :=
  match t with
  | .ended d m => some (d, m)
  | .unsent _ _ => none
  | .sent _ => none
  | .cut => none

/-- A piece waits to be sent once more. -/
def PieceSt.again (t : PieceSt) : Bool :=
  match t with
  | .unsent r _ => r
  | .sent _ => false
  | .ended _ _ => false
  | .cut => false

/-- COND of a device status is GOOD (R183). -/
def isGood (d : Byte) : Bool := d.setWidth 4 = 1#4

def Prog.cmd? (p : Prog) (no : Nat) : Option Cmd := p.cmds.find? fun c => c.no = no
def Prog.modCmd (p : Prog) (no : Nat) (f : Cmd → Cmd) : Prog :=
  { p with cmds := p.cmds.map fun c => if c.no = no then f c else c }
def State.modCmd (s : State) (sch no : Nat) (f : Cmd → Cmd) : State := s.modProg sch fun p => p.modCmd no f
def State.cmd? (s : State) (sch no : Nat) : Option Cmd := (s.progOf sch).cmd? no


/-- A thread runs the program, or waits to be restored with it (R403). -/
def State.hasThread (s : State) (sch : Nat) : Bool := (s.thOf sch).isSome || s.sx.stopped.any fun e => e.2.sch = sch

/-! ## Buffered stores (R223, R224) -/

/-- The 16 bytes of a tagged word in host memory (R197). -/
def slotBytes (w : TWord) : List Byte := leBytes 8 w.pay.toNat ++ leBytes 1 w.tag.toNat ++ List.replicate 7 0

/-- A buffered store takes effect (R224 step 3). -/
def State.releaseStore (s : State) (e : Store) : State :=
  match e.kind with
  | .hostSlot => s.hostWrite (BitVec.ofNat 64 e.addr) e.pasid false (slotBytes e.val)
  | .hostRaw => s.hostWrite (BitVec.ofNat 64 e.addr) e.pasid false (leBytes 8 e.val.pay.toNat)
  | .plain => s.gsWrite e.addr e.val
  | .setView => s.gsWrite e.addr (viewWord (s.gsRead e.addr) true e.val.pay)
  | .clearView => s.gsWrite e.addr (viewWord (s.gsRead e.addr) false e.val.pay)

def StoreKind.toHost (k : StoreKind) : Bool := k = .hostSlot || k = .hostRaw

/-- The requester index of a program's host writes: that of its cluster; the Context Store releases what END holds as the queue manager (R11)
(log 46, DEDUCED). -/
def State.storeRix (s : State) (sch : Nat) : Nat := match s.thOf sch with
  | some th => 16 + thCluster th
  | none => 3

/-- Host writes of a program may leave now: the link carries them, and HOST-WRITE is granted to them (R325, R331). -/
def State.winsStore (s : State) (sch : Nat) : Bool :=
  s.link.mayIssue && s.winsAs 2 (s.progKey sch) (s.storeRix sch) sch (.store sch)

/-- The stores can be released now: those to the host need HOST-WRITE. -/
def State.canRelease (s : State) (sch : Nat) (l : List Store) : Bool := s.winsStore sch || l.all fun e => !e.kind.toHost

/-- Stores that cannot be released ask for HOST-WRITE. -/
def State.storeWait (s : State) (sch : Nat) : State := s.request 2 (s.progKey sch) (s.storeRix sch) sch (.store sch)

/-- A command of which an abort has taken a piece. -/
def Cmd.anyCut (c : Cmd) : Bool := c.pieces.any fun p => p.st = .cut

/-- A point of a command is not made: the abort of a CLEAR or timeout has ended the command, or may still end it. Points missed in
the second case are made when the command ends by its answer (R126, R180, R181). -/
def Cmd.noPoint (c : Cmd) (clrreq : Bool) : Bool := c.aborted || (clrreq && !c.ended)

/-- The half point and the full point of an HLF command, half first, each made once (R141, R180, R181, R406). -/
def State.halfPoint (s : State) (sch no : Nat) : State :=
  match s.cmd? sch no with
  | none => s
  | some c =>
    if !c.hlf || c.half || c.noPoint (s.ctxOf sch).clrreq then s
    else (s.modCmd sch no fun c => { c with half := true }).intermediate sch

def State.fullPoint (s : State) (sch no : Nat) : State :=
  let s := s.halfPoint sch no
  match s.cmd? sch no with
  | none => s
  | some c =>
    if !c.hlf || c.full || c.noPoint (s.ctxOf sch).clrreq then s
    else (s.modCmd sch no fun c => { c with full := true }).intermediate sch

/-! ## Descriptors (R296 to R298) -/

/-- Add the interval [a, b) to a rising list of disjoint intervals. -/
def addSpan (l : List (Nat × Nat)) (a b : Nat) : List (Nat × Nat) :=
  match l with
  | [] => [(a, b)]
  | (c, d) :: l =>
    if b < c then (a, b) :: (c, d) :: l
    else if d < a then (c, d) :: addSpan l a b
    else addSpan l (min a c) (max b d)

/-- The parts of [a, b) that no interval covers. -/
def gaps (l : List (Nat × Nat)) (a b : Nat) : List (Nat × Nat) :=
  match l with
  | [] => if a < b then [(a, b)] else []
  | (c, d) :: l =>
    if b ≤ a then [] else (if a < c then [(a, min b c)] else []) ++ gaps l (max a d) b

/-- LOW of R296, counted from the start of the descriptor's range. -/
def Desc.low (d : Desc) : Nat :=
  match d.spans with
  | [] => 0
  | (a, b) :: _ => if a ≤ d.lo then b - d.lo else 0

/-- The owner of the segments of a descriptor's piece. -/
def Cmd.pieceAt (c : Cmd) (off : Nat) : Nat := (c.pieces.findIdx? fun p => p.off ≤ off && off < p.off + p.len).getD 0

/-- Every byte of a descriptor's range below an offset is done. -/
def Desc.doneTo (d : Desc) (b : Nat) : Bool := min b (d.lo + d.count) ≤ d.lo + d.low

/-- The descriptors of a command. -/
def State.descsOf (s : State) (sch no : Nat) : List (Nat × Desc) :=
  s.dma.descs.filter fun e => e.2.sch = sch && e.2.cmd = no

/-- The points that the data of a command has reached (R180): half once the first ⌈COUNT / 2⌉ bytes are done, full once all are,
and for data into memory not before the command has ended. -/
def State.dataPoints (s : State) (sch no : Nat) : State :=
  match s.cmd? sch no with
  | none => s
  | some c =>
    let ds := s.descsOf sch no
    if ds.all (fun e => e.2.done = e.2.count) && (!c.toMem || c.ended) then s.fullPoint sch no
    else if ds.all (fun e => e.2.doneTo ((c.count + 1) / 2)) then s.halfPoint sch no
    else s

/-- A descriptor waits for a segment. -/
def WaitWho.ofDesc (w : WaitWho) (k : Nat) : Bool :=
  match w with
  | .seg d _ => d = k
  | .text _ => false
  | .load _ => false
  | .reread _ => false
  | .chan _ => false
  | .frame _ => false
  | .dev _ => false
  | .own _ => false
  | .sup => false
  | .restore _ => false

/-- Mark bytes [a, b) of a descriptor done, whether moved, discarded or cancelled, and raise its events (R297). -/
def State.descDone (s : State) (k a b : Nat) : State :=
  match AMap.get? s.dma.descs k with
  | none => s
  | some d =>
    let n := sumBy (fun g => g.2 - g.1) (gaps d.spans a b)
    if n = 0 then s
    else
      let d1 := { d with spans := addSpan d.spans a b, done := d.done + n }
      let s1 := (s.onDma fun x => { x with descs := AMap.put x.descs k d1 }).tallyReturn 3 n
      let s2 := if d1.halfEn || d1.fullEn then s1.dataPoints d.sch d.cmd else s1
      if d1.done = d.count then (((s2.dropChan k).withdraw (.write k)).withdraw (.read k)).segLeave (·.ofDesc k) else s2

/-- Mark bytes done that have been moved, or discarded as skipped (R297). -/
def State.descMoved (s : State) (k a b : Nat) : State :=
  (s.modDesc k fun d => { d with moved := addSpan d.moved a b }).descDone k a b

/-! ## The valid bytes of a segment -/

def maskOf (lo n : Nat) : BitVec 512 := BitVec.ofNat 512 ((2 ^ n - 1) * 2 ^ lo)

/-- The intervals of bytes, counted from the start of a segment, whose mask bits are set. -/
def maskSpans (m : BitVec 512) : List (Nat × Nat) :=
  (List.range 512).foldl (fun l b => if m.getLsbD b then addSpan l b (b + 1) else l) []

/-! ## What the engines hold -/

/-- Cancel what is not done of bytes [a, b) of a command's data (R298). -/
def State.cancelBytes (s : State) (sch no a b : Nat) : State :=
  (s.descsOf sch no).foldl (fun t e => t.descDone e.1 (max a e.2.lo) (min b (e.2.lo + e.2.count))) s

/-- Every descriptor of a program has ended (R301). -/
def State.quiet (s : State) (sch : Nat) : Bool :=
  s.dma.descs.all fun e => e.2.sch ≠ sch || e.2.done = e.2.count

/-- A segment holds a piece of a command's exchange. -/
def SegOwner.ofPiece (o : SegOwner) (sch no pc : Nat) : Bool :=
  match o with
  | .xfer a b c _ => a = sch && b = no && c = pc
  | .sense _ => false
  | .zero _ _ => false
  | .sup => false

/-- The exchange of an owner (R290). -/
def SegOwner.exch (o : SegOwner) : Option Nat :=
  match o with
  | .xfer _ _ _ x => some x
  | .sense _ => none
  | .zero _ _ => none
  | .sup => none

/-- The exchange that a piece is sent as. -/
def PieceSt.exch (t : PieceSt) : Option Nat :=
  match t with
  | .sent x => some x
  | .unsent _ _ => none
  | .ended _ _ => none
  | .cut => none

/-- The bytes of a segment have a write issued and not yet accepted. -/
def State.writing (s : State) (h : HeldSeg) : Bool :=
  h.toMem && s.dma.descs.any fun e => !e.2.rd && e.2.pieces.any fun p =>
    p.issued && h.piece = p.idx && h.owner = .xfer e.2.sch e.2.cmd p.pc p.x

/-- Cancel what is not done of an exchange's bytes, but for pieces whose writes are on their way (R321). -/
def State.cancelUnwritten (s : State) (sch no pc : Nat) (p : Piece) : State :=
  let kept := (s.dma.segs.filter fun e => e.2.owner.ofPiece sch no pc && s.writing e.2).flatMap
    fun e => (maskSpans e.2.mask).map fun g => (512 * e.2.piece + g.1, 512 * e.2.piece + g.2)
  (gaps (kept.foldl (fun l g => addSpan l g.1 g.2) []) p.off (p.off + p.len)).foldl
    (fun t g => t.cancelBytes sch no g.1 g.2) s

/-- A descriptor that has no piece in hand gives up its channel and its places among waiters (R299) (log 44, DEDUCED). -/
def State.park (s : State) (k : Nat) : State :=
  match AMap.get? s.dma.descs k with
  | none => s
  | some d => if d.pieces.isEmpty then
      ((((s.dropChan k).withdraw (.write k)).withdraw (.read k)).onMd fun m => { m with
        waits := m.waits.filter fun w => w.who ≠ .chan k }).segLeave (·.ofDesc k)
    else s

/-- The pieces of an exchange that no request has been issued for leave their descriptors; those of a read descriptor leave
whole. -/
def State.forgetPieces (s : State) (sch no pc : Nat) : State :=
  (s.descsOf sch no).foldl (fun t e =>
    let t1 := if e.2.rd then t.orphanDma e.1 ((e.2.pieces.filter fun p => p.pc = pc).map (·.idx)) else t
    (t1.modDesc e.1 fun d => { d with pieces := d.pieces.filter fun p => p.pc ≠ pc || (p.issued && !d.rd) }).park e.1) s

/-- The extent that holds an offset of a command's data, and the offset within it. -/
def extAt (ext : List Extent) (off : Nat) : Option (Extent × Nat) :=
  match ext with
  | [] => none
  | e :: ext => if off < e.len then some (e, off) else extAt ext (off - e.len)

def skipAt (ext : List Extent) (off : Nat) : Bool :=
  match extAt ext off with
  | some e => e.1.skip
  | none => true

/-- Build the descriptors of a command (R296): one for each 16,777,216 bytes; the bytes count as requested (R298). -/
def buildDescs (n : Nat) (s : State) (sch no : Nat) (rd hlf : Bool) (lo count : Nat) : State :=
  match n with
  | 0 => s
  | n + 1 =>
    if count = 0 then s
    else
      let k := min count 16777216
      let d : Desc := ⟨sch, no, rd, lo, k, 0, [], [], hlf, hlf, false, [], false, [], s.time⟩
      let s1 := (s.onDma fun x => { x with descs := AMap.put x.descs x.nextDesc d, nextDesc := x.nextDesc + 1 }).tallyIssue 3 k
      buildDescs n s1 sch no rd hlf (lo + k) (count - k)

def State.addDescs (s : State) (sch no : Nat) (rd hlf : Bool) (count : Nat) : State :=
  buildDescs (count / 16777216 + 1) s sch no rd hlf 0 count

/-- Forget the ended descriptors of a program. -/
def State.dropDescs (s : State) (sch : Nat) : State :=
  s.onDma fun x => { x with descs := x.descs.filter fun e => e.2.sch ≠ sch }

/-- The bytes of a piece are all discarded (SKP). -/
def Cmd.skipsAll (c : Cmd) (m : BitVec 512) (piece : Nat) : Bool :=
  (maskSpans m).all fun g => (List.range (g.2 - g.1)).all fun i => skipAt c.ext (512 * piece + g.1 + i)

/-- The write descriptor that covers a piece. -/
def State.writeDesc (s : State) (sch no piece : Nat) : Option (Nat × Desc) :=
  (s.descsOf sch no).find? fun e => !e.2.rd && e.2.lo ≤ 512 * piece && 512 * piece < e.2.lo + e.2.count

/-- A descriptor of a program asks for a channel of bound 3 or 4: it waits in the order of R17 where none is free to its class. -/
def State.awaitChan (s : State) (k sch : Nat) (rd : Bool) : State :=
  let n := if rd then 3 else 4
  if s.poolFree n (s.clsOf sch) then s else s.await n (s.progKey sch) (if rd then 4 else 5) sch (s.clsOf sch) (.chan k)

/-- Every byte of a device-to-memory piece that its exchange delivers is in its segment. A piece that is discarded whole counts as
done, and its segment is freed (R291); any other is ready for the write engine, and waits for a channel where all are in use
(R299). -/
def State.pieceReady (s : State) (sch no pc x piece : Nat) : State :=
  match s.cmd? sch no, s.segOf (.xfer sch no pc x) piece with
  | some c, some n =>
    let m := (AMap.get? s.dma.segs n).map (·.mask) |>.getD 0
    match s.writeDesc sch no piece with
    | none => s.releaseSeg n (.xfer sch no pc x)
    | some e =>
      if c.skipsAll m piece then
        ((maskSpans m).foldl (fun t g => t.descMoved e.1 (512 * piece + g.1) (512 * piece + g.2)) s).releaseSeg n (.xfer sch no pc x)
      else if e.2.pieces.any fun p => p.idx = piece && p.pc = pc && p.x = x then s
      else
        let s1 := s.modDesc e.1 fun d => { d with pieces := d.pieces ++ [⟨piece, pc, x, false, 0, 0, s.time⟩] }
        if e.2.chan then s1 else s1.awaitChan e.1 sch false
  | some _, none => s
  | none, some _ => s
  | none, none => s

/-! ## Asking Meridian for the work of an exchange, a descriptor or a queue (R326) -/

/-- The first piece of the program, in command and block order, that has not been sent. -/
def Cmd.nextUnsent (c : Cmd) : Option Nat :=
  c.pieces.findIdx? fun p => p.st.waits

def nextPiece (cs : List Cmd) : Option (Nat × Nat) :=
  match cs with
  | [] => none
  | c :: cs => match c.nextUnsent with
    | some i => some (c.no, i)
    | none => nextPiece cs

/-! ## The end of a program -/

/-- Whether a segment belongs to a program. -/
def SegOwner.ofSub (o : SegOwner) (sch : Nat) : Bool :=
  match o with
  | .xfer a _ _ _ => a = sch
  | .zero a _ => a = sch
  | .sense a => a = sch
  | .sup => false

/-- Everything a lost program holds in the transfer buffer goes: its bytes cancelled, its segments freed (R298, R399). -/
def State.dropData (s : State) (sch : Nat) : State :=
  let l := s.dma.descs.filter fun e => e.2.sch = sch
  ((l.foldl (fun t e => t.descDone e.1 e.2.lo (e.2.lo + e.2.count)) s).releaseSegs fun h => h.owner.ofSub sch).dropDescs sch

/-- Withdraw a dispatch request (R332). One that a stopped thread needs for its restore stays: the restored thread finds what
stops it (R149, R403). -/
def State.undispatch (s : State) (sch : Nat) : State :=
  if s.sx.stopped.any fun e => e.2.sch = sch then s
  else (s.withdraw (.dispatch sch)).modCtx sch fun c => { c with dreq := false }

/-- Free the held sense of a program (R171). -/
def State.dropSense (s : State) (sch : Nat) : State :=
  let p := s.progOf sch
  let s1 := match p.senseSeg with
    | some n => s.releaseSeg n (.sense sch)
    | none => s
  if p.sense.isEmpty && p.senseSeg.isNone then s else s1.modProg sch fun p => { p with sense := [], senseSeg := none }

/-- No subchannel: the owner of what a program left behind. -/
def noSub : Nat := 1048576

/-- The ghosts of a program outlive it without a redrive of their own. -/
def State.forgetGhosts (s : State) (sch : Nat) : State :=
  s.onDev fun d => { d with ghosts := d.ghosts.map fun e => if e.2.sch = sch then (e.1, { e.2 with sch := noSub, abortDue := none }) else e }

/-- Bytes moved before the first that was not moved, in block order (R166). -/
def movedBefore (ps : List Piece) : Nat :=
  match ps with
  | [] => 0
  | p :: ps =>
    match p.st.answer with
    | some (_, m) => if p.len ≤ m then p.len + movedBefore ps else m
    | none => 0

/-- Bytes of a command that were moved: visible in memory or discarded as skipped, or taken by the device. -/
def State.movedOf (s : State) (sch : Nat) (c : Cmd) : Nat :=
  if c.toMem && !(s.descsOf sch c.no).isEmpty then sumBy (fun e => sumBy (fun g => g.2 - g.1) e.2.moved) (s.descsOf sch c.no)
  else movedBefore c.pieces

/-- RESIDUAL of a program whose last command an abort has ended: the bytes not moved (R321). -/
def State.cutResidual (s : State) (sch : Nat) : Option (BitVec 32) :=
  match (s.progOf sch).cmds.getLast? with
  | none => none
  | some c => if c.anyCut && (s.ctxOf sch).clrreq then some (BitVec.ofNat 32 (c.count - min c.count (s.movedOf sch c))) else none

/-- The final status becomes pending (R133, R140, R187): CSTAT is completed, the break's values taken, the subchannel becomes
STATUS-PENDING, and the completion is posted. -/
def State.makeFinal (s : State) (sch : Nat) : State :=
  let p := s.progOf sch
  let s1 := ((((((s.undispatch sch).withdraw (.exch sch)).withdraw (.store sch)).segLeave (· = .own sch)).dropSense sch).dropDescs
    sch).forgetGhosts sch
  let s2 := s1.modCtx sch fun c =>
    let c := match p.brk with
      | some b => { c with dstat := b.dstat, ds := b.dstat, residual := b.residual }
      | none => { c with residual := (s.cutResidual sch).getD c.residual }
    let c := if c.haltreq then c.setCst cstHalted else c
    let c := if c.clrreq && !c.tmout then c.setCst cstCleared else c
    let c := if c.tmout then c.setCst cstTimeout else c
    { c with state := .statusPending, xout := 0, finTime := s.time }
  (s2.delProg sch).postSub sch

/-- A program in START-PENDING or SUSPENDED ends at once; one whose writes are still on their way waits for them, its timer running again (R130, R133, R143). -/
def State.endAtOnce (s : State) (sch : Nat) : State :=
  let s1 := (s.undispatch sch).modProg sch fun p => { p with ending := true }
  if s1.quiet sch then s1.makeFinal sch
  else s1.modCtx sch fun c => { (if c.state = .suspended then c.resumeTimer s.time else c) with state := .waiting }

/-- The final status may become pending: the program has ended, XOUT is 0, no thread holds it and its writes are visible. -/
def State.finalReady (s : State) (sch : Nat) : Bool :=
  let c := s.ctxOf sch
  let p := s.progOf sch
  AMap.has s.sub.prog sch && !s.hasThread sch && c.xout = 0 && s.quiet sch && p.stores.isEmpty
    && (c.state = .haltPending || c.state = .clearPending || (c.state = .waiting && (p.ending || p.brk.isSome || c.haltreq || c.clrreq)))

/-- The exchange that a piece holds while its command waits for room at the device (R16). -/
def State.queuedFor (s : State) (sch no i : Nat) : Option (Nat × Exch) :=
  s.dev.exch.find? fun e => e.2.st = .queued && e.2.sch = sch && e.2.cmd = no && e.2.pc = i

/-- A piece gives up the exchange that it holds unsent. -/
def State.unqueue (s : State) (sch no i : Nat) : State :=
  match s.queuedFor sch no i with
  | some e => s.dropExch e.1
  | none => s

/-- Stop an unsent piece for good. -/
def State.cutPiece (s : State) (sch no i : Nat) : State :=
  match s.cmd? sch no with
  | none => s
  | some c =>
    match c.pieces[i]? with
    | none => s
    | some p =>
      ((((((s.unqueue sch no i).modCmd sch no fun c => { c with pieces := modAt c.pieces i fun p => { p with st := .cut } }).modCtx sch
        fun c => { c with xout := c.xout - 1 }).releaseSegs fun h => (h.owner.ofPiece sch no i && !s.writing h)
          || h.owner = .zero sch no).forgetPieces sch no i).cancelUnwritten sch no i p)

/-- A ghost holds the only copy of a piece (R413). -/
def State.ghostOnly (s : State) (sch no i : Nat) (p : Piece) : Bool :=
  p.st.again && s.dev.ghosts.any fun g => g.2.sch = sch && g.2.cmd = no && g.2.pc = i

/-- Every piece of the program that waits to be sent is dropped, but for those to spare (R176, R131). -/
def State.cutUnsent (s : State) (sch : Nat) (spare : Nat → Nat → Piece → Bool) : State :=
  let todo := (s.progOf sch).cmds.flatMap fun c => (List.range c.pieces.length).filterMap fun i =>
    match c.pieces[i]? with
    | some p => if p.st.waits && !spare c.no i p then some (c.no, i) else none
    | none => none
  let s1 := todo.foldl (fun t e => t.cutPiece sch e.1 e.2) s
  if nextPiece (s1.progOf sch).cmds = nextPiece (s.progOf sch).cmds then s1 else s1.withdraw (.exch sch)

/-- End the program at a command: no later command that has not been sent is sent, and a break found earlier in program order
governs (R176). Stores still held are discarded, at an end by NO-PATH too (R188) (log 64, DESIGN CHOICE). -/
def State.breakAt (s : State) (sch no : Nat) (dstat : Byte) (residual : BitVec 32) : State :=
  let p := s.progOf sch
  let s := s.modProg sch fun p => { p with stores := [] }
  let s1 := match p.brk with
    | some b => if no < b.no then s.modProg sch fun p => { p with brk := some ⟨no, dstat, residual⟩ } else s
    | none => (s.modProg sch fun p => { p with brk := some ⟨no, dstat, residual⟩ }).undispatch sch
  s1.cutUnsent sch fun n _ p => n < no || p.st.again

/-- End the program with the status values that its context holds (R187). -/
def State.breakHere (s : State) (sch no : Nat) : State :=
  s.breakAt sch no (s.ctxOf sch).dstat (s.ctxOf sch).residual

/-- A host access error of a program: the CSTAT bit, and one record for the program (R65, R534). -/
def State.hostAccess (s : State) (sch : Nat) : State :=
  let s1 := s.modCtx sch fun c => c.setCst cstHostAccess
  if (s.progOf sch).recorded then s1
  else (s1.modProg sch fun p => { p with recorded := true }).event 1 0 4 sch (s1.ctxOf sch).cstat.toNat 0 0

/-- A host write of a program's data did not leave (R47): HOST-ACCESS, and the program ends at a command (R65, R186). -/
def State.writeRefused (s : State) (sch no : Nat) : State := (s.hostAccess sch).breakHere sch no

/-- The stores of a program take effect in order (R224); one to the host whose PASID is disabled ends the program (R47, R65). -/
def State.releaseStores (s : State) (sch : Nat) (l : List Store) : State :=
  let s1 := (l.foldl State.releaseStore s).withdraw (.store sch)
  if l.any fun e => e.kind.toHost && s.refusesWrite e.pasid then s1.writeRefused sch (s.progOf sch).nextNo else s1

/-! ## The abort of an exchange (R366) -/

/-- The first `n` of the bytes that a mask names. -/
def firstBits (m : BitVec 512) (n : Nat) : BitVec 512 :=
  ((List.range 512).foldl (fun (a : BitVec 512 × Nat) b =>
    if m.getLsbD b && a.2 < n then (a.1 ||| maskOf b 1, a.2 + 1) else a) (0, 0)).1

/-- The segment of a piece of which some requests are issued keeps the bytes of these alone. -/
def State.keepAsked (s : State) (o : SegOwner) (p : DmaPiece) : State :=
  match s.segOf o p.idx with
  | some n => s.onDma fun m => { m with segs := AMap.upd m.segs n fun h => { h with mask := firstBits h.mask p.asked } }
  | none => s

/-- One descriptor to memory issues nothing more of an exchange: of a piece begun, what is issued becomes visible. -/
def State.stopDesc (s : State) (x sch no pc d : Nat) (m : Desc) : State :=
  let mine (p : DmaPiece) : Bool := p.x = x && p.pc = pc && !p.issued
  let keep (l : List DmaPiece) : List DmaPiece :=
    (l.filter fun p => !mine p || p.asked ≠ 0).map fun p => if mine p then { p with issued := true } else p
  let s1 := (m.pieces.filter fun p => mine p && p.asked ≠ 0).foldl (fun u p => u.keepAsked (.xfer sch no pc x) p) s
  (s1.modDesc d fun d => { d with pieces := keep d.pieces }).park d

/-- The engines stop at their request boundary for an exchange that is aborted. Of the write engine, pieces without a request leave it, and
one that is under way keeps the bytes whose requests have gone (R321); a read descriptor asks for nothing more (R332). -/
def State.stopWrites (s : State) (x sch no pc : Nat) : State :=
  (s.descsOf sch no).foldl (fun t e => if e.2.rd then ((t.withdraw (.read e.1)).dropChan e.1).segLeave (·.ofDesc e.1)
    else t.stopDesc x sch no pc e.1 e.2) s

/-- Abort an exchange that has not been aborted; its abort may have to wait for room at its controller (R366). An answer that waited for a
segment for its sense data waits no more (R294). -/
def State.abortExch (s : State) (x : Nat) : State :=
  match AMap.get? s.dev.exch x with
  | none => s
  | some e =>
    if e.st = .aborting || e.st = .lost then s
    else if e.st = .queued then s.dropExch x
    else
      let s1 := (((s.stopWrites x e.sch e.cmd e.pc).quitExch x).segLeave (· = .own e.sch && !s.hasThread e.sch)).modExch x
        fun e => { e with st := .aborting }
      if s1.mayAbort e then s1.sendAbort x e else s1

/-- The exchanges of a program. -/
def State.exchOf (s : State) (sch : Nat) : List Nat := (s.dev.exch.filter fun e => e.2.sch = sch && e.2.live).map (·.1)

def State.abortAll (s : State) (sch : Nat) : State := (s.exchOf sch).foldl (fun t x => t.abortExch x) s

def State.poisoned (s : State) (sch : Nat) : State := s.modCtx sch fun c => c.setCst cstPoison

/-- How a failed completion of a program's unit shows in CSTAT (R534). -/
def State.readFailed (s : State) (sch : Nat) (st : CplStatus) : State :=
  match st with
  | .ok => s
  | .poison => s.poisoned sch
  | .ur => s.hostAccess sch
  | .ca => s.hostAccess sch
  | .timeout => s.hostAccess sch

/-! ## The end of a piece and of a command (R166, R175 to R180) -/

/-- The device status of a command from its pieces: the first in block order that is not GOOD (R166); where all are GOOD and some
RECOVERED, that of the first piece (log 64, DESIGN CHOICE). -/
def Cmd.status (c : Cmd) : Byte :=
  let l := c.pieces.filterMap fun p => p.st.answer.map (·.1)
  match l.find? fun d => !isGood d with
  | some d => d
  | none => l.headD 1

/-- Blocks of the pieces before the first that is not GOOD (R166, WRITE-ZEROES). -/
def blocksBefore (ps : List Piece) : Nat :=
  match ps with
  | [] => 0
  | p :: ps =>
    match p.st.answer with
    | some (d, _) => if isGood d then p.nblk + blocksBefore ps else 0
    | none => 0

/-- RESIDUAL of a command (R166): bytes, or the count of a CONTROL. -/
def Cmd.residual (c : Cmd) : BitVec 32 :=
  if c.op = .control && isGood c.status then 0
  else if c.op = .control && c.code = 0x0A then BitVec.ofNat 32 (c.count - blocksBefore c.pieces)
  else BitVec.ofNat 32 (c.count - min c.count (movedBefore c.pieces))

def Cmd.allOver (c : Cmd) : Bool := c.pieces.all fun p => p.st = .cut || p.st.answer.isSome

/-- A command whose pieces have all ended ends: DS and RESIDUAL of a waited command, its IST, its missing points, its break
(R175, R176, R179, R180, R190). A command of which a piece has no answer leaves DS as it is; one that the abort of a CLEAR or timeout
ended makes no status (R181) (log 40, DEDUCED). An end by poison alone sets POISONED-DATA and not CHAIN-BROKEN (log 64, DESIGN CHOICE). -/
def State.cmdEnd (s : State) (sch no : Nat) : State :=
  match s.cmd? sch no with
  | none => s
  | some c =>
    if !c.allOver || c.ended then s
    else
      let aborted := c.anyCut && (s.ctxOf sch).clrreq
      let s0 := (s.modCmd sch no fun c => { c with ended := true, aborted := aborted }).releaseSegs fun h => h.owner = .zero sch no
      let ds := c.status
      let s1 := if c.chc || c.anyCut then s0 else s0.modCtx sch fun x => { x with ds := ds, dstat := ds, residual := c.residual }
      let s2 := if c.ist && !aborted then s1.intermediate sch else s1
      let s3 := if c.count = 0 || !c.toMem || (s2.descsOf sch no).isEmpty then s2.fullPoint sch no else s2.dataPoints sch no
      let broken := c.chc && !isGood ds
      let s4 := if broken && !c.anyCut then s3.modCtx sch fun x => x.setCst cstChainBroken else s3
      if c.anyCut || !(c.poison || broken) then s4 else s4.breakAt sch no ds c.residual

/-- DS after a wait for commands with CHC = 1: that of the last command which the program waited for (R175, R183, R187)
(log 40, DEDUCED). -/
def State.takeDs (s : State) (sch : Nat) : State :=
  match (s.progOf sch).cmds.getLast? with
  | none => s
  | some c =>
    if c.chc && c.ended && !c.anyCut then
      s.modCtx sch fun x => { x with ds := c.status, dstat := c.status, residual := c.residual }
    else s

/-- Once XOUT is 0, a program that executed END has the status of its last command (R187), and another one whose wait is over can be
dispatched again (R126, R129, R175) (log 39, DEDUCED). One whose command waited for an exchange goes on when no piece waits any more
(R16) (log 23, DEDUCED). -/
def State.progress (s : State) (sch : Nat) : State :=
  let c := s.ctxOf sch
  let p := s.progOf sch
  if c.state ≠ .waiting || s.hasThread sch || c.dreq || p.brk.isSome || c.haltreq || c.clrreq then s
  else if p.wait = .room then
    if (nextPiece p.cmds).isNone then (s.modProg sch fun p => { p with wait := .dispatch }).requeue sch else s
  else if c.xout ≠ 0 then s
  else if p.ending then if p.wait = .fin then s.takeDs sch else s
  else match p.wait with
    | .dispatch => s
    | .fin => s
    | .room => s
    | .commands => ((s.takeDs sch).modProg sch fun p => { p with wait := .dispatch }).requeue sch
    | .spn =>
      if c.resreq then
        (((s.takeDs sch).modCtx sch fun c => { c with resreq := false }).modProg sch fun p =>
          { p with wait := .dispatch, resumed := true }).requeue sch
      else ((s.takeDs sch).modCtx sch fun c => { c.pauseTimer s.time with state := .suspended }).modProg sch fun p =>
          { p with wait := .dispatch, resumed := true }

/-- Data that ends before byte `g.1` of a command leaves the rest of its last word in the global scratchpad 0 (R162). -/
def State.zeroTail (s : State) (sch : Nat) (ext : List Extent) (g : Nat × Nat) : State :=
  match extAt ext (g.1 - 1) with
  | none => s
  | some (e, o) => if e.host || e.skip then s else s.gsTail sch (e.addr.toNat + o + 1) (min (g.2 - g.1) (e.len - o - 1))

/-- The unused bytes of the words in which the data of a piece ends (R162). -/
def State.zeroTails (s : State) (sch no : Nat) (p : Piece) (got : List (Nat × Nat)) : State :=
  match s.cmd? sch no with
  | none => s
  | some c => ((gaps got p.off (p.off + p.len)).filter fun g => p.off < g.1).foldl (fun t g => t.zeroTail sch c.ext g) s

/-- What a device-to-memory piece leaves when its exchange has answered: segments with bytes become ready, the bytes that did
not come are cancelled (R180). -/
def State.settleIn (s : State) (sch no i : Nat) (p : Piece) : State :=
  let held := s.dma.segs.filter fun e => e.2.owner.ofPiece sch no i && e.2.toMem && e.2.owner.exch = p.st.exch
  let s1 := held.foldl (fun t e => t.pieceReady sch no i (p.st.exch.getD 0) e.2.piece) s
  let got := held.foldl (fun l e => (maskSpans e.2.mask).foldl (fun l g =>
    addSpan l (512 * e.2.piece + g.1) (512 * e.2.piece + g.2)) l) ([] : List (Nat × Nat))
  (gaps got p.off (p.off + p.len)).foldl (fun t g => t.cancelBytes sch no g.1 g.2) (s1.zeroTails sch no p got)

/-- The piece that an exchange carries, with its command. -/
def State.pieceOf (s : State) (x : Nat) : Option (Cmd × Piece) :=
  match AMap.get? s.dev.exch x with
  | none => none
  | some e =>
    match s.cmd? e.sch e.cmd with
    | none => none
    | some c =>
      match c.pieces[e.pc]? with
      | none => none
      | some p => if p.st = .sent x then some (c, p) else none

/-- A piece of a command ends with a device status: XOUT falls, its data settles, the command may end, and the program goes on
(R126, R291). -/
def State.endPiece (s : State) (sch no i : Nat) (dstat : Byte) (moved : Nat) : State :=
  match s.cmd? sch no with
  | none => s
  | some c =>
    match c.pieces[i]? with
    | none => s
    | some p =>
      let s1 := (s.modCmd sch no fun c => { c with pieces := modAt c.pieces i fun p => { p with st := .ended dstat moved } }).modCtx
        sch fun c => { c with xout := c.xout - 1 }
      let s2 := if c.toMem then s1.settleIn sch no i p
        else ((s1.releaseSegs fun h => h.owner.ofPiece sch no i).forgetPieces sch no i).cancelBytes sch no p.off (p.off + p.len)
      (s2.cmdEnd sch no).progress sch

/-- An exchange whose piece another one carries leaves the table; what it still holds for memory is freed unwritten (R291, R321). -/
def State.dropStale (s : State) (x : Nat) : State :=
  match AMap.get? s.dev.exch x with
  | none => s
  | some e => (s.releaseSegs fun h => h.toMem && decide (h.owner = .xfer e.sch e.cmd e.pc x) && !s.writing h).dropExch x

/-- The device's answer ends an exchange: it leaves the table, and the piece it carries ends. -/
def State.answered (s : State) (x : Nat) (dstat : Byte) (moved : Nat) : State :=
  match AMap.get? s.dev.exch x with
  | none => s
  | some e => if (s.pieceOf x).isSome then (s.dropExch x).endPiece e.sch e.cmd e.pc dstat moved else s.dropStale x

/-- A piece ends without an answer: aborted, lost or without a path. -/
def State.endCut (s : State) (sch no i : Nat) : State := ((s.cutPiece sch no i).cmdEnd sch no).progress sch

/-- The exchange of a piece ends by its abort, or is lost; a lost one keeps its device command slot (R132, R395). -/
def State.exchCut (s : State) (x : Nat) (keepSlot : Bool) : State :=
  match AMap.get? s.dev.exch x with
  | none => s
  | some e =>
    let s1 := if keepSlot then
        (s.modExch x fun e => { e with st := .lost, abortDue := none }).tallyReturn 1 1
      else if (s.pieceOf x).isSome then s.dropExch x else s.dropStale x
    if (s.pieceOf x).isSome then s1.endCut e.sch e.cmd e.pc else s1

end Sys2Proof.Machine
end

