-- ==== Sys2Proof/Machine/Queues.lean ====
section
/-! DEFINITION. Sys2Proof/Machine/Queues.lean: submission queues from the doorbell or push to the presented entry, doorbells of
completion queues, and the reads of QM_QEVT and QM_LEG_FIFO. -/

namespace Sys2Proof.Machine

/-- What every command answers: a next state. -/
abbrev Res := Host.Outcome State Fault Refusal

/-! ## Access to the BARs (R38, R55, R59, R64) -/

/-- The function answers BAR requests. -/
def Link.opens (l : Link) : Bool := l.ep ≠ .held && l.mse && !l.d3 && (!l.ideReq || l.ide.secure)

/-- The function answers a request to BAR4: IDE protects the Almanac window and leaves the MSI-X structures usable (R55). -/
def Link.opens4 (l : Link) (off : Nat) : Bool := l.ep ≠ .held && l.mse && !l.d3 && (off < 0x80000 || l.opens)

/-- A write to BAR2 that the endpoint passes on; a refused one counts, one on a discarding IDE stream or before the release
has no effect. In recovery mode only the doorbells of the admin pair exist (R59). -/
def State.bar2 (s : State) (q : Nat) (push : Bool) (t : State) : State :=
  if s.link.ep = .held || s.link.ide.discarding then s
  else if !s.link.opens then s.urSent
  else if s.link.ep = .recovery && (push || 1 < q) then s
  else t

/-! ## Submission entries (R74, R75) -/

def entryKind (e : BitVec 512) : Nat := bits e.toNat 0 8
def entryFence (e : BitVec 512) : Bool := e.getLsbD 8
def entryCid (e : BitVec 512) : BitVec 16 := e.extractLsb' 16 16
def entrySch (e : BitVec 512) : Nat := bits e.toNat 32 20
def entryProg (e : BitVec 512) : Word := e.extractLsb' 64 64
def entryParm0 (e : BitVec 512) : Word := (e.extractLsb' 128 32).setWidth 64
def entryParm1 (e : BitVec 512) : Word := e.extractLsb' 192 64
def entryParm2 (e : BitVec 512) : Word := e.extractLsb' 256 64
def entryTmo (e : BitVec 512) : BitVec 32 := e.extractLsb' 320 32
def entryPhase (e : BitVec 512) : Bool := e.getLsbD 511

/-- The bits of R74 that an entry of a kind uses. -/
def usedBits (kind : Nat) : BitVec 512 :=
  let base : BitVec 512 := BitVec.ofNat 512 (0xFFFF00FF + 2 ^ 511)
  let sch : BitVec 512 := BitVec.ofNat 512 (0xFFFFF * 2 ^ 32)
  if kind = 0 then base
  else if kind = 1 then
    base ||| sch ||| BitVec.ofNat 512 (0x100 + (2 ^ 64 - 1) * 2 ^ 64 + 0xFFFFFFFF * 2 ^ 128 + (2 ^ 160 - 1) * 2 ^ 192)
  else base ||| sch

/-- The ERROR cause of a malformed entry (R75, R92); 0 for a sound one. -/
def malformed (e : BitVec 512) : Nat :=
  if 4 < entryKind e then 1 else if e &&& ~~~(usedBits (entryKind e)) ≠ 0 then 2 else 0

/-! ## Errors (R93) -/

/-- How many positions the manager may still take before T, or before the latched position in ERROR. -/
def SQ.remain (r : SQ) : Nat :=
  if r.past ≠ 0 then 0 else ringDist r.size r.c (if r.st = .error then r.latched else r.t)

/-- A submission queue enters ERROR with a latched position. In ERROR, an entry before the latched position that cannot be
taken moves the position back, and nothing else moves it (R93). Captured entries at or after it are dropped (log 28, DEDUCED). -/
def State.sqError (s : State) (q cause pos : Nat) : State :=
  match s.sq? q with
  | none => s
  | some r =>
    if r.st = .error && r.remain = 0 then s
    else
      let cap := r.capture.filter fun e => let d := ringDist r.size e.1 pos; d ≠ 0 && d ≤ r.size
      ((s.withdraw (.ring q)).setSq q { r with
        st := .error, cause := if r.st = .error then r.cause else cause, latched := pos, capture := cap,
        tries := if pos = r.c then 0 else r.tries, ahead := false }).queueEvent q false cause (pos % r.size) (pos / r.size % 2 = 1)

/-- A completion queue enters ERROR (R101); the latched position is its last valid head. -/
def State.cqError (s : State) (q : Nat) : State :=
  match s.cq? q with
  | none => s
  | some r =>
    if r.st = .error then s
    else ((s.setCq q { r with st := .error, cause := 4, latched := r.head }).unpark q).queueEvent q false 4 (r.head % r.size)
      (r.head / r.size % 2 = 1)

/-! ## Taking entries (R82, R83, R84) -/

/-- Entries that are taken and on their way to their subchannels: those that no fence holds (R78). -/
def SQ.onWay (r : SQ) : Nat :=
  match r.taken with
  | [] => 0
  | e :: rest =>
    if entryFence e && !r.fenceOk then 0 else 1 + (rest.takeWhile fun e => !entryFence e).length

/-- The overflow area of a completion queue has room for one more entry beside those that are on their way from its paired
submission queues (R98). -/
def State.takeRoom (s : State) (cq : Nat) : Bool :=
  s.overflowUse cq + sumBy (fun e => if e.2.cqid = cq then e.2.onWay else 0) s.q.sqs < 64 && (s.cq? cq).isSome

/-- The manager may take an entry at C now: ACTIVE, or ERROR with entries left before the latched position; the admin queue
takes one at a time (R104); the overflow area of the paired queue has room (R98). -/
def State.mayTake (s : State) (q : Nat) (r : SQ) : Bool :=
  (r.st = .active || (r.st = .error && r.remain ≠ 0)) && s.takeRoom r.cqid
    && (q ≠ 0 || (s.q.admOn && r.taken.isEmpty && s.q.admWait.isNone))

/-- The manager may look at the slot at C beyond T (R83). -/
def SQ.lookAhead (r : SQ) (q : Nat) : Bool :=
  r.ahead && !r.push && q ≠ 0 && r.st = .active && r.remain = 0 && r.past < min 8 ((r.c + r.size + 2 * r.size - r.t) % (2 * r.size))

/-- Take a sound entry at C; a malformed one puts the queue into ERROR at its position (R75). Answers whether it was taken. -/
def State.takeEntry (s : State) (q : Nat) (r : SQ) (e : BitVec 512) : State × Bool :=
  let bad := if q = 0 then 0 else malformed e
  if bad ≠ 0 then (s.sqError q bad r.c, false)
  else (s.setSq q { r with
      c := ringNext r.size r.c, past := if r.remain = 0 then r.past + 1 else r.past, tries := 0,
      capture := AMap.del r.capture r.c, taken := r.taken ++ [e] }, true)

/-- Take entries in position order from the capture buffer and from fetched slots, the first of which is the slot at C
(log 28, DEDUCED). -/
def State.takeLoop (n : Nat) (s : State) (q : Nat) (slots : List (BitVec 512)) : State :=
  match n with
  | 0 => s
  | n + 1 =>
    match s.sq? q with
    | none => s
    | some r =>
      if !s.mayTake q r then s
      else match AMap.get? r.capture r.c with
        | some e =>
          let x := s.takeEntry q r e
          if x.2 then State.takeLoop n x.1 q slots.tail else x.1
        | none =>
          match slots with
          | [] => s
          | e :: rest =>
            if r.remain = 0 && !r.lookAhead q then s
            else if entryPhase e = ringPhase r.size r.c then
              let x := s.takeEntry q r e
              if x.2 then State.takeLoop n x.1 q rest else x.1
            else if r.remain = 0 then s.setSq q { r with ahead := false }
            else if 63 ≤ r.tries then s.sqError q 3 r.c
            else s.setSq q { r with tries := r.tries + 1, staleDue := addNs s.time 250 }

/-- The queue has a slot to read from its ring: no block is being read, or a request of the block is still to be made (R81, R33). -/
def State.wantsFetch (s : State) (q : Nat) (r : SQ) : Bool :=
  s.mayTake q r && r.tries = 0 && !AMap.has r.capture r.c && (r.remain ≠ 0 || r.lookAhead q)
    && (match r.block with
      | none => true
      | some b => b.asked < b.n)

/-- Ask Meridian for the next ring read, stamped with the time of the doorbell or push (R326). -/
def State.wantRing (s : State) (q : Nat) : State :=
  match s.sq? q with
  | none => s
  | some r =>
    if s.wantsFetch q r && !s.md.reqs.any (fun x => x.who = .ring q) then
      let s1 := if s.poolFree 2 r.cls then s else s.waited 2
      s1.request 1 (stampClass s.time r.bell r.cls r.deadline r.vclock) 3 0 (.ring q)
    else s

/-- Take what can be taken without a read, then ask for one. -/
def State.pump (s : State) (q : Nat) : State := (s.takeLoop 5 q []).wantRing q

/-- The submission queues paired with a completion queue go on, once its overflow area may have room again (R98). -/
def State.pumpPaired (s : State) (cq : Nat) : State :=
  (s.q.sqs.filter fun e => e.2.cqid = cq).foldl (fun t e => t.pump e.1) s

/-- Every submission queue goes on. -/
def State.pumpAll (s : State) : State := s.q.sqs.foldl (fun t e => t.pump e.1) s

/-- ERROR, and the entries before the latched position are taken on (R93). -/
def State.sqFails (s : State) (q cause pos : Nat) : State := (s.sqError q cause pos).pump q

/-! ## Pushes (R88 to R90) -/

def State.pushDiscard (s : State) : State := s.onQ fun x => { x with pushDiscard := inc16 x.pushDiscard }
def State.dbDiscard (s : State) : State := s.onQ fun x => { x with dbDiscard := inc16 x.dbDiscard }

/-- The push goes to a push-enabled queue in ACTIVE or PAUSED (R88, R89). -/
def State.pushQueue (s : State) (q : Nat) : Option SQ :=
  match s.sq? q with
  | none => none
  | some r => if q = 0 || !r.push || r.st = .error then none else some r

def SQ.tailRoom (r : SQ) : Nat := (r.c + r.size + 2 * r.size - r.t) % (2 * r.size)

/-- R88. -/
def execWholePush (q : Nat) (entry : BitVec 512) (s : State) : Res :=
  .next (s.bar2 q true (match s.pushQueue q with
    | none => s.pushDiscard
    | some r =>
      if r.tailRoom < 1 then s.sqFails q 5 r.t
      else if entryPhase entry ≠ ringPhase r.size r.t then s.sqFails q 6 r.t
      else if r.capture.length < 4 then
        (s.setSq q { r with
          capture := AMap.put r.capture r.t entry, t := ringNext r.size r.t, bell := s.time }).pump q
      else ((s.setSq q { r with t := ringNext r.size r.t, bell := s.time }).onQ fun x =>
        { x with captureFallback := inc16 x.captureFallback }).pump q))

/-- R90: a torn push, as R40 classifies the part. -/
def execTornPush (q : Nat) (be : BitVec 64) (s : State) : Res :=
  .next (if be = BitVec.allOnes 64 then s
    else s.bar2 q true (if be = 0 then s else match s.pushQueue q with
      | none => s.pushDiscard
      | some r => s.sqFails q 7 r.t))

/-! ## One write TLP to BAR2 (R40) -/

/-- The bytes that a write TLP carries for a range of BAR2: from an address on, with the byte enables that are set. -/
structure Bar2Tlp where
  addr : Nat
  data : List Byte
  be : List Bool

/-- The byte enables of `n` bytes from an address on; bytes that the TLP does not carry are not enabled. -/
def Bar2Tlp.enables (w : Bar2Tlp) (a n : Nat) : List Bool :=
  (List.range n).map fun i => w.addr ≤ a + i && w.be.getD (a + i - w.addr) false

/-- `n` bytes from an address on, as a number; bytes that the TLP does not carry are 0. -/
def Bar2Tlp.bytes (w : Bar2Tlp) (a n : Nat) : Nat :=
  ofLe ((List.range n).map fun i => if w.addr ≤ a + i then w.data.getD (a + i - w.addr) 0 else 0)

def bitsOf (l : List Bool) : Nat := sumBy (fun e => b2n e.1 * 2 ^ e.2) l.zipIdx

/-- The part of a write TLP within one queue area, as the endpoint passes it on: its push, whole or torn, then its doorbell write
(R40). `cq` says that the queue ID is a completion queue's. -/
def Bar2Tlp.part (w : Bar2Tlp) (q : Nat) (cq : Bool) : List Instr :=
  let push := w.enables (128 * q) 64
  let bell := w.enables (128 * q + 120) 8
  let val := BitVec.ofNat 64 (w.bytes (128 * q + 120) 8)
  (if push.all id then [Instr.wholePush q (BitVec.ofNat 512 (w.bytes (128 * q) 64))]
    else if push.any id then [Instr.tornPush q (BitVec.ofNat 64 (bitsOf push))] else []) ++
  (if bell.any id then
    [if cq then Instr.cqDoorbell q (BitVec.ofNat 8 (bitsOf bell)) val else Instr.sqDoorbell q (BitVec.ofNat 8 (bitsOf bell)) val]
   else [])

/-- The parts of a write TLP, split at 128-byte queue areas, in address order (R40). The host's write stands as these commands in
the queue of what waits (log 69, DESIGN CHOICE). -/
def State.bar2Parts (s : State) (w : Bar2Tlp) : List Instr :=
  (List.range ((w.addr + w.data.length + 127) / 128 - w.addr / 128)).flatMap fun i =>
    w.part (w.addr / 128 + i) (s.cq? (w.addr / 128 + i)).isSome

/-- A write TLP to BAR2 arrives behind the commands that wait; one that the endpoint refuses counts once, whatever it covers (R65). -/
def State.receiveBar2 (s : State) (w : Bar2Tlp) : State :=
  if s.link.ep = .held || s.link.ide.discarding then s
  else if !s.link.opens then s.urSent
  else { s with pending := s.pending ++ s.bar2Parts w }

/-! ## Doorbells (R73, R85, R101) -/

def dbIndex (v : Word) : Nat := bits v.toNat 0 16
def dbWrap (v : Word) : Nat := bits v.toNat 16 1
def dbReserved (v : Word) : Nat := bits v.toNat 17 47

/-- The queue whose doorbells count: a class 0 queue takes pushes alone (R89). A doorbell to queue ID 0 while ENABLE is 0 is discarded, and
counts (log 64, DESIGN CHOICE). -/
def State.bellQueue (s : State) (q : Nat) : Option SQ :=
  match s.sq? q with
  | none => none
  | some r => if (q ≠ 0 && r.cls = 0) || r.st = .error || (q = 0 && !s.q.admOn) then none else some r

/-- R85. Byte enables that are not all set pass nothing (R40), but a refused write counts whatever it enables (R65)
(log 28, DEDUCED). -/
def execSqDoorbell (q : Nat) (be : BitVec 8) (val : Word) (s : State) : Res :=
  .next (if (s.cq? q).isSome then s
    else s.bar2 q false (if be ≠ BitVec.allOnes 8 then s else match s.bellQueue q with
      | none => s.dbDiscard
      | some r =>
        let p := dbWrap val * r.size + dbIndex val
        let step := ringDist r.size r.t p
        if dbReserved val ≠ 0 || r.size ≤ dbIndex val || r.tailRoom < step then s.sqFails q 4 r.t
        else
          let s1 := s.setSq q { r with t := p, past := r.past - step, ahead := true, bell := s.time }
          (if q = 0 then s1.irq 0 else s1).pump q))

/-- R101, R100. An invalid doorbell on queue ID 1 puts completion queue 1 into ERROR; queue 0 goes on taking commands, whose
completions are held (R105) (log 64, DESIGN CHOICE). -/
def execCqDoorbell (q : Nat) (be : BitVec 8) (val : Word) (s : State) : Res :=
  .next (if (s.sq? q).isSome then s
    else s.bar2 q false (if be ≠ BitVec.allOnes 8 then s else match s.cq? q with
      | none => s.dbDiscard
      | some r =>
        if r.st = .error then s.dbDiscard
        else
          let p := dbWrap val * r.size + dbIndex val
          if dbReserved val ≠ 0 || r.size ≤ dbIndex val || ringDist r.size r.head r.tail < ringDist r.size r.head p then
            s.cqError q
          else
            let s1 := ((s.setCq q { r with head := p }).sendComps q).admSettle
            s1.pumpPaired q))

/-! ## Ring reads (R81, R84, R86) -/

/-- The aligned block of 8 slots that holds the slot at C, clipped at the end of the ring (R81). -/
def SQ.newBlock (r : SQ) : Block :=
  let b := r.c % r.size / 8 * 8
  ⟨b, min 8 (r.size - b), 0, []⟩

/-- The next request of a block: its first slot and its slots, at most 512 bytes and Max Read Request Size (R33, R81). -/
def Block.next (b : Block) (mrrs : Nat) : Nat × Nat := (b.start + b.asked, min (b.n - b.asked) (min 512 mrrs / 64))

/-- R81, R33: one read request of the block that holds the slot at C. A request that waits while its queue is deleted is served all the same,
and what it reads goes nowhere (R349); one that a reset has left without anything to read is served without a read (R350) (log 11, DESIGN
CHOICE) (log 27, DEDUCED). -/
def execRingFetch (q tag : Nat) (s : State) : Res :=
  .next (match s.sq? q with
    | none => match AMap.get? s.q.gone q with
      | none => if s.granted (.ring q) then s.withdraw (.ring q) else s
      | some r =>
        if s.granted (.ring q) && s.link.mayIssue && s.tagFree tag && s.poolFree 2 r.cls then
          let k := (r.block.getD r.newBlock).next s.link.mrrs
          ((((s.withdraw (.ring q)).onQ fun x => { x with gone := AMap.del x.gone q }).takeRead tag (.ring q k.1 k.2)).hostRead tag
            (r.base + BitVec.ofNat 64 (64 * k.1)) r.pasid (64 * k.2))
        else s
    | some r =>
      if s.granted (.ring q) && !s.wantsFetch q r then s.withdraw (.ring q)
      else if s.wantsFetch q r && s.granted (.ring q) && s.link.mayIssue && s.tagFree tag && s.poolFree 2 r.cls then
        let b := r.block.getD r.newBlock
        let k := b.next s.link.mrrs
        ((((s.withdraw (.ring q)).setSq q { r with
          reading := r.reading ++ [tag], block := some { b with asked := b.asked + k.2 } }).takeRead tag (.ring q k.1 k.2)).hostRead
            tag (r.base + BitVec.ofNat 64 (64 * k.1)) r.pasid (64 * k.2)).wantRing q
      else s)

/-- Store slots that have arrived, from a slot number on. -/
def Block.fill (b : Block) (pos : Nat) (slots : List (BitVec 512)) : Block :=
  { b with got := slots.zipIdx.foldl (fun m e => AMap.put m (pos + e.2) e.1) b.got }

/-- The slots of a whole block from a slot on. -/
def Block.from (b : Block) (i : Nat) : List (BitVec 512) :=
  (List.range (b.start + b.n - i)).map fun k => AMap.getD b.got (i + k) 0

/-- How Armature brings what a read of a ring returned: its error, or its correction (R14, R400). -/
def State.ringFabric (s : State) (st : CplStatus) (e : Ecc) : State :=
  if st ≠ .ok && st ≠ .poison then s else if e = .bad then s.memError 3 0 0 0 else s.eccFix e

/-- R82, R86, R534: one completion of a ring read arrives. A failed one, or one that Armature brings uncorrectable (R14), puts the queue into
ERROR; when the last slot of the block has arrived, entries are taken from C on (log 65, DESIGN CHOICE). -/
def execRingFetchComplete (tag : Nat) (st : CplStatus) (found : Checked (List (BitVec 512))) (s : State) : Res :=
  .next (match AMap.get? s.link.reads tag with
    | some (.ring q pos n) =>
      if s.link.drops st then s
      else
      let slots := found.val
      let st := s.cplOf tag st
      let more := (st = .ok || st = .poison) && slots.length ≠ 0 && slots.length < n
      let s1 := ((if more then s.onLink fun l => { l with
          reads := AMap.put l.reads tag (.ring q (pos + slots.length) (n - slots.length)) }
        else s.dropRead tag).countCpl st).ringFabric st found.ecc
      match s.sq? q with
      | none => s1
      | some r =>
        if !r.reading.contains tag then s1
        else match r.block with
        | none => s1
        | some b =>
          if st ≠ .ok || found.ue || slots.length = 0 || n < slots.length then
            (s1.setSq q { r with reading := [], block := none }).sqFails q 8 r.c
          else
            let b := b.fill pos slots
            if b.got.length = b.n then
              ((s1.setSq q { r with reading := [], block := none }).takeLoop (b.n + 5) q (b.from (r.c % r.size))).wantRing q
            else s1.setSq q { r with
              reading := if more then r.reading else r.reading.filter (· ≠ tag), block := some b }
    | some (.text _ _) => s
    | some (.load _ _) => s
    | some (.dma _ _ _ _) => s
    | none => s)

/-- The key of a reread, that of a ring fetch (R326); one that waits keeps its own. -/
def State.rereadKey (s : State) (q : Nat) (r : SQ) : Bool × Time :=
  let w := s.placeAt 2 (stampClass s.time r.bell r.cls r.deadline r.vclock) 3 0 r.cls (.reread q)
  (w.bg, w.dl)

/-- R84: 250 ns after a slot before T did not match, one 64-byte read of it; the 64th read without a match is an error. The read
returns the slot at C alone, and what stands behind it comes with a new ring read (log 64, DESIGN CHOICE). -/
def execPhaseStaleReread (q tag : Nat) (data : SlotData) (s : State) : Res :=
  .next (match s.sq? q with
    | none => s
    | some r =>
      if r.tries = 0 || !reached s.time r.staleDue || !s.link.mayIssue || !s.mayTake q r || !s.tagFree tag then s
      else if !(s.turn 2 (s.rereadKey q r) 3 0 r.cls (.reread q) && s.wins 1 (s.rereadKey q r) 3 0) then
        s.await 2 (s.rereadKey q r) 3 0 r.cls (.reread q)
      else
        let s1 := ((s.unwait 2 (.reread q)).takeRead tag (.ring q (r.c % r.size) 1)).hostRead tag
          (r.base + BitVec.ofNat 64 (64 * (r.c % r.size))) r.pasid 64
        let st := s1.cplOf tag data.st
        let s2 := ((s1.dropRead tag).countCpl st).ringFabric st data.slot.ecc
        if st ≠ .ok || data.slot.ue then s2.sqFails q 8 r.c else (s2.takeLoop 6 q [data.slot.val]).wantRing q)

/-! ## Presenting entries (R77, R78, R126) -/

/-- The entry at the front of a queue, when it has the kind that a command presents and no fence holds it (R78). A full overflow area
keeps entries from being taken, not those that are taken from going on (R98). -/
def State.front (s : State) (q kind : Nat) : Option (SQ × BitVec 512) :=
  match s.sq? q with
  | none => none
  | some r =>
    match r.taken with
    | [] => none
    | e :: _ =>
      if q ≠ 0 && entryKind e = kind && (!entryFence e || r.fenceOk) then some (r, e) else none

/-- Drop the front entry. -/
def State.shift (s : State) (q : Nat) (r : SQ) : State := s.setSq q { r with taken := r.taken.tail, fenceOk := false }

/-- R77: START and RESUME need the bound queue, HALT and CLEAR its PASID. -/
def Ctx.bound (c : Ctx) (q : Nat) : Bool := c.sqv && c.sqid = q
def Ctx.samePasid (c : Ctx) (r : SQ) : Bool := c.kpasid = r.pasid

/-- An entry that the subchannel's state does not take (R127). -/
def State.rejectEntry (s : State) (q : Nat) (r : SQ) (e : BitVec 512) (reason : Nat) : State :=
  s.reject r.cqid reason (entryCid e) (entrySch e) q r.cls

/-- R80. -/
def execNopEntry (q : Nat) (s : State) : Res :=
  .next (match s.front q 0 with
    | none => s
    | some (r, e) =>
      ((s.shift q r).postComp r.cqid ⟨5, 0, entryCid e, 0, q, 0, 0, s.time, r.cls⟩).pump q)

/-- R128 (a): the accepted START, in one step. A START without a timeout has EXPIRY and ELAPS 0 (log 64, DESIGN CHOICE). -/
def State.startAccepted (s : State) (q : Nat) (r : SQ) (e : BitVec 512) : State :=
  let sch := entrySch e
  let eff := r.effective s.time s.md.sched.expWin
  let c := s.ctxOf sch
  let tmo := if entryTmo e = 0 then c.tmoDef else entryTmo e
  let f0 : List TWord := [⟨tagCount, entryParm0 e⟩, ⟨tagInt, entryParm1 e⟩, ⟨tagInt, entryParm2 e⟩]
  let c1 : Ctx := { c with
    state := .startPending, gen := c.gen + 1, cid := entryCid e, cls := r.cls, ic := entryProg e,
    f := f0 ++ List.replicate 13 TWord.unset, cc := 0, ds := 0, dstat := 0, cstat := 0, pchk := 0, residual := 0,
    iscnt := 0, istot := 0, resreq := false, haltreq := false, clrreq := false, tmout := false, xout := 0,
    budget := BitVec.ofNat 32 (s.md.sched.budget r.cls), tmoCur := tmo, elaps := 0, expiry := 0 }
  let c2 := if tmo = 0 then c1 else c1.arm s.time (tmo.toNat * 1000)
  let s1 := (s.setCtx sch c2).setProg sch { Prog.zero with sq := q, rel := r.deadline, cost := r.cost }
  let s2 := s1.setSq q { r with
    taken := r.taken.tail, fenceOk := false, accepts := eff.1 :: r.accepts }
  let s3 := if eff.2 then s2.onMd fun m => { m with policed := inc16 m.policed } else s2
  ((s3.tallyIssue 0 1).mark 0).requeueAt sch eff.1

/-- Uncorrectable words of the buffer (R289). -/
def State.bufferUe (s : State) (n seg : Nat) : State :=
  if n = 0 then s
  else ((s.onDma fun x => { x with tbEccUe := sat 16 (x.tbEccUe + n) }).onTally fun t => { t with ue := sat 16 (t.ue + n) }).event 4 4
    2 seg 0 0 0 |>.irq 5

/-- R399: a program whose context is lost is written off: its exchanges are aborted, its thread stops, no final status posts, its
subchannel is DISABLED with its bindings cleared (log 60, DEDUCED). -/
def State.writeOff (s : State) (sch : Nat) : State :=
  let g := (s.ctxOf sch).gen
  let s0 := (match s.thOf sch with
    | some th => s.dropThread th
    | none => s).modCtx sch fun c => { c with clrreq := true }
  let s1 := ((((s0.onSx fun x => { x with stopped := x.stopped.filter fun e => e.2.sch ≠ sch }).cutUnsent sch fun _ _ _ =>
    false).abortAll sch).undispatch sch).withdraw (.exch sch) |>.withdraw (.store sch)
  let open_ := b2n !((s.ctxOf sch).state = .idle || (s.ctxOf sch).state = .disabled)
  let s2 := ((((s1.dropSense sch).dropData sch).forgetGhosts sch).delProg sch).onSub fun b => { b with writtenOff := b.writtenOff + open_ }
  let s3 := s2.modCtx sch fun c => { c.unbind with state := .disabled, held := false, dreq := false, xout := 0 }
  (s3.event 1 10 7 0 0 (sch + g.toNat * 2 ^ 32) 0).signal 4

/-- A subchannel in DISABLED, IDLE or STATUS-PENDING that still holds its bindings (R399). -/
def Ctx.rewritable (c : Ctx) : Bool :=
  (c.state = .disabled || c.state = .idle || c.state = .statusPending) && c.sqv && c.cqv && c.stv && c.psv

/-- R399: an uncorrectable word at offset 0x00 to 0x77 that a START finds: a subchannel without a program that still holds its bindings
is rewritten from the binding table, and any other is written off. -/
def State.startUe (s : State) (sch : Nat) : State :=
  let s1 := s.memError 6 0 0 sch
  if (s.ctxOf sch).rewritable then s1 else s1.writeOff sch

/-- R126: START. `ecc` says whether the read of the context found an uncorrectable word, which the binding table replaces; a program
that runs is written off (R399). A START rejected BUSY counts as a wait of bound 0 (R20) (log 64, DESIGN CHOICE). -/
def execStart (q : Nat) (ecc : Ecc) (s : State) : Res :=
  .next (match s.front q 1 with
    | none => s
    | some (r, e) =>
      let s := if ecc = .bad then s.startUe (entrySch e) else s.eccFix ecc
      let c := s.ctxOf (entrySch e)
      if !c.bound q then ((s.shift q r).rejectEntry q r e 1).pump q
      else if c.state = .disabled then ((s.shift q r).rejectEntry q r e 3).pump q
      else if c.state = .idle then (s.startAccepted q r e).pump q
      else (((s.shift q r).waited 0).rejectEntry q r e 2).pump q)

/-- R126, R129: RESUME. -/
def execResume (q : Nat) (s : State) : Res :=
  .next (match s.front q 2 with
    | none => s
    | some (r, e) =>
      let sch := entrySch e
      let c := s.ctxOf sch
      let s1 := s.shift q r
      (if !c.bound q then s1.rejectEntry q r e 1
       else if c.state = .disabled then s1.rejectEntry q r e 3
       else if c.state = .suspended then
         (s1.modCtx sch fun c => { c.resumeTimer s.time with state := .waiting }).requeue sch
       else if c.state = .startPending || c.state = .active || c.state = .waiting then
         (s1.modCtx sch fun c => { c with resreq := true }).progress sch
       else s1.rejectEntry q r e 2).pump q)

/-- The stores that END holds are discarded (R188). -/
def State.dropStores (s : State) (sch : Nat) : State := (s.modProg sch fun p => { p with stores := [] }).withdraw (.store sch)

/-- R126, R130: HALT. -/
def execHalt (q : Nat) (s : State) : Res :=
  .next (match s.front q 3 with
    | none => s
    | some (r, e) =>
      let sch := entrySch e
      let c := s.ctxOf sch
      let s1 := s.shift q r
      (if !c.samePasid r then s1.rejectEntry q r e 1
       else if c.state = .disabled then s1.rejectEntry q r e 3
       else if c.state = .startPending || c.state = .suspended then
         (s1.modCtx sch fun c => { c with haltreq := true }).endAtOnce sch
       else if c.state = .active || c.state = .waiting then
         ((s1.modCtx sch fun c => { c with haltreq := true, state := .haltPending }).dropStores sch).undispatch sch
       else s1.rejectEntry q r e 2).pump q)

/-- CLEAR sets IC to 0 and F0 to F15 to UNSET (R131). -/
def Ctx.wipe (c : Ctx) : Ctx := { c with ic := 0, f := List.replicate 16 TWord.unset }

/-- A ghost that is the only copy of a piece of a cleared program gets 50 ms (R413). -/
def State.ghostCleared (s : State) (sch : Nat) (g : Ghost) : Ghost :=
  let again := match s.cmd? g.sch g.cmd with
    | some c => (match c.pieces[g.pc]? with
      | some p => p.st.again
      | none => false)
    | none => false
  if g.sch = sch && g.abortDue.isNone && again then { g with abortDue := some (addNs s.time 50000000) } else g

/-- A piece that waits to be sent once more while the exchange that failed still waits for the answer to its abort is that exchange's
again: it ends with it, or is lost with it (R132, R400). -/
def State.rejoin (s : State) (x : Nat) (e : Exch) : State :=
  match (s.cmd? e.sch e.cmd).bind fun c => c.pieces[e.pc]? with
  | none => s
  | some p =>
    if e.st = .aborting && p.st.again then
      s.modCmd e.sch e.cmd fun c => { c with pieces := modAt c.pieces e.pc fun p => { p with st := .sent x } }
    else s

/-- A CLEAR or a timeout ends a program that has exchanges or a thread: CLEAR-PENDING, every exchange aborted, unsent pieces
dropped, ghosts that are the only copy given 50 ms (R131, R144, R413). A thread stops at its own boundary. -/
def State.cut (s : State) (sch : Nat) : State :=
  let s0 := (s.dev.exch.filter fun e => e.2.sch = sch).foldl (fun t e => t.rejoin e.1 e.2) s
  let s1 := (((s0.modCtx sch fun c => { c with clrreq := true, state := .clearPending }).dropStores sch).undispatch sch)
  let s2 := ((s1.cutUnsent sch (s1.ghostOnly sch)).abortAll sch)
  s2.onDev fun d => { d with ghosts := d.ghosts.map fun e => (e.1, s2.ghostCleared sch e.2) }

/-- R126, R131: CLEAR. -/
def execClear (q : Nat) (s : State) : Res :=
  .next (match s.front q 4 with
    | none => s
    | some (r, e) =>
      let sch := entrySch e
      let c := s.ctxOf sch
      let s1 := s.shift q r
      (if !c.samePasid r then s1.rejectEntry q r e 1
       else if c.state = .disabled then s1.rejectEntry q r e 3
       else if c.state = .startPending || c.state = .suspended then
         (s1.modCtx sch fun c => { c.wipe with clrreq := true }).endAtOnce sch
       else if c.state = .active || c.state = .waiting || c.state = .haltPending then
         let s2 := if s1.hasThread sch then s1 else s1.modCtx sch fun c => c.wipe
         s2.cut sch
       else s1.rejectEntry q r e 2).pump q)

/-- R78: the fence opens when no program that the queue started runs on without a pending status. Its rejects and NOP
completions are pending once presented. -/
def execFenceRelease (q : Nat) (s : State) : Res :=
  .next (match s.sq? q with
    | none => s
    | some r =>
      match r.taken with
      | [] => s
      | e :: _ =>
        if entryFence e && !(s.sub.prog.any fun p => p.2.sq = q) then s.setSq q { r with fenceOk := true } else s)


/-- R103, R474: AGG_TIME has passed since the first entry not yet announced. -/
def execAggregationTimerExpiry (q : Nat) (s : State) : Res :=
  .next (match s.cq? q with
    | none => s
    | some r =>
      match r.aggDue with
      | none => s
      | some t =>
        if !r.ien || !s.aggTimer q t then s
        else ((s.late t).setCq q { r with aggDue := none }).signal r.vector)

/-! ## Register reads that remove (R95, R117) -/

/-- The 64 bits of QM_QEVT. -/
def QEvent.word (e : QEvent) (lost : Bool) : Word :=
  BitVec.ofNat 64 (e.qid + b2n e.full * 2 ^ 18 + e.cause * 2 ^ 19 + e.index * 2 ^ 23 + b2n e.wrap * 2 ^ 39
    + b2n lost * 2 ^ 62 + 2 ^ 63)

/-- The 64 bits of QM_LEG_FIFO. -/
def LegEntry.word (e : LegEntry) : Word :=
  BitVec.ofNat 64 (e.sch % 2 ^ 16 + e.dstat.toNat * 2 ^ 16 + e.cstat.toNat * 2 ^ 24 + e.cls * 2 ^ 40 + b2n e.inter * 2 ^ 43
    + e.cid.toNat * 2 ^ 44 + 5 * 2 ^ 60)

def qevtOff : Nat := 0x00400020
def legFifoOff : Nat := 0x00400040

/-- A BAR0 read of 4 or 8 bytes that the endpoint serves (R38); `t` is the state after it. -/
def State.bar0Read (s : State) (off size : Nat) (t : State) : State :=
  if s.link.ep = .held || s.link.ide.discarding then s
  else if !s.link.opens || (size ≠ 4 && size ≠ 8) then s.urSent.emit (.readUr 0 off size)
  else t

/-- A BAR0 write of 4 or 8 bytes that the endpoint passes on (R38). -/
def State.bar0Write (s : State) (size : Nat) (allBytes : Bool) (t : State) : State :=
  if s.link.ep = .held || s.link.ide.discarding then s
  else if !s.link.opens || !allBytes || (size ≠ 4 && size ≠ 8) then s.urSent
  else t

/-- An 8-byte read of QM_QEVT returns the oldest event and removes it (R95). -/
def State.qevtTake (s : State) : State :=
  match s.q.qevt with
  | [] => s.emit (.readData 0 qevtOff 8 0)
  | e :: rest => (s.onQ fun x => { x with qevt := rest, qevtLost := false }).emit (.readData 0 qevtOff 8 (e.word s.q.qevtLost))

/-- R95: a read of QM_QEVT; one of 4 bytes returns 0. -/
def execQevtRead (size : Nat) (s : State) : Res :=
  .next (s.bar0Read qevtOff size (if s.link.ep = .recovery || size = 4 then s.emit (.readData 0 qevtOff size 0) else s.qevtTake))

/-- The completion that the legacy FIFO serves next: the lowest class, the oldest of it (R117). -/
def legNext (l : List LegEntry) : Option LegEntry := firstSome (fun c => l.find? fun e => e.cls = c) (List.range 8)

def legRemove (l : List LegEntry) (e : LegEntry) : List LegEntry := l.erase e

/-- An 8-byte read returns one completion and removes it; the held lists of legacy queues drain into the room in pending order
(R116, R117) (log 64, DESIGN CHOICE). -/
def State.legTake (s : State) : State :=
  match legNext s.q.leg with
  | none => s.emit (.readData 0 legFifoOff 8 0x8000000000000000#64)
  | some e =>
    let s1 := (s.onQ fun x => { x with leg := legRemove x.leg e }).emit (.readData 0 legFifoOff 8 e.word)
    (s1.q.cqs.filter fun e => e.2.legacy).foldl (fun t e => t.pumpPaired e.1) s1.drainLegacy

/-- R117: a read of QM_LEG_FIFO; one of 4 bytes returns 0. An uncorrectable entry is counted and recorded as a Context Store fault, and
the completion is served from its good copy (R314, R399) (log 71, DESIGN CHOICE). -/
def execLegFifoRead (size : Checked Nat) (s : State) : Res :=
  .next (s.bar0Read legFifoOff size.val (
    if s.link.ep = .recovery || size.val = 4 then s.emit (.readData 0 legFifoOff size.val 0)
    else match legNext s.q.leg with
      | none => s.legTake
      | some e => (if size.ue then s.memError 6 0 0 e.sch else s.eccFix size.ecc).legTake))

end Sys2Proof.Machine
end

