-- ==== Sys2Proof/Machine/Admin.lean ====
section
/-! DEFINITION. Sys2Proof/Machine/Admin.lean: the admin pair and its commands (03, 04), but for SET_PATH_SET, which moves
exchanges and stands in Recover.lean. -/

namespace Sys2Proof.Machine

/-! ## ENABLE (R104) -/

/-- A ring of the admin pair at its start: a submission queue that pairs with queue 1, a completion queue on vector 0. -/
def admSq (log2 : Nat) (base : Word) (taken : List (BitVec 512)) : SQ where
  log2 := log2
  base := base
  pasid := none
  cqid := 1
  cls := 7
  push := false
  deadline := 0
  rate := 0
  burst := 0
  cost := 0
  textStb := 0
  textKib := 0
  text := []
  st := .active
  cause := 0
  latched := 0
  t := 0
  c := 0
  past := 0
  tries := 0
  staleDue := 0
  capture := []
  taken := taken
  fenceOk := false
  reading := []
  block := none
  ahead := false
  bell := 0
  vclock := 0
  accepts := []

def admCq (log2 : Nat) (base : Word) (held : List Held) : CQ where
  log2 := log2
  base := base
  pasid := none
  legacy := false
  ien := true
  vector := 0
  aggCount := 0
  aggTime := 0
  st := .active
  cause := 0
  latched := 0
  head := 0
  tail := 0
  held := held
  unann := 0
  annBg := true
  annDl := 0
  aggDue := none

/-- Setting ENABLE from 0 to 1 takes the sizes of the same write and starts both queues at index 0. What queue 1 held goes out
(R105). A size out of range starts nothing: READY is 0 once no command of the old pair is in progress (R104). -/
def State.admStart (s : State) (val : Word) : State :=
  let a := bits val.toNat 2 4
  let b := bits val.toNat 6 4
  let s1 := s.onQ fun x => { x with admEnable := true, admSqLog2 := a, admCqLog2 := b }
  if s1.q.admOn then
    let taken := ((s.sq? 0).map (·.taken)).getD []
    let held := ((s.cq? 1).map (·.held)).getD []
    ((((s1.withdraw (.ring 0)).setSq 0 (admSq a s.q.admSqBase taken)).setCq 1 (admCq b s.q.admCqBase held)).onQ
      fun x => { x with admReady := true }).drainAll 1
  else s1.admSettle

/-- Clearing ENABLE stops fetching at once; READY falls once no command is in progress. The write sets the size fields,
which it finds frozen, to nothing new (R104). -/
def State.admStop (s : State) : State :=
  ((s.withdraw (.ring 0)).onQ fun x => { x with
    admEnable := false, sqs := AMap.upd x.sqs 0 fun r => { r with reading := [], block := none, tries := 0 } }).admSettle

/-- R104: a write of QM_ADM_CTRL that sets ENABLE. -/
def execAdminEnable (val : Word) (s : State) : Res :=
  .next (s.bar0Write 8 true (if s.link.ep = .recovery || s.q.admEnable || !val.getLsbD 0 then s else s.admStart val))

/-- R104: a write of QM_ADM_CTRL that clears ENABLE. -/
def execAdminDisable (val : Word) (s : State) : Res :=
  .next (s.bar0Write 8 true (if s.link.ep = .recovery || !s.q.admEnable || val.getLsbD 0 then s else s.admStop))

/-! ## The entry in hand (R106) -/

def aOpc (e : BitVec 512) : Nat := bits e.toNat 0 8

/-- Bits `[lo + n - 1 : lo]` of dword `d`. -/
def aField (e : BitVec 512) (d lo n : Nat) : Nat := bits e.toNat (32 * d + lo) n

def aBuf (e : BitVec 512) : Word := BitVec.ofNat 64 (aField e 12 0 64)
def aBufLen (e : BitVec 512) : Nat := aField e 14 0 32

/-- The bits that an opcode defines, as (dword, low bit, width), beside OPC, CID and PHASE. -/
def aFields (opc : Nat) : List (Nat × Nat × Nat) :=
  let buf := [(12, 0, 64), (14, 0, 32)]
  if opc = 0x01 then
    [(1, 0, 23), (2, 0, 64), (4, 0, 5), (5, 0, 20), (6, 0, 18), (7, 0, 32), (8, 0, 32), (9, 0, 32), (10, 0, 32), (11, 0, 14),
      (11, 16, 16)]
  else if opc = 0x02 then [(1, 0, 21), (2, 0, 64), (4, 0, 5), (5, 0, 20), (6, 0, 11), (7, 0, 24)]
  else if opc = 0x03 then [(1, 0, 19)]
  else if opc = 0x04 then [(1, 0, 18)]
  else if opc = 0x05 then [(1, 0, 21), (7, 0, 32), (8, 0, 32), (9, 0, 32), (10, 0, 32), (11, 0, 14), (11, 16, 16)]
  else if opc = 0x06 then [(1, 0, 19)]
  else if opc = 0x07 then [(1, 0, 18)]
  else if opc = 0x10 then (1, 0, 15) :: buf
  else if opc = 0x11 then [(1, 0, 14)]
  else if opc = 0x12 then [(1, 0, 21), (2, 0, 18), (3, 0, 18), (4, 0, 14), (5, 0, 16), (6, 0, 32)]
  else if opc = 0x13 then (1, 0, 20) :: buf
  else if opc = 0x20 then buf
  else if opc = 0x21 then [(1, 0, 14), (2, 0, 64)]
  else if opc = 0x22 then (1, 0, 20) :: (2, 0, 14) :: buf
  else if opc = 0x23 then [(1, 0, 16)]
  else if opc = 0x24 then [(1, 0, 14)]
  else if opc = 0x30 then [(1, 0, 1)]
  else []

def maskNat (l : List (Nat × Nat × Nat)) : Nat := sumBy (fun f => (2 ^ f.2.2 - 1) * 2 ^ (32 * f.1 + f.2.1)) l

/-- Reserved bits are 0, and a buffer is aligned to 64 bytes (R106). -/
def aSound (e : BitVec 512) : Bool :=
  let m := BitVec.ofNat 512 (0xFFFF00FF + 2 ^ 511 + maskNat (aFields (aOpc e)))
  e &&& ~~~m = 0 && (aBuf e).toNat % 64 = 0

/-- The opcodes of R110 and R113. -/
def aKnown (opc : Nat) : Bool :=
  [0x01, 0x02, 0x03, 0x04, 0x05, 0x06, 0x07, 0x10, 0x11, 0x12, 0x13, 0x20, 0x21, 0x22, 0x23, 0x24, 0x30].contains opc

/-- Who serves the admin queue runs: Obulo, or Plinth in recovery mode (R430). -/
def State.admServed (s : State) : Bool :=
  s.link.ep = .recovery || (s.link.ep = .normal && s.pw.supUp)

/-- The admin entry in hand, when nothing holds it back: commands run one at a time, and none runs while a Maquette waits for
its boundary (R111). -/
def State.admEntry (s : State) : Option (BitVec 512) :=
  match s.sq? 0 with
  | none => none
  | some r =>
    match r.taken with
    | [] => none
    | e :: _ => if s.admServed && s.q.admWait.isNone && s.md.commit.isNone then some e else none

/-- The descriptor on channel S has ended, moved or cancelled (R298). -/
def State.chanClose (s : State) (rd : Bool) : State :=
  match if rd then s.dma.sRd else s.dma.sWr with
  | none => s
  | some d => (s.onDma fun x => if rd then { x with sRd := none } else { x with sWr := none }).tallyReturn 3 (d.ext.len - d.done)

/-- The supervisor asks for nothing any more: both channels S are free, and what waited for it is withdrawn. -/
def State.chanIdle (s : State) : State :=
  let s1 := (s.chanClose true).chanClose false
  ((if s.md.waits.any fun w => w.who = .sup then s1.unwait 37 .sup else s1).withdraw (.own 1)).onMd fun m => { m with passed := false }

/-- The admin command completes: its entry leaves, its completion is posted on queue 1, the next entry may be taken. -/
def State.admPost (s : State) (cid : BitVec 16) (status : Nat) (result : Word) : State :=
  let s1 := s.chanIdle.onQ fun x => { x with sqs := AMap.upd x.sqs 0 fun r => { r with taken := r.taken.tail } }
  ((s1.postComp 1 ⟨3, 0, cid, 0, 0, status, result, s.time, 7⟩).admSettle).pump 0

/-- The outcome of the checks and effect of a command: a state, and the status and RESULT with which it completes, none while it
goes on. -/
structure AdmRes where
  st : State
  done : Option (Nat × Word)

def admDone (s : State) (status : Nat) (result : Word) : AdmRes := ⟨s, some (status, result)⟩
def admOk (s : State) : AdmRes := admDone s 0 0
def admFail (s : State) (status : Nat) : AdmRes := admDone s status 0
def admWait (s : State) : AdmRes := ⟨s, none⟩

/-- Whether the image locks an opcode, or recovery mode locks all (R109 step 2, R430). -/
def State.admLocked (s : State) (opc : Nat) : Bool :=
  s.link.ep = .recovery || (match s.pl.img with
    | some i => i.lock.getLsbD opc
    | none => false)

/-- Run a command: PLINTH-LOCKED, then INVALID-FIELD for reserved bits, then its own checks and effect (R109). -/
def State.admRun (s : State) (opc : Nat) (f : BitVec 512 → State → AdmRes) : State :=
  match s.admEntry with
  | none => s
  | some e =>
    if aOpc e ≠ opc then s
    else if s.admLocked opc then s.admPost (entryCid e) 0x000A 0
    else if !aSound e then s.admPost (entryCid e) 0x0002 0
    else
      let x := f e s
      match x.done with
      | none => x.st
      | some d => x.st.admPost (entryCid e) d.1 d.2

/-- R109 step 1: an opcode outside the tables completes with INVALID-OPCODE. -/
def execAdminUndefinedOpcode (s : State) : Res :=
  .next (match s.admEntry with
    | none => s
    | some e => if aKnown (aOpc e) then s else s.admPost (entryCid e) 0x0001 0)

/-! ## Channel S (R302) -/

/-- The channel S of an engine carries a descriptor: its bytes count as requested when it is built (R296, R298, R302). -/
def State.chanOpen (s : State) (rd : Bool) (e : Extent) : State :=
  if (if rd then s.dma.sRd else s.dma.sWr).isSome then s
  else
    let d : SupDesc := ⟨e, 0, false⟩
    (s.onDma fun x => if rd then { x with sRd := some d } else { x with sWr := some d }).tallyIssue 3 e.len

def State.modSup (s : State) (rd : Bool) (f : SupDesc → SupDesc) : State :=
  s.onDma fun x => if rd then { x with sRd := x.sRd.map f } else { x with sWr := x.sWr.map f }

/-- Piece `i` of a descriptor of the supervisor passes through a segment, which is taken and freed again (R290, R291, R297). -/
def State.supSegment (s : State) (rd : Bool) (i : Nat) : State :=
  let n := AMap.gap s.dma.segs 0
  let k := min 512 (SupDesc.left (if rd then s.dma.sRd else s.dma.sWr))
  (((s.allocSeg n ⟨.sup, i, !rd, [], 0, 0⟩).releaseSeg n .sup).modSup rd fun d => { d with done := d.done + k }).tallyReturn 3 k

/-- Some pieces, in order, from piece `i` on. -/
def State.supPieces (n : Nat) (s : State) (rd : Bool) (i : Nat) : State :=
  match n with
  | 0 => s
  | n + 1 => State.supPieces n (s.supSegment rd i) rd (i + 1)

/-- A descriptor of the supervisor moves `moved` of its bytes piece by piece: its half event is raised where LOW reaches half of COUNT,
its full event where DONE reaches COUNT, sources 11 to 14; one with COUNT 0 takes no channel and raises its full event alone (R297,
R302, R470) (log 67, DEDUCED). -/
def State.chanMove (s : State) (rd : Bool) (e : Extent) (moved : Nat) : State :=
  if e.len = 0 then s.irq (if rd then 12 else 14)
  else
    let s1 := (State.supPieces ((moved + 511) / 512) (s.chanOpen rd e) rd 0).chanClose rd
    let s2 := if e.len ≤ 2 * moved then s1.irq (if rd then 11 else 13) else s1
    if moved = e.len then s2.irq (if rd then 12 else 14) else s2

/-- Meridian and the pools serve the host requests that the supervisor (1) or Plinth (0) makes for itself: all requests of one transfer
could leave from its first asking on and carry the class 7 key of that time, so that in one step each wins its own decision (R300, R326,
R329) (log 67, DEDUCED); a read takes a tag of bound 2, and the supervisor's data passes through segments (R16, R17). -/
def State.ownReady (s : State) (rd : Bool) (rix : Nat) : Bool :=
  let key := s.reqKey (.own rix) (true, s.time)
  s.link.mayIssue && s.winsAs (if rd then 1 else 2) key rix 0 (.own rix)
    && (!rd || s.turn 2 key rix 0 7 .sup) && (rix = 0 || s.turn 37 key rix 0 7 .sup)

/-- Such a request waits for its turn, once the link carries it; it counts at the bounds that it finds full (R20). -/
def State.ownAsk (s : State) (rd : Bool) (rix : Nat) : State :=
  if !s.link.mayIssue then s
  else
    let key := s.reqKey (.own rix) (true, s.time)
    let s1 := if rix = 0 || s.turn 37 key rix 0 7 .sup then s else s.await 37 key rix 0 7 .sup
    let s2 := if rd && !s.poolFree 2 7 && !(s.md.reqs.any fun r => r.who = .own rix) then s1.waited 2 else s1
    s2.request (if rd then 1 else 2) key rix 0 (.own rix)

/-- A read of the supervisor or Plinth holds a tag of bound 2 while it is answered. -/
def State.ownTag (s : State) : State :=
  let n := s.occ 2 + 1
  ((s.tallyIssue 1 1).onTally fun t => { t with bndHwm := modAt t.bndHwm 2 fun h => max h n }).tallyReturn 1 1

/-- Read requests that the supervisor or Plinth makes for itself, at most 512 bytes and Max Read Request Size each (R33, R300), each on
the lowest free tag. -/
def State.ownReads (n : Nat) (s : State) (addr : Word) (pasid : Option (BitVec 20)) (len : Nat) : State :=
  match n with
  | 0 => s
  | n + 1 =>
    if len = 0 then s
    else
      let k := reqLen addr.toNat len (min 512 s.link.mrrs)
      State.ownReads n (s.ownTag.emit (.hostRead (AMap.gap s.link.reads 0) addr pasid s.link.relaxed k)) (addr + BitVec.ofNat 64 k)
        pasid (len - k)

/-- A read of host memory by the supervisor or Plinth: its requests leave, and the bytes come or it fails; every completion counts for
itself (R65, R534). One whose PASID is disabled counts as answered with Unsupported Request (R47). -/
def State.ownRead (s : State) (rix : Nat) (addr : Word) (pasid : Option (BitVec 20)) (len : Nat) (d : HostData) :
    State × Option (List Byte) :=
  let s := s.withdraw (.own rix)
  if pasid.isSome && !s.link.pasidEn then (s.countCpl .ur, none)
  else
    let s1 := (d.st :: d.more).foldl State.countCpl (State.ownReads (len / 64 + 2) s addr pasid len)
    (if d.ecc = .bad && rix = 0 then s1.memError 3 0 0 0 else s1.eccFix d.ecc, if d.ok then some (fit len d.data) else none)

/-- A read on channel S (R302); an uncorrectable buffer word poisons its descriptor, and the read fails (R289, R296). -/
def State.supRead (s : State) (addr : Word) (pasid : Option (BitVec 20)) (len : Nat) (d : HostData) : State × Option (List Byte) :=
  let e : Extent := ⟨true, addr, pasid, len, false⟩
  let x := s.ownRead 1 addr pasid len d
  if x.2.isSome then (x.1.chanMove true e len, x.2)
  else
    let bad := d.ecc = .bad || d.st = .poison || d.more.contains .poison
    let s1 := ((x.1.chanOpen true e).modSup true fun d => { d with poison := d.poison || bad })
    ((if d.ecc = .bad then s1.bufferUe 1 (AMap.gap s1.dma.segs 0) else s1).chanClose true, none)

/-- The write channel S of a transfer that has bytes to move (R297). -/
def State.chanAt (s : State) (addr : Word) (count : Nat) : State :=
  if count = 0 then s else s.chanOpen false ⟨true, addr, none, count, false⟩

/-- A write on channel S of `count` bytes, of which `data` is written (R302): a word of the buffer that reads back uncorrectable leaves
with its poison flag and poisons the descriptor (R289, R296). -/
def State.supWrite (s : State) (addr : Word) (count : Nat) (data : List Byte) (ecc : Ecc) : State :=
  let s1 := (s.withdraw (.own 1)).chanAt addr count
  let s2 := if ecc = .bad && !data.isEmpty then (s1.bufferUe 1 (AMap.gap s1.dma.segs 0)).modSup false fun d => { d with poison := true }
    else s1.eccFix ecc
  (s2.hostWrites (data.length / 64 + 2) addr none (ecc = .bad) data).chanMove false ⟨true, addr, none, count, false⟩ data.length

/-- A command that needs channel S has its descriptor built and waits for its turn (R302). -/
def State.supWait (s : State) (rd : Bool) (addr : Word) (pasid : Option (BitVec 20)) (len : Nat) : State :=
  (s.chanOpen rd ⟨true, addr, pasid, len, false⟩).ownAsk rd 1

/-! ## Segment tables (R207, R208, R317) -/

def readSeg (b : List Byte) (i : Nat) : Seg where
  base := BitVec.ofNat 64 (rd b (32 * i) 8)
  limit := BitVec.ofNat 64 (rd b (32 * i + 8) 8)
  pasid := BitVec.ofNat 20 (rd b (32 * i + 16) 4)
  pv := bits (rd b (32 * i + 16) 4) 20 1 = 1
  type := BitVec.ofNat 4 (rd b (32 * i + 20) 1)
  r := bits (rd b (32 * i + 20) 1) 4 1 = 1
  w := bits (rd b (32 * i + 20) 1) 5 1 = 1
  x := bits (rd b (32 * i + 20) 1) 6 1 = 1

/-- The reserved bits of descriptor `i` are 0. -/
def segReserved (b : List Byte) (i : Nat) : Bool :=
  bits (rd b (32 * i + 16) 4) 21 11 = 0 && bits (rd b (32 * i + 20) 1) 7 1 = 0 && allZero (slice b (32 * i + 21) 11)

/-- R208 and R317 for descriptor `i`. -/
def segOk (g : Seg) (i : Nat) : Bool :=
  let base := g.base.toNat
  let lim := g.limit.toNat
  (g.type.toNat ≤ 3)
    && (g.type ≠ 0 || (g.base = 0 && g.limit = 0 && g.pasid = 0 && !g.pv && !g.r && !g.w && !g.x))
    && (g.type ≠ 1 || (base % 16 = 0 && lim ≤ 2 ^ 48 && base + lim ≤ 2 ^ 64))
    && (g.type ≠ 2 || (base % 8 = 0 && base + lim ≤ 16777216))
    && (g.type ≠ 3 || (base % 8 = 0 && base + lim ≤ 2048))
    && ((g.type ≠ 2 && g.type ≠ 3) || (!g.pv && g.pasid.toNat ≤ 2))
    && (!g.x || (i = 0 && g.type = 1 && !g.w))

def readSegs (b : List Byte) : List Seg := (List.range 8).map (readSeg b)

def segsOk (b : List Byte) : Bool := (List.range 8).all fun i => segReserved b i && segOk (readSeg b i) i

def State.segTab (s : State) (stb : Nat) : Option (List Seg) := AMap.get? s.sx.segTabs stb

/-- A subchannel names a table. -/
def Ctx.names (c : Ctx) (stb : Nat) : Bool := c.stv && c.stb = stb

/-- R113: LOAD_SEGMENT_TABLE. `buf` is what the read of BUF on channel S brings. -/
def execLoadSegmentTable (buf : HostData) (s : State) : Res :=
  .next (s.admRun 0x10 fun e s =>
    let stb := aField e 1 0 14
    let replace := aField e 1 14 1 = 1
    let there := (s.segTab stb).isSome
    if aBufLen e ≠ 256 then (admFail s 5)
    else if there && !replace then (admFail s 3)
    else if !there && replace then (admFail s 4)
    else if !s.ownReady true 1 then (admWait (s.supWait true (aBuf e) none 256))
    else
      let x := s.supRead (aBuf e) none 256 buf
      let s := x.1
      match x.2 with
      | none => (admFail s 0xD)
      | some b =>
        if !s.link.pasidEn && (readSegs b).any (·.pv) then (admFail s 2)
        else if !segsOk b then (admFail s 8)
        else if replace && s.sub.ctx.any (fun x => x.2.names stb && !(x.2.state = .idle || x.2.state = .disabled)) then
          (admFail s 9)
        else (admOk (s.onSx fun x => { x with segTabs := AMap.put x.segTabs stb (readSegs b) })))

/-- R113: DELETE_SEGMENT_TABLE. -/
def execDeleteSegmentTable (s : State) : Res :=
  .next (s.admRun 0x11 fun e s =>
    let stb := aField e 1 0 14
    if (s.segTab stb).isNone then (admFail s 4)
    else if s.sub.ctx.any (fun x => x.2.names stb) || s.q.sqs.any (fun x => x.2.cls = 0 && x.2.textStb = stb) then
      (admFail s 9)
    else (admOk (s.onSx fun x => { x with segTabs := AMap.del x.segTabs stb })))

/-! ## Creating and changing queues (R110, R111) -/

/-- The class-dependent fields of dwords 7 to 11 are in the range of R110. -/
def classFields (e : BitVec 512) (cls : Nat) : Bool :=
  let dl := aField e 7 0 32
  let rate := aField e 8 0 32
  let burst := aField e 9 0 32
  let cost := aField e 10 0 32
  let stb := aField e 11 0 14
  let kib := aField e 11 16 16
  (if 1 ≤ cls && cls ≤ 5 then 2000 ≤ dl else dl = 0)
    && (if cls = 6 then rate ≠ 0 else rate = 0)
    && (if cls ≤ 5 then 1 ≤ burst else burst = 0)
    && (if cls = 7 then cost = 0 else true)
    && (if cls = 0 then 1 ≤ kib && kib ≤ 64 else stb = 0 && kib = 0)

/-- R111: the resident text lies in an executable HOST segment 0. -/
def State.textOk (s : State) (stb kib : Nat) : Bool :=
  match s.segTab stb with
  | none => false
  | some l => match l[0]? with
    | none => false
    | some g => g.type = 1 && g.x && kib * 1024 ≤ g.limit.toNat

/-- The parameters of dwords 7 to 11 put into a queue record; `text` is the resident copy (R155). -/
def SQ.params (r : SQ) (e : BitVec 512) (cls : Nat) (text : List Byte) : SQ :=
  { r with
    cls := cls, deadline := aField e 7 0 32, rate := aField e 8 0 32, burst := aField e 9 0 32, cost := aField e 10 0 32,
    textStb := aField e 11 0 14, textKib := aField e 11 16 16, text := text }

/-- A Maquette that failed, as MD_STAT and MD_EVCNT show it (R344). -/
def State.admRefuse (s : State) (x : Refuse) : State :=
  s.onMd fun m => { m with refused := inc16 m.refused, lastCode := x.code, lastKind := x.kind, lastIndex := x.index }

/-- A passed Maquette waits for its boundary with its command (R345) (log 29, DEDUCED). -/
def State.plan (s : State) (e : BitVec 512) (p : Plan) : State :=
  (s.onMd fun m => { m with commit := some ⟨p, some (entryCid e)⟩ }).onQ fun x => { x with admWait := some e }

/-- CREATE_SQ without its text and test. -/
def newSq (e : BitVec 512) (now : Time) (text : List Byte) : SQ :=
  let r : SQ := admSq (aField e 4 0 5) (BitVec.ofNat 64 (aField e 2 0 64)) []
  { (r.params e (aField e 1 18 3) text) with
    pasid := if aField e 1 22 1 = 1 then some (BitVec.ofNat 20 (aField e 5 0 20)) else none,
    cqid := aField e 6 0 18, push := aField e 1 21 1 = 1, vclock := now }

/-- The read of the resident text of a queue record: the first TEXT_KIB KiB of segment 0 of its table, with that segment's PASID
(R45, R155, R302). -/
def State.readText (s : State) (stb kib : Nat) (text : HostData) : State × Option (List Byte) :=
  match (s.segTab stb).bind (·[0]?) with
  | none => (s, none)
  | some g => s.supRead g.base (if g.pv then some g.pasid else none) (1024 * kib) text

/-- The read of the resident text waits for its turn. -/
def State.waitText (s : State) (stb kib : Nat) : State :=
  match (s.segTab stb).bind (·[0]?) with
  | none => s
  | some g => s.supWait true g.base (if g.pv then some g.pasid else none) (1024 * kib)

/-- The Maquette test and the text of a queue record whose other checks have passed, then its commit or its end. A test that has passed
stands while the text waits for its turn, with the capacities of its start (R349). -/
def State.admitQueue (s : State) (e : BitVec 512) (cls stb kib : Nat) (others : List Demand) (old : Option Demand) (d : Demand)
    (text : HostData) (plan : List Byte → Plan) (now : State → List Byte → State) : State :=
  match (if cls = 7 || s.md.passed then none else s.maquette others old d) with
  | some x => (s.admRefuse x).admPost (entryCid e) 6 x.result
  | none =>
    if cls = 0 && !s.ownReady true 1 then (s.waitText stb kib).onMd fun m => { m with passed := true }
    else
      let x := if cls = 0 then s.readText stb kib text else (s, some [])
      match x.2 with
      | none => x.1.admPost (entryCid e) 0xD 0
      | some b =>
        if cls = 7 && (match old with
          | some o => o.cls = 7
          | none => true) then (now x.1 b).admPost (entryCid e) 0 0
        else x.1.plan e (plan b)

/-- R110, R111: CREATE_SQ. `text` is what the read of the resident text brings. -/
def execCreateSq (text : HostData) (s : State) : Res :=
  .next (match s.admEntry with
    | none => s
    | some e =>
      let q := aField e 1 0 18
      let cls := aField e 1 18 3
      let kib := aField e 11 16 16
      let cq := aField e 6 0 18
      let fail (n : Nat) : State := s.admPost (entryCid e) n 0
      if aOpc e ≠ 0x01 then s
      else if s.admLocked 0x01 then fail 0xA
      else if !aSound e || q ≤ 1 || aField e 2 0 12 ≠ 0 || !classFields e cls || (cls = 0 && aField e 1 21 1 = 0)
          || (aField e 1 22 1 = 1 && !s.link.pasidEn) then fail 2
      else if aField e 4 0 5 = 0 || 16 < aField e 4 0 5 then fail 5
      else if (s.sq? q).isSome || (s.cq? q).isSome then fail 3
      else if cq = 1 || (s.cq? cq).isNone then fail 4
      else if cls = 0 && !s.textOk (aField e 11 0 14) kib then fail 8
      else if aField e 1 21 1 = 1 && 4096 ≤ (s.q.sqs.filter fun x => x.2.push).length then fail 0xC
      else s.admitQueue e cls (aField e 11 0 14) kib (demandsOf s.q.sqs) none (newSq e s.time []).demand text
        (fun b => .create q (newSq e s.time b)) (fun s b => s.setSq q (newSq e s.time b)))

/-- R110, R111: MODIFY_SQ. One of CLASS 0 that names a completion queue completes with ID-ABSENT (log 64, DESIGN CHOICE). -/
def execModifySq (text : HostData) (s : State) : Res :=
  .next (match s.admEntry with
    | none => s
    | some e =>
      let q := aField e 1 0 18
      let cls := aField e 1 18 3
      let kib := aField e 11 16 16
      let fail (n : Nat) : State := s.admPost (entryCid e) n 0
      if aOpc e ≠ 0x05 then s
      else if s.admLocked 0x05 then fail 0xA
      else
        let push := match s.sq? q with
          | some r => r.push
          | none => true
        if !aSound e || q ≤ 1 || !classFields e cls || (cls = 0 && !push) then fail 2
        else match s.sq? q with
          | none => fail 4
          | some r =>
            if cls = 0 && !s.textOk (aField e 11 0 14) kib then fail 8
            else
              let old : Option Demand := some r.demand
              s.admitQueue e cls (aField e 11 0 14) kib (demandsOf (AMap.del s.q.sqs q)) old (r.params e cls []).demand text
                (fun b => .modify q (r.params e cls b)) (fun s b => s.setSq q (r.params e cls b)))

/-- R110, R111, R49: CREATE_CQ. -/
def execCreateCq (s : State) : Res :=
  .next (s.admRun 0x02 fun e s =>
    let q := aField e 1 0 18
    let log2 := aField e 4 0 5
    let ien := aField e 1 20 1 = 1
    if q ≤ 1 || aField e 2 0 12 ≠ 0 || (aField e 1 18 1 = 1 && !s.link.pasidEn) || (ien && aField e 6 0 11 < 8) then
      (admFail s 2)
    else if log2 = 0 || 16 < log2 then (admFail s 5)
    else if (s.sq? q).isSome || (s.cq? q).isSome then (admFail s 3)
    else
      let r : CQ := { admCq log2 (BitVec.ofNat 64 (aField e 2 0 64)) [] with
        pasid := if aField e 1 18 1 = 1 then some (BitVec.ofNat 20 (aField e 5 0 20)) else none,
        legacy := aField e 1 19 1 = 1, ien := ien, vector := aField e 6 0 11, aggCount := aField e 7 0 8,
        aggTime := aField e 7 8 16 }
      (admOk (s.setCq q r)))

/-- R345: the passed Maquette is installed, SCHED_GEN rises, and its command completes. A change of class to 6 sets the
virtual clock (R328). A deletion removes its demand, and while DEGRADED a re-test follows it (R346) (log 29, DEDUCED). -/
def State.install (s : State) (p : Plan) : State :=
  match p with
  | .create q r => (if r.cls = 0 then s.cacheText q else s).setSq q r
  | .modify q r =>
    match s.sq? q with
    | none => s
    | some o => (if r.cls = 0 then s.cacheText q else s).setSq q { o with
        cls := r.cls, deadline := r.deadline, rate := r.rate, burst := r.burst, cost := r.cost, textStb := r.textStb,
        textKib := r.textKib, text := r.text, vclock := if r.cls = 6 && o.cls ≠ 6 then s.time else o.vclock }
  | .remove =>
    let s1 := s.onMd fun m => { m with leaving := [] }
    if s1.md.degraded then s1.retest 0 else s1

/-! ## Deleting, resetting, pausing and reading queues (R110 to R112) -/

/-- The entries of a submission queue that a deletion would lose: unconsumed ones and ones held under R78. -/
def SQ.unconsumed (r : SQ) : Nat := (if r.past ≠ 0 then 0 else ringDist r.size r.c r.t) + r.taken.length

/-- Nothing of a queue is on its way to a subchannel: it holds no taken entry, or a fence holds its front one (R78). -/
def SQ.settled (r : SQ) : Bool := r.onWay = 0

/-- R138: the bindings of subchannels to a deleted submission queue. -/
def Ctx.sqGone (c : Ctx) (q : Nat) : Ctx :=
  if !(c.sqv && c.sqid = q) then c
  else if c.state = .idle || c.state = .disabled then { c.unbind with state := .disabled }
  else { c with sqv := false, disend := true }

def Ctx.cqGone (c : Ctx) (q : Nat) : Ctx :=
  if !(c.cqv && c.cqid = q) then c
  else if c.state = .idle || c.state = .disabled then { c.unbind with state := .disabled } else c

/-- Apply a function to every context, in the canonical form. -/
def mapCtx (f : Ctx → Ctx) (m : AMap Ctx) : AMap Ctx :=
  match m with
  | [] => []
  | (k, c) :: m => if f c = Ctx.zero then mapCtx f m else (k, f c) :: mapCtx f m

/-- The subchannel number that a DISCARDED reject carries: a NOP names none (R111). -/
def heldSch (e : BitVec 512) : Nat := if entryKind e = 0 then 0 else entrySch e

/-- No queue: the queue of a program whose submission queue is gone. -/
def noQueue : Nat := 262144

/-- The deletion of a submission queue: rejects for held entries, bindings, and the programs that it started (R78, R138). Rejects that the
overflow area of R98 has no room for stay on the held list beyond 64 (log 64, DESIGN CHOICE). Its demand leaves at the next boundary
(R345). -/
def State.delSq (s : State) (q : Nat) (r : SQ) : State :=
  let s1 := r.taken.foldl (fun t e => t.reject r.cqid 4 (entryCid e) (heldSch e) q r.cls) s
  let s2 := ((s1.onQ fun x => { x with
      sqs := AMap.del x.sqs q,
      gone := if s.wantsFetch q r && s.md.reqs.any (fun m => m.who = .ring q) then AMap.put x.gone q r else x.gone }).onPw fun p =>
        { p with clusters := p.clusters.map fun c => { c with cache := c.cache.filter (· ≠ q) } }).onSub fun b =>
    { b with
      ctx := mapCtx (fun c => c.sqGone q) b.ctx,
      prog := b.prog.map fun x => if x.2.sq = q then (x.1, { x.2 with sq := noQueue }) else x }
  if r.cls < 7 then s2.onMd fun m => { m with leaving := [r.demand] } else s2

/-- What stands in the way of deleting a completion queue (R111); completions that wait for their grant stand on no held list. -/
def State.obstacles (s : State) (q : Nat) (r : CQ) : Nat :=
  (s.q.sqs.filter fun x => x.2.cqid = q).length
    + (s.sub.ctx.filter fun x => x.2.cqv && x.2.cqid = q && !(x.2.state = .idle || x.2.state = .disabled)).length
    + b2n !r.held.isEmpty

/-- R110, R111, R138, R345: DELETE_QUEUE; that of a queue of classes 0 to 6 completes at its commit (log 58, DEDUCED). -/
def execDeleteQueue (s : State) : Res :=
  .next (s.admRun 0x03 fun e s =>
    let q := aField e 1 0 18
    let force := aField e 1 18 1 = 1
    if q ≤ 1 then (admFail s 2)
    else match s.sq? q, s.cq? q with
      | some r, _ =>
        if !r.settled then (admWait s)
        else if r.unconsumed ≠ 0 && !force then (admDone s 7 (BitVec.ofNat 64 r.unconsumed))
        else if r.cls < 7 then (admWait ((s.delSq q r).plan e .remove))
        else (admOk (s.delSq q r))
      | none, some r =>
        let n := s.obstacles q r
        if n ≠ 0 then (admDone s 7 (BitVec.ofNat 64 n))
        else if s.q.waiting.any fun x => x.1 = q then (admWait s)
        else (admOk (((s.withdraw (.comp q)).onQ fun x => { x with cqs := AMap.del x.cqs q }).onSub fun b =>
          { b with ctx := mapCtx (fun c => c.cqGone q) b.ctx }))
      | none, none => (admFail s 4))

/-- R94: RESET_QUEUE. In ERROR the entries before the latched position are taken first. -/
def execResetQueue (s : State) : Res :=
  .next (s.admRun 0x04 fun e s =>
    let q := aField e 1 0 18
    if q ≤ 1 then (admFail s 2)
    else match s.sq? q, s.cq? q with
      | some r, _ =>
        if r.st = .error && r.remain ≠ 0 then (admWait s)
        else
          let p := if r.st = .error then r.latched else r.c
          (admOk (s.setSq q { r with
            st := .active, cause := 0, latched := 0, t := p, c := p, past := 0, tries := 0, capture := [], reading := [],
            block := none, ahead := false }))
      | none, some r => (admOk (((s.setCq q { r with st := .active, cause := 0, latched := 0 }).drainAll q).pumpPaired q))
      | none, none => (admFail s 4))

/-- R91: PAUSE_QUEUE. -/
def execPauseQueue (s : State) : Res :=
  .next (s.admRun 0x06 fun e s =>
    let q := aField e 1 0 18
    let pause := aField e 1 18 1 = 1
    if q ≤ 1 then (admFail s 2)
    else match s.sq? q, s.cq? q with
      | some r, _ =>
        if pause && r.st = .active then (admOk ((s.withdraw (.ring q)).setSq q { r with st := .paused }))
        else if !pause && r.st = .paused then (admOk ((s.setSq q { r with st := .active }).pump q))
        else (admOk s)
      | none, some r =>
        if pause && r.st = .active then (admOk ((s.setCq q { r with st := .paused }).unpark q))
        else if !pause && r.st = .paused then (admOk (((s.setCq q { r with st := .active }).drainAll q).pumpPaired q))
        else (admOk s)
      | none, none => (admFail s 4))

def QState.code (t : QState) : Nat :=
  match t with
  | .active => 1
  | .paused => 2
  | .error => 3

/-- R112: the RESULT of QUERY_QUEUE. -/
def sqResult (r : SQ) : Word :=
  BitVec.ofNat 64 (r.st.code + b2n r.push * 2 ^ 3 + r.cls * 2 ^ 4 + ringBits r.size r.c * 2 ^ 8 + ringBits r.size r.t * 2 ^ 25
    + (if r.st = .error then ringBits r.size r.latched * 2 ^ 42 + r.cause * 2 ^ 59 else 0))

def cqResult (r : CQ) : Word :=
  BitVec.ofNat 64 (r.st.code + 2 ^ 2 + ringBits r.size r.head * 2 ^ 8 + ringBits r.size r.tail * 2 ^ 25
    + (if r.st = .error then ringBits r.size r.latched * 2 ^ 42 + r.cause * 2 ^ 59 else 0)
    + b2n (!r.held.isEmpty) * 2 ^ 63)

def execQueryQueue (s : State) : Res :=
  .next (s.admRun 0x07 fun e s =>
    let q := aField e 1 0 18
    match s.sq? q, s.cq? q with
    | some r, _ => (admDone s 0 (sqResult r))
    | none, some r => (admDone s 0 (cqResult r))
    | none, none => (admFail s 4))

/-! ## Subchannels (R113, R121, R137) -/

/-- R137: CONFIGURE_SUBCHANNEL. -/
def execConfigureSubchannel (s : State) : Res :=
  .next (s.admRun 0x12 fun e s =>
    let sch := aField e 1 0 20
    let enable := aField e 1 20 1 = 1
    let sq := aField e 2 0 18
    let cq := aField e 3 0 18
    let c := s.ctxOf sch
    let free := c.state = .idle || c.state = .disabled
    let legacy := match s.cq? cq with
      | some r => r.legacy
      | none => false
    if !enable && aField e 2 0 160 ≠ 0 then (admFail s 2)
    else if enable && legacy && 65535 < sch then (admFail s 2)
    else if enable && (sq = 0 || cq = 1 || (s.sq? sq).isNone || (s.cq? cq).isNone || (s.segTab (aField e 4 0 14)).isNone
        || !AMap.has s.sub.psets (aField e 5 0 16)) then (admFail s 4)
    else if !free then (admFail s 9)
    else if enable then
      (admOk (s.setCtx sch { c with
        sqid := sq, cqid := cq, stb := aField e 4 0 14, pset := aField e 5 0 16, tmoDef := BitVec.ofNat 32 (aField e 6 0 32),
        sqv := true, cqv := true, stv := true, psv := true, kpasid := ((s.sq? sq).map (·.pasid)).getD none, disend := false,
        state := .idle }))
    else (admOk (s.setCtx sch { c with
        stb := 0, pset := 0, tmoDef := 0, stv := false, psv := false, state := .disabled })))

def SchState.code (t : SchState) : Nat :=
  match t with
  | .disabled => 0
  | .idle => 1
  | .startPending => 2
  | .active => 3
  | .waiting => 4
  | .suspended => 5
  | .statusPending => 6
  | .haltPending => 7
  | .clearPending => 8

/-- The element after the first that equals `k`, and whether `k` is the last (log 59, DEDUCED). -/
def nextIn (l : List Nat) (k : Nat) : Nat × Bool :=
  match l with
  | [] => (0, false)
  | a :: l => if a = k then (match l with
      | [] => (0, true)
      | b :: _ => (b, false)) else nextIn l k

/-- The subchannels of a held list, in order. -/
def heldSubs (l : List Held) : List Nat := l.filterMap fun h => match h with
  | .sub k => some k
  | .comp _ => none

/-- The subchannels that wait in Meridian's dispatch queue (log 59, DEDUCED). -/
def State.dispatchQueue (s : State) : List Nat := s.md.reqs.filterMap fun r => match r.who with
  | .dispatch k => if r.granted then none else some k
  | .ring _ => none
  | .write _ => none
  | .read _ => none
  | .exch _ => none
  | .own _ => none
  | .comp _ => none
  | .msix _ => none
  | .store _ => none
  | .answer _ => none

/-- The quadwords of R121 below the frame: offsets 0x00 to 0x78 (log 40, DEDUCED) (log 59, DEDUCED). -/
def State.ctxWords (s : State) (sch : Nat) : List Nat :=
  let c := s.ctxOf sch
  let held := match s.cq? c.cqid with
    | some r => if c.held then nextIn (heldSubs r.held) sch else (0, false)
    | none => (0, false)
  let disp := nextIn s.dispatchQueue sch
  [ c.state.code + c.cls * 2 ^ 4 + b2n c.dreq * 2 ^ 7 + b2n c.held * 2 ^ 8 + b2n c.resreq * 2 ^ 9 + b2n c.haltreq * 2 ^ 10
      + b2n c.clrreq * 2 ^ 11 + b2n c.tmout * 2 ^ 12 + b2n c.disend * 2 ^ 13 + c.cid.toNat * 2 ^ 16,
    c.sqid + c.cqid * 2 ^ 18 + c.stb * 2 ^ 36 + b2n c.sqv * 2 ^ 50 + b2n c.cqv * 2 ^ 51 + b2n c.stv * 2 ^ 52,
    c.pset + b2n c.psv * 2 ^ 16 + c.pgen.toNat * 2 ^ 32 + c.lpath.toNat * 2 ^ 48,
    c.ic.toNat,
    c.tmoDef.toNat + c.tmoCur.toNat * 2 ^ 32,
    c.expiry.toNat + c.elaps.toNat * 2 ^ 48,
    c.dstat.toNat + c.cstat.toNat * 2 ^ 8 + c.pchk.toNat * 2 ^ 24 + c.residual.toNat * 2 ^ 32,
    c.iscnt.toNat + c.istot.toNat * 2 ^ 16 + c.gen.toNat * 2 ^ 32,
    held.1 + b2n held.2 * 2 ^ 20 + disp.1 * 2 ^ 32 + b2n disp.2 * 2 ^ 52,
    c.deadline.toNat,
    min c.xout 4096 + c.budget.toNat * 2 ^ 32,
    c.cc.toNat + c.ds.toNat * 2 ^ 4,
    (match c.kpasid with
      | some p => p.toNat + 2 ^ 20
      | none => 0),
    0, 0,
    sumBy (fun i => (c.f.getD i TWord.unset).tag.toNat * 2 ^ (4 * i)) (List.range 16) ]

/-- The 256 bytes of R121. -/
def State.ctxBytes (s : State) (sch : Nat) : List Byte :=
  (s.ctxWords sch).flatMap (leBytes 8)
    ++ (List.range 16).flatMap fun i => leBytes 8 ((s.ctxOf sch).f.getD i TWord.unset).pay.toNat

/-- R113: QUERY_SUBCHANNEL writes a snapshot to BUF. -/
def execQuerySubchannel (s : State) : Res :=
  .next (s.admRun 0x13 fun e s =>
    if aBufLen e < 256 then (admFail s 5)
    else if !s.ownReady false 1 then (admWait (s.supWait false (aBuf e) none 256))
    else (admOk (({ s with fresh := s.fresh + 1 } : State).supWrite (aBuf e) 256 (s.ctxBytes (aField e 1 0 20))
      (eccOf (Config.bufferUpset s.fresh)))))

/-! ## Devices (R113, R371, R372) -/

/-- A path entry of R371. -/
def DiscPath.bytes (p : DiscPath) : List Byte :=
  leBytes 1 (p.quad + p.port * 2 ^ 5 + b2n p.up * 2 ^ 7) ++ leBytes 1 p.rate ++ List.replicate 6 0 ++ leBytes 8 p.target.toNat

/-- The 256 bytes of a discovery record (R371). UID is a byte string, right-aligned with its last byte at byte 31 (log 66, DEDUCED). -/
def DiscRec.bytes (r : DiscRec) (index : Nat) : List Byte :=
  leBytes 8 (index + r.dgen.toNat * 2 ^ 32) ++ leBytes 1 r.kind
    ++ leBytes 1 (b2n r.seq + b2n r.pi * 2 + b2n (r.paths.any (·.up)) * 4) ++ [r.pdt] ++ leBytes 1 r.paths.length
    ++ leBytes 1 r.reason ++ List.replicate 3 0 ++ leBytes 16 r.uid.toNat ++ leBytes 8 r.nblocks.toNat
    ++ leBytes 4 r.blksize ++ leBytes 4 r.maxxfer ++ leBytes 4 r.maxblk ++ leBytes 4 (r.dev.getD 0xFFFFFFFF)
    ++ leBytes 8 r.lunid.toNat ++ leBytes 8 r.fwrev.toNat ++ leBytes 40 r.model.toNat ++ leBytes 4 r.almSeq.toNat
    ++ List.replicate 12 0 ++ fit 128 (r.paths.flatMap DiscPath.bytes)

/-- Devices that runs found and could not list (R373). -/
def Devices.unlisted (d : Devices) : Nat := sumBy (fun q => sumBy (·.unlisted) q.ports) d.quads

/-- R113, R371: LIST_DEVICES. `w` says how many records were written when a quad reset began, if one did, and how the words of the
buffer read back (R289). -/
def execListDevices (w : ListRun) (s : State) : Res :=
  .next (s.admRun 0x20 fun e s =>
    let all := s.dev.disc
    let n := min (aBufLen e / 256) all.length
    if aBufLen e < 256 then (admFail s 5)
    else if n ≠ 0 && !s.ownReady false 1 then (admWait (s.supWait false (aBuf e) none (256 * n)))
    else
      let k := match w.cut with
        | some k => min k n
        | none => n
      let b := (all.take k).flatMap fun r => r.2.bytes r.1
      (admDone (s.supWrite (aBuf e) (256 * n) b w.ecc) (if w.cut.isSome then 0xB else 0)
        (BitVec.ofNat 64 (k + (all.length + s.dev.unlisted) * 2 ^ 32))))

/-- The device-table entry that a discovery record yields: its identity, kind and targets (R145). -/
def DiscRec.entry (r : DiscRec) (i id : Nat) : DevEntry :=
  ⟨i, BitVec.ofNat 64 id, r.kind, r.seq, r.paths.map fun p => ⟨p.quad, p.port, p.target⟩, r.lunid, r.barLen⟩

/-- R113, R145, R372: CREATE_DEVICE. -/
def execCreateDevice (s : State) : Res :=
  .next (s.admRun 0x21 fun e s =>
    let dev := aField e 1 0 14
    let id := aField e 2 0 64
    let i := id % 2 ^ 32
    if AMap.has s.sub.devs dev then (admFail s 3)
    else match AMap.get? s.dev.disc i with
      | none => (admFail s 4)
      | some r =>
        if r.dgen.toNat ≠ id / 2 ^ 32 || r.reason ≠ 0 then (admFail s 4)
        else if r.dev.isSome then (admFail s 9)
        else (admOk ((s.onSub fun b => { b with devs := AMap.put b.devs dev (r.entry i id) }).onDev
          fun d => { d with disc := AMap.put d.disc i { r with dev := some dev } })))

/-- R113: DELETE_PATH_SET. -/
def execDeletePathSet (s : State) : Res :=
  .next (s.admRun 0x23 fun e s =>
    let p := aField e 1 0 16
    if !AMap.has s.sub.psets p then (admFail s 4)
    else if s.sub.ctx.any fun x => x.2.psv && x.2.pset = p then (admFail s 9)
    else (admOk (s.onSub fun b => { b with psets := AMap.del b.psets p })))

/-- R113: DELETE_DEVICE. -/
def execDeleteDevice (s : State) : Res :=
  .next (s.admRun 0x24 fun e s =>
    let dev := aField e 1 0 14
    match AMap.get? s.sub.devs dev with
    | none => (admFail s 4)
    | some d =>
      if s.sub.psets.any fun x => x.2.dev = dev then (admFail s 9)
      else (admOk ((s.onSub fun b => { b with devs := AMap.del b.devs dev }).onDev fun x =>
        { x with disc := AMap.upd x.disc d.disc fun r => { r with dev := none } })))

/-- R26, R113, R116: SET_LEGACY_FIFO. Completions that waited for the link enter the FIFO before newer ones (R118). -/
def execSetLegacyFifo (s : State) : Res :=
  .next (s.admRun 0x30 fun e s =>
    let on := aField e 1 0 1 = 1
    if !on && !s.q.leg.isEmpty then (admFail s 7)
    else
      let s1 := s.onQ fun x => { x with legOn := on }
      (admOk ((s1.q.cqs.filter fun x => x.2.legacy).foldl (fun t x => (t.sendComps x.1).pumpPaired x.1) s1.drainLegacy)))

end Sys2Proof.Machine
end

