-- ==== Sys2Proof/Machine/Operands.lean ====
section
/-! DEFINITION. Sys2Proof/Machine/Operands.lean: the bundle of R211 and R212, its operand specifiers (R214), the modes each
role accepts (R234), the opcode catalog (R235), and reading operands with the checks of R201, R209 and R230. -/

namespace Sys2Proof.Machine

/-- The program check codes of R229. -/
def pcIllegal : Nat := 0x01
def pcReserved : Nat := 0x02
def pcTag : Nat := 0x03
def pcPoison : Nat := 0x04
def pcLimit : Nat := 0x05
def pcRights : Nat := 0x06
def pcAlign : Nat := 0x07
def pcZero : Nat := 0x08
def pcChain : Nat := 0x09
def pcUnloaded : Nat := 0x0A
def pcRepeat : Nat := 0x0B
def pcBudget : Nat := 0x0C
def pcHandle : Nat := 0x0D
def pcPriv : Nat := 0x0E
def pcResTag : Nat := 0x0F

/-! ## The bundle (R211, R212) -/

/-- One operation of a bundle: its form, opcode, modifier bits, condition field and raw specifiers. -/
structure Op where
  long : Bool
  opc : Nat
  mod : BitVec 16
  cond : Nat
  specs : List Nat
  deriving DecidableEq, Repr

/-- The operations of a bundle: one long operation, or the two slots of a pair. -/
def decodeBundle (b : BitVec 128) : List Op :=
  let v := b.toNat
  if bits v 127 1 = 0 then
    [⟨true, bits v 116 11, BitVec.ofNat 16 (bits v 96 16), bits v 112 4, [bits v 64 32, bits v 32 32, bits v 0 32]⟩]
  else
    [⟨false, bits v 118 9, BitVec.ofNat 16 (bits v 112 6), 0, [bits v 88 24, bits v 64 24]⟩,
     ⟨false, bits v 54 9, BitVec.ofNat 16 (bits v 48 6), 0, [bits v 24 24, bits v 0 24]⟩]

/-- MOD as a number. -/
def Op.modN (op : Op) : Nat := op.mod.toNat

/-! ## Specifiers (R214) -/

inductive Src where
  | frame (n : Nat)
  | imm (count : Bool) (v : Word)
  | frameRpt (n : Nat)
  | localInd (n : Nat) (d : Int) (rpt : Bool)
  | globalInd (n : Nat) (d : Int)
  | hostInd (n : Nat) (d : Int)
  deriving DecidableEq, Repr

/-- A number of `w` bits as a two's complement integer. -/
def signed (w v : Nat) : Int := if v < 2 ^ (w - 1) then (v : Int) else (v : Int) - 2 ^ w

def wordOfInt (i : Int) : Word := BitVec.ofInt 64 i

/-- A specifier whose payload is `w` bits wide; none for a reserved mode or a reserved payload bit that is set. -/
def parseSpec (long : Bool) (v : Nat) : Option Src :=
  let w := if long then 28 else 20
  let mode := v / 2 ^ w
  let p := v % 2 ^ w
  let n := p % 64
  let d := signed (w - 6) (p / 64)
  if mode = 0 then if p < 64 then some (.frame n) else none
  else if mode = 1 then
    let x := p % 2 ^ (w - 1)
    some (if p / 2 ^ (w - 1) = 1 then .imm true (BitVec.ofNat 64 x) else .imm false (wordOfInt (signed (w - 1) x)))
  else if mode = 2 then if p < 64 then some (.frameRpt n) else none
  else if mode = 3 then some (.localInd n d false)
  else if mode = 4 then some (.localInd n d true)
  else if mode = 5 then if long then some (.globalInd n d) else none
  else if mode = 6 then if long then some (.hostInd n d) else none
  else none

/-! ## Roles (R234) -/

inductive Role where
  | dst | src | hmem | gmem | frame | target | immOnly | count | value
  deriving DecidableEq, Repr

/-- A role accepts a mode. The count of RPT is a frame word or an immediate (log 64, DESIGN CHOICE). -/
def Role.takes (r : Role) (s : Src) : Bool :=
  match s with
  | .frame _ => r ≠ .hmem && r ≠ .gmem && r ≠ .immOnly
  | .imm c _ => r = .src || r = .immOnly || r = .count || r = .value || (r = .target && !c)
  | .frameRpt _ => r = .dst || r = .src
  | .localInd _ _ _ => r = .dst || r = .src
  | .globalInd _ _ => r = .gmem
  | .hostInd _ _ => r = .hmem

/-! ## The catalog (R235) -/

/-- How an operation stands in control flow: ordinary, a branch, END, RPT, a block repeat, a commit point, a transfer command. -/
inductive OpKind where
  | plain | branch | fin | rpt | block | commit | xfer
  deriving DecidableEq, Repr

/-- A catalog entry: its operands, whether a short form exists, whether it may follow RPT, its kind, its MOD bits. -/
structure OpInfo where
  roles : List Role
  short : Bool
  rptOk : Bool
  kind : OpKind
  mods : Nat
  deriving DecidableEq, Repr

/-- The control operations with a short form. -/
def shortInfo (opc : Nat) : Option OpInfo :=
  if opc = 0x000 then some ⟨[], true, true, .plain, 0⟩
  else if opc = 0x001 then some ⟨[], true, false, .fin, 0⟩
  else if opc = 0x008 then some ⟨[.dst, .src], true, true, .plain, 0⟩
  else if opc = 0x010 || opc = 0x011 || opc = 0x012 then some ⟨[.dst, .src, .src], true, true, .plain, 0⟩
  else if opc = 0x013 then some ⟨[.dst, .src, .src], true, true, .plain, 1⟩
  else if opc = 0x014 then some ⟨[.dst, .src], true, true, .plain, 0⟩
  else if 0x018 ≤ opc && opc ≤ 0x01E then some ⟨[.dst, .src, .src], true, true, .plain, 0⟩
  else if opc = 0x020 then some ⟨[.src, .src], true, true, .plain, 0⟩
  else if opc = 0x021 then some ⟨[.src], true, true, .plain, 0⟩
  else if opc = 0x022 then some ⟨[.src, .immOnly], true, true, .plain, 0⟩
  else if opc = 0x023 then some ⟨[.dst, .src], true, true, .plain, 0⟩
  else if opc = 0x024 then some ⟨[.dst, .src], true, true, .plain, 0xF⟩
  else if opc = 0x025 then some ⟨[.dst, .src], true, true, .plain, 0⟩
  else if opc = 0x026 then some ⟨[.dst, .src], true, true, .plain, 3⟩
  else if opc = 0x027 || opc = 0x028 then some ⟨[.dst], true, true, .plain, 0⟩
  else if opc = 0x030 then some ⟨[.target], true, false, .branch, 0xF⟩
  else if opc = 0x031 then some ⟨[.target], true, false, .branch, 0xF⟩
  else if opc = 0x032 then some ⟨[.frame, .target], true, false, .branch, 0⟩
  else none

/-- The operations in long form only. -/
def longInfo (opc : Nat) : Option OpInfo :=
  if opc = 0x200 || opc = 0x201 then some ⟨[.frame, .hmem], false, false, .plain, 0⟩
  else if opc = 0x202 || opc = 0x203 then some ⟨[.hmem, .src], false, true, .plain, 0⟩
  else if opc = 0x204 then some ⟨[.frame, .gmem], false, false, .plain, 0⟩
  else if opc = 0x205 then some ⟨[.gmem, .src], false, true, .plain, 0⟩
  else if opc = 0x210 then some ⟨[.dst, .src, .src], false, true, .plain, 0⟩
  else if opc = 0x211 then some ⟨[.dst], false, true, .plain, 0⟩
  else if opc = 0x220 then some ⟨[.count], false, false, .rpt, 1⟩
  else if opc = 0x230 then some ⟨[.frame, .frame, .count], false, false, .block, 1⟩
  else if opc = 0x231 then some ⟨[.frame, .frame, .frame], false, false, .block, 1⟩
  else if opc = 0x232 then some ⟨[.frame, .value, .frame], false, false, .block, 3⟩
  else if opc = 0x233 then some ⟨[.frame, .value, .count], false, false, .block, 1⟩
  else if opc = 0x240 then some ⟨[.frame, .gmem], false, false, .commit, 0⟩
  else if opc = 0x241 then some ⟨[.frame, .gmem], false, false, .plain, 0⟩
  else if opc = 0x242 then some ⟨[.gmem, .src], false, false, .commit, 0⟩
  else if 0x250 ≤ opc && opc ≤ 0x252 then some ⟨[], false, false, .commit, 0⟩
  else if 0x600 ≤ opc && opc ≤ 0x605 then some ⟨[.frame, .frame, .frame], false, false, .xfer, 0x3F⟩
  else if opc = 0x606 then some ⟨[.frame, .frame, .frame], false, false, .xfer, 0x7F⟩
  else none

/-- The catalog entry of an operation in its form. -/
def Op.info (op : Op) : Option OpInfo :=
  match shortInfo op.opc with
  | some i => some i
  | none => if op.long then longInfo op.opc else none

def Op.customer (op : Op) : Bool := op.long && 0x7C0 ≤ op.opc && op.opc ≤ 0x7FF
def Op.privileged (op : Op) : Bool := op.long && 0x780 ≤ op.opc && op.opc ≤ 0x7BF

/-- A defined branch or END (R215, R230). -/
def Op.flow (op : Op) : Bool :=
  match op.info with
  | some i => i.kind = .branch || i.kind = .fin
  | none => false

/-! ## Specifiers of an operation (R231 to R234) -/

/-- The catalog entry of a customer instruction (R269). -/
def DecEntry.info (e : DecEntry) : OpInfo :=
  let srcs := List.replicate (if e.rtag = 0 then e.nops else e.nops - 1) Role.src
  ⟨if e.rtag = 0 then srcs else .dst :: srcs, false, e.rptok, .plain, 0⟩

/-- The specifiers that the operands of an operation use, in operand order: a short three-operand form names its destination
and first source together (R233). -/
def Op.used (op : Op) (i : OpInfo) : List Nat :=
  if !op.long && i.roles.length = 3 then
    match op.specs with
    | a :: b :: _ => [a, a, b]
    | [_] => []
    | [] => []
  else op.specs.take i.roles.length

/-- The specifiers an operation leaves over. -/
def Op.unused (op : Op) (i : OpInfo) : List Nat :=
  if !op.long && i.roles.length = 3 then [] else op.specs.drop i.roles.length

/-- The operands of an operation, none when a specifier breaks R214 or R234. -/
def Op.operands (op : Op) (i : OpInfo) : Option (List Src) :=
  let l := (op.used i).map (parseSpec op.long)
  if l.all (·.isSome) then
    let srcs := l.filterMap id
    if (srcs.zip i.roles).all (fun x => x.2.takes x.1) then some srcs else none
  else none

/-- A value that the reserved field checks judge: MOD bits, COND, a condition 0xF, a CVT target, a TTAG tag (R267). -/
def Op.fieldsOk (op : Op) (i : OpInfo) (srcs : List Src) : Bool :=
  let condOp := i.kind = .xfer || (op.opc = 0x031 && op.long)
  let mods := if op.opc = 0x031 && op.long then 0 else i.mods
  op.modN &&& (2 ^ 16 - 1 - mods) = 0
    && (if condOp then op.cond ≠ 15 else op.cond = 0)
    && (op.unused i).all (· = 0)
    && !(op.opc = 0x030 && op.modN % 16 = 15)
    && !(op.opc = 0x031 && !op.long && op.modN % 16 = 15)
    && (op.opc ≠ 0x024 || op.modN = 1 || op.modN = 2 || op.modN = 7)
    && (op.opc ≠ 0x022 || (match srcs with
        | [_, .imm false v] => v.toNat < 16
        | _ => false))

/-- The checks of R230 step 4 that need no operand: 0 when all pass. `entry` is the decode-table entry of a customer opcode
(log 34, DEDUCED). -/
def Op.static (op : Op) (delay repeated : Bool) (entry : Option DecEntry) : Nat :=
  match (if op.customer then entry.map DecEntry.info else op.info) with
  | none =>
    if op.privileged then pcPriv else if op.customer then pcUnloaded else pcIllegal
  | some i =>
    if delay && (i.kind = .branch || i.kind = .fin || i.kind = .xfer || i.kind = .commit || i.kind = .block) then pcIllegal
    else match op.operands i with
      | none => pcReserved
      | some srcs =>
        if !op.fieldsOk i srcs then pcReserved
        else if (repeated && !i.rptOk) || (delay && i.kind = .rpt) then pcRepeat
        else 0

/-! ## What a bundle sees of its thread -/

/-- The frame, local window and CC that a bundle reads, the repetition index, the segment table, DS, and the words that STAT
and DEVH make. -/
structure Env where
  f : List TWord
  win : AMap TWord
  cc : BitVec 4
  ds : Byte
  i : Nat
  segs : List Seg
  ic : Word
  stat : Word
  handle : Word
  deriving DecidableEq, Repr

def Env.fr (v : Env) (n : Nat) : TWord := v.f.getD n TWord.unset

abbrev Chk (α : Type) := Except Nat α

/-- R201 for one word. -/
def tagCheck (accepts : BitVec 4 → Bool) (w : TWord) : Chk Unit :=
  if 9 ≤ w.tag.toNat && w.tag.toNat ≤ 14 then .error pcResTag
  else if w.tag = tagPoison then .error pcPoison
  else if !accepts w.tag then .error pcTag
  else .ok ()

def anyTag (_ : BitVec 4) : Bool := true

/-! ## Segments (R209) -/

def Seg.none : Seg := ⟨0, 0, 0, false, 0, false, false, false⟩

/-- The segment that an address word names. -/
def segOfWord (segs : List Seg) (w : TWord) : Seg := segs.getD (bits w.pay.toNat 48 3) Seg.none

/-- The effective offset: OFFSET plus the displacement scaled by the access size, modulo 2^48. -/
def effOff (w : TWord) (d : Int) (size : Nat) : Nat :=
  (((w.pay.toNat % 2 ^ 48 : Nat) + d * size : Int) % (2 ^ 48 : Int)).toNat

/-- The checks of R209 on an access. -/
def segCheck (g : Seg) (off size : Nat) (type : BitVec 4) (r w : Bool) : Chk Unit :=
  if off % size ≠ 0 then .error pcAlign
  else if g.limit.toNat < off + size then .error pcLimit
  else if g.type ≠ type || (r && !g.r) || (w && !g.w) then .error pcRights
  else .ok ()

/-- A place that an operand names: a frame word, a word of the local window, an immediate, or a memory access outside the
thread. -/
inductive Place where
  | frame (n : Nat)
  | win (w : Nat) (view : Nat)
  | imm (v : TWord)
  | mem (seg : Seg) (off : Nat)
  deriving DecidableEq, Repr

/-- The tag check of the address word that a memory operand names (R201, R209). -/
def Src.base (v : Env) (s : Src) : Chk Unit :=
  match s with
  | .frame _ => .ok ()
  | .imm _ _ => .ok ()
  | .frameRpt _ => .ok ()
  | .localInd n _ _ => tagCheck (· = tagSaddr) (v.fr n)
  | .globalInd n _ => tagCheck (· = tagSaddr) (v.fr n)
  | .hostInd n _ => tagCheck (· = tagHaddr) (v.fr n)

/-- The access checks of an operand, and the place it names (R209, R214). `size` is the access size of a host operand. -/
def Src.place (v : Env) (s : Src) (size : Nat) (r w : Bool) : Chk Place :=
  match s with
  | .frame n => .ok (.frame n)
  | .imm c x => .ok (.imm ⟨if c then tagCount else tagInt, x⟩)
  | .frameRpt n => if n + v.i < 64 then .ok (.frame (n + v.i)) else .error pcLimit
  | .localInd n d rpt =>
    let a := v.fr n
    let off := effOff a (d + (if rpt then (v.i : Int) else 0)) 8
    let g := segOfWord v.segs a
    match segCheck g off 8 3 r w with
    | .error e => .error e
    | .ok _ => .ok (.win ((g.base.toNat + off) / 8) (if w then g.pasid.toNat % 4 else 0))
  | .globalInd n d =>
    let a := v.fr n
    let off := effOff a d 8
    let g := segOfWord v.segs a
    match segCheck g off 8 2 r w with
    | .error e => .error e
    | .ok _ => .ok (.mem g off)
  | .hostInd n d =>
    let a := v.fr n
    let off := effOff a d size
    let g := segOfWord v.segs a
    match segCheck g off size 1 r w with
    | .error e => .error e
    | .ok _ => .ok (.mem g off)

/-- The value at a place inside the thread. -/
def Env.at_ (v : Env) (p : Place) : TWord :=
  match p with
  | .frame n => v.fr n
  | .win w _ => AMap.getD v.win w TWord.unset
  | .imm x => x
  | .mem _ _ => TWord.unset

/-- Run a check on every element of a list, the first failure first. -/
def chkAll {α : Type} (l : List α) (f : α → Chk Unit) : Chk Unit :=
  match l with
  | [] => .ok ()
  | a :: l =>
    match f a with
    | .error e => .error e
    | .ok _ => chkAll l f

def chkMap {α β : Type} (l : List α) (f : α → Chk β) : Chk (List β) :=
  match l with
  | [] => .ok []
  | a :: l =>
    match f a with
    | .error e => .error e
    | .ok b =>
      match chkMap l f with
      | .error e => .error e
      | .ok bs => .ok (b :: bs)

/-- How an operand is used: read as a value, and through memory read or written. -/
structure Use where
  src : Src
  value : Bool
  r : Bool
  w : Bool
  accepts : BitVec 4 → Bool

/-- The checks of R201 on one operand: its address word, then the word that it is read for, unless an access check stands before
that word. -/
def Use.check (v : Env) (size : Nat) (u : Use) : Chk Unit :=
  match u.src.base v with
  | .error e => .error e
  | .ok _ =>
    if !u.value then .ok ()
    else match u.src.place v size u.r u.w with
      | .error _ => .ok ()
      | .ok p => tagCheck u.accepts (v.at_ p)

/-- The operand checks of R230: those of R201 on every operand that can be read, in operand order, then the access checks of
R209 (log 34, DEDUCED). -/
def operandChecks (v : Env) (size : Nat) (us : List Use) : Chk (List Place) :=
  match chkAll us (Use.check v size) with
  | .error e => .error e
  | .ok _ => chkMap us fun u => u.src.place v size u.r u.w

def useDst (s : Src) : Use := ⟨s, false, false, true, anyTag⟩
def useSrc (s : Src) (accepts : BitVec 4 → Bool) : Use := ⟨s, true, true, false, accepts⟩

end Sys2Proof.Machine
end

