-- ==== Sys2Proof/Machine/Flags.lean ====
section
/-! DEFINITION. Sys2Proof/Machine/Flags.lean: the condition code (R236), the conditions of R185 and R245, and what the control
operations with a short form compute (R202, R237 to R243). -/

namespace Sys2Proof.Machine

/-! ## CC: N in bit 3, Z in bit 2, C in bit 1, V in bit 0 -/

def mkCC (n z c v : Bool) : BitVec 4 := BitVec.ofNat 4 (8 * b2n n + 4 * b2n z + 2 * b2n c + b2n v)
def ccN (cc : BitVec 4) : Bool := cc.getLsbD 3
def ccZ (cc : BitVec 4) : Bool := cc.getLsbD 2
def ccC (cc : BitVec 4) : Bool := cc.getLsbD 1
def ccV (cc : BitVec 4) : Bool := cc.getLsbD 0

/-- The conditions of BCC (R245). -/
def ccCond (code : Nat) (cc : BitVec 4) : Bool :=
  let n := ccN cc
  let z := ccZ cc
  let c := ccC cc
  let v := ccV cc
  if code = 0 then z
  else if code = 1 then !z
  else if code = 2 then n
  else if code = 3 then !n
  else if code = 4 then c
  else if code = 5 then !c
  else if code = 6 then v
  else if code = 7 then !v
  else if code = 8 then !z && n = v
  else if code = 9 then n = v
  else if code = 10 then n ≠ v
  else if code = 11 then z || n ≠ v
  else if code = 12 then !c && !z
  else if code = 13 then c || z
  else code = 14

/-- The conditions on DS (R185). -/
def dsCond (code : Nat) (ds : Byte) : Bool :=
  let k := ds.toNat % 16
  if code = 0 then true
  else if code = 1 then k = 1
  else if code = 2 then k = 1 || k = 2 || k = 3
  else if code ≤ 10 then k = code - 1
  else if code = 11 then k = 6 || k = 7 || k = 8 || k = 9
  else if code = 12 then k ≠ 0 && k ≠ 1
  else if code = 13 then k = 0
  else if code = 14 then k ≠ 4
  else false

/-! ## Results -/

/-- What an operation writes: a result word and a condition code, each if it has one. -/
structure Alu where
  res : Option TWord
  cc : Option (BitVec 4)
  deriving DecidableEq, Repr

def aluSet (w : TWord) (cc : BitVec 4) : Chk Alu := .ok ⟨some w, some cc⟩

/-- The words an INT and a COUNT result leave (R199). -/
def intW (v : Word) : TWord := ⟨tagInt, v⟩
def countW (n : Nat) : TWord := ⟨tagCount, BitVec.ofNat 64 (n % 2 ^ 32)⟩

/-- N and Z of a result under R236. -/
def ccOf (w : TWord) (c v : Bool) : BitVec 4 :=
  if w.tag = tagCount then mkCC false (w.pay.toNat % 2 ^ 32 = 0) c v
  else if w.tag = tagHaddr || w.tag = tagSaddr then mkCC false (w.pay.toNat % 2 ^ 48 = 0) c v
  else mkCC w.pay.msb (w.pay = 0) c v

def low32 (w : Word) : Nat := w.toNat % 2 ^ 32

/-- The numeric value of an INT or COUNT operand. -/
def numOf (w : TWord) : Int := if w.tag = tagCount then (low32 w.pay : Int) else w.pay.toInt

def outside32 (x : Int) : Bool := x < 0 || (2 ^ 32 : Int) ≤ x

/-! ## ADD and SUB (R202) -/

def isAddr (t : BitVec 4) : Bool := t = tagHaddr || t = tagSaddr
def isNum (t : BitVec 4) : Bool := t = tagInt || t = tagCount

/-- The operand pairs of ADD and SUB. -/
def addPair (sub : Bool) (a b : BitVec 4) : Bool :=
  if a = tagInt then b = tagInt || (!sub && b = tagCount)
  else if a = tagCount then isNum b
  else if isAddr a then b = tagInt
  else false

/-- SUB of two 64-bit values with the CC of R236. -/
def sub64 (a b : Word) : Word × BitVec 4 :=
  let r := a - b
  (r, mkCC r.msb (r = 0) (a.toNat < b.toNat) (a.msb ≠ b.msb && r.msb ≠ a.msb))

def add64 (a b : Word) : Word × BitVec 4 :=
  let r := a + b
  (r, mkCC r.msb (r = 0) (2 ^ 64 ≤ a.toNat + b.toNat) (a.msb = b.msb && r.msb ≠ a.msb))

/-- A sum or difference of a COUNT: C from bit 31 of the low halves, V when the true result is outside 32 bits. -/
def addCount (sub : Bool) (a b : TWord) : TWord × BitVec 4 :=
  let la := low32 a.pay
  let lb := low32 b.pay
  let r := countW (if sub then la + 2 ^ 32 - lb else la + lb)
  let t := if sub then numOf a - numOf b else numOf a + numOf b
  (r, ccOf r (if sub then la < lb else 2 ^ 32 ≤ la + lb) (outside32 t))

/-- An INT added to an address: OFFSET modulo 2^48, V when it wraps. -/
def addAddr (sub : Bool) (a b : TWord) : TWord × BitVec 4 :=
  let off : Int := (a.pay.toNat % 2 ^ 48 : Nat)
  let t := if sub then off - b.pay.toInt else off + b.pay.toInt
  let n := (t % (2 ^ 48 : Int)).toNat
  let r : TWord := ⟨a.tag, BitVec.ofNat 64 (bits a.pay.toNat 48 3 * 2 ^ 48 + n)⟩
  (r, mkCC false (n = 0) false (t < 0 || (2 ^ 48 : Int) ≤ t))

def aluAdd (sub : Bool) (a b : TWord) : Chk Alu :=
  if !addPair sub a.tag b.tag then .error pcTag
  else if isAddr a.tag then let x := addAddr sub a b; aluSet x.1 x.2
  else if a.tag = tagCount || b.tag = tagCount then let x := addCount sub a b; aluSet x.1 x.2
  else
    let x := if sub then sub64 a.pay b.pay else add64 a.pay b.pay
    aluSet (intW x.1) x.2

/-! ## MUL, DIV, NEG (R238) -/

def mulPair (a b : BitVec 4) : Bool := (a = tagInt && b = tagInt) || (a = tagCount && isNum b)

def aluMul (a b : TWord) : Chk Alu :=
  if !mulPair a.tag b.tag then .error pcTag
  else
    let p := numOf a * numOf b
    if a.tag = tagInt then
      let r := intW (wordOfInt p)
      aluSet r (ccOf r false (p < -(2 ^ 63) || (2 ^ 63 : Int) ≤ p))
    else
      let r := countW (p % (2 ^ 32 : Int)).toNat
      aluSet r (ccOf r false (outside32 p))

def divPair (a b : BitVec 4) : Bool := (a = tagInt && b = tagInt) || (a = tagCount && b = tagCount)

/-- Quotient towards zero, or the remainder with the sign of the dividend. A zero divisor gives 0 and V. -/
def aluDiv (rem : Bool) (a b : TWord) : Chk Alu :=
  if !divPair a.tag b.tag then .error pcTag
  else
    let x := numOf a
    let y := numOf b
    let z := if y = 0 then 0 else if rem then Int.tmod x y else Int.tdiv x y
    let v := y = 0 || (a.tag = tagInt && x = -(2 ^ 63) && y = -1)
    let r := if a.tag = tagInt then intW (wordOfInt z) else countW z.toNat
    aluSet r (ccOf r false v)

def aluNeg (a : TWord) : Chk Alu :=
  if a.tag ≠ tagInt then .error pcTag
  else
    let x := sub64 0 a.pay
    aluSet (intW x.1) x.2

/-! ## Logic and shifts (R239) -/

def logicPair (a b : BitVec 4) : Bool := (a = tagInt && b = tagInt) || (a = tagBytes && b = tagBytes)

def aluLogic (opc : Nat) (a b : TWord) : Chk Alu :=
  if !logicPair a.tag b.tag then .error pcTag
  else
    let v := if opc = 0x018 then a.pay &&& b.pay else if opc = 0x019 then a.pay ||| b.pay
      else if opc = 0x01A then a.pay ^^^ b.pay else a.pay &&& ~~~b.pay
    aluSet ⟨a.tag, v⟩ (mkCC v.msb (v = 0) false false)

def shiftPair (opc : Nat) (a b : BitVec 4) : Bool := (a = tagInt || (opc ≠ 0x01E && a = tagBytes)) && isNum b

/-- SHL, SHR and SAR: C is the last bit shifted out. -/
def aluShift (opc : Nat) (a b : TWord) : Chk Alu :=
  if !shiftPair opc a.tag b.tag then .error pcTag
  else
    let n := b.pay.toNat % 64
    let v := if opc = 0x01C then a.pay <<< n else if opc = 0x01D then a.pay >>> n else a.pay.sshiftRight n
    let c := n ≠ 0 && (if opc = 0x01C then a.pay.getLsbD (64 - n) else a.pay.getLsbD (n - 1))
    aluSet ⟨a.tag, v⟩ (mkCC v.msb (v = 0) c false)

/-! ## Comparison (R240) -/

def cmpPair (a b : BitVec 4) : Bool :=
  (isNum a && isNum b) || (a = tagBytes && b = tagBytes) || (a = tagHaddr && b = tagHaddr) || (a = tagSaddr && b = tagSaddr)

/-- The 64-bit value that CMP takes: a COUNT zero-extended. -/
def cmpVal (w : TWord) : Word := if w.tag = tagCount then BitVec.ofNat 64 (low32 w.pay) else w.pay

def ccCmp (a b : TWord) : BitVec 4 :=
  if isAddr a.tag then
    let x := a.pay.toNat % 2 ^ 51
    let y := b.pay.toNat % 2 ^ 51
    mkCC false (x = y) (x < y) false
  else (sub64 (cmpVal a) (cmpVal b)).2

def aluCmp (a b : TWord) : Chk Alu :=
  if !cmpPair a.tag b.tag then .error pcTag else .ok ⟨none, some (ccCmp a b)⟩

def isPlainTag (t : BitVec 4) : Bool := t = tagInt || t = tagCount || t = tagBytes

def aluTst (a : TWord) : Chk Alu :=
  if !isPlainTag a.tag then .error pcTag else .ok ⟨none, some (ccOf a false false)⟩

/-! ## Tags and extraction (R241) -/

def aluTtag (a b : TWord) : Chk Alu := .ok ⟨none, some (mkCC false (a.tag.toNat = b.pay.toNat) false false)⟩

def aluGtag (a : TWord) : Chk Alu :=
  let r := intW (a.tag.setWidth 64)
  aluSet r (ccOf r false false)

def aluCvt (target : Nat) (a : TWord) : Chk Alu :=
  if !isPlainTag a.tag then .error pcTag
  else if target = 2 then
    let t : Int := if a.tag = tagInt then a.pay.toInt else (a.pay.toNat : Int)
    let r := countW a.pay.toNat
    aluSet r (ccOf r false (outside32 t))
  else
    let r : TWord := ⟨if target = 1 then tagInt else tagBytes, a.pay⟩
    aluSet r (ccOf r false false)

def aluOffs (a : TWord) : Chk Alu :=
  if !isAddr a.tag then .error pcTag
  else
    let n := a.pay.toNat % 2 ^ 48
    aluSet (intW (BitVec.ofNat 64 n)) (mkCC false (n = 0) false false)

def aluExts (k : Nat) (a : TWord) : Chk Alu :=
  if a.tag ≠ tagStatus then .error pcTag
  else
    let v := a.pay.toNat
    let r := if k = 0 then intW (BitVec.ofNat 64 (bits v 0 8)) else if k = 1 then intW (BitVec.ofNat 64 (bits v 8 16))
      else if k = 2 then intW (BitVec.ofNat 64 (bits v 24 8)) else countW (bits v 32 32)
    aluSet r (mkCC false (r.pay = 0) false false)

/-! ## Addresses and handles (R242, R243) -/

/-- SEGADDR: segment `a`, offset `b`. -/
def aluSegaddr (segs : List Seg) (a b : TWord) : Chk Alu :=
  if a.tag ≠ tagInt || !isNum b.tag then .error pcTag
  else
    let k := a.pay.toInt
    let off := numOf b
    let g := segs.getD k.toNat Seg.none
    if k < 0 || 7 < k || g.limit = 0 || off < 0 || (g.limit.toNat : Int) < off || (2 ^ 48 : Int) ≤ off then .error pcLimit
    else .ok ⟨some ⟨if g.type = 1 then tagHaddr else tagSaddr, BitVec.ofNat 64 (k.toNat * 2 ^ 48 + off.toNat)⟩, none⟩

/-! ## What each operation accepts, operand by operand (R201 step 3) -/

def acceptA (opc : Nat) (t : BitVec 4) : Bool :=
  if opc = 0x010 || opc = 0x011 then isNum t || isAddr t
  else if opc = 0x012 || opc = 0x013 then isNum t
  else if opc = 0x014 then t = tagInt
  else if 0x018 ≤ opc && opc ≤ 0x01D then t = tagInt || t = tagBytes
  else if opc = 0x01E then t = tagInt
  else if opc = 0x020 then isNum t || t = tagBytes || isAddr t
  else if opc = 0x021 || opc = 0x024 then isPlainTag t
  else if opc = 0x025 then isAddr t
  else if opc = 0x026 then t = tagStatus
  else if opc = 0x210 then t = tagInt
  else if opc = 0x220 then t = tagCount
  else true

/-- The second operand beside a first operand of a tag. -/
def acceptB (opc : Nat) (a t : BitVec 4) : Bool :=
  if opc = 0x010 || opc = 0x011 then addPair (opc = 0x011) a t
  else if opc = 0x012 then mulPair a t
  else if opc = 0x013 then divPair a t
  else if 0x018 ≤ opc && opc ≤ 0x01B then logicPair a t
  else if 0x01C ≤ opc && opc ≤ 0x01E then shiftPair opc a t
  else if opc = 0x020 then cmpPair a t
  else if opc = 0x210 then isNum t
  else true

/-- The second operand when the first has not been read yet. -/
def acceptAny (opc : Nat) (t : BitVec 4) : Bool :=
  (List.range 16).any fun k => acceptA opc (BitVec.ofNat 4 k) && acceptB opc (BitVec.ofNat 4 k) t

/-- The operation on its operand values. `first` and `second` are 0 words where there is none. -/
def alu (v : Env) (op : Op) (a b : TWord) : Chk Alu :=
  let opc := op.opc
  if opc = 0x008 then .ok ⟨some a, none⟩
  else if opc = 0x010 then aluAdd false a b
  else if opc = 0x011 then aluAdd true a b
  else if opc = 0x012 then aluMul a b
  else if opc = 0x013 then aluDiv (op.modN % 2 = 1) a b
  else if opc = 0x014 then aluNeg a
  else if 0x018 ≤ opc && opc ≤ 0x01B then aluLogic opc a b
  else if 0x01C ≤ opc && opc ≤ 0x01E then aluShift opc a b
  else if opc = 0x020 then aluCmp a b
  else if opc = 0x021 then aluTst a
  else if opc = 0x022 then aluTtag a b
  else if opc = 0x023 then aluGtag a
  else if opc = 0x024 then aluCvt (op.modN % 16) a
  else if opc = 0x025 then aluOffs a
  else if opc = 0x026 then aluExts (op.modN % 4) a
  else if opc = 0x027 then .ok ⟨some (intW (v.cc.setWidth 64)), none⟩
  else if opc = 0x028 then .ok ⟨some ⟨tagStatus, v.stat⟩, none⟩
  else if opc = 0x210 then aluSegaddr v.segs a b
  else if opc = 0x211 then .ok ⟨some ⟨tagHandle, v.handle⟩, none⟩
  else .ok ⟨none, none⟩

end Sys2Proof.Machine
end

