-- ==== Sys2Proof/Machine/Threads.lean ====
section
/-! DEFINITION. Sys2Proof/Machine/Threads.lean: threads: what they see, how they commit, release and stop, how they fetch text,
and the commands that dispatch, restore and stop them (05, 06, 12). -/

namespace Sys2Proof.Machine

/-! ## Visibility (R218 to R222) -/

/-- A pending result reaches its place. Where a pair stores to one local word and slot 1 stores through the set or clear view, slot
0's store comes first and slot 1's is applied to its result (log 64, DESIGN CHOICE). -/
def Thread.apply (t : Thread) (p : PendW) : Thread :=
  match p.loc with
  | .frame n => { t with f := t.f.set n p.val }
  | .cc => { t with cc := p.val.pay.setWidth 4 }
  | .win w view =>
    let v := if view = 0 then p.val else viewWord (AMap.getD t.win w TWord.unset) (view = 1) p.val.pay
    { t with win := AMap.store t.win w v TWord.unset }

/-- The results due by the next bundle have reached their places. -/
def Thread.settle (t : Thread) : Thread :=
  (t.pend.filter fun p => p.at_ ≤ t.issue).foldl Thread.apply { t with pend := t.pend.filter fun p => t.issue < p.at_ }

/-- Every result has reached its place (R222). -/
def Thread.flush (t : Thread) : Thread := t.pend.foldl Thread.apply { t with pend := [] }

/-- A run of a block-repeat operation is in progress. -/
def Thread.inBlock (t : Thread) : Bool := t.blk2.tag ≠ tagUnset

def Loc.isWin (l : Loc) : Bool :=
  match l with
  | .win _ _ => true
  | .frame _ => false
  | .cc => false

/-- A result that the next bundle sees early: of the previous repetition of itself (R220), or of an earlier step of its own
block run (R257). -/
def Thread.early (t : Thread) (p : PendW) : Bool :=
  (t.rptAct && 0 < t.rptIdx && p.at_ = t.issue + 1 && !p.loc.isWin) || (t.inBlock && p.loc.isWin && p.at_ = t.issue + 4)

/-- The thread as its next bundle sees it. -/
def Thread.seen (t : Thread) : Thread :=
  let u := t.settle
  (u.pend.filter u.early).foldl Thread.apply u

/-- The HANDLE payload of a subchannel's path set (R243). -/
def State.handleOf (s : State) (sch : Nat) : Word :=
  let c := s.ctxOf sch
  BitVec.ofNat 64 (c.pset + ((AMap.get? s.sub.psets c.pset).map (·.dev)).getD 0 * 2 ^ 16)

def State.segsOf (s : State) (stb : Nat) : List Seg := (s.segTab stb).getD []

def State.env (s : State) (t : Thread) : Env :=
  let u := t.seen
  { f := u.f, win := u.win, cc := u.cc, ds := t.ds, i := if t.rptAct then t.rptIdx else 0, segs := s.segsOf t.stb, ic := t.ic,
    stat := t.stat0, handle := s.handleOf t.sch }

/-! ## Where IC goes (R216, R253) -/

/-- A bundle has been issued: it takes 1 from BUDGET, and IC moves. `j` is none for a bundle that holds no branch, else the
target of a taken branch. -/
def Thread.advance (t : Thread) (j : Option (Option Word)) : Thread :=
  let t1 := { t with budget := t.budget - 1, issue := t.issue + 1, since := t.since + 1, spnOk := false }
  if t.rptAct then
    if t.rptRem ≤ 1 then { t1 with rptAct := false, rptI := false, rptRem := 0, rptIdx := 0, ic := t.ic + 16, cur := none }
    else { t1 with rptRem := t.rptRem - 1, rptIdx := t.rptIdx + 1 }
  else if t.delay then { t1 with ic := t.pbr.getD (t.ic + 16), pbr := none, delay := false }
  else match j with
    | none => { t1 with ic := t.ic + 16 }
    | some target => { t1 with ic := t.ic + 16, delay := true, pbr := target }

/-- Results of a bundle, each with the distance at which it becomes visible. -/
def Thread.write (t : Thread) (ws : List (Loc × TWord × Nat)) : Thread :=
  { t with pend := t.pend ++ ws.map fun w => ⟨w.1, w.2.1, t.issue + w.2.2⟩ }

/-! ## Commit points (R224, R226) -/

/-- Write a checkpoint record into the stale place and make it the valid one. -/
def State.record_ (s : State) (th : Nat) (c : Ckpt) : State :=
  s.onSx fun x =>
    let p := AMap.getD x.ckpt th ⟨false, none, none⟩
    let r : Option Ckpt := some c
    { x with ckpt := AMap.put x.ckpt th (if p.valid then { p with valid := false, rec0 := r } else { p with valid := true, rec1 := r }) }

/-- The valid record of a thread. -/
def CkPair.rec_ (p : CkPair) : Option Ckpt := if p.valid then p.rec1 else p.rec0

/-- The boundary changes the valid record: the done flag, and what the commit point's own effect left in the thread. -/
def State.amend (s : State) (th : Nat) (f : Ckpt → Ckpt) : State :=
  s.onSx fun x => { x with ckpt := AMap.upd x.ckpt th fun p =>
    if p.valid then { p with rec1 := p.rec1.map f } else { p with rec0 := p.rec0.map f } }

/-- Steps 2 and 3 of a commit point of a thread whose state is `t`, with an effect of its own that is still to come: the record is
written, then the buffered stores are released in order (R224, R226). -/
def State.commitFor (s : State) (th : Nat) (t : Thread) (e : CkEffect) : State :=
  let t1 := { t with sbuf := [], since := 0 }
  ((s.setTh th t1).record_ th ⟨t1, t.sbuf, e, false⟩).releaseStores t.sch t.sbuf

/-- A commit point without an effect of its own. -/
def State.commit (s : State) (th : Nat) (t : Thread) : State :=
  (s.commitFor th t .none).amend th fun c => { c with done := true }

/-- The own effect of the commit point is done; the record and the thread go on as `t`. -/
def State.effectDone (s : State) (th : Nat) (t : Thread) : State :=
  (s.setTh th t).amend th fun c => { c with th := t, done := true }

/-! ## Giving up a program (R123) -/

/-- (log 35, DEDUCED) -/
def Ctx.save (c : Ctx) (t : Thread) : Ctx :=
  { c with ic := t.ic, cc := t.cc, ds := t.ds, f := t.f.take 16, budget := t.budget }

/-- An ACTIVE program becomes WAITING; one that is halted or cleared keeps its state. -/
def Ctx.unthread (c : Ctx) : Ctx := if c.state = .active then { c with state := .waiting } else c

/-- The thread releases the program: everything written is saved as it becomes visible (R219, R222). -/
def State.release (s : State) (th : Nat) (t : Thread) (wait : Wait) : State :=
  (((s.modCtx t.sch fun c => (c.save t.flush).unthread).modProg t.sch fun p => { p with wait := wait }).dropThread th)

/-- The thread stops for good: buffered stores, loads, repeat and block state are discarded; a CLEAR then overwrites IC and
the frame (R123, R131, R228). -/
def State.stopThread (s : State) (th : Nat) (t : Thread) : State :=
  ((s.segLeave (· = .own t.sch)).modCtx t.sch fun c =>
    let c := (c.save t.seen).unthread
    if c.clrreq && !c.tmout then c.wipe else c).dropThread th

/-- A program ends where its thread stands. -/
def State.endThread (s : State) (th : Nat) (t : Thread) : State :=
  (s.stopThread th t).modProg t.sch fun p => { p with ending := true }

/-- R189: a program check. -/
def State.programCheck (s : State) (th : Nat) (t : Thread) (code : Nat) : State :=
  let s1 := (s.modCtx t.sch fun c => { c.setCst cstProgramCheck with pchk := BitVec.ofNat 8 code }).endThread th t
  if code = pcUnloaded then s1.onSx fun x => { x with unloaded := inc16 x.unloaded } else s1

/-- A thread must stop at its next stop point: HALT, CLEAR, timeout or a broken chain (R228). -/
def State.stopping (s : State) (sch : Nat) : Bool :=
  let c := s.ctxOf sch
  c.haltreq || c.clrreq || (s.progOf sch).brk.isSome

/-- R228. -/
def Thread.stopPoint (t : Thread) : Bool := !t.rptAct || (t.rptI && 0 < t.rptIdx)

/-! ## Text (R153 to R155) -/

/-- The fetch checks of R153: 0 when they pass. -/
def fetchCheck (segs : List Seg) (ic : Word) : Nat :=
  let g := segs.getD 0 Seg.none
  if ic.toNat % 16 ≠ 0 then pcAlign
  else if g.limit.toNat < ic.toNat + 16 then pcLimit
  else if !g.x then pcRights
  else 0

/-- The host line that holds the bundle at IC. -/
def lineAddr (segs : List Seg) (ic : Word) : Nat := ((segs.getD 0 Seg.none).base.toNat + ic.toNat) % 2 ^ 64 / 64

/-- The resident copy that serves a thread at IC, held in the instruction cache of its cluster (R155). -/
def State.resident (s : State) (th : Nat) (t : Thread) : Option (List Byte) :=
  let c := s.ctxOf t.sch
  match s.sq? c.sqid with
  | none => none
  | some r =>
    if (s.cluOf (thCluster th)).cache.contains c.sqid && c.sqv && r.cls = 0 && r.textStb = t.stb && t.ic.toNat + 16 ≤ r.textKib * 1024 then some r.text else none

/-- The bundle at IC, if the thread has it: decoded already, resident, or in a line of its buffer. -/
def State.bundle (s : State) (th : Nat) (t : Thread) : Option (BitVec 128) :=
  match t.cur with
  | some b => some b
  | none =>
    match s.resident th t with
    | some text => some (BitVec.ofNat 128 (rd text t.ic.toNat 16))
    | none =>
      let segs := s.segsOf t.stb
      let a := lineAddr segs t.ic
      let o := ((segs.getD 0 Seg.none).base.toNat + t.ic.toNat) % 64
      (t.lines.find? fun l => l.addr = a).map fun l => l.data.extractLsb' (8 * o) 128

/-- A thread that may fetch or issue: its engine runs and nothing stops it here (R205). -/
def State.runs (s : State) (th : Nat) (t : Thread) : Bool :=
  s.engineUp th && !(s.stopping t.sch && t.stopPoint) && (t.since < 256 || t.delay)

/-! ## Loads (R221) -/

/-- R198, R249: an address or handle word loads as BYTES. -/
def loadedWord (w : TWord) : TWord :=
  if w.tag = tagHaddr || w.tag = tagSaddr || w.tag = tagHandle then ⟨tagBytes, w.pay⟩ else w

/-- The loads that WAITH or WAITG makes visible. -/
def Load.of (l : Load) (host : Bool) : Bool := l.host = host && l.dst < 64

def Thread.outstanding (t : Thread) (host : Bool) : List Load := t.loads.filter fun l => l.of host

/-- Every load of a kind has its word or its failure. -/
def Thread.returned (t : Thread) (host : Bool) : Bool := (t.outstanding host).all fun l => l.got.isSome || l.fail

def Thread.failed (t : Thread) (host : Bool) : Bool := (t.outstanding host).any (·.fail)

/-- Make every load of a kind visible from the second bundle after this one. -/
def Thread.deliver (t : Thread) (host : Bool) : Thread :=
  { t with
    pend := t.pend ++ (t.outstanding host).filterMap (fun l => l.got.map fun w => ⟨.frame l.dst, w, t.issue + 2⟩),
    loads := t.loads.filter fun l => !l.of host }

def Thread.nextId (t : Thread) : Nat := t.loads.foldl (fun n l => max n (l.id + 1)) 0

/-- The requester index of a thread's cluster (R11). -/
def thRix (th : Nat) : Nat := 16 + thCluster th

/-- A thread may make a host read now: the link carries it, its class has a tag, and neither a waiter for a tag nor a request for
HOST-READ goes before it (R16, R17, R329). -/
def State.readTurn (s : State) (th sch : Nat) (who : WaitWho) : Bool :=
  let w := s.placeAt 2 (s.progKey sch) (thRix th) sch (s.clsOf sch) who
  s.link.mayIssue && s.turn 2 (w.bg, w.dl) (thRix th) sch (s.clsOf sch) who && s.wins 1 (w.bg, w.dl) (thRix th) sch

/-- A read of a thread waits. -/
def State.readWait (s : State) (th sch : Nat) (who : WaitWho) : State :=
  if s.link.mayIssue then s.await 2 (s.progKey sch) (thRix th) sch (s.clsOf sch) who else s

/-- A load of a thread can be issued now. -/
def State.canRead (s : State) (th sch : Nat) : Bool := s.readTurn th sch (.load th) && s.tagFree (AMap.gap s.link.reads 0)

/-- Issue a host read for a load of the thread, on the lowest free tag (log 27, DEDUCED). -/
def State.issueLoad (s : State) (th : Nat) (t : Thread) (l : Load) : State :=
  let tag := AMap.gap s.link.reads 0
  (((s.unwait 2 (.load th)).setTh th { t with loads := t.loads ++ [l] }).takeRead tag (.load th l.id)).hostRead tag (BitVec.ofNat 64 l.addr) l.pasid
    (if l.raw then 8 else 16)

/-- The bytes that two host accesses share. -/
def overlaps (a n b m : Nat) : Bool := a < b + m && b < a + n

def Store.size (e : Store) : Nat := if e.kind = .hostSlot then 16 else 8

/-- What a load meets in the store buffer (R223): nothing, the value of the latest store to the same place, or a store that
forces a COMMIT first. -/
inductive Meet where
  | none
  | value (w : TWord)
  | commit
  deriving DecidableEq, Repr

/-- (log 36, DEDUCED) -/
def hostMeet (l : List Store) (addr : Nat) (pasid : Option (BitVec 20)) (raw : Bool) : Meet :=
  match l.reverse.find? fun e => e.kind.toHost && e.pasid = pasid && overlaps e.addr e.size addr (if raw then 8 else 16) with
  | Option.none => .none
  | some e =>
    if e.addr = addr && e.size = (if raw then 8 else 16) then
      .value (if raw then ⟨tagBytes, e.val.pay⟩ else loadedWord e.val)
    else .commit

/-- (log 36, DEDUCED) -/
def globalMeet (l : List Store) (w : Nat) : Meet :=
  match l.reverse.find? fun e => !e.kind.toHost && e.addr = w with
  | Option.none => .none
  | some e => if e.kind = .plain then .value (loadedWord e.val) else .commit

/-! ## Generations (R281, R282) -/

/-- Adopt a newer generation at a bundle boundary: at once, or in a replay when BUDGET reaches the value of the record. The
valid record notes the BUDGET of a first adoption. -/
def State.adopt (s : State) (th : Nat) (t : Thread) : State × Thread :=
  if t.gen = s.sx.gen || t.cur.isSome || (t.replay && t.replayTo.toNat < t.budget.toNat) then (s, t)
  else
    let t1 := { t with gen := s.sx.gen, replay := false, replayTo := 0 }
    let note (r : Option Ckpt) : Option Ckpt := r.map fun c =>
      if c.th.gen = t.gen && !c.th.replay then { c with th := { c.th with replay := true, replayTo := t.budget } } else c
    (s.onSx fun x => { x with ckpt := AMap.upd x.ckpt th fun p =>
      if p.valid then { p with rec1 := note p.rec1 } else { p with rec0 := note p.rec0 } }, t1)

/-! ## Dispatch (R123, R126, R205) -/

/-- What STAT reads: the status of the context as the program resumes (R241). -/
def Ctx.statWord (c : Ctx) : Word :=
  BitVec.ofNat 64 (c.ds.toNat + c.cstat.toNat * 2 ^ 8 + c.pchk.toNat * 2 ^ 24 + c.residual.toNat * 2 ^ 32)

/-- The thread of a program that is dispatched. -/
def State.newThread (s : State) (sch : Nat) : Thread :=
  let c := s.ctxOf sch
  { sch := sch, ic := c.ic, cc := c.cc, ds := c.ds, rptAct := false, rptI := false, rptRem := 0, rptIdx := 0,
    blk0 := TWord.unset, blk1 := TWord.unset, blk2 := TWord.unset, pbr := none, delay := false, stb := c.stb,
    budget := c.budget, f := c.f ++ List.replicate 48 TWord.unset, win := [], sbuf := [], loads := [], pend := [], issue := 0,
    since := 0, resv := none, gen := s.sx.gen, lines := [], group := [], stat0 := c.statWord, spnOk := (s.progOf sch).resumed,
    cur := none, replay := false, replayTo := 0 }

/-- R399: the frame words that an uncorrectable word of the context spoils (log 60, DEDUCED). -/
def spoilFrame (u : CtxFault) (f : List TWord) : List TWord :=
  match u with
  | .sound => f
  | .corrected => f
  | .ftag => f.map fun w => ⟨tagPoison, w.pay⟩
  | .fpay i => modAt f i fun w => ⟨tagPoison, w.pay⟩
  | .low => f

/-- R205: a thread takes the program of a granted dispatch request. `ue` is the uncorrectable word that the load of the
context finds (log 11, DESIGN CHOICE). -/
def execDispatch (sch th : Nat) (ue : CtxFault) (s : State) : Res :=
  .next (
    let c := s.ctxOf sch
    if !(s.leastGranted sch && (c.state = .startPending || c.state = .waiting) && s.poolFree 1 c.cls
        && s.threadFree th c.cls) || s.sx.stopped.any (fun e => e.2.sch = sch) then s
    else
      let s := if ue = .sound then s else if ue = .corrected then s.corrected 1 else s.memError 6 0 0 sch
      if ue = .low then s.writeOff sch
      else
        let s1 := (s.withdraw (.dispatch sch)).modCtx sch fun c =>
          { c with state := .active, dreq := false, f := spoilFrame ue c.f }
        let t := s1.newThread sch
        let s2 := s1.modProg sch fun p => { p with resumed := false, wait := .dispatch }
        (s2.takeThread th t).record_ th ⟨t, [], .none, true⟩)

/-! ## Fetch (R154, R65) -/

/-- R153, R154: the line at IC is read from host memory; a fetch check that fails ends the program (log 27, DEDUCED). -/
def execTextLineFetch (th tag : Nat) (s : State) : Res :=
  .next (match s.th? th with
    | none => s
    | some t =>
      let segs := s.segsOf t.stb
      let g := segs.getD 0 Seg.none
      let a := lineAddr segs t.ic
      if !s.runs th t || t.cur.isSome then s
      else if fetchCheck segs t.ic ≠ 0 then s.programCheck th t (fetchCheck segs t.ic)
      else if (s.bundle th t).isSome then s
      else if !s.tagFree tag || s.link.reads.any (fun e => e.2 = .text th a) then s
      else if !s.readTurn th t.sch (.text th) then s.readWait th t.sch (.text th)
      else ((s.unwait 2 (.text th)).takeRead tag (.text th a)).hostRead tag (BitVec.ofNat 64 (64 * a)) (if g.pv then some g.pasid else none) 64)

/-- R65, R154: a line arrives, or its read fails and the program ends. A line that Armature brings uncorrectable carries poison (R14,
R186). -/
def execTextLineArrival (tag : Nat) (st : CplStatus) (line : Checked (BitVec 512)) (s : State) : Res :=
  .next (match AMap.get? s.link.reads tag with
    | some (.text th a) =>
      if s.link.drops st then s
      else match s.th? th with
      | none => (s.dropRead tag).countCpl (s.cplOf tag st)
      | some t =>
        let st := s.cplOf tag st
        let came := st = .ok || st = .poison
        let s1 := (s.dropRead tag).countCpl st
        let s2 := if !came then s1 else if line.ue then s1.memError 3 0 0 t.sch else s1.eccFix line.ecc
        if st = .ok && !line.ue then (s2.nowReady th).setTh th { t with lines := t.lines ++ [⟨a, line.val⟩] }
        else (s2.readFailed t.sch (if st = .ok then .poison else st)).endThread th t
    | some (.ring _ _ _) => s
    | some (.load _ _) => s
    | some (.dma _ _ _ _) => s
    | none => s)

/-! ## Host loads (R198, R251) -/

/-- The word that a host load delivers. -/
def hostWord (raw poison : Bool) (d : BitVec 128) : TWord :=
  if poison then ⟨tagPoison, d.extractLsb' 0 64⟩
  else if raw then ⟨tagBytes, d.extractLsb' 0 64⟩
  else loadedWord ⟨d.extractLsb' 64 4, d.extractLsb' 0 64⟩

/-- R251, R534: the word of a load arrives, or its read fails; poison sets POISONED-DATA. Armature may find the word
uncorrectable on its way to the cluster (R14). -/
def execHostLoadReturn (tag : Nat) (st : CplStatus) (data : Checked (BitVec 128)) (s : State) : Res :=
  .next (match AMap.get? s.link.reads tag with
    | some (.load th id) =>
      if s.link.drops st then s
      else match s.th? th with
      | none => (s.dropRead tag).countCpl (s.cplOf tag st)
      | some t =>
        let st := s.cplOf tag st
        let came := st = .ok || st = .poison
        let s1 := (s.dropRead tag).countCpl st
        let s2 := if st = .poison then s1.poisoned t.sch else s1
        let s3 := if !came then s2 else if data.ue then s2.memError 3 0 0 t.sch else s2.eccFix data.ecc
        (s3.nowReady th).setTh th { t with loads := t.loads.map fun l =>
          if l.id = id then
            if came then { l with got := some (hostWord l.raw (data.ue || st = .poison) data.val) } else { l with fail := true }
          else l }
    | some (.ring _ _ _) => s
    | some (.text _ _) => s
    | some (.dma _ _ _ _) => s
    | none => s)

/-! ## Stopping and adding commits (R228, R401) -/

/-- R228: a thread that must stop does so at a stop point. -/
def execThreadStop (th : Nat) (s : State) : Res :=
  .next (match s.th? th with
    | none => s
    | some t => if s.stopping t.sch && t.stopPoint && s.engineUp th then s.stopThread th t else s)



/-! ## Restoring (R227, R403) -/

/-- The words of the global scratchpad that the set and clear stores among some read (R317, R318). -/
def viewReads (l : List Store) : List Nat := l.filterMap fun e => if e.kind = .setView || e.kind = .clearView then some e.addr else none

/-- A release outside a bundle finds some of these words uncorrectable or corrected (R196, R400). -/
def State.releaseFaults (s : State) (sch : Nat) (l : List Store) (rel : Release) : State :=
  let ws := viewReads l
  ((rel.bad.dedup.filter ws.contains).foldl (fun t w => t.gsFault sch w) s).corrected (min rel.fixed ws.length)

/-- R401: after 256 bundles a COMMIT is added, behind a delay bundle. -/
def execAutoCommit (rel : Release) (s : State) : Res :=
  .next (match s.th? rel.of_ with
    | none => s
    | some t =>
      if !(256 ≤ t.since && !t.delay && s.engineUp rel.of_) then s
      else if s.canRelease t.sch t.sbuf then (s.releaseFaults t.sch t.sbuf rel).commit rel.of_ t
      else s.storeWait t.sch)

/-- A program that executed END has stores to release: XOUT is 0 (R188). -/
def State.endStores (s : State) (sch : Nat) : Bool :=
  let c := s.ctxOf sch
  let p := s.progOf sch
  p.ending && !p.stores.isEmpty && c.state = .waiting && c.xout = 0 && !s.hasThread sch

/-- R133: the final status becomes pending; before it, a program that executed END releases the stores that it held (R188). -/
def execFinalStatusPending (rel : Release) (s : State) : Res :=
  .next (
    let sch := rel.of_
    let l := (s.progOf sch).stores
    if s.endStores sch && !s.canRelease sch l then s.storeWait sch
    else
      let s := if s.endStores sch then
          ((s.releaseFaults sch l rel).releaseStores sch l).modProg sch fun p => { p with stores := [] }
        else s
      let s := if (s.progOf sch).ending then s.progress sch else s
      if s.finalReady sch then s.makeFinal sch else s)

/-- The loads of a record are issued again: global ones read the bank, where they find the words of `bad` uncorrectable (R196), and
host ones take a tag each. -/
def State.reissue (s : State) (th : Nat) (bad : List Nat) (l : List Load) : State :=
  match l with
  | [] => s
  | a :: l =>
    match s.th? th with
    | none => s
    | some t =>
      let s0 := if !a.host && bad.contains a.addr then s.gsFault t.sch a.addr else s
      let s1 := if a.host then s.issueLoad th t { a with got := none, fail := false }
        else s0.setTh th { t with loads := t.loads ++ [{ a with got := some (loadedWord (s0.gsRead a.addr)) }] }
      State.reissue s1 th bad l

/-- The host loads that a restored thread issues again. -/
def Thread.reloads (t : Thread) : Nat := (t.loads.filter fun l => l.of true).length

/-- Units of the pool of a bound that are left to a class, of its reservation and of the unreserved part (R336). -/
def State.poolLeft (s : State) (n c : Nat) : Nat :=
  let res := s.resv s.md.sched n
  min (s.limit n - s.occ n) ((if c < 7 then res c - s.used n c else 0) +
    (s.limit n - sumBy res (List.range 7) - (sumBy (fun i => s.used n i - res i) (List.range 7) + s.used n 7)))

/-- The class of a restored thread takes the tags of its loads, in the order of R17, in which it waits for all of them (R18, R336). -/
def State.restoreTags (s : State) (th th' : Nat) (t : Thread) : Bool :=
  t.reloads = 0 || (t.reloads ≤ s.poolLeft 2 (s.clsOf t.sch) && s.readTurn th' t.sch (.restore th))

/-- Whether a stopped thread may go on at another place: the spare engine of its cluster after an engine fault, another
cluster after a fence, whose dispatch request has been granted and stands first. Its class takes a thread there. -/
def State.mayRestore (s : State) (th th' : Nat) (t : Thread) : Bool :=
  s.threadFree th' (s.clsOf t.sch) && s.poolFree 1 (s.clsOf t.sch) &&
  (if s.tally.fenced.getLsbD (thCluster th) then thCluster th' ≠ thCluster th && s.leastGranted t.sch
   else thCluster th' = thCluster th && thEngine th' = 8 && th' % 32 = th % 32)

/-- R227: the thread goes on from its valid record, with no reservation and no stores; an uncorrectable record ends the program
(R400). -/
def execThreadRestore (th th' : Nat) (fault : RestoreFault) (s : State) : Res :=
  .next (match AMap.get? s.sx.stopped th with
    | none => s
    | some t =>
      if !s.mayRestore th th' t || !s.link.mayIssue && t.loads.any (·.host) then s
      else if !s.restoreTags th th' t then s.readWait th' t.sch (.restore th)
      else
        let s1 := (((s.unwait 2 (.restore th)).onSx fun x => { x with stopped := AMap.del x.stopped th }).withdraw (.dispatch t.sch)).modCtx t.sch
          fun c => { c with dreq := false }
        let t1 := { t with resv := none, sbuf := [], lines := [] }
        if fault.ckpt = .bad then
          (((s1.memError 4 0 0 t.sch).modCtx t.sch fun c =>
            { (if c.clrreq && !c.tmout then c.wipe else c).setCst cstProgramCheck |>.unthread with
              pchk := BitVec.ofNat 8 pcPoison, ic := 0 }).modProg t.sch
              fun p => { p with ending := true })
        else
          let s2 := ((s1.eccFix fault.ckpt).takeThread th' { t1 with loads := [] }).record_ th' ⟨t1, [], .none, true⟩
          s2.reissue th' fault.bad (t.loads.filter fun l => l.dst < 64))

end Sys2Proof.Machine
end

