-- ==== Sys2Proof/Machine/Bundles.lean ====
section
/-! DEFINITION. Sys2Proof/Machine/Bundles.lean: customer instructions (08) and the issue of a bundle of control operations that
may stand in a pair (07). -/

namespace Sys2Proof.Machine

/-! ## Customer instructions (R268 to R277) -/

/-- The decode entry that a thread sees for an opcode: of the active bank, or of the other one while the thread still uses the
generation before (R281). -/
def State.decEntry (s : State) (t : Thread) (opc : Nat) : Option DecEntry :=
  let one := s.sx.bank = (t.gen = s.sx.gen)
  AMap.get? (if one then s.sx.bank1 else s.sx.bank0) (opc - 0x7C0)

/-- One micro-step (R273, R274): the micro-registers after it, how many steps it passes over, and whether it ends the routine. -/
def microStep (u : BitVec 32) (t : List Word) : List Word × Nat × Bool :=
  let v := u.toNat
  let op := bits v 26 6
  let td := bits v 23 3
  let a := t.getD (bits v 20 3) 0
  let b := t.getD (bits v 17 3) 0
  let imm := bits v 0 16
  let iw : Word := BitVec.ofNat 64 imm
  let put (w : Word) : List Word × Nat × Bool := (t.set td w, 0, false)
  let part (n k : Nat) : Word := BitVec.ofNat 64 (bits a.toNat (n * k) n)
  let ins (n k : Nat) : Word :=
    (a &&& ~~~(BitVec.ofNat 64 ((2 ^ n - 1) * 2 ^ (n * k)))) ||| BitVec.ofNat 64 (bits b.toNat 0 n * 2 ^ (n * k))
  if op = 0x01 then put (a + b)
  else if op = 0x02 then put (a - b)
  else if op = 0x03 then put (a &&& b)
  else if op = 0x04 then put (a ||| b)
  else if op = 0x05 then put (a ^^^ b)
  else if op = 0x06 then put (a <<< (imm % 64))
  else if op = 0x07 then put (a >>> (imm % 64))
  else if op = 0x08 then put iw
  else if op = 0x09 then put (a ||| (iw <<< (16 * bits v 17 2)))
  else if op = 0x0A then put (part 4 (imm % 16))
  else if op = 0x0B then put (ins 4 (imm % 16))
  else if op = 0x0C then put (part 8 (imm % 8))
  else if op = 0x0D then put (ins 8 (imm % 8))
  else if op = 0x0E then put (a * iw + b)
  else if op = 0x0F then put (if a.toNat < b.toNat then 1 else 0)
  else if op = 0x10 then put (if a = b then 1 else 0)
  else if op = 0x11 then (t, if a = 0 then imm % 64 else 0, false)
  else if op = 0x12 then (t, if a = 0 then 0 else imm % 64, false)
  else if op = 0x13 then (t, 0, true)
  else (t, 0, false)

/-- Run the steps that are left, passing over the first `skip` of them (R275). -/
def microRun (steps : List (BitVec 32)) (skip : Nat) (t : List Word) : List Word :=
  match steps, skip with
  | [], _ => t
  | _ :: us, k + 1 => microRun us k t
  | u :: us, 0 =>
    let r := microStep u t
    if r.2.2 then r.1 else microRun us r.2.1 r.1

/-- The engine cycles that the steps left take: one for each that runs, DONE among them, none for those passed over (R275). -/
def microCycles (steps : List (BitVec 32)) (skip : Nat) (t : List Word) : Nat :=
  match steps, skip with
  | [], _ => 0
  | _ :: us, k + 1 => microCycles us k t
  | u :: us, 0 =>
    let r := microStep u t
    if r.2.2 then 1 else 1 + microCycles us r.2.1 r.1

/-- The cycles of the routine of an entry on the payloads of its sources (R275). -/
def DecEntry.cycles (e : DecEntry) (a b : Word) : Nat := microCycles (e.steps.take e.nstep) 0 [a, b, 0, 0, 0, 0, 0, 0]

/-- R273, R276: the result and CC of a customer instruction on the payloads of its sources. -/
def DecEntry.run (e : DecEntry) (a b : Word) : Alu :=
  let t := microRun (e.steps.take e.nstep) 0 [a, b, 0, 0, 0, 0, 0, 0]
  let r := t.getD 7 0
  let t6 := t.getD 6 0
  let w : TWord := if e.rtag = tagCount then countW r.toNat else ⟨e.rtag, r⟩
  ⟨if e.rtag = 0 then none else some w,
    if e.ccmode = 1 then some (ccOf w false false)
    else if e.ccmode = 2 then some (t6.setWidth 4)
    else if e.ccmode = 3 then some (ccOf w false (t6 ≠ 0))
    else none⟩

/-! ## One slot -/

/-- What a slot of a bundle does inside its thread: results with their distances, the branch (taken or not), END. -/
structure SlotOut where
  ws : List (Loc × TWord × Nat)
  jump : Option (Option Word)
  fin : Bool

def SlotOut.idle : SlotOut := ⟨[], none, false⟩

/-- A result at its place: frame words at k + 2, local-window words at k + 4 (R218). -/
def Place.result (p : Place) (w : TWord) : List (Loc × TWord × Nat) :=
  match p with
  | .frame n => [(.frame n, w, 2)]
  | .win i view => [(.win i view, w, 4)]
  | .imm _ => []
  | .mem _ _ => []

def ccResult (cc : Option (BitVec 4)) : List (Loc × TWord × Nat) :=
  match cc with
  | some c => [(.cc, ⟨tagUnset, c.setWidth 64⟩, 2)]
  | none => []

/-- The target of a branch (R244). -/
def branchTarget (v : Env) (s : Src) : Word :=
  match s with
  | .imm _ d => v.ic + 16 * d
  | .frame n => (v.fr n).pay
  | .frameRpt _ => 0
  | .localInd _ _ _ => 0
  | .globalInd _ _ => 0
  | .hostInd _ _ => 0

/-- BCC, BDS and BAL (R245, R246). -/
def evalBranch (v : Env) (op : Op) (srcs : List Src) : Chk SlotOut :=
  match srcs with
  | [t] =>
    match operandChecks v 8 [useSrc t (· = tagInt)] with
    | .error e => .error e
    | .ok _ =>
      let taken := if op.opc = 0x030 then ccCond (op.modN % 16) v.cc
        else dsCond (if op.long then op.cond else op.modN % 16) v.ds
      .ok ⟨[], some (if taken then some (branchTarget v t) else none), false⟩
  | [d, t] =>
    match operandChecks v 8 [useDst d, useSrc t (· = tagInt)] with
    | .error e => .error e
    | .ok ps => .ok ⟨(ps.headD (.imm TWord.unset)).result (intW (v.ic + 32)), some (some (branchTarget v t)), false⟩
  | _ => .ok SlotOut.idle

/-- The word that a source reads; none where an access check stands before it. -/
def Env.read? (v : Env) (s : Src) : Option TWord :=
  match s.place v 8 true false with
  | .error _ => none
  | .ok p => some (v.at_ p)

/-- The uses of the sources of a data operation: TTAG and GTAG read the tag alone (R241). -/
def srcUses (v : Env) (opc : Nat) (srcs : List Src) : List Use :=
  let bare := opc = 0x022 || opc = 0x023
  match srcs with
  | [] => []
  | [a] => [⟨a, !bare, true, false, acceptA opc⟩]
  | a :: b :: _ =>
    [⟨a, !bare, true, false, acceptA opc⟩,
     ⟨b, !bare, true, false, match v.read? a with
        | some w => acceptB opc w.tag
        | none => acceptAny opc⟩]

/-- A data operation: sources checked and read, the operation performed, the destination written (R237 to R243). The checks of the
destination come before those of the operation itself, SEGADDR's among them (log 34, DEDUCED). -/
def evalData (v : Env) (dst : Option Src) (f : TWord → TWord → Chk Alu) (us : List Use) :
    Chk SlotOut :=
  match operandChecks v 8 ((match dst with
      | some d => [useDst d]
      | none => []) ++ us) with
  | .error e => .error e
  | .ok ps =>
    let vals := (if dst.isSome then ps.tail else ps).map v.at_
    match f (vals.getD 0 TWord.unset) (vals.getD 1 TWord.unset) with
    | .error e => .error e
    | .ok r =>
      .ok ⟨(match r.res, dst with
          | some w, some _ => (ps.headD (.imm TWord.unset)).result w
          | some _, none => []
          | none, _ => []) ++ ccResult r.cc, none, false⟩

/-- Split the operands into the destination and the sources. -/
def splitDst (i : OpInfo) (srcs : List Src) : Option Src × List Src :=
  if i.roles.head? = some .dst then (srcs.head?, srcs.tail) else (none, srcs)

/-- An operation that may stand in a pair, or a customer instruction, after its static checks. -/
def evalSlot (v : Env) (op : Op) (entry : Option DecEntry) : Chk SlotOut :=
  if op.customer then
    match entry with
    | none => .error pcUnloaded
    | some e =>
      match op.operands e.info with
      | none => .error pcReserved
      | some srcs =>
        let x := splitDst e.info srcs
        let accept (m : BitVec 16) (t : BitVec 4) : Bool := m.getLsbD t.toNat
        let us := (x.2.zip [e.maskA, e.maskB]).map fun u => useSrc u.1 (accept u.2)
        evalData v x.1 (fun a b => .ok (e.run a.pay b.pay)) us
  else
    match op.info with
    | none => .error pcIllegal
    | some i =>
      match op.operands i with
      | none => .error pcReserved
      | some srcs =>
        if i.kind = .fin then .ok ⟨[], none, true⟩
        else if i.kind = .branch then evalBranch v op srcs
        else
          let x := splitDst i srcs
          evalData v x.1 (alu v op) (srcUses v op.opc x.2)

/-- A slot with all its checks (log 34, DEDUCED). -/
def State.slot (s : State) (t : Thread) (v : Env) (op : Op) : Chk SlotOut :=
  let entry := if op.customer then s.decEntry t op.opc else none
  let code := op.static t.delay t.rptAct entry
  if code ≠ 0 then .error code else evalSlot v op entry

/-! ## The issue of a bundle -/

/-- The bundle-level checks of a pair (R230 step 3). -/
def pairCheck (b : BitVec 128) (ops : List Op) : Nat :=
  if !b.msb then 0
  else if b.getLsbD 63 then pcReserved
  else if ops.all (·.flow) then pcIllegal
  else 0

/-- The thread keeps the bundle that it repeats, which is decoded once (R281). -/
def Thread.keep (t : Thread) (b : BitVec 128) : Thread := if t.rptAct then { t with cur := some b } else t

/-- R188: END. The thread is released with its stores held until XOUT is 0 (log 39, DEDUCED). -/
def State.finish (s : State) (th : Nat) (t : Thread) : State :=
  ((s.release th t .fin).modProg t.sch fun p => { p with ending := true, stores := t.sbuf }).progress t.sch

/-- A bundle whose operations act inside the thread: both slots read before either writes, and slot 1 writes last (R215). -/
def State.issuePlain (s : State) (th : Nat) (t : Thread) (b : BitVec 128) (ops : List Op) : State :=
  match chkMap ops (s.slot t (s.env t)) with
  | .error e => s.programCheck th t e
  | .ok outs =>
    let t1 := ((t.keep b).settle.write (outs.flatMap (·.ws))).advance (firstSome (·.jump) outs)
    if outs.any (·.fin) then s.finish th t1 else s.setTh th t1

end Sys2Proof.Machine
end

