-- ==== Sys2Proof/Machine/Memory.lean ====
section
/-! DEFINITION. Sys2Proof/Machine/Memory.lean: the operations in long form only that reach memory or hold the thread: loads,
stores, RPT, block repeats, atomics and commits (07). -/

namespace Sys2Proof.Machine

/-- A host address in a segment, and the PASID that requests to it carry. -/
def Seg.host (g : Seg) (off : Nat) : Nat := (g.base.toNat + off) % 2 ^ 64
def Seg.who (g : Seg) : Option (BitVec 20) := if g.pv then some g.pasid else Option.none

/-- The word of the global scratchpad at an offset of a segment. -/
def Seg.word (g : Seg) (off : Nat) : Nat := (g.base.toNat + off) / 8

/-- The kind of a store to the global scratchpad through a segment's view (R317). -/
def Seg.kind (g : Seg) : StoreKind :=
  if g.pasid.toNat % 4 = 1 then .setView else if g.pasid.toNat % 4 = 2 then .clearView else .plain

/-- Go on with the operands of an operation in long form, after its static checks. -/
def State.checked (s : State) (th : Nat) (t : Thread) (op : Op) (k : List Src → State) : State :=
  let code := op.static t.delay t.rptAct none
  if code ≠ 0 then s.programCheck th t code
  else match op.info with
    | none => s
    | some i =>
      match op.operands i with
      | none => s
      | some srcs => k srcs

/-- A commit point that the 6128 adds (R223, R250): with a kind of loads it is a WAITH or WAITG. -/
def State.added (s : State) (th : Nat) (t : Thread) (host : Option Bool) : State × Thread :=
  let t1 := match host with
    | some h => t.deliver h
    | none => t
  let s1 := s.commit th t1
  (s1, (s1.th? th).getD t1)

/-- A host read made for the thread failed: the program ends with HOST-ACCESS (R65, R251). -/
def State.loadFailed (s : State) (th : Nat) (t : Thread) : State := (s.hostAccess t.sch).endThread th t

/-! ## Loads (R248 to R250, R261) -/

/-- A load issues: its value comes from the store buffer, from the bank, or from a host read (log 36, DEDUCED). -/
def State.loadGo (s : State) (th : Nat) (t : Thread) (l : Load) (m : Meet) (resv : Bool) : State :=
  let t1 := t.settle.advance none
  let t2 := if resv then { t1 with resv := some l.addr } else t1
  match m with
  | .value w => s.setTh th { t2 with loads := t2.loads ++ [{ l with got := some w }] }
  | .none =>
    if l.host then s.issueLoad th t2 l
    else s.setTh th { t2 with loads := t2.loads ++ [{ l with got := some (loadedWord (s.gsRead l.addr)) }] }
  | .commit => s

def State.opLoad (s : State) (th : Nat) (t : Thread) (op : Op) : State :=
  s.checked th t op fun srcs =>
    let host := op.opc = 0x200 || op.opc = 0x201
    let raw := op.opc = 0x201
    match srcs with
    | [.frame d, m] =>
      match operandChecks (s.env t) (if op.opc = 0x200 then 16 else 8) [useDst (.frame d), ⟨m, false, true, false, anyTag⟩] with
      | .error e => s.programCheck th t e
      | .ok ps =>
        match ps.getD 1 (.imm TWord.unset) with
        | .mem g off =>
          let a := if host then g.host off else g.word off
          let who := if host then g.who else none
          let meets (l : List Store) : Meet := if host then hostMeet l a who raw else globalMeet l a
          let full := 16 ≤ (t.outstanding host).length
          let commit := full || meets t.sbuf = .commit
          if full && !t.returned host then s
          else if full && t.failed host then s.loadFailed th t
          else if commit && !s.canRelease t.sch t.sbuf then s.storeWait t.sch
          else
            let x := if commit then s.added th t (if full then some host else none) else (s, t)
            let m := meets x.2.sbuf
            if host && m = .none && !s.canRead th t.sch then s.readWait th t.sch (.load th)
            else x.1.loadGo th x.2 ⟨x.2.nextId, host, d, a, who, raw, none, false⟩ m (op.opc = 0x241)
        | .frame _ => s
        | .win _ _ => s
        | .imm _ => s
    | _ => s

/-! ## Stores (R248, R249) -/

/-- Put a store into the buffer, after an added COMMIT when 32 entries are in use. -/
def State.buffer (s : State) (th : Nat) (t : Thread) (e : Store) : State × Thread :=
  let x := if 32 ≤ t.sbuf.length then s.added th t none else (s, t)
  (x.1, { x.2 with sbuf := x.2.sbuf ++ [e] })

def State.opStore (s : State) (th : Nat) (t : Thread) (b : BitVec 128) (op : Op) : State :=
  s.checked th t op fun srcs =>
    let host := op.opc ≠ 0x205
    let v := s.env t
    match srcs with
    | [m, a] =>
      match operandChecks v (if op.opc = 0x202 then 16 else 8)
          [⟨m, false, false, true, anyTag⟩, useSrc a (if op.opc = 0x203 then isPlainTag else anyTag)] with
      | .error e => s.programCheck th t e
      | .ok ps =>
        match ps with
        | [.mem g off, p] =>
          let e : Store := if host then ⟨if op.opc = 0x202 then .hostSlot else .hostRaw, g.host off, g.who, v.at_ p⟩
            else ⟨g.kind, g.word off, none, v.at_ p⟩
          if 32 ≤ t.sbuf.length && !s.canRelease t.sch t.sbuf then s.storeWait t.sch
          else
            let x := s.buffer th (t.keep b) e
            x.1.setTh th (x.2.settle.advance none)
        | _ => s
    | _ => s

/-! ## RPT (R217, R253) -/

def State.opRpt (s : State) (th : Nat) (t : Thread) (op : Op) : State :=
  s.checked th t op fun srcs =>
    let v := s.env t
    match operandChecks v 8 (srcs.map fun a => useSrc a (· = tagCount)) with
    | .error e => s.programCheck th t e
    | .ok ps =>
      let n := low32 (v.at_ (ps.headD (.imm TWord.unset))).pay
      let inter := op.modN % 2 = 1
      if !inter && 256 < n then s.programCheck th t pcRepeat
      else
        let t1 := t.settle.advance none
        s.setTh th (if n = 0 then { t1 with ic := t.ic + 32 }
          else { t1 with rptAct := true, rptI := inter, rptRem := n, rptIdx := 0 })

/-! ## Block repeats (R255 to R259) -/

/-- The operands of a run: BLK0, BLK1 and BLK2, from the thread or, at a start, from the operands. A count that is an IMM with T = 0 takes
part in the tag check as the value it is, and so raises TAG-MISMATCH (R255) (log 64, DESIGN CHOICE). -/
def Thread.run (t : Thread) (v : Env) (op : Op) (srcs : List Src) : Chk (TWord × TWord × TWord) :=
  if t.inBlock then .ok (t.blk0, t.blk1, t.blk2)
  else
    let value := op.opc = 0x232 || op.opc = 0x233
    match srcs with
    | [a, b, n] =>
      match operandChecks v 8 [useSrc a isAddr, useSrc b (if value then anyTag else isAddr), useSrc n (· = tagCount)] with
      | .error e => .error e
      | .ok ps =>
        let w (k : Nat) : TWord := v.at_ (ps.getD k (.imm TWord.unset))
        .ok (w 1, w 0, countW (low32 (w 2).pay))
    | _ => .error pcReserved

/-- The size of a unit (R256). -/
def unitSize (w : TWord) (raw : Bool) : Nat := if w.tag = tagHaddr && !raw then 16 else 8

/-- The checks of R209 on the unit that an address word names, and its place. -/
def unitPlace (segs : List Seg) (w : TWord) (raw wr : Bool) : Chk Place :=
  let g := segOfWord segs w
  let off := w.pay.toNat % 2 ^ 48
  let type : BitVec 4 := if w.tag = tagHaddr then 1 else if g.type = 3 then 3 else 2
  match segCheck g off (unitSize w raw) type (!wr) wr with
  | .error e => .error e
  | .ok _ => .ok (if g.type = 3 then .win (g.word off) (if wr then g.pasid.toNat % 4 else 0) else .mem g off)

/-- The units of a step, in the order of R256: which BLK register addresses each, and whether it is written
(log 37, DEDUCED). -/
def stepUnits (opc : Nat) : List (Nat × Bool) :=
  if opc = 0x230 then [(0, false), (1, true)]
  else if opc = 0x231 then [(1, false), (0, false)]
  else if opc = 0x232 then [(1, false)]
  else [(1, true)]

/-- What a read of a unit finds: its word, nothing yet, a failed read, a read to make, or a store that forces a COMMIT. -/
inductive UnitGot where
  | val (w : TWord)
  | pend
  | fail
  | ask (addr : Nat) (pasid : Option (BitVec 20))
  | commit
  deriving DecidableEq, Repr

/-- The unit at a place, read through BLK register `k`. -/
def State.unit (s : State) (t : Thread) (v : Env) (k : Nat) (p : Place) (raw : Bool) : UnitGot :=
  match p with
  | .mem g off =>
    if g.type = 2 then
      match globalMeet t.sbuf (g.word off) with
      | .value w => .val w
      | .commit => .commit
      | .none => .val (loadedWord (s.gsRead (g.word off)))
    else
      match hostMeet t.sbuf (g.host off) g.who raw with
      | .value w => .val w
      | .commit => .commit
      | .none =>
        match t.loads.find? fun l => l.dst = 64 + k && l.addr = g.host off with
        | some l => if l.fail then .fail else match l.got with
          | some w => .val w
          | none => .pend
        | none => .ask (g.host off) g.who
  | .win _ _ => .val (v.at_ p)
  | .frame _ => .val (v.at_ p)
  | .imm _ => .val (v.at_ p)

def UnitGot.word (u : UnitGot) : Option TWord :=
  match u with
  | .val w => some w
  | .pend => none
  | .fail => none
  | .ask _ _ => none
  | .commit => none

/-- The next address of a run: OFFSET moves on by a unit. -/
def stepAddr (w : TWord) (raw : Bool) : TWord :=
  ⟨w.tag, BitVec.ofNat 64 (bits w.pay.toNat 48 16 * 2 ^ 48 + (w.pay.toNat + unitSize w raw) % 2 ^ 48)⟩

/-- CC of CMPB on the units that differ (R258). -/
def ccUnits (x y : TWord) : BitVec 4 := if x.pay = y.pay then 0 else (sub64 x.pay y.pay).2

/-- How a step ends its run: none when the run goes on, else the units left and CC (R256, R258) (log 37, DEDUCED). -/
def stepEnd (op : Op) (raw : Bool) (n : Nat) (us : List TWord) (b0 : TWord) : Option (Nat × BitVec 4) :=
  let x := us.getD 0 TWord.unset
  let y := us.getD 1 TWord.unset
  if op.opc = 0x231 then
    if x ≠ y then some (n, ccUnits x y) else if n = 1 then some (0, mkCC false true false false) else none
  else if op.opc = 0x232 then
    let eq := if raw then x.pay = b0.pay else x = b0
    if eq ≠ (2 ≤ op.modN % 4) then some (n, mkCC false true false false) else if n = 1 then some (0, 0) else none
  else if n = 1 then some (0, 0) else none

/-- The step's write: a store for the buffer, or a word of the local window. -/
def stepStore (p : Place) (raw : Bool) (w : TWord) : Option Store :=
  match p with
  | .mem g off =>
    some (if g.type = 2 then ⟨g.kind, g.word off, none, w⟩ else ⟨if raw then .hostRaw else .hostSlot, g.host off, g.who, w⟩)
  | .win _ _ => none
  | .frame _ => none
  | .imm _ => none

/-- The step itself, its units read. -/
def State.stepGo (s : State) (th : Nat) (t : Thread) (b : BitVec 128) (op : Op) (raw : Bool) (r : TWord × TWord × TWord)
    (us : List TWord) (dst : Option Place) (cnt : Option Nat) : State :=
  let asUnit (w : TWord) : TWord := if raw then ⟨tagBytes, w.pay⟩ else w
  let us := us.map asUnit
  let src := asUnit (if op.opc = 0x230 then us.getD 0 TWord.unset else r.1)
  let n := low32 r.2.2.pay
  let x := match dst with
    | some p => (match stepStore p raw src with
      | some e => s.buffer th t e
      | none => (s, t.write (p.result src)))
    | none => (s, t)
  let t1 := { x.2.settle with loads := x.2.loads.filter fun l => l.dst < 64 }
  match stepEnd op raw n us r.1 with
  | some (left, cc) =>
    let ws := match cnt with
      | some k => [(Loc.frame k, countW left, 2)] ++ ccResult (some cc)
      | none => []
    x.1.setTh th (({ t1 with blk0 := TWord.unset, blk1 := TWord.unset, blk2 := TWord.unset, cur := none }.write ws).advance none)
  | none =>
    let two := op.opc = 0x230 || op.opc = 0x231
    x.1.setTh th { t1 with
      blk0 := if two then stepAddr r.1 raw else r.1, blk1 := stepAddr r.2.1 raw, blk2 := countW (n - 1),
      budget := t1.budget - 1, since := t1.since + 1, cur := some b, spnOk := false }

/-- One step of a block repeat; `fuel` bounds the COMMITs added before it (log 37, DEDUCED). -/
def State.blockStep (fuel : Nat) (s : State) (th : Nat) (t : Thread) (b : BitVec 128) (op : Op) (srcs : List Src) : State :=
  match fuel with
  | 0 => s
  | fuel + 1 =>
    let v := s.env t
    let raw := op.modN % 2 = 1
    match t.run v op srcs with
    | .error e => s.programCheck th t e
    | .ok r =>
      if low32 r.2.2.pay = 0 then s.setTh th (t.settle.advance none)
      else
        let units := stepUnits op.opc
        match chkMap units fun u => unitPlace v.segs (if u.1 = 0 then r.1 else r.2.1) raw u.2 with
        | .error e => s.programCheck th t e
        | .ok ps =>
          let reads := (units.zip ps).filter fun u => !u.1.2
          let got := reads.map fun u => s.unit t v u.1.1 u.2 raw
          let dst := ((units.zip ps).find? fun u => u.1.2).map (·.2)
          let full := 32 ≤ t.sbuf.length && dst.any fun p => (stepStore p raw TWord.unset).isSome
          if got.contains .fail then s.loadFailed th t
          else if got.contains .pend then s
          else if got.contains .commit then
            if s.canRelease t.sch t.sbuf then
              let x := s.added th t none
              State.blockStep fuel x.1 th x.2 b op srcs
            else s.storeWait t.sch
          else
            match (reads.zip got).find? fun u => u.2.word.isNone with
            | some (u, .ask a who) =>
              if s.canRead th t.sch then s.issueLoad th t ⟨t.nextId, true, 64 + u.1.1, a, who, raw, none, false⟩
              else s.readWait th t.sch (.load th)
            | some _ => s
            | none =>
              let us := got.filterMap (·.word)
              match chkAll us (tagCheck anyTag) with
              | .error e => s.programCheck th t e
              | .ok _ =>
                if full && !s.canRelease t.sch t.sbuf then s.storeWait t.sch
                else
                  let cnt := match srcs with
                    | [_, _, .frame n] => if op.opc = 0x231 || op.opc = 0x232 then some n else none
                    | _ => none
                  s.stepGo th t b op raw r us dst cnt

def State.opBlock (s : State) (th : Nat) (t : Thread) (b : BitVec 128) (op : Op) : State :=
  s.checked th t op fun srcs => State.blockStep 3 s th t b op srcs

/-! ## COMMIT, WAITH, WAITG (R224, R252) -/

def State.opCommit (s : State) (th : Nat) (t : Thread) (op : Op) : State :=
  s.checked th t op fun _ =>
    if op.opc = 0x250 then
      if s.canRelease t.sch t.sbuf then s.commit th (t.settle.advance none) else s.storeWait t.sch
    else
      let host := op.opc = 0x251
      if !t.returned host then s
      else if t.failed host then s.loadFailed th t
      else if s.canRelease t.sch t.sbuf then s.commit th ((t.settle.deliver host).advance none)
      else s.storeWait t.sch

/-! ## Atomics (R260 to R263) -/

/-- R260: the word that TAS leaves, the word that it delivers, and CC. -/
def tasWord (w : TWord) : TWord × TWord × BitVec 4 :=
  if w.tag = tagPoison then (w, ⟨tagPoison, w.pay⟩, 0)
  else
    let old : Word := if w.tag = tagUnset then 0 else w.pay
    (intW (old ||| 1), intW old, mkCC false (!old.getLsbD 0) false false)

def State.opAtomic (s : State) (th : Nat) (t : Thread) (op : Op) : State :=
  s.checked th t op fun srcs =>
    let v := s.env t
    let tas := op.opc = 0x240
    let us := match srcs with
      | [x, y] => if tas then [useDst x, ⟨y, false, true, true, anyTag⟩] else [⟨x, false, false, true, anyTag⟩, useSrc y anyTag]
      | _ => []
    match operandChecks v 8 us with
    | .error e => s.programCheck th t e
    | .ok ps =>
      if !s.canRelease t.sch t.sbuf then s.storeWait t.sch
      else
        let t0 := t.settle.advance none
        match ps with
        | [.frame d, .mem g off] =>
          let a := g.word off
          let s1 := s.commitFor th t0 (.tas a)
          let r := tasWord (s1.gsRead a)
          let s2 := s1.gsWrite a r.1
          let t2 := (s2.th? th).getD t0
          s2.effectDone th { t2 with pend := t2.pend ++ [⟨.frame d, r.2.1, t.issue + 2⟩,
            ⟨.cc, ⟨tagUnset, r.2.2.setWidth 64⟩, t.issue + 2⟩] }
        | [.mem g off, p] =>
          let a := g.word off
          let s1 := s.commitFor th t0 (.scs a)
          let ok := ((s1.th? th).getD t0).resv = some a
          let s2 := if ok then s1.gsWrite a (v.at_ p) else s1
          let t2 := { (s2.th? th).getD t0 with resv := none }
          s2.effectDone th { t2 with pend := t2.pend ++
            [⟨.cc, ⟨tagUnset, (mkCC false ok false false).setWidth 64⟩, t.issue + 2⟩] }
        | _ => s

end Sys2Proof.Machine
end

