-- ==== Sys2Proof/Machine/Transfer.lean ====
section
/-! DEFINITION. Sys2Proof/Machine/Transfer.lean: transfer commands up to their issue: the condition, the checks of R161,
data-chained groups, suspension at SPN, local refusals, splits, SENSE, and the work they ask for (05). -/

namespace Sys2Proof.Machine

/-! ## Devices and paths (R145, R377, R378) -/

/-- The discovery record of a device-table entry. -/
def State.discOf (s : State) (dev : Nat) : Option DiscRec :=
  match AMap.get? s.sub.devs dev with
  | some d => AMap.get? s.dev.disc d.disc
  | none => none

/-- What a transfer command finds of its device: the limits of the discovery record, and the items that the device-table entry holds
unchanged (R145). -/
def State.deviceOf (s : State) (dev : Nat) : Option DiscRec :=
  match AMap.get? s.sub.devs dev, s.discOf dev with
  | some e, some d => some { d with kind := e.kind, seq := e.seq, barLen := e.barLen, lunid := e.lunid }
  | some _, none => none
  | none, some _ => none
  | none, none => none

/-- A path of a device is USABLE: its port is up and the last discovery run identified the device on it (R377). -/
def State.usable (s : State) (dev : Nat) (p : PathDesc) : Bool :=
  (s.portOf p.quad p.port).st = 2 && (match s.discOf dev with
    | some r => r.paths.any fun x => x.quad = p.quad && x.port = p.port && x.up
    | none => false)

/-- Exchanges outstanding to a device on a path. -/
def State.onPath (s : State) (dev : Nat) (p : PathDesc) : Nat :=
  (s.dev.exch.filter fun e => e.2.dev = dev && e.2.quad = p.quad && e.2.port = p.port && e.2.live).length

/-- The index of the path with the fewest exchanges, ties to the lower one. -/
def State.leastLoaded (s : State) (dev : Nat) (l : List (PathDesc × Nat)) : Option Nat :=
  match l with
  | [] => none
  | (p, i) :: l =>
    match State.leastLoaded s dev l with
    | none => some i
    | some j =>
      match l.find? fun e => e.2 = j with
      | some (q, _) => if s.onPath dev q < s.onPath dev p then some j else some i
      | none => some i

/-- R378: the path of a new exchange. `same` is the path of an exchange that is sent once more where it failed; a sequential device keeps the
path of its last exchange, where the set holds it. -/
def State.choosePath (s : State) (sch : Nat) (same : Option Nat) : Option (Nat × PathDesc) :=
  let c := s.ctxOf sch
  match AMap.get? s.sub.psets c.pset with
  | none => none
  | some ps =>
    let ok := ps.paths.zipIdx.filter fun e => s.usable ps.dev e.1
    let seq := ((AMap.get? s.sub.devs ps.dev).map (·.seq)).getD false
    let pref := ok.filter fun e => e.1.pref
    let i := match ok.find? fun e => some e.2 = same || (same.isNone && seq && some (e.1.quad, e.1.port) = c.lpd) with
      | some e => some e.2
      | none => s.leastLoaded ps.dev (if pref.isEmpty then ok else pref)
    match i with
    | none => none
    | some i => (ok.find? fun e => e.2 = i).map fun e => (i, e.1)


/-- The path that the piece asks to be sent on. -/
def PieceSt.path (t : PieceSt) : Option Nat :=
  match t with
  | .unsent _ p => p
  | .sent _ => none
  | .ended _ _ => none
  | .cut => none

/-- The path that the next piece of a program would take. -/
def State.nextPath (s : State) (sch : Nat) : Option (Nat × PathDesc) :=
  match nextPiece (s.progOf sch).cmds with
  | none => none
  | some (no, i) =>
    s.choosePath sch (match s.cmd? sch no with
      | some c => (match c.pieces[i]? with
        | some p => p.st.path
        | none => none)
      | none => none)

/-- The blocks that a piece of a command covers, none where the command names no range (R407). -/
def Cmd.range (c : Cmd) (p : Piece) : Nat × Nat :=
  if c.op = .control && !(c.code = 9 || c.code = 10) then (0, 0) else (p.blk, p.blk + p.nblk)

def State.devOf (s : State) (sch : Nat) : Nat := ((AMap.get? s.sub.psets (s.ctxOf sch).pset).map (·.dev)).getD 0

def State.devSeq (s : State) (dev : Nat) : Bool := ((AMap.get? s.sub.devs dev).map (·.seq)).getD false

/-- A ghost holds a piece back: it covers blocks of the piece on the device that a discovery record names, and is not the ghost of the
piece itself (R407). -/
def Ghost.blocks (g : Ghost) (disc sch no i : Nat) (r : Nat × Nat) : Bool :=
  g.disc = disc && g.lo < r.2 && r.1 < g.hi && !(g.sch = sch && g.cmd = no && g.pc = i)

/-- The discovery record of a device. -/
def State.recOf (s : State) (dev : Nat) : Nat := ((AMap.get? s.sub.devs dev).map (·.disc)).getD 0

/-- The piece may be sent now: no earlier exchange of the program is on its way to its device (R393) or being aborted for a
redrive (R405), no ghost covers it (R407), and a sequential device has neither another command (R169) nor a ghost (R408). A
cleared program sends nothing. -/
def State.sendable (s : State) (sch : Nat) (c : Cmd) (i : Nat) (p : Piece) : Bool :=
  let dev := s.devOf sch
  !(s.ctxOf sch).clrreq
    && !(s.dev.exch.any fun e => e.2.sch = sch && (e.2.st = .sent || (e.2.st = .aborting && e.2.redrive)))
    && !(s.dev.ghosts.any fun g => g.2.blocks (s.recOf dev) sch c.no i (c.range p))
    && (!s.devSeq dev || !(s.dev.exch.any (fun e => e.2.dev = dev && e.2.live && e.2.st ≠ .queued)
      || s.dev.ghosts.any (fun g => g.2.disc = s.recOf dev)))

/-- The piece that the program sends next, when it may be sent now. -/
def State.nextSend (s : State) (sch : Nat) : Option (Cmd × Nat × Piece) :=
  match nextPiece (s.progOf sch).cmds with
  | none => none
  | some (no, i) =>
    match s.cmd? sch no with
    | none => none
    | some c => match c.pieces[i]? with
      | none => none
      | some p => if s.sendable sch c i p then some (c, i, p) else none

/-- The I/O queue pairs of a controller (R360 step 3). -/
def State.pairsOf (s : State) (quad port : Nat) (ctrl : Word) : Nat :=
  (((s.portOf quad port).ctrls.find? fun c => c.id = ctrl).map (·.pairs)).getD 0

/-- Commands in one queue pair of an NVMe controller (R361). -/
def State.inPair (s : State) (quad port : Nat) (ctrl : Word) (pair : Nat) : Nat :=
  (s.dev.exch.filter fun e => e.2.quad = quad && e.2.port = port && e.2.ctrl = ctrl && e.2.pair = pair && e.2.st ≠ .queued
    && e.2.kind = 1).length

/-- The pair with the fewest commands of the first `n`, ties to the lower one. -/
def State.leastPair (s : State) (quad port : Nat) (ctrl : Word) (n : Nat) : Nat :=
  match n with
  | 0 => 0
  | 1 => 0
  | n + 2 => let i := State.leastPair s quad port ctrl (n + 1)
    if s.inPair quad port ctrl (n + 1) < s.inPair quad port ctrl i then n + 1 else i

/-- The pair that a new command of a device takes at its controller (R361). -/
def State.newPair (s : State) (dev : Nat) (pd : PathDesc) : Nat :=
  let ctrl := s.targetOf dev pd
  s.leastPair pd.quad pd.port ctrl (s.pairsOf pd.quad pd.port ctrl)

/-- The device takes one more command: a pair of its controller holds fewer than 64, a logical unit fewer than 256 (R361,
R363). -/
def State.slotFree (s : State) (dev : Nat) (pd : PathDesc) : Bool :=
  if s.devKind dev = 1 then s.inPair pd.quad pd.port (s.targetOf dev pd) (s.newPair dev pd) < 64
  else if s.devKind dev = 2 then (s.dev.exch.filter fun e => e.2.dev = dev && e.2.st ≠ .queued).length < 256
  else true

/-- Two queued commands wait for the same queue pairs or the same logical unit. -/
def Exch.sameSlots (e f : Exch) : Bool := if e.kind = 1 then e.sameCtrl f else e.dev = f.dev

/-- An exchange as a request: its key, the requester index of its quad and its subchannel (R11, R329). -/
def Exch.asReq (e : Exch) : Req := ⟨0, e.bg, e.dl, 32 + e.quad, e.sch, 0, .exch e.sch, false⟩

/-- A command may take a slot at its device: there is room, and no queued command goes before it in the order of R17 (R16, R361). -/
def State.slotTurn (s : State) (e : Exch) : Bool :=
  s.slotFree e.dev ⟨e.quad, e.port, false⟩
    && !(s.dev.exch.any fun f => f.2.st = .queued && f.2.sch ≠ e.sch && e.sameSlots f.2 && f.2.asReq.less e.asReq)

/-- The exchange that the program's next piece holds while its command waits for room at the device. -/
def State.queuedOf (s : State) (sch : Nat) : Option (Nat × Exch) :=
  match nextPiece (s.progOf sch).cmds with
  | none => none
  | some (no, i) => s.queuedFor sch no i

/-- Exchanges of a quad that other programs have asked for and do not hold yet. -/
def State.asking (s : State) (quad sch : Nat) : Nat :=
  (s.md.reqs.filter fun r => r.res = 3 + quad && r.sch ≠ sch && r.who = .exch r.sch && (s.queuedOf r.sch).isNone).length

/-- A program finds an exchange of a quad free, those counted that other programs wait for (R16) (log 23, DEDUCED). -/
def State.exchRoom (s : State) (quad sch : Nat) : Bool :=
  s.poolFree (5 + quad) (s.clsOf sch) && s.occ (5 + quad) + s.asking quad sch < s.limit (5 + quad)

/-- Ask for the egress of the quad that the program's next exchange leaves through, when it may be sent; one whose command waits
for room at the device asks when that has come. A request that finds the exchanges of the quad all in use counts (R20). -/
def State.wantSend (s : State) (sch : Nat) : State :=
  if (s.nextSend sch).isNone || s.md.reqs.any (fun r => r.who = .exch sch) then s
  else match s.queuedOf sch with
    | some (_, e) => if s.slotTurn e then s.request (3 + e.quad) (e.bg, e.dl) (32 + e.quad) sch (.exch sch) else s
    | none => match s.nextPath sch with
    | none => s
    | some (_, p) => (if s.exchRoom p.quad sch then s else s.waited (5 + p.quad)).request (3 + p.quad) (s.progKey sch) (32 + p.quad) sch (.exch sch)

/-- Every program asks for what it may send now. -/
def State.wantAll (s : State) : State := s.sub.prog.foldl (fun t e => t.wantSend e.1) s

/-! ## The words of a transfer command (R159, R265, R266) -/

def xopOf (opc : Nat) : XOp :=
  if opc = 0x600 then .read else if opc = 0x601 then .write else if opc = 0x602 then .control
  else if opc = 0x603 then .sense else if opc = 0x604 then .nvme else if opc = 0x605 then .scsi else .pmem

/-- The control codes that read Fn+1 (R266). -/
def readsParam (code : Nat) : Bool := [5, 6, 7, 9, 10].contains code

/-- How many words after Fn the command names, which must lie within F63 (R265): they depend on the command and the control code
alone, and a continuation names none (R173). -/
def wordsNamed (op : XOp) (code : Nat) (cont : Bool) : Nat :=
  if cont then 0
  else match op with
    | .read => 1
    | .write => 1
    | .control => if readsParam code then 1 else 0
    | .sense => 0
    | .nvme => 8
    | .scsi => 5
    | .pmem => 1

/-- How many of them the command reads: none of READ and WRITE on a sequential device (R159). -/
def wordsAfter (op : XOp) (code : Nat) (seq cont : Bool) : Nat :=
  if seq && (op = .read || op = .write) then 0 else wordsNamed op code cont

/-- The tags that word `j` after Fn accepts. -/
def afterTag (op : XOp) (j : Nat) (t : BitVec 4) : Bool :=
  match op with
  | .nvme => t = tagBytes
  | .scsi => if j = 0 then t = tagInt else t = tagBytes
  | .read => t = tagInt
  | .write => t = tagInt
  | .control => t = tagInt
  | .sense => t = tagInt
  | .pmem => t = tagInt

/-- The command as its words give it: its flags, handle, data word, count and the words after Fn. -/
structure XWords where
  op : XOp
  cond : Nat
  chd : Bool
  chc : Bool
  skp : Bool
  spn : Bool
  ist : Bool
  hlf : Bool
  dir : Bool
  h : TWord
  p : TWord
  n : TWord
  after : List TWord
  deriving DecidableEq, Repr

def XWords.count (w : XWords) : Nat := low32 w.n.pay
def XWords.code (w : XWords) : Nat := if w.op = .control then w.p.pay.toNat else 0

/-- The data word is read (R159). -/
def XWords.readsData (w : XWords) : Bool :=
  !(w.op = .read && w.skp) && !((w.op = .nvme || w.op = .scsi) && w.count = 0)

/-- Data moves into memory; NVMe takes the direction from the opcode, SCSI from Fn+1, PMEM from DIR. Bit 1 of the
opcode also names the right that step 7 of R161 asks for where the transfer bits are 0b00 or 0b11 with a COUNT (log 64, DESIGN
CHOICE). -/
def XWords.into (w : XWords) : Bool :=
  let a := (w.after.headD TWord.unset).pay.toNat
  match w.op with
  | .read => true
  | .sense => true
  | .write => false
  | .control => false
  | .nvme => bits a 1 1 = 1
  | .scsi => bits a 8 1 = 1
  | .pmem => !w.dir

def xWords (op : Op) (v : Env) (hs ps ns : Nat) (after : Nat) : XWords :=
  let m := op.modN
  ⟨xopOf op.opc, op.cond, bits m 0 1 = 1, bits m 1 1 = 1, bits m 2 1 = 1, bits m 3 1 = 1, bits m 4 1 = 1, bits m 5 1 = 1,
    bits m 6 1 = 1, v.fr hs, v.fr ps, v.fr ns, (List.range after).map fun j => v.fr (ns + 1 + j)⟩

/-! ## The checks of R161 -/

/-- The words with the tags they accept, in operand order. -/
def XWords.tagged (w : XWords) : List (TWord × (BitVec 4 → Bool)) :=
  let data (t : BitVec 4) : Bool := if w.op = .control then t = tagInt else isAddr t
  let just (k t : BitVec 4) : Bool := t = k
  [(w.h, just tagHandle)] ++ (if w.readsData then [(w.p, data)] else []) ++ [(w.n, just tagCount)]
    ++ w.after.zipIdx.map fun e => (e.1, afterTag w.op e.2)

/-- Step 1: all reserved tags, then all POISON, then all mismatches. -/
def XWords.tags (w : XWords) : Nat :=
  let l := w.tagged
  if l.any fun e => 9 ≤ e.1.tag.toNat && e.1.tag.toNat ≤ 14 then pcResTag
  else if l.any fun e => e.1.tag = tagPoison then pcPoison
  else if l.any fun e => !e.2 e.1.tag then pcTag
  else 0

/-- A device takes a command kind (R159). -/
def kindOk (op : XOp) (kind : Nat) : Bool :=
  match op with
  | .nvme => kind = 1
  | .scsi => kind = 2
  | .pmem => kind = 3
  | .read => kind = 1 || kind = 2
  | .write => kind = 1 || kind = 2
  | .control => kind = 1 || kind = 2
  | .sense => kind = 1 || kind = 2

/-- Step 2: the handle, then the control code (log 38, DEDUCED). -/
def XWords.handle (w : XWords) (pset : Nat) (dev : Option DevEntry) : Nat :=
  let ok := match dev with
    | some d => kindOk w.op d.kind
    | none => false
  if bits w.h.pay.toNat 0 16 ≠ pset || !ok then pcHandle
  else if w.op = .control && !(1 ≤ w.code && w.code ≤ 10) then pcReserved
  else 0

/-- The kinds that take CHD, and those that take HLF (R172). -/
def XOp.chains (op : XOp) : Bool := op = .read || op = .write || op = .pmem
def XOp.halves (op : XOp) : Bool := op = .read || op = .write || op = .nvme || op = .scsi || op = .pmem

/-- Step 3: flags and chain structure (R172, R173). -/
def XWords.chain (w : XWords) (group : List GElem) : Bool :=
  let total := w.count + sumBy (·.count) group
  !(w.chd && (!w.op.chains || w.chc || w.ist || w.hlf || w.count = 0))
    && !(w.skp && w.op ≠ .read)
    && !(w.hlf && (w.ist || !w.op.halves || 16777216 < total))
    && (match group with
      | [] => true
      | g :: _ => w.op = g.op && w.h.pay = g.handle && w.dir = g.dir && w.cond = 0 && !w.spn && w.count ≠ 0 && group.length < 64)

/-- Steps 4 and 5: counts, and PMEM offsets and counts. -/
def XWords.counts (w : XWords) (group : List GElem) : Nat :=
  let total := w.count + sumBy (·.count) group
  if w.count = 0 && (w.op.chains || w.op = .sense) then pcZero
  else if w.op = .pmem && (w.count % 4 ≠ 0 || 65536 < total || (w.after.headD TWord.unset).pay.toNat % 4 ≠ 0) then pcAlign
  else if w.readsData && w.op ≠ .control && w.p.tag = tagSaddr && w.p.pay.toNat % 8 ≠ 0 then pcAlign
  else 0

/-- Steps 6 and 7: the data range against its segment. -/
def XWords.range (w : XWords) (segs : List Seg) : Nat :=
  if !w.readsData || w.op = .control then 0
  else
    let g := segOfWord segs w.p
    let off := w.p.pay.toNat % 2 ^ 48
    if g.limit = 0 || g.limit.toNat < off + w.count then pcLimit
    else if g.type ≠ (if w.p.tag = tagHaddr then 1 else 2) || (w.into && !g.w) || (!w.into && !g.r) then pcRights
    else 0

/-- The first of a list of codes that is not 0. -/
def firstCode (l : List Nat) : Nat := (l.find? fun c => c ≠ 0).getD 0

/-- The checks of R161 in order (log 38, DEDUCED). -/
def XWords.check (w : XWords) (pset : Nat) (dev : Option DevEntry) (group : List GElem) (segs : List Seg) : Nat :=
  firstCode [w.tags, w.handle pset dev, if w.chain group then 0 else pcChain, w.counts group, w.range segs]

/-- The range of an element as an extent (R296). -/
def XWords.extent (w : XWords) (segs : List Seg) : Extent :=
  if !w.readsData || w.op = .control then ⟨false, 0, none, w.count, true⟩
  else
    let g := segOfWord segs w.p
    let off := w.p.pay.toNat % 2 ^ 48
    if w.p.tag = tagHaddr then ⟨true, BitVec.ofNat 64 (g.host off), g.who, w.count, false⟩
    else ⟨false, BitVec.ofNat 64 (g.base.toNat + off), none, w.count, false⟩

/-! ## What the device command is (R164 to R168) -/

/-- DS of a refused command (CHECK, LOCAL-REFUSE) and of TEST-READY on a namespace that is not ready (RETRY, NOT-READY). -/
def dsRefuse : Byte := 0x56
def dsNotReady : Byte := 0x35
def dsGood : Byte := 0x01

def maxExchange : Nat := 2097152

/-- The opcodes of the NVM command set's I/O commands (log 17, PRESUMED), and those of them that carry a block range. -/
def nvmIo : List Nat := [0x00, 0x01, 0x02, 0x04, 0x05, 0x08, 0x09, 0x0C, 0x0D, 0x0E, 0x11, 0x15, 0x19]
/-- (log 17, PRESUMED) -/
def nvmRange : List Nat := [0x01, 0x02, 0x04, 0x05, 0x08, 0x0C]

/-- The words after Fn as one number, the first lowest. -/
def joinWords (l : List TWord) : BitVec 512 :=
  match l with
  | [] => 0
  | w :: l => (joinWords l <<< 64) ||| w.pay.setWidth 512

/-- The largest piece of a block command, in bytes (R166). -/
def pieceMax (d : DiscRec) : Nat := max d.blksize (min d.maxxfer maxExchange / d.blksize * d.blksize)

/-- Cut a length into pieces, in ascending order: `unit` is what one block measures, 1 where the length counts blocks. -/
def cutPieces (n off len max unit blk : Nat) : List Piece :=
  match n with
  | 0 => []
  | n + 1 =>
    if len = 0 then []
    else
      let k := min len max
      ⟨off, k, blk + off / unit, k / unit, .unsent false none⟩ :: cutPieces n (off + k) (len - k) max unit blk

def onePiece (len blk nblk : Nat) : List Piece := [⟨0, len, blk, nblk, .unsent false none⟩]

/-- A command that the 6128 ends itself. -/
def endedPiece (ds : Byte) : List Piece := [⟨0, 0, 0, 0, .ended ds 0⟩]

/-- CONTROL (R164, R165): the pieces, none for a refusal (log 16, DESIGN CHOICE) (log 38, DEDUCED). -/
def controlPieces (code count param : Nat) (nvme seq ready : Bool) : Option (List Piece) :=
  if code = 1 then
    if count ≠ 0 then none
    else if nvme then some (endedPiece (if ready then dsGood else dsNotReady)) else some (onePiece 0 0 0)
  else if code = 2 then if count ≠ 0 then none else some (onePiece 0 0 0)
  else if code ≤ 8 then
    if !seq then none
    else if (code = 3 || code = 7 || code = 8) && count ≠ 0 then none
    else if code = 4 && 0xFFFFFF < count then none
    else if (code = 5 || code = 6) && (1 < param || 0x7FFFFF + param < count) then none
    else some (onePiece 0 param count)
  else if seq || count = 0 then none
  else if code = 10 && nvme then
    some ((cutPieces (count / 65536 + 1) 0 count 65536 1 param).map fun p => { p with len := 0, off := 0 })
  else some (onePiece 0 param count)

/-- NVME (R167) (log 17, PRESUMED). -/
def nvmePieces (e : BitVec 512) (count : Nat) : Option (List Piece) :=
  let v := e.toNat
  let opc := bits v 0 8
  let dt := opc % 4
  if !nvmIo.contains opc || bits v 8 2 ≠ 0 || bits v 128 64 ≠ 0 || dt = 3 || ((dt = 0) ≠ (count = 0)) || maxExchange < count then
    none
  else if nvmRange.contains opc then some (onePiece count (bits v 320 64) (bits v 384 16 + 1))
  else some (onePiece count 0 0)

/-- SCSI (R168, R295). -/
def scsiPieces (info : Word) (count : Nat) : Option (List Piece) :=
  let len := bits info.toNat 0 6
  let input := bits info.toNat 8 1 = 1
  if !([6, 10, 12, 16, 32] : List Nat).contains len || (input && count = 0) || (!input && 16777216 < count) then none
  else some (onePiece count 0 0)

/-- The pieces that go to the device, none for a refusal (R165). `lost` says that the device is POSITION-LOST (R409). -/
def devicePieces (op : XOp) (code count : Nat) (after : List TWord) (d : DiscRec) (lost ready : Bool) : Option (List Piece) :=
  let p := (after.headD TWord.unset).pay.toNat
  if lost && !(op = .control && (code = 3 || code = 7 || code = 8)) then none
  else match op with
    | .control => controlPieces code count p (d.kind = 1) d.seq ready
    | .nvme => nvmePieces (joinWords after) count
    | .scsi => scsiPieces (after.headD TWord.unset).pay count
    | .pmem => if d.barLen < p + count then none else some (onePiece count p count)
    | .sense => some []
    | .read => blockPieces p
    | .write => blockPieces p
where
  blockPieces (p : Nat) : Option (List Piece) :=
    if d.seq then if d.maxblk < count then none else some (onePiece count 0 0)
    else if d.blksize = 0 || count % d.blksize ≠ 0 then none
    else some (cutPieces (count / pieceMax d + 1) 0 count (pieceMax d) d.blksize p)

/-! ## Issue (R157, R171, R174, R175, R224) -/

/-- A place that an issue leaves as it is (log 35, DEDUCED). -/
def Loc.carried (l : Loc) : Bool :=
  match l with
  | .frame n => n < 16
  | .cc => true
  | .win _ _ => false

/-- R157, R210: F16 to F63 and the local window are UNSET, results on their way to them included (log 35, DEDUCED). -/
def Thread.scrub (t : Thread) : Thread :=
  { t with
    f := t.f.take 16 ++ List.replicate 48 TWord.unset, win := [], group := [],
    pend := t.pend.filter (fun p => p.loc.carried) }

/-- R328: the virtual clock of a class 6 queue moves on by the bytes of a command. -/
def State.moveClock (s : State) (sch n : Nat) : State :=
  let c := s.ctxOf sch
  match s.sq? c.sqid with
  | some r =>
    let v := addNs (if before s.time r.vclock then r.vclock else s.time) ((n * 1000 + r.rate - 1) / r.rate)
    if c.sqv && r.cls = 6 && r.rate ≠ 0 then s.setSq c.sqid { r with vclock := v } else s
  | none => s

/-- Write held bytes to host memory, from byte `a` of their segment on, each request poisoned where a buffer word of it is (R315). -/
def senseOut (n : Nat) (s : State) (addr : Word) (pasid : Option (BitVec 20)) (a : Nat) (bs : List Byte) (poison : BitVec 8) : State :=
  match n with
  | 0 => s
  | n + 1 =>
    if bs.isEmpty then s
    else
      let k := reqLen addr.toNat bs.length s.link.mps
      senseOut n (s.hostWrite addr pasid (!(poisonRuns poison a k).isEmpty) (bs.take k)) (addr + BitVec.ofNat 64 k) pasid (a + k)
        (bs.drop k) poison

/-- Held sense data goes to the data range of SENSE: host memory or the global scratchpad, its poison with it (R171, R315). -/
def State.senseWrite (s : State) (e : Extent) (bs : List Byte) (poison : BitVec 8) : State :=
  if bs.isEmpty || e.skip then s
  else if e.host then senseOut (bs.length + 1) s e.addr e.pasid 0 bs poison
  else State.gsBytes (bs.length + 1) s e.addr.toNat bs
    ((poisonRuns poison 0 bs.length).flatMap fun g => gsWords (e.addr.toNat + g.1) g.2) true

/-- R175: after the issue the program goes on, or its thread is released until its commands have ended. The thread is also released
where the quad of its next piece has no exchange for it (R16). -/
def State.afterIssue (s : State) (th : Nat) (t : Thread) (chc : Bool) : State :=
  let t := (s.th? th).getD t
  let full := match s.nextPath t.sch with
    | some (_, p) => !s.exchRoom p.quad t.sch
    | none => false
  if !chc then s.release th t .commands
  else if full then s.release th t .room
  else s.effectDone th t

/-- The write descriptors of a SENSE, built and ended in its step: the bytes that were held count as moved, the rest of COUNT as
cancelled (R171, R296, R298). -/
def State.senseDescs (s : State) (sch count moved : Nat) : State :=
  let no := (s.progOf sch).nextNo
  let s1 := (s.modProg sch fun p => { p with nextNo := p.nextNo + 1 }).addDescs sch no false false count
  let s2 := (s1.descsOf sch no).foldl (fun t e => if e.2.lo = 0 then t.descMoved e.1 0 moved else t) s1
  s2.cancelBytes sch no 0 count

/-- The poison flags of the segment that holds a program's sense data. -/
def State.sensePoison (s : State) (sch : Nat) : BitVec 8 :=
  match (s.progOf sch).senseSeg with
  | some n => ((AMap.get? s.dma.segs n).map (·.poison)).getD 0
  | none => 0

/-- R171: SENSE copies the held sense data and ends. A host write whose PASID is disabled does not leave: its bytes are not moved, and the
program ends (R47, R65); data that carried poison ends it too (R190, R315). -/
def State.issueSense (s : State) (th : Nat) (t : Thread) (w : XWords) (ext : Extent) : State :=
  let sch := t.sch
  let no := (s.progOf sch).nextNo
  let bs := (s.progOf sch).sense.take w.count
  let refused := ext.host && !bs.isEmpty && s.refusesWrite ext.pasid
  let poison := s.sensePoison sch
  let bad := !refused && !(poisonRuns poison 0 bs.length).isEmpty
  let s1 := (((s.moveClock sch 0).senseWrite ext bs poison).withdraw (.store sch)).senseDescs sch w.count (if refused then 0 else bs.length)
  let s2 := if w.ist then s1.intermediate sch else s1
  let s3 := s2.afterIssue th t w.chc
  let s4 := if refused then s3.writeRefused sch no else if bad then (s3.poisoned sch).breakHere sch no else s3
  s4.progress sch

/-- The zero block of a SCSI WRITE-ZEROES (R164, R291). -/
def State.zeroBlock (s : State) (sch no : Nat) : State :=
  s.allocSeg (AMap.gap s.dma.segs 0) ⟨.zero sch no, 0, false, List.replicate 512 0, BitVec.allOnes 512, 0⟩

def State.makeCmd (s : State) (sch : Nat) (w : XWords) (first : GElem) (ext : List Extent) (pieces : List Piece)
    (after : List TWord) : Cmd where
  no := (s.progOf sch).nextNo
  op := w.op
  code := w.code
  chc := w.chc
  ist := w.ist
  hlf := w.hlf
  count := sumBy (·.len) ext
  toMem := w.into
  blk := first.blk
  entry := joinWords (if w.op = .scsi then after.tail else after)
  cdbLen := if w.op = .scsi then bits (after.headD TWord.unset).pay.toNat 0 6 else 0
  ext := ext
  pieces := pieces
  fails := []
  p0 := none
  half := false
  full := false
  poison := false
  ended := false
  aborted := false

/-- The issue of a command that goes to the quad side: its record, its descriptors, and the request to send it; a command that
has ended already ends here. A READ of one range with SKP reads no data word and has no descriptor (R159, R296). -/
def State.issueCmd (s : State) (th : Nat) (t : Thread) (c : Cmd) (zero : Bool) : State :=
  let sch := t.sch
  let s1 := (s.dropSense sch).moveClock sch (if c.op = .control then 0 else c.count)
  let open_ := sumBy (fun p => b2n p.st.waits) c.pieces
  let s2 := (s1.modProg sch fun p => { p with cmds := p.cmds ++ [c], nextNo := p.nextNo + 1 }).modCtx sch
    fun x => { x with xout := x.xout + open_ }
  let data := c.op ≠ .control && open_ ≠ 0 && !(c.op = .read && c.ext.length = 1 && c.ext.all (·.skip))
  let s3 := if data then s2.addDescs sch c.no (!c.toMem) c.hlf c.count else s2
  let s4 := if zero then s3.zeroBlock sch c.no else s3
  let s5 := (s4.afterIssue th t c.chc).cmdEnd sch c.no
  (s5.wantSend sch).progress sch

/-- The commit point of a transfer command whose checks have passed and whose group is whole; none while its host writes must wait for the
link or for HOST-WRITE. A zero block waits for its segment (R291, R294). -/
def State.issueX (s : State) (th : Nat) (t : Thread) (w : XWords) (elem : GElem) (after : List TWord) : Option State :=
  let sch := t.sch
  let group := t.group ++ [elem]
  let first := group.headD elem
  let dev := ((AMap.get? s.sub.psets (s.ctxOf sch).pset).map (·.dev)).getD 0
  let ext := group.map (·.ext)
  let count := sumBy (·.len) ext
  let pieces := match s.deviceOf dev with
    | some d => devicePieces w.op w.code count after d ((AMap.getD s.dev.seqPos dev ⟨none, false⟩).lost) (Config.nsReady s.fresh)
    | none => none
  let zero := w.op = .control && w.code = 10 && pieces.isSome && ((AMap.get? s.sub.devs dev).map (·.kind)) = some 2
  let quad := ((s.choosePath sch none).map (·.2.quad)).getD 0
  let out := w.op = .sense && w.readsData && elem.ext.host && !((s.progOf sch).sense.take w.count).isEmpty
  if !s.canRelease sch t.sbuf || (out && !s.winsStore sch) then none
  else if zero && !s.turn 37 (s.progKey sch) (32 + quad) sch (s.clsOf sch) (.own sch) then
    some ((s.setTh th t).segWait quad sch (.own sch))
  else
    let t1 := (t.settle.advance none).scrub
    let s1 := { (if zero then s.segGot quad (.own sch) else s).commitFor th t1 (.issue (s.progOf sch).nextNo) with fresh := s.fresh + 1 }
    let t2 := (s1.th? th).getD t1
    some (if w.op = .sense then s1.issueSense th t2 w elem.ext
      else s1.issueCmd th t2 (s1.makeCmd sch w first ext (pieces.getD (endedPiece dsRefuse)) after) zero)

/-! ## The transfer command at a thread (R160, R161, R178, R265) -/

/-- R129: the program stops before the command; its buffered stores are released with its thread (log 39, DEDUCED). -/
def State.suspend (s : State) (th : Nat) (t : Thread) : State :=
  if !s.canRelease t.sch t.sbuf then s.storeWait t.sch
  else
    let s1 := s.releaseStores t.sch t.sbuf
    let t1 := ((s1.th? th).getD t).settle
    (s1.release th { t1 with sbuf := [] } .spn).progress t.sch

/-- The element that a command adds to its group. -/
def XWords.elem (w : XWords) (segs : List Seg) : GElem :=
  ⟨w.op, w.h.pay, w.dir, w.count, (w.after.headD TWord.unset).pay, w.extent segs⟩

def State.xferGo (s : State) (th : Nat) (t : Thread) (w : XWords) (segs : List Seg) : State :=
  let sch := t.sch
  if w.spn && !t.spnOk && !(s.ctxOf sch).resreq then s.suspend th t
  else
    let s1 := if w.spn && !t.spnOk then s.modCtx sch fun c => { c with resreq := false } else s
    let t := { t with spnOk := t.spnOk || w.spn }
    let e := w.elem segs
    if w.chd then s1.setTh th { t.settle.advance none with group := t.group ++ [e] }
    else
      let after := if t.group.isEmpty then w.after else [⟨tagInt, (t.group.headD e).blk⟩]
      match s1.issueX th t w e after with
      | some u => u
      | none => s.storeWait sch

/-- A transfer command at a thread: the checks of R161 come before its suspension at SPN, so that only a command that passes them
suspends (log 64, DESIGN CHOICE). The range check of the words after Fn takes the control code from p's payload, whatever its tag
(R265) (log 64, DESIGN CHOICE). -/
def State.opXfer (s : State) (th : Nat) (t : Thread) (op : Op) : State :=
  s.checked th t op fun srcs =>
    match srcs with
    | [.frame hs, .frame ps, .frame ns] =>
      let v := s.env t
      let c := s.ctxOf t.sch
      let dev := match AMap.get? s.sub.psets c.pset with
        | some p => AMap.get? s.sub.devs p.dev
        | none => none
      let cont := !t.group.isEmpty
      let code := if op.opc = 0x602 then (v.fr ps).pay.toNat else 0
      let after := wordsAfter (xopOf op.opc) code ((dev.map (·.seq)).getD false) cont
      if 63 < ns + wordsNamed (xopOf op.opc) code cont then s.programCheck th t pcLimit
      else if !cont && !dsCond op.cond t.ds then s.setTh th (t.settle.advance none)
      else
        let w := xWords op v hs ps ns after
        let code := w.check c.pset dev t.group v.segs
        if code ≠ 0 then s.programCheck th t code else s.xferGo th t w v.segs
    | _ => s

end Sys2Proof.Machine
end

