-- ==== Sys2Proof/Machine/Command.lean ====
section
/-! DEFINITION. Sys2Proof/Machine/Command.lean: the device commands that the 6128 builds: NVMe submission entries, SCSI CDBs with
their parameter data, and the memory requests of PMEM (05, 11). -/

namespace Sys2Proof.Machine

/-- The `n` bytes of a number, most significant first. -/
def beBytes (n v : Nat) : List Byte := (leBytes n v).reverse


/-! ## NVMe (R163, R164, R167, R361) -/

/-- The aperture address of byte 0 of an exchange's data, and the address of its PRP list (R358). -/
def aperture (idx : Nat) : Nat := 0x100000000 + idx * 2097152
def prpList (idx : Nat) : Nat := 0x400000000 + idx * 4096

/-- The PRP data pointers of an exchange of `len` bytes (R358, R361): the aperture, and its second page, or the list window for data
of more than two pages (log 17, PRESUMED). -/
def dataPointer (idx len : Nat) : List Byte :=
  if len = 0 then List.replicate 16 0
  else leBytes 8 (aperture idx) ++
    leBytes 8 (if len ≤ 4096 then 0 else if len ≤ 8192 then aperture idx + 4096 else prpList idx)

/-- A submission entry: CID is the exchange index (log 71, DESIGN CHOICE); FUSE, PSDT and the metadata pointer are 0
(log 17, PRESUMED). -/
def nvmeSqe (opc idx nsid len : Nat) (cdw : List Nat) : List Byte :=
  [BitVec.ofNat 8 opc, 0] ++ leBytes 2 idx ++ leBytes 4 nsid ++ List.replicate 16 0 ++ dataPointer idx len ++
    fit 24 (cdw.flatMap (leBytes 4))

/-- Command dwords 10 to 12 of a block command: first block, blocks minus 1, PRACT with the guard and reference checks
(log 17, PRESUMED). -/
def nvmeRange (blk nblk : Nat) (pi : Bool) : List Nat :=
  [blk % 2 ^ 32, blk / 2 ^ 32 % 2 ^ 32, (nblk - 1) % 2 ^ 16 + (if pi then 2 ^ 29 + 2 ^ 28 + 2 ^ 26 else 0)]

/-- NVME: the program's entry with CID, NSID, PSDT and the data pointer set (R167). -/
def nvmePass (e : BitVec 512) (idx nsid len : Nat) : List Byte :=
  let b := leBytes 64 e.toNat
  [b.getD 0 0, b.getD 1 0 &&& 0x3F] ++ leBytes 2 idx ++ leBytes 4 nsid ++ slice b 8 16 ++ dataPointer idx len ++ b.drop 40

/-- The submission entry of a piece on an NVMe namespace (R164, R167). -/
def nvmeBytes (c : Cmd) (p : Piece) (idx nsid : Nat) (pi : Bool) : List Byte :=
  match c.op with
  | .read => nvmeSqe 0x02 idx nsid p.len (nvmeRange p.blk p.nblk pi)
  | .write => nvmeSqe 0x01 idx nsid p.len (nvmeRange p.blk p.nblk pi)
  | .nvme => nvmePass c.entry idx nsid p.len
  | .control =>
    if c.code = 2 then nvmeSqe 0x00 idx nsid 0 []
    else if c.code = 9 then nvmeSqe 0x09 idx nsid 16 [0, 4]
    else nvmeSqe 0x08 idx nsid 0 (nvmeRange p.blk p.nblk pi)
  | .sense => []
  | .scsi => []
  | .pmem => []

/-- The range of a Dataset Management command, which the device reads through its aperture (R164) (log 17, PRESUMED). -/
def dsmRange (p : Piece) : List Byte := List.replicate 4 0 ++ leBytes 4 p.nblk ++ leBytes 8 p.blk

/-! ## SCSI (R164, R168) -/

def cdb16 (opc blk n : Nat) : List Byte := [BitVec.ofNat 8 opc, 0] ++ beBytes 8 blk ++ beBytes 4 n ++ [0, 0]
def cdb6 (opc flags n : Nat) : List Byte := [BitVec.ofNat 8 opc, BitVec.ofNat 8 flags] ++ beBytes 3 n ++ [0]

/-- The CDB of a CONTROL on a logical unit (R164) (log 17, PRESUMED). -/
def controlCdb (code count param : Nat) (seq : Bool) : List Byte :=
  let n := if param = 1 then (2 ^ 24 - count) % 2 ^ 24 else count
  if code = 1 then cdb6 0x00 0 0
  else if code = 2 then if seq then cdb6 0x10 0 0 else cdb16 0x91 0 0
  else if code = 3 then cdb6 0x01 0 0
  else if code = 4 then cdb6 0x10 0 count
  else if code = 5 then cdb6 0x11 0 n
  else if code = 6 then cdb6 0x11 1 n
  else if code = 7 then [0x92, 0, 0, 0] ++ beBytes 8 param ++ List.replicate 4 0
  else if code = 8 then cdb6 0x1B 0 0
  else if code = 9 then [0x42, 0, 0, 0, 0, 0, 0] ++ beBytes 2 24 ++ [0]
  else cdb16 0x93 param count

/-- The CDB of a piece on a logical unit. -/
def scsiBytes (c : Cmd) (p : Piece) (seq : Bool) : List Byte :=
  match c.op with
  | .read => if seq then cdb6 0x08 0 p.len else cdb16 0x88 p.blk p.nblk
  | .write => if seq then cdb6 0x0A 0 p.len else cdb16 0x8A p.blk p.nblk
  | .scsi => (leBytes 32 c.entry.toNat).take c.cdbLen
  | .control => controlCdb c.code (if c.code = 9 || c.code = 10 then p.nblk else c.count) p.blk seq
  | .sense => []
  | .nvme => []
  | .pmem => []

/-- The data that the 6128 itself gives with a command: the range of a Dataset Management, the list of an UNMAP, the zero block of a
WRITE SAME, one logical block of `blk` bytes (R164) (log 17, PRESUMED). -/
def paramBytes (kind blk : Nat) (c : Cmd) (p : Piece) : List Byte :=
  if c.op ≠ .control then []
  else if c.code = 9 then
    if kind = 1 then dsmRange p
    else beBytes 2 22 ++ beBytes 2 16 ++ List.replicate 4 0 ++ beBytes 8 p.blk ++ beBytes 4 p.nblk ++ List.replicate 4 0
  else if c.code = 10 && kind = 2 then List.replicate blk 0
  else []

/-! ## PMEM (R170) -/

/-- Cut `len` bytes from `a` on into requests of at most `max` bytes, in ascending order. -/
def cutReqs (n a len max : Nat) : List (Nat × Nat) :=
  match n with
  | 0 => []
  | n + 1 => if len = 0 then [] else (a, min len max) :: cutReqs n (a + min len max) (len - min len max) max

/-- The requests of a root port carry at most 512 bytes; the Max Payload Size of its link is open (log 71, DESIGN CHOICE). -/
def portMps (quad port : Nat) : Nat := max 128 (min 512 (Config.portMps quad port))

/-- The next read request of a PMEM read of which `off` bytes have been asked for: its offset in the BAR and its length. -/
def pmemRead (p : Piece) (off : Nat) : Nat × Nat := (p.blk + off, min 512 (p.len - off))

/-! ## The command of a piece -/

/-- The bytes of the command that an exchange brings to its device. -/
def State.cmdBytes (s : State) (dev idx : Nat) (c : Cmd) (p : Piece) : List Byte :=
  match AMap.get? s.sub.devs dev with
  | none => []
  | some d =>
    if d.kind = 1 then nvmeBytes c p idx (d.lunid.toNat % 2 ^ 32) (((AMap.get? s.dev.disc d.disc).map (·.pi)).getD false)
    else if d.kind = 2 then scsiBytes c p d.seq
    else []

/-- The logical block size of a device. -/
def State.blkOf (s : State) (dev : Nat) : Nat := ((s.discOf dev).map (·.blksize)).getD 512

/-- One read request of a PMEM exchange leaves, which serves its turn at EGRESS (R170, R331). -/
def State.sendRead (s : State) (x : Nat) (e : Exch) (p : Piece) : State :=
  let r := pmemRead p e.sentOff
  ((s.withdraw (.answer x)).modExch x fun e => { e with sentOff := e.sentOff + r.2 }).emit (.pmemRead x e.ctrl r.1 r.2)

/-- The read requests of a PMEM exchange leave while EGRESS is granted to each; then they ask for it (R325, R331). -/
def State.sendReads (n : Nat) (s : State) (x : Nat) : State :=
  match n with
  | 0 => s
  | n + 1 =>
    match AMap.get? s.dev.exch x, s.pieceOf x with
    | some e, some (c, p) =>
      if e.kind ≠ 3 || !c.toMem || p.len ≤ e.sentOff || !(e.st = .sent || e.st = .reached) then s
      else if s.winsAs (3 + e.quad) (s.progKey e.sch) (32 + e.quad) e.sch (.answer x) then State.sendReads n (s.sendRead x e p) x
      else s.request (3 + e.quad) (s.progKey e.sch) (32 + e.quad) e.sch (.answer x)
    | some _, none => s
    | none, some _ => s
    | none, none => s

/-- The command leaves: its target, its bytes with task attribute SIMPLE on a logical unit, the data that the 6128 gives with it,
or the first read request of a PMEM read (R164, R170). -/
def State.emitCmd (s : State) (x dev : Nat) (pd : PathDesc) (c : Cmd) (p : Piece) : State :=
  let kind := ((AMap.get? s.sub.devs dev).map (·.kind)).getD 0
  let t := s.targetOf dev pd
  if kind = 3 then
    if !c.toMem then s
    else match AMap.get? s.dev.exch x with
      | some e => State.sendReads (p.len / 512 + 1) (s.sendRead x e p) x
      | none => s
  else s.emit (.devCmd x t (s.cmdBytes dev (x % 4096) c p) (paramBytes kind (s.blkOf dev) c p) (kind = 2) p.st.again)

end Sys2Proof.Machine
end

