-- ==== Sys2Proof/Machine/Redrive.lean ====
section
/-! DEFINITION. Sys2Proof/Machine/Redrive.lean: exchanges that end without their device's answer: transport failures, paths that
go down, ghosts, the position check of sequential devices, and aborts that bring a redrive (11, 12). -/

namespace Sys2Proof.Machine

/-! ## A piece is sent once more (R406, R395) -/

/-- The parts of a list of intervals outside [a, b). -/
def cutSpans (l : List (Nat × Nat)) (a b : Nat) : List (Nat × Nat) :=
  l.flatMap fun g => (if g.1 < min g.2 a then [(g.1, min g.2 a)] else []) ++ (if max g.1 b < g.2 then [(max g.1 b, g.2)] else [])

/-- Bytes of [a, b) that a list of intervals covers. -/
def covered (l : List (Nat × Nat)) (a b : Nat) : Nat := sumBy (fun g => min g.2 b - max g.1 a) l

/-- One descriptor starts again over bytes [a, b) of the command: what was not done counts as cancelled, the whole range as
requested once more, and its pieces are forgotten. -/
def State.reopenDesc (s : State) (k : Nat) (d : Desc) (pc a b : Nat) : State :=
  let a := max a d.lo
  let b := min b (d.lo + d.count)
  if b ≤ a then s
  else
    let c := covered d.spans a b
    let s := if d.rd then s.orphanDma k ((d.pieces.filter fun p => p.pc = pc).map (·.idx)) else s
    let d1 := { d with
      spans := cutSpans d.spans a b, moved := cutSpans d.moved a b, done := d.done - c,
      pieces := d.pieces.filter fun p => p.pc ≠ pc }
    (((s.onDma fun x => { x with descs := AMap.put x.descs k d1 }).tallyReturn 3 (b - a - c)).tallyIssue 3 (b - a)).park k

/-- The 512-byte parts of a piece that a descriptor has not done whole. -/
def Desc.undone (d : Desc) (p : Piece) : List (Nat × Nat) :=
  ((List.range ((p.off + p.len + 511) / 512 - p.off / 512)).map fun k =>
    (max (512 * (p.off / 512 + k)) p.off, min (512 * (p.off / 512 + k) + 512) (p.off + p.len))).filter
      fun g => covered d.spans g.1 g.2 ≠ g.2 - g.1

/-- A span of bytes of a descriptor is asked for again. -/
def State.reopenSpan (s : State) (d i : Nat) (g : Nat × Nat) : State :=
  match AMap.get? s.dma.descs d with
  | none => s
  | some m => s.reopenDesc d m i g.1 g.2

/-- Data bound for memory is delivered whole again, and what its ended exchange holds is freed unwritten (R406, R321). Data bound
for the device that has been read stays in its segments (R180); the parts not yet read whole count as cancelled and are asked for
again (R298). -/
def State.reopen (s : State) (sch no i : Nat) (free : Bool) : State :=
  match s.cmd? sch no with
  | none => s
  | some c =>
    match c.pieces[i]? with
    | none => s
    | some p =>
      if !c.toMem then
        (s.descsOf sch no).foldl (fun t e => (e.2.undone p).foldl (fun u g => u.reopenSpan e.1 i g) t) s
      else
        let s1 := (s.descsOf sch no).foldl (fun t e => t.reopenDesc e.1 e.2 i p.off (p.off + p.len)) s
        if free then s1.releaseSegs fun h => h.owner.ofPiece sch no i else s1

/-- The piece of an exchange waits to be sent once more; `ended` says that the exchange itself has ended, so that what it holds for
memory is freed (R291). -/
def State.unsend (s : State) (x : Nat) (same : Option Nat) (ended : Bool) : State :=
  match AMap.get? s.dev.exch x with
  | none => s
  | some e =>
    if (s.pieceOf x).isNone then s
    else (s.modCmd e.sch e.cmd fun c =>
      { c with pieces := modAt c.pieces e.pc fun p => { p with st := .unsent true same } }).reopen e.sch e.cmd e.pc ended

/-! ## Sequential devices (R408, R409) -/

def State.seqOf (s : State) (dev : Nat) : SeqPos := AMap.getD s.dev.seqPos dev ⟨none, false⟩
def State.setSeq (s : State) (dev : Nat) (p : SeqPos) : State :=
  s.onDev fun d => { d with seqPos := AMap.put d.seqPos dev p }

def dsTransfer : Byte := 0x76

/-- What the position check answers: the piece is sent once more, has been performed, or ends CHECK TRANSFER, which leaves a
sequential device POSITION-LOST where `lost` says so. -/
inductive PosCheck where
  | again
  | performed
  | fail (lost : Bool)
  deriving DecidableEq, Repr

/-- The table of R408 for a command, its P0 and the position read, none when the read failed (R413). -/
def posCheck (c : Cmd) (pos : Option Nat) : PosCheck :=
  let marks := if c.op = .control then c.count else 1
  match pos with
  | none => .fail true
  | some p =>
    if c.op = .write || (c.op = .control && c.code = 4) then
      if c.p0 = some p then .again
      else if c.p0 = some (p - marks) && marks ≤ p then .performed
      else .fail true
    else if c.op = .scsi then .fail false
    else .again

/-- R408: the position is read, and the waiting piece of a sequential device resent, completed or failed. READ and SPACE locate
to P0 first (log 61, DEDUCED). -/
def State.positionCheck (s : State) (sch no i dev : Nat) (pos : Option Nat) : State :=
  match s.cmd? sch no with
  | none => s
  | some c =>
    match c.pieces[i]? with
    | none => s
    | some p =>
      if !p.st.again then s
      else
        let back := c.op = .read || (c.op = .control && (c.code = 5 || c.code = 6))
        let q := s.seqOf dev
        match posCheck c pos with
        | .again => s.setSeq dev { q with pos := if back then c.p0 else pos }
        | .performed => (s.setSeq dev { q with pos := pos }).endPiece sch no i dsGood p.len
        | .fail lost => (s.setSeq dev { pos := pos, lost := q.lost || lost }).endPiece sch no i dsTransfer 0

/-- The position that a quad reads for itself, which no command carries (log 18, DESIGN CHOICE). -/
def State.readPos (s : State) : State × Option Nat := ({ s with fresh := s.fresh + 1 }, Config.readPosition s.fresh)

/-! ## Paths that go down (R377, R405, R407) -/

/-- The paths of a discovery record through a port, or through one controller of it, are DOWN until the next run. -/
def DiscRec.down (r : DiscRec) (quad port : Nat) (ctrl : Option Word) : DiscRec :=
  { r with paths := r.paths.map fun p => if p.quad = quad && p.port = port && ctrl.all (· = p.target) then
      { p with up := false, lost := p.lost || p.up } else p }

/-- Every path through a port, or through one controller of it, is DOWN. -/
def State.portPathsDown (s : State) (quad port : Nat) (ctrl : Option Word) : State :=
  s.onDev fun d => { d with disc := d.disc.map fun e => (e.1, e.2.down quad port ctrl) }

/-- An exchange that is later in program order than another. -/
def Exch.after (e f : Exch) : Bool := e.sch = f.sch && (f.cmd < e.cmd || (f.cmd = e.cmd && f.pc < e.pc))

/-- R405 step 1: later exchanges of the same subchannel on any other path are aborted, to be redriven behind it. -/
def State.abortLater (s : State) (f : Exch) : State :=
  let l := (s.dev.exch.filter fun e => e.2.after f && !(e.2.quad = f.quad && e.2.port = f.port)
    && (e.2.st = .sent || e.2.st = .reached)).map (·.1)
  l.foldl (fun t x => (t.abortExch x).modExch x fun e => { e with redrive := true }) s

/-- How an exchange stands to the failure of its path: no ghost, one of 110 ms, or one that ends with CSTS.RDY 0 (R407). -/
inductive GhostKind where
  | none | nexus | fatal
  deriving DecidableEq, Repr

/-- The ghost that an exchange leaves; where its program is cleared, the 50 ms of its abort go on (R413). -/
def State.leaveGhost (s : State) (x : Nat) (e : Exch) (k : GhostKind) : State :=
  if k = .none then s
  else
    let due := if k = .nexus then some (addNs s.time 110000000) else Option.none
    let abortDue := if (s.ctxOf e.sch).clrreq && (s.pieceOf x).isSome then e.abortDue.or (some (addNs s.time 50000000)) else Option.none
    s.onDev fun d => { d with
      ghosts := AMap.put d.ghosts d.nextGhost ⟨e.dev, e.quad, e.port, e.lo, e.hi, e.sch, e.cmd, e.pc, x % 4096,
        ((AMap.get? s.sub.devs e.dev).map (·.disc)).getD 0, due, abortDue⟩,
      nextGhost := d.nextGhost + 1 }

/-- An exchange is being aborted for good, not for a redrive and not by a CLEAR. -/
def Exch.givenUp (e : Exch) : Bool := e.st = .aborting && !e.redrive

/-- An exchange whose path is DOWN ends there: its piece is redriven (R405). One that is given up, and one of a cleared program that
leaves no ghost, count as answered (R135, R413) (log 41, DEDUCED). -/
def State.losePath (s : State) (x : Nat) (k : GhostKind) : State :=
  match AMap.get? s.dev.exch x with
  | Option.none => s
  | some e =>
    let s1 := s.leaveGhost x e k
    if e.st = .queued then s.dropExch x
    else if (if (s1.ctxOf e.sch).clrreq then k = .none else e.givenUp) then s1.exchCut x false
    else ((s1.unsend x Option.none true).dropStale x).abortLater e

/-- The live exchanges that a property picks, in order. -/
def State.exchWhere (s : State) (p : Exch → Bool) : List Nat := (s.dev.exch.filter fun e => e.2.live && p e.2).map (·.1)

/-- Every exchange of a list loses its path; the recovery leaves one record and vector 4 (R400). -/
def State.redriveAll (s : State) (quad port : Nat) (l : List Nat) (k : GhostKind) : State :=
  let first := match l with
    | [] => 0
    | x :: _ => (match AMap.get? s.dev.exch x with
      | some e => e.sch + (s.ctxOf e.sch).gen.toNat * 2 ^ 32
      | Option.none => 0)
  let s1 := l.foldl (fun t x => t.losePath x k) s
  (s1.recovery (32 + quad) 6 quad port first).wantAll

/-- What an exchange through a port in SAS mode leaves. -/
def State.nexusKind (s : State) (quad : Nat) : GhostKind := if isSas (s.quadOf quad).cfg.mode then .nexus else .none

/-- A port that goes down had another rate or width than R342 assumes: the capacity of its EGRESS changes back (R346). -/
def State.portGone (s : State) (quad port : Nat) : State :=
  let p := s.portOf quad port
  let mode := (s.quadOf quad).cfg.mode
  if p.st = 2 && (portRaw mode port p ≠ portRaw mode port { p with st := 0 } || p.width ≠ (modeLanes mode port).length) then
    s.capacity (3 + quad)
  else s

/-- A whole port goes DOWN: its paths, its connections, its controllers and every exchange on it (R359, R377). -/
def State.portDown (s : State) (quad port : Nat) (st : BitVec 2) : State :=
  let lanes := modeLanes (s.quadOf quad).cfg.mode port
  let s1 := ((((s.portGone quad port).portPathsDown quad port none).modPort quad port fun p =>
    { p with st := st, width := 0, pinned := false, running := false, pm := false, ids := [], ctrls := [], expander := false }).modQuad
    quad fun q => { q with
      conns := q.conns.filter fun c => !lanes.contains c.phy,
      lanes := q.lanes.zipIdx.map fun e => if lanes.contains e.2 then { e.1 with inuse := false } else e.1 }).forgetAborts fun a =>
        a.quad = quad && a.port = port
  s1.redriveAll quad port (s1.exchWhere fun e => e.quad = quad && e.port = port) (s.nexusKind quad)

/-- The reference clock of the quad's half is present (R355). -/
def State.refOk (s : State) (quad : Nat) : Bool := if quad < 16 then s.pw.pref0 else s.pw.pref1

/-- Training starts, and is tried again every second; without its reference clock the port stays down (R355, R383)
(log 47, DEDUCED). A root port trains with separate reference clocks where SRIS says so (R357); a phy reports its identifier in IDENTIFY
(R353). -/
def State.train (s : State) (quad port : Nat) : State :=
  let cfg := (s.quadOf quad).cfg
  if !s.refOk quad then s.modPort quad port fun p => { p with st := 3, retryDue := none }
  else
    let s1 := (s.modPort quad port fun p => { p with st := 1, retryDue := some (addNs s.time 1000000000) }).emit
      (.train quad port (isPcie cfg.mode && cfg.flags.getLsbD 1))
    if isSas cfg.mode then s1.emits ((modeLanes cfg.mode port).map fun k => .identify quad k (4 * quad + k)) else s1

/-- R359: a port is lost; LINK_DOWN rises, a record is written, the supervisor hears of it (R470), and the link is trained again. -/
def State.linkLost (s : State) (quad port : Nat) (st : BitVec 2) : State :=
  let s1 := (((s.modQuad quad fun q => { q with linkDown := inc16 q.linkDown }).event (32 + quad) 5 3 quad port 0 0).irq
    (64 + quad)).portDown quad port st
  if st = 1 then s1.train quad port else s1

/-- The path of one device goes DOWN after a second transport failure (R400). Behind a root port whose link stays up, the
exchanges are aborted and redriven once answered; on a SAS path they are ghosts. -/
def State.devPathDown (s : State) (e : Exch) : State :=
  let s1 := match AMap.get? s.sub.devs e.dev with
    | some d => s.onDev fun x => { x with disc := AMap.upd x.disc d.disc fun r => r.down e.quad e.port none }
    | Option.none => s
  let l := s1.exchWhere fun f => f.dev = e.dev && f.quad = e.quad && f.port = e.port
  if isSas (s.quadOf e.quad).cfg.mode then s1.redriveAll e.quad e.port l .nexus
  else
    let s2 := l.foldl (fun t x => (t.abortExch x).modExch x fun f => { f with redrive := true }) s1
    ((s2.abortLater e).recovery (32 + e.quad) 6 e.quad e.port (e.sch + (s.ctxOf e.sch).gen.toNat * 2 ^ 32)).wantAll

/-! ## Transport failures on a path that stays up (R400) -/

/-- The piece of an exchange had a transport failure within the last second. -/
def State.failedLately (s : State) (e : Exch) (c : Cmd) : Bool :=
  c.fails.any fun f => f.1 = e.pc && !reached s.time (addNs f.2 1000000000)

def State.noteFail (s : State) (e : Exch) : State :=
  s.modCmd e.sch e.cmd fun c => { c with fails := (e.pc, s.time) :: c.fails }

/-- The exchange itself has ended, and its piece is sent once more on the same path; for a sequential device after the position
check (log 41, DEDUCED). -/
def State.resendSame (s : State) (x : Nat) (e : Exch) (pos : Option Nat) : State :=
  let s1 := (s.unsend x (some e.path) true).dropStale x
  (if s.devSeq e.dev then s1.positionCheck e.sch e.cmd e.pc e.dev pos else s1).wantAll

/-- A transport failure (R400): the exchange is aborted and its piece sent once more on the same path, by a sequential device
only when the abort is answered; the second one within 1 s takes the path DOWN. An exchange that is being aborted already takes
no resend. -/
def State.transport (s : State) (x : Nat) : State :=
  match AMap.get? s.dev.exch x, s.pieceOf x with
  | some e, some (c, _) =>
    if e.st = .aborting || e.st = .lost then s
    else if s.failedLately e c then s.devPathDown e
    else
      let s1 := (s.noteFail e).abortExch x
      if s.devSeq e.dev then s1.modExch x fun e => { e with redrive := true }
      else (s1.unsend x (some e.path) false).wantAll
  | some _, Option.none => s
  | Option.none, some _ => s
  | Option.none, Option.none => s

/-- The same for an exchange that a reset of its controller or logical unit has ended (R367): nothing is left to abort. -/
def State.transportEnded (s : State) (x : Nat) : State :=
  match AMap.get? s.dev.exch x, s.pieceOf x with
  | some e, some (c, _) =>
    if s.failedLately e c then s.devPathDown e
    else
      let q := s.readPos
      (q.1.noteFail e).resendSame x e q.2
  | some _, Option.none => s.dropStale x
  | Option.none, some _ => s
  | Option.none, Option.none => s

/-! ## The answer to an abort (R366) -/

/-- An aborted exchange is answered. One that a CLEAR aborted ends its piece; one aborted for a redrive has its piece sent again,
by a sequential device after the position check; one that carries no piece leaves the table (log 41, DEDUCED). -/
def State.abortDone (s : State) (x : Nat) (pos : Option Nat) : State :=
  match AMap.get? s.dev.exch x with
  | Option.none => s
  | some e =>
    (if (s.ctxOf e.sch).clrreq || !e.redrive || (s.pieceOf x).isNone then s.exchCut x false
     else if s.devSeq e.dev then s.resendSame x e pos
     else (s.unsend x Option.none true).dropStale x).wantAll

/-! ## No path (R135) -/

/-- A piece that finds no USABLE path ends, with NO-PATH, and so does its program. -/
def State.noPath (s : State) (sch no i : Nat) : State :=
  let s1 := (s.modCtx sch fun c => c.setCst cstNoPath).cutPiece sch no i
  ((((s1.breakHere sch no).cmdEnd sch no).progress sch).wantSend sch)

end Sys2Proof.Machine
end

