-- ==== Sys2Proof/Machine/Exchange.lean ====
section
/-! DEFINITION. Sys2Proof/Machine/Exchange.lean: exchanges from their sending to their end, their aborts and escalations, path
faults, ghosts, and subchannel timeouts (04, 05, 11, 12). -/

namespace Sys2Proof.Machine

/-! ## SAS connections (R365) -/

/-- Phys of a port that are in use, lowest first. -/
def Quad.phys (q : Quad) (port : Nat) : List Nat :=
  (modeLanes q.cfg.mode port).filter fun k => (q.lanes.getD k Lane.reset).inuse

/-- A connection to the target stands open on the port. -/
def Quad.connTo (q : Quad) (port : Nat) (target : Word) : Bool := q.conns.any fun c => (q.phys port).contains c.phy && c.target = target

/-- The phy that a new connection takes: one without a connection, else one whose connection has been idle for its 2 µs. -/
def Quad.phyFree (q : Quad) (port : Nat) (now : Time) : Option Nat :=
  let phys := q.phys port
  (phys.filter (fun k => !q.conns.any fun c => c.phy = k) ++ phys.filter (fun k => q.conns.any fun c =>
    c.phy = k && !c.pinned && c.idleDue.any fun t => reached now t)).head?

/-- A frame for a target goes out on a connection: the pinned one of its target, an open one, or a new one on a free phy. It stays open
for 2 µs after its last frame. -/
def Quad.useConn (q : Quad) (port : Nat) (target : Word) (now : Time) : Quad :=
  let due := some (addNs now 2000)
  if q.connTo port target then
    { q with conns := q.conns.map fun c =>
      if (q.phys port).contains c.phy && c.target = target && !c.pinned then { c with idleDue := due } else c }
  else match q.phyFree port now with
    | none => q
    | some k => { q with conns := (q.conns.filter fun c => c.phy ≠ k) ++ [⟨k, target, false, due⟩] }

/-- A link rests in its low-power state: power management is enabled, and no frame has passed for 100 µs (R386)
(log 72, DEDUCED). -/
def Port.rests (p : Port) (now : Time) : Bool := p.pm && p.st = 2 && reached now (addNs p.used 100000)

/-- A frame on a port: a link that rests leaves its low-power state (R386). -/
def State.usePort (s : State) (quad port : Nat) : State :=
  let s1 := if (s.portOf quad port).rests s.time then s.emit (.linkWake quad port) else s
  s1.modPort quad port fun p => { p with used := s.time }

/-- A frame for a device can go out on its path now: a SAS port has a connection to its target, or a phy for one (R365). -/
def State.connReady (s : State) (dev : Nat) (pd : PathDesc) : Bool :=
  let q := s.quadOf pd.quad
  !isSas q.cfg.mode || q.connTo pd.port (s.targetOf dev pd) || (q.phyFree pd.port s.time).isSome

def State.useConn (s : State) (dev : Nat) (pd : PathDesc) : State :=
  let s1 := s.usePort pd.quad pd.port
  if isSas (s.quadOf pd.quad).cfg.mode then
    s1.modQuad pd.quad fun q => q.useConn pd.port (s.targetOf dev pd) s.time
  else s1

/-- R365: 2 µs after its last frame a connection that is not pinned closes. -/
def execConnectionIdleClose (quad phy : Nat) (s : State) : Res :=
  .next (match (s.quadOf quad).conns.find? fun c => c.phy = phy with
    | none => s
    | some c =>
      match c.pinned, c.idleDue with
      | false, some t =>
        if s.quadTimer quad t then
          ((s.late t).modQuad quad fun q => { q with conns := q.conns.filter fun c => c.phy ≠ phy }).emit (.closeConn quad phy)
        else s
      | true, _ => s
      | false, none => s)

/-! ## Sending (R147, R378, R392, R393) -/

/-- The exchange that carries a piece on a path. -/
def State.newExch (s : State) (sch : Nat) (c : Cmd) (i : Nat) (p : Piece) (pi : Nat) (pd : PathDesc) : Exch where
  sch := sch
  cmd := c.no
  pc := i
  quad := pd.quad
  port := pd.port
  path := pi
  pgen := ((AMap.get? s.sub.psets (s.ctxOf sch).pset).map (·.gen)).getD 0
  dev := s.devOf sch
  kind := s.devKind (s.devOf sch)
  pair := if s.devKind (s.devOf sch) = 1 then s.newPair (s.devOf sch) pd else 0
  st := .queued
  abortDue := none
  escDue := none
  redrive := false
  lo := (c.range p).1
  hi := (c.range p).2
  sentOff := 0
  bg := (s.reqKey (.exch sch) (s.progKey sch)).1
  dl := (s.reqKey (.exch sch) (s.progKey sch)).2
  ctrl := s.targetOf (s.devOf sch) pd

/-- Before the first sending of a command to a sequential device the quad knows its position (R408). -/
def State.knowPos (s : State) (sch : Nat) (c : Cmd) : State :=
  let dev := s.devOf sch
  if !s.devSeq dev || c.p0.isSome then s
  else
    let q := s.readPos
    let pos := ((s.seqOf dev).pos).or q.2
    (q.1.setSeq dev { s.seqOf dev with pos := pos }).modCmd sch c.no fun c => { c with p0 := pos }

/-- A redrive on another path counts (R395). -/
def State.countRedrive (s : State) (p : Piece) : State :=
  if p.st.again && p.st.path.isNone then s.onTally fun t => { t with redrive := inc16 t.redrive } else s

/-- The read engine may fill the segments of a piece that has an exchange now (R291, R299): its descriptor asks for a channel. -/
def State.wantRead (s : State) (sch no : Nat) (p : Piece) : State :=
  (s.descsOf sch no).foldl (fun t e =>
    if e.2.rd && e.2.lo < p.off + p.len && p.off < e.2.lo + e.2.count && e.2.done < e.2.count && !e.2.chan
        then t.awaitChan e.1 sch true else t) s

/-- The segments that an earlier exchange of a piece kept for its device pass to the exchange that carries it now, and so does a zero
block (R180, R290). -/
def State.inherit (s : State) (sch no i x : Nat) : State :=
  s.onDma fun d => { d with segs := d.segs.map fun e =>
    if !e.2.toMem && (e.2.owner.ofPiece sch no i || e.2.owner = .zero sch no) then (e.1, { e.2 with owner := .xfer sch no i x }) else e }

/-- The exchange takes its place in the table; its command may still have to wait for room at the device (R16). -/
def State.holdExch (s : State) (x sch : Nat) (c : Cmd) (i : Nat) (p : Piece) (pi : Nat) (pd : PathDesc) : State :=
  s.takeExch x (s.newExch sch c i p pi pd)

/-- The command of an exchange leaves: its piece, PGEN and LPATH, its slot at the device, and the device command
(log 61, DEDUCED). -/
def State.sendExch (s : State) (x sch : Nat) (c : Cmd) (i : Nat) (p : Piece) (pi : Nat) (pd : PathDesc) : State :=
  let e := { s.newExch sch c i p pi pd with st := ExSt.sent }
  let s1 := ((s.withdraw (.exch sch)).knowPos sch c).countRedrive p
  let s2 := (s1.modCmd sch c.no fun c => { c with pieces := modAt c.pieces i fun p => { p with st := .sent x } }).modCtx sch
    fun k => { k with pgen := e.pgen, lpath := BitVec.ofNat 3 pi, lpd := some (pd.quad, pd.port) }
  let s3 := (((s2.modExch x fun _ => e).tallyIssue 1 e.slotUnits).mark 38).mark 39
  (((((s3.inherit sch c.no i x).useConn e.dev pd).wantRead sch c.no p).emitCmd x e.dev pd c p).progress sch)

/-- A path description of an exchange's own path. -/
def Exch.pathDesc (e : Exch) : PathDesc := ⟨e.quad, e.port, false⟩

/-- The place of an exchange's path in the path set of its program, as it stands now (R147). -/
def State.pathNow (s : State) (e : Exch) : Option Nat :=
  match AMap.get? s.sub.psets (s.ctxOf e.sch).pset with
  | none => none
  | some ps => ps.paths.findIdx? fun p => p.quad = e.quad && p.port = e.port

/-- A command may not be sent: its device is POSITION-LOST, and it is not REWIND, LOCATE or UNLOAD (R409). -/
def State.barred (s : State) (sch : Nat) (c : Cmd) : Bool :=
  (s.seqOf (s.devOf sch)).lost && !(c.op = .control && (c.code = 3 || c.code = 7 || c.code = 8))

/-- A piece ends as R165 states, without being sent; an exchange that holds its place goes. -/
def State.refuseSend (s : State) (sch no i : Nat) : State :=
  ((match s.queuedFor sch no i with
    | some (x, _) => s.dropExch x
    | none => s).withdraw (.exch sch)).endPiece sch no i dsRefuse 0

/-- R378, R393: the next exchange of a program is placed on its path, when Meridian has granted the egress of its quad and the quad
has an exchange for it; its command goes when the device has room and a connection stands ready, and else waits (R16, R365). A piece
without a USABLE path ends (R135) (log 11, DESIGN CHOICE), and so does a command to a device that is POSITION-LOST (R409). -/
def execExchangeSend (sch idx : Nat) (s : State) : Res :=
  .next (match s.nextSend sch with
    | none => s
    | some (c, i, p) =>
      if s.barred sch c then s.refuseSend sch c.no i
      else match s.queuedOf sch with
      | some (x, e) =>
        match s.pathNow e with
        | none => ((s.dropExch x).withdraw (.exch sch)).wantSend sch
        | some pi =>
          if !s.usable e.dev e.pathDesc then ((s.dropExch x).withdraw (.exch sch)).wantSend sch
          else if !s.granted (.exch sch) then s.wantSend sch
          else if !s.connReady e.dev e.pathDesc then (s.withdraw (.exch sch)).wantSend sch
          else if !s.slotTurn e then s.withdraw (.exch sch)
          else s.sendExch x sch c i p pi e.pathDesc
      | none =>
      match s.nextPath sch with
      | none => s.noPath sch c.no i
      | some (pi, pd) =>
        let x := 4096 * pd.quad + idx
        if !s.md.reqs.any fun r => r.who = .exch sch && r.res = 3 + pd.quad && r.granted then
          if s.granted (.exch sch) then (s.withdraw (.exch sch)).wantSend sch else s
        else if !s.connReady (s.devOf sch) pd then (s.withdraw (.exch sch)).wantSend sch
        else if 4096 ≤ idx || AMap.has s.dev.exch x || !s.poolFree (5 + pd.quad) (s.clsOf sch) then s
        else
          let s1 := s.holdExch x sch c i p pi pd
          if s.slotTurn (s.newExch sch c i p pi pd) then s1.sendExch x sch c i p pi pd
          else ((s1.withdraw (.exch sch)).waited (if s.devKind (s.devOf sch) = 1 then 38 else 39)).progress sch)

/-- R392: the evidence that an exchange has reached its device lets the next exchange of its subchannel go. -/
def execExchangeReachedDevice (x : Nat) (s : State) : Res :=
  .next (match AMap.get? s.dev.exch x with
    | none => s
    | some e => if e.st = .sent then (s.modExch x fun e => { e with st := .reached }).wantSend e.sch else s)

/-! ## The device's answer (R183, R184) -/

/-- GOOD, SHORT or LONG by the bytes moved. -/
def byMoved (a : DevAnswer) (len : Nat) : Byte := if a.more then 0x03 else if a.moved < len then 0x02 else dsGood

/-- The rows of R184 for CHECK CONDITION, by sense key (log 19, PRESUMED). -/
def senseStatus (key : BitVec 4) (asc : Byte) (fm eom ili : Bool) (a : DevAnswer) : Byte :=
  if key = 0x0 then if fm then 0x14 else if eom then 0x34 else if ili then (if a.more then 0x03 else 0x02) else 0x06
  else if key = 0x1 then 0x11
  else if key = 0x2 then 0x35
  else if key = 0x3 then if asc = 0x11 then 0x17 else if asc = 0x03 || asc = 0x0C then 0x27 else 0x07
  else if key = 0x4 then 0x16
  else if key = 0x5 then 0x26
  else if key = 0x6 then 0x45
  else if key = 0x7 then 0x36
  else if key = 0x8 then 0x44
  else if key = 0xB then if asc = 0x10 then 0x37 else 0x55
  else if key = 0xD then 0x54
  else if key = 0xE then 0x46
  else 0x06

/-- The rows of R184 for a SCSI status; the status codes are those of the SCSI standard (log 19, PRESUMED). -/
def scsiStatus (st : Byte) (key : BitVec 4) (asc : Byte) (fm eom ili : Bool) (a : DevAnswer) (len : Nat) : Byte :=
  if st = 0x00 || st = 0x04 then byMoved a len
  else if st = 0x02 then senseStatus key asc fm eom ili a
  else if st = 0x08 then 0x15
  else if st = 0x18 then 0x08
  else if st = 0x28 then 0x25
  else if st = 0x30 then 0x66
  else if st = 0x40 then 0x09
  else 0x06

/-- The rows of R184 for an NVMe status type and code; the codes are those of the NVMe standard (log 19, PRESUMED). -/
def nvmeStatus (sct : BitVec 3) (sc : Byte) (dnr : Bool) (a : DevAnswer) (len : Nat) : Byte :=
  if sct = 0 && sc = 0x00 then byMoved a len
  else if sct = 0 && sc = 0x82 then 0x35
  else if sct = 2 && sc = 0x81 then 0x17
  else if sct = 2 && sc = 0x80 then 0x27
  else if sct = 2 && (sc = 0x82 || sc = 0x83 || sc = 0x84) then 0x37
  else if sct = 0 && sc = 0x06 then 0x16
  else if sct = 0 && (sc = 0x01 || sc = 0x02 || sc = 0x0B || sc = 0x80) then 0x26
  else if (sct = 2 && sc = 0x86) || (sct = 1 && sc = 0x82) then 0x36
  else if sct = 2 && sc = 0x85 then 0x46
  else if sct = 0 && sc = 0x83 then 0x08
  else if sct = 0 && (sc = 0x07 || sc = 0x08) then 0x09
  else if sct = 0 && sc = 0x04 then dsTransfer
  else if dnr then 0x06
  else 0x65

/-- R184: DSTAT of a device's answer to an exchange of `len` bytes. -/
def answerStatus (a : DevAnswer) (len : Nat) : Byte :=
  match a.st with
  | .scsi st key asc fm eom ili => scsiStatus st key asc fm eom ili a len
  | .nvme sct sc dnr => nvmeStatus sct sc dnr a len
  | .pmemDone => byMoved a len
  | .pmemRefused => dsTransfer

/-- The sense data that a program keeps of an answer to an exchange of `len` bytes (R171): on an NVMe namespace the completion entry of
an answer that is not GOOD. -/
def keptSense (a : DevAnswer) (len : Nat) : List Byte :=
  match a.st with
  | .scsi _ _ _ _ _ _ => a.sense.take 252
  | .nvme _ _ _ => if isGood (answerStatus a len) then [] else fit 16 a.sense
  | .pmemDone => []
  | .pmemRefused => []

/-- Sense data takes a segment of its own, the lowest free one; later sense data of the program takes its place there (R171,
R291). -/
def State.keepSense (s : State) (quad sch : Nat) (l : List Byte) : State :=
  if l.isEmpty then s
  else
    let h : HeldSeg := ⟨.sense sch, 0, true, fit 512 l, maskOf 0 l.length, 0⟩
    match (s.progOf sch).senseSeg with
    | some n => (s.onDma fun d => { d with segs := AMap.put d.segs n h }).modProg sch fun p => { p with sense := l }
    | none =>
      let n := AMap.gap s.dma.segs 0
      ((s.segGot quad (.own sch)).allocSeg n h).modProg sch fun p => { p with sense := l, senseSeg := some n }

/-- The position after a command that ended GOOD, where the command fixes it (R408). -/
def posAfter (c : Cmd) (pos : Option Nat) : Option Nat :=
  match c.op with
  | .read => pos.map (· + 1)
  | .write => pos.map (· + 1)
  | .control =>
    if c.code = 1 || c.code = 2 then pos
    else if c.code = 3 then some 0
    else if c.code = 4 then pos.map (· + c.count)
    else if c.code = 5 then pos.bind fun p => (c.pieces.head?).map fun q => if q.blk = 0 then p + c.count else p - c.count
    else if c.code = 7 then (c.pieces.head?).map (·.blk)
    else none
  | .sense => pos
  | .nvme => none
  | .scsi => none
  | .pmem => none

/-- What the end of a command leaves of a sequential device's position: the quad reads it after any end other than GOOD, and
after a command that does not fix it; REWIND, LOCATE and UNLOAD that end GOOD find a lost one (R408, R409). -/
def State.seqEnd (s : State) (dev : Nat) (c : Cmd) (ds : Byte) (read : Option Nat) : State :=
  if !s.devSeq dev then s
  else
    let q := s.seqOf dev
    let found := isGood ds && c.op = .control && (c.code = 3 || c.code = 7 || c.code = 8)
    s.setSeq dev { pos := if isGood ds then (posAfter c q.pos).or read else read, lost := q.lost && !found }

/-- Frames of an exchange wait in the receive FIFO of its quad, ahead of its answer. -/
def State.framesWait (s : State) (x : Nat) (e : Exch) : Bool :=
  (s.fifoOf e.quad).rx.any fun f => 4096 * e.quad + f.fr.idx = x && f.fstat = 0

/-- Requests of a PMEM command have not left its port (R170). -/
def State.writesLeft (s : State) (x : Nat) (e : Exch) : Bool :=
  match s.pieceOf x with
  | none => false
  | some (_, p) => e.sentOff < p.len || (s.fifoOf e.quad).tx.any fun f => f.fr.idx = x % 4096

/-- The answer of a device to an exchange that stands (R184). -/
def State.exchAnswer (s : State) (x : Nat) (e : Exch) (a : DevAnswer) : State :=
  match s.pieceOf x with
  | none => s.dropStale x
  | some (c, p) =>
    let ds := answerStatus a p.len
    let kept := keptSense a p.len
    if !kept.isEmpty && (s.progOf e.sch).senseSeg.isNone
        && !s.turn 37 (s.progKey e.sch) (32 + e.quad) e.sch (s.clsOf e.sch) (.own e.sch) then
      s.segWait e.quad e.sch (.own e.sch)
    else (((s.keepSense e.quad e.sch kept).seqEnd e.dev c ds a.pos).answered x ds (min a.moved p.len)).wantAll

/-- R184, R366: a device answers an exchange. The answer of an aborted one answers the abort; that of a lost one frees its
command slot. `ecc` is how the words of the context are read: an uncorrectable one writes the program off (R399). -/
def execExchangeEnd (x : Nat) (ans : DevAnswer) (ecc : Ecc) (s : State) : Res :=
  .next (match AMap.get? s.dev.exch x with
    | none => s
    | some e =>
      if e.st = .lost then s.dropExch x
      else if e.st = .queued || s.framesWait x e then s
      else if ecc = .bad && AMap.has s.sub.prog e.sch then (((s.memError 6 0 0 e.sch).writeOff e.sch).dropExch x).wantAll
      else if ans.st = .pmemDone && e.st ≠ .aborting && s.writesLeft x e then s
      else
        let s := s.eccFix ecc
        if e.st = .aborting then s.abortDone x ans.pos else s.exchAnswer x e ans)

/-- R366: the abort is answered. On an NVMe controller only the command's own completion answers it: the completion of the Abort command,
which may come after the exchange has ended, makes room for another. -/
def execAbortAnswered (x : Nat) (s : State) : Res :=
  .next (match s.dev.aborts.find? fun a => a.x = x with
    | some a => (s.onDev fun d => { d with aborts := d.aborts.erase a }).nextAbort a
    | none => match AMap.get? s.dev.exch x with
    | none => s
    | some e =>
      if e.kind = 1 then s
      else if e.st = .lost then s.dropExch x
      else if e.st = .aborting then
        let q := s.readPos
        q.1.abortDone x q.2
      else s)

/-! ## Aborts that go unanswered (R132, R367) -/

/-- R132: an exchange of a cleared program is declared lost. -/
def State.declareLost (s : State) (sch quad x : Nat) : State :=
  let s1 := (s.modCtx sch fun c => c.setCst cstLost).onSub fun b => { b with abortLost := inc16 b.abortLost }
  (s1.event (32 + quad) 2 1 sch quad ((s.ctxOf sch).gen.toNat) x).irq (96 + quad)

/-- R367: the exchanges of the controller, or of the logical unit, that a reset ends besides the one it was sent for. -/
def State.resetEnds (s : State) (x : Nat) (e : Exch) : List Nat :=
  (s.dev.exch.filter fun f => f.1 ≠ x && f.2.live && e.sameSlots f.2).map (·.1)

/-- The DISC_ID of an exchange's device, as its record stands (R371, R436); 0 where the device-table entry is gone. -/
def State.exchDiscId (s : State) (e : Exch) : Nat := ((AMap.get? s.sub.devs e.dev).map (·.discId.toNat)).getD 0

/-- An escalation leaves a record (R367, R436). -/
def State.noteEscalate (s : State) (e : Exch) : State :=
  ((s.modQuad e.quad fun q => { q with escalate := inc16 q.escalate }).event (32 + e.quad) 5 6 e.quad e.port 0 (s.exchDiscId e)).irq
    (96 + e.quad)

/-- R360 step 1: an admin pair of 32 entries, pages of 4 KiB, round-robin arbitration and the NVM command set. -/
def ctrlEnable : CtrlEnable := ⟨32, 4096, 6, 4, true, true⟩

/-- R360 steps 3 and 4: the I/O pairs of 65 entries, one vector for each at the capture window (R358), no coalescing, power state
transitions only where LPM is 1, and one Asynchronous Event Request. -/
def CtrlSetup.of (pairs : Nat) (lpm : Bool) : CtrlSetup := ⟨pairs, 65, pairs, 0x0000000300080000, false, lpm, 1⟩

/-- R360 steps 1 and 2 on one controller. -/
def State.enableCtrl (s : State) (quad port : Nat) (id : Word) : State :=
  s.emits (.ctrlEnable quad port id Sys2Proof.Machine.ctrlEnable
    :: [IdentifyCmd.controller, .activeList, .namespaces].map fun w => Out.nvmeIdentify quad port id w)

/-- FLAGS.LPM of a quad (R354, R386). -/
def QuadRec.lpm (c : QuadRec) : Bool := c.flags.getLsbD 5

/-- P of a controller: no more than it offers, and its share of 32 among the controllers of the quad (R360 step 3). -/
def Ctrl.share (c : Ctrl) (n : Nat) : Ctrl := { c with pairs := min c.offer (32 / n) }

/-- The controllers of a quad take their shares; one whose pairs change is set up with them (R360) (log 20, DESIGN CHOICE). -/
def State.shareQuad (s : State) (quad : Nat) : State :=
  let q := s.quadOf quad
  let n := sumBy (fun p => p.ctrls.length) q.ports
  let changed := q.ports.zipIdx.flatMap fun e => ((e.1.ctrls.map fun c => (c, c.share n)).filter fun c => c.1 ≠ c.2).map fun c =>
    Out.ctrlInit quad e.2 c.2.id (CtrlSetup.of c.2.pairs q.cfg.lpm)
  (s.modQuad quad fun q => { q with ports := q.ports.map fun p => { p with ctrls := p.ctrls.map fun c => c.share n } }).emits changed

/-- R360 on one controller: it is enabled and identified, makes its offer, and is set up with its share. -/
def State.initCtrl (s : State) (quad port : Nat) (id : Word) : State :=
  let c : Ctrl := ⟨id, Config.pairOffer s.fresh + 1, 0⟩
  let s1 := ({ s with fresh := s.fresh + 1 } : State).enableCtrl quad port id
  (s1.modPort quad port fun p => { p with ctrls := p.ctrls.filter (fun c => c.id ≠ id) ++ [c] }).shareQuad quad

/-- The reset of an escalation: of the controller, which is set up again, or of the logical unit (R367). -/
def State.sendReset (s : State) (e : Exch) : State :=
  if e.kind = 1 then ((s.emit (.ctrlReset e.quad e.port e.ctrl)).forgetAborts (·.at_ e.quad e.port e.ctrl)).initCtrl e.quad e.port e.ctrl
  else s.emit (.lunReset e.quad e.port e.ctrl (((AMap.get? s.sub.devs e.dev).map (·.lunid)).getD 0))

/-- An exchange ends with the reset of its controller or logical unit: as answered when it was being aborted, else with a
transport failure on a path that stays up (log 42, DEDUCED). -/
def State.endByReset (s : State) (x : Nat) : State :=
  match AMap.get? s.dev.exch x with
  | none => s
  | some e => if e.st = .aborting then let q := s.readPos
      q.1.abortDone x q.2
    else if e.st = .queued then s.dropExch x
    else s.transportEnded x

/-- R367: the quad escalates; the reset ends every exchange of the controller or logical unit (log 42, DEDUCED). -/
def State.escalate (s : State) (x : Nat) (e : Exch) : State :=
  let others := s.resetEnds x e
  others.foldl (fun t y => t.endByReset y) ((s.noteEscalate e).sendReset e)

/-- An exchange of a logical unit whose abort goes unanswered keeps its command slot until the unit answers. Its piece is sent once more
where its abort served a redrive, on a sequential device after the position check (R408, R409); else it ends. -/
def State.loseExch (s : State) (x : Nat) (e : Exch) : State :=
  if (s.pieceOf x).isSome && !e.redrive then s.exchCut x true
  else
    let s1 := ((s.unsend x none true).modExch x fun f => { f with st := .lost, abortDue := none }).tallyReturn 1 1
    if (s.pieceOf x).isSome && s.devSeq e.dev then
      let q := s1.readPos
      q.1.positionCheck e.sch e.cmd e.pc e.dev q.2
    else s1

/-- R132, R366, R367: 50 ms after its abort an exchange is unanswered. A cleared program loses it; a piece that was to be
redriven goes on. PMEM knows no escalation, and an exchange there that is to be redriven ends with its last read completion or a
completion timeout alone. The command slot of a logical unit stays taken until it answers, and 50 ms later its phy is reset. -/
def execExchangeAbortTimeout (x : Nat) (s : State) : Res :=
  .next (match AMap.get? s.dev.exch x with
    | none => s
    | some e =>
      match e.abortDue with
      | none => s
      | some t =>
        if e.st ≠ .aborting || !s.quadTimer e.quad t then s
        else
          let s := s.late t
          let kind := e.kind
          let clr := (s.ctxOf e.sch).clrreq && (s.pieceOf x).isSome
          if kind = 3 && !clr then s.modExch x fun f => { f with abortDue := none }
          else
          let s1 := if clr then (s.declareLost e.sch e.quad (x % 4096)).exchCut x true
            else if kind = 2 then s.loseExch x e
            else s.abortDone x none
          let s2 := if kind = 2 then s1.modExch x fun f => { f with escDue := some (addNs s.time 50000000) } else s1
          (if kind = 3 then s2 else s2.escalate x e).wantAll)

/-- R367: a further 50 ms after LOGICAL UNIT RESET, PHY CONTROL HARD RESET of the target's phy, at the expander; a directly attached target
is reset by its link, which drops and trains again. -/
def execEscalationHardReset (x : Nat) (s : State) : Res :=
  .next (match AMap.get? s.dev.exch x with
    | none => s
    | some e =>
      match e.escDue with
      | none => s
      | some t =>
        if !s.quadTimer e.quad t then s
        else
          let s1 := (s.late t).modExch x fun f => { f with escDue := none }
          if (s.portOf e.quad e.port).expander then s1.emit (.phyReset e.quad e.port e.ctrl)
          else ((s1.emit (.linkReset e.quad e.port)).linkLost e.quad e.port 1).signal 4)

/-! ## Path faults (R359, R360) -/

/-- R313, R314, R358, R400: a transport failure on a path that stays up. -/
def execTransportFailure (x : Nat) (s : State) : Res := .next (s.transport x)

/-- R359: ERR_FATAL, DL_Down or presence lost: the port is lost and the link trains again. ERR_FATAL is a message of a PCIe device.
The loss of presence itself is PRESENCE_DEASSERT. -/
def execPathFault (quad port : Nat) (kind : PathFaultKind) (s : State) : Res :=
  .next (
    if (s.portOf quad port).st ≠ 2 || (kind = .errFatal && !isPcie (s.quadOf quad).cfg.mode) then s
    else (s.linkLost quad port (if kind = .presenceLost then 0 else 1)).signal 4)

/-- R359, R407: a controller is fatal: its paths go DOWN, its exchanges leave ghosts until CSTS.RDY 0; it is reset and set up again under
R360, and a discovery run identifies its namespaces again (log 42, DEDUCED). -/
def execControllerFatal (quad : Nat) (at_ : PortCtrl) (s : State) : Res :=
  let port := at_.port
  .next (
    if (s.portOf quad port).st ≠ 2 || !isPcie (s.quadOf quad).cfg.mode
        || !((s.portOf quad port).ctrls.any fun c => c.id = at_.ctrl) then s
    else
      let s1 := (((((s.event (32 + quad) 5 5 quad port 0 0).portPathsDown quad port (some at_.ctrl)).modPort quad port fun p =>
        { p with rerun := true }).emit (.ctrlReset quad port at_.ctrl)).forgetAborts (·.at_ quad port at_.ctrl)).initCtrl quad port at_.ctrl
      s1.redriveAll quad port (s1.exchWhere fun e => e.quad = quad && e.port = port && e.ctrl = at_.ctrl && e.kind = 1) .fatal)

/-- R359, R366: a completion timeout of a PMEM read is a path failure; of an aborted one, its answer. -/
def execPmemReadCompletionTimeout (x : Nat) (s : State) : Res :=
  .next (match AMap.get? s.dev.exch x with
    | none => s
    | some e =>
      if e.kind ≠ 3 || e.st = .queued then s
      else if e.st = .lost then s.dropExch x
      else if e.st = .aborting then s.abortDone x none
      else (s.linkLost e.quad e.port 1).signal 4)

/-! ## Ghosts (R407, R408, R413) -/

/-- A ghost dies: a waiting sequential piece passes its position check, a cleared one counts as answered. -/
def State.ghostGone (s : State) (k : Nat) (g : Ghost) (pos : Option Nat) : State :=
  let s1 := s.onDev fun d => { d with ghosts := AMap.del d.ghosts k }
  let s2 :=
    if (s1.ctxOf g.sch).clrreq then
      match s1.cmd? g.sch g.cmd with
      | none => s1
      | some c => match c.pieces[g.pc]? with
        | none => s1
        | some p => if s1.ghostOnly g.sch g.cmd g.pc p then s1 else if p.st.again then s1.endCut g.sch g.cmd g.pc else s1
    else if s1.devSeq g.dev then s1.positionCheck g.sch g.cmd g.pc g.dev pos
    else s1
  s2.wantAll

/-- R407: a ghost is dead 110 ms after its path went DOWN, or when its controller reports CSTS.RDY 0. R413: where a CLEAR waits
for it, the exchange is declared lost at 50 ms. -/
def execGhostDeath (g : Nat) (rdy0 : Bool) (pos : Option Nat) (s : State) : Res :=
  .next (match AMap.get? s.dev.ghosts g with
    | none => s
    | some h =>
      let dead := match h.due with
        | some t => s.quadTimer h.quad t
        | none => rdy0
      if dead then (match h.due with
        | some t => s.late t
        | none => s).ghostGone g h pos
      else match h.abortDue with
        | none => s
        | some t =>
          if !s.quadTimer h.quad t then s
          else
            let s1 := (s.late t).onDev fun d => { d with ghosts := AMap.upd d.ghosts g fun h => { h with abortDue := none, sch := noSub } }
            ((s1.declareLost h.sch h.quad h.x).endCut h.sch h.cmd h.pc).wantAll)

/-! ## Subchannel timeouts (R143, R144) -/

/-- R144: the timeout fires. -/
def execSubchannelTimeout (sch : Nat) (s : State) : Res :=
  .next (
    let c := s.ctxOf sch
    if !c.armed || !s.subTimer sch c.expiry || c.elaps ≠ 0 then s
    else
      let s1 := ((s.late c.expiry).modCtx sch fun c => { c with tmout := true }).onSub fun b => { b with timeouts := inc16 b.timeouts }
      if c.state = .startPending then s1.endAtOnce sch else s1.cut sch)

/-- R143: an expiry with ELAPS above 0 starts the next span. -/
def execTimeoutSpan (sch : Nat) (s : State) : Res :=
  .next (
    let c := s.ctxOf sch
    if !c.armed || !s.subTimer sch c.expiry || c.elaps = 0 then s
    else (s.late c.expiry).modCtx sch fun c => { c with elaps := c.elaps - 1, expiry := addNs c.expiry spanNs })

end Sys2Proof.Machine
end

