-- ==== Sys2Proof/Machine/Move.lean ====
section
/-! DEFINITION. Sys2Proof/Machine/Move.lean: pieces and segments, the DMA engines, and poison on its way (09). -/

namespace Sys2Proof.Machine

/-! ## Segments of an exchange (R290, R294, R295) -/

/-- The bytes of the command that 512-byte piece `k` and piece `p` of the command share. -/
def Piece.part (p : Piece) (k : Nat) : Nat × Nat := (max (512 * k) p.off, min (512 * k + 512) (p.off + p.len))

/-- The exchange limit of a port, in segments. -/
def State.exchLimit (s : State) (quad : Nat) : Nat := if isSas (s.quadOf quad).cfg.mode then 32768 else 4096

def State.segsHeld (s : State) (o : SegOwner) : Nat := (s.dma.segs.filter fun e => e.2.owner = o).length

/-- An empty segment for a piece. -/
def HeldSeg.fresh (o : SegOwner) (piece : Nat) (toMem : Bool) : HeldSeg := ⟨o, piece, toMem, List.replicate 512 0, 0, 0⟩

/-- Bytes written into a segment from byte `lo` on, with the poison flags of the words that take them. -/
def HeldSeg.fill (h : HeldSeg) (lo : Nat) (bs : List Byte) (bad : BitVec 8) : HeldSeg :=
  { h with data := patch h.data lo bs, mask := h.mask ||| maskOf lo bs.length, poison := h.poison ||| bad }

def State.modSeg (s : State) (n : Nat) (f : HeldSeg → HeldSeg) : State :=
  s.onDma fun x => { x with segs := AMap.upd x.segs n f }

/-- A segment for a piece of an exchange: the one it has, or a free one that the class, the exchange and the order of R17 let it
take. -/
def State.segFor (s : State) (quad sch no pc x piece : Nat) (toMem : Bool) (who : WaitWho) (segs : List Nat) :
    Option (State × Nat × List Nat) :=
  let o : SegOwner := .xfer sch no pc x
  match s.segOf o piece with
  | some n => some (s, n, segs)
  | none =>
    match segs with
    | [] => none
    | n :: rest =>
      if s.segFree n && s.turn 37 (s.progKey sch) (32 + quad) sch (s.clsOf sch) who && s.segsHeld o < s.exchLimit quad then
        some ((s.segGot quad who).allocSeg n (HeldSeg.fresh o piece toMem), n, rest)
      else none


/-! ## Poison (R190, R315) -/

/-- Poisoned data has passed through a command: POISONED-DATA, and the program ends at that command. -/
def State.poisonCmd (s : State) (sch no : Nat) : State :=
  match s.cmd? sch no with
  | none => s
  | some c =>
    let s1 := (s.poisoned sch).modCmd sch no fun c => { c with poison := true }
    if c.ended then s1.breakAt sch no c.status c.residual else s1

/-- The data of an exchange must not reach its device: the exchange is aborted before it leaves, and its program ends at that
command (R65, R315). -/
def State.giveUp (s : State) (x : Nat) : State :=
  match AMap.get? s.dev.exch x with
  | none => s
  | some e => (s.abortExch x).breakHere e.sch e.cmd


def bitsSet (b : BitVec 8) : Nat := countBelow 8 fun i => b.getLsbD i

/-- The words of a segment that share bytes with [a, b), counted in the command's data. -/
def wordsOf (k a b : Nat) : BitVec 8 :=
  BitVec.ofNat 8 (sumBy (fun w => if 512 * k + 64 * w < b && a < 512 * k + 64 * w + 64 then 2 ^ w else 0) (List.range 8))

/-! ## Data from a device (R291, R310) -/

/-- The poison flags of the buffer words of piece `k` that bad ranges share with [a, b). -/
def flagsOf (k a b : Nat) (bad : List (Nat × Nat)) : BitVec 8 :=
  bad.foldl (fun f g => if max a g.1 < min b g.2 then f ||| wordsOf k (max a g.1) (min b g.2) else f) 0

/-- Write bytes of an exchange into its segments, piece by piece from command offset `off` on; none when a segment is wanting.
`bad` are ranges of command offsets that are poisoned. -/
def State.deliver (n : Nat) (s : State) (quad sch no pc x : Nat) (c : Cmd) (p : Piece) (off : Nat) (bs : List Byte)
    (bad : List (Nat × Nat)) (who : WaitWho) (segs : List Nat) : Option State :=
  match n with
  | 0 => some s
  | n + 1 =>
    if bs.isEmpty then some s
    else
      let k := off / 512
      let m := min bs.length (512 * k + 512 - off)
      match s.segFor quad sch no pc x k true who segs with
      | none => none
      | some (s1, g, rest) =>
        let s2 := s1.modSeg g fun h => h.fill (off - 512 * k) (bs.take m) (flagsOf k off (off + m) bad)
        let part := p.part k
        let full := maskOf (part.1 - 512 * k) (part.2 - part.1)
        let whole := ((AMap.get? s2.dma.segs g).map fun h => decide (h.mask &&& full = full)).getD false
        let s3 := if whole then s2.pieceReady sch no pc x k else s2
        State.deliver n s3 quad sch no pc x c p (off + m) (bs.drop m) bad who rest

/-- The piece and command of an exchange that takes part in data movement: neither aborted nor lost. -/
def State.livePiece (s : State) (x : Nat) : Option (Exch × Cmd × Piece) :=
  match AMap.get? s.dev.exch x, s.pieceOf x with
  | some e, some (c, p) => if e.st = .sent || e.st = .reached then some (e, c, p) else none
  | some _, none => none
  | none, some _ => none
  | none, none => none

/-! ## Channels (R299, R326) -/

/-- The next bytes that a read descriptor may ask for: the 512-byte piece `k` of exchange `x` of the command's piece `pc`, and the
range [a, b) from where it stands (R300). -/
structure Fill where
  k : Nat
  pc : Nat
  x : Nat
  a : Nat
  b : Nat
  deriving DecidableEq, Repr

/-- (R300) The piece belongs to an exchange that stands (R291). -/
def State.nextFill (s : State) (d : Desc) : Option Fill :=
  match s.cmd? d.sch d.cmd with
  | none => none
  | some c =>
    let partOf (q : DmaPiece) : Nat × Nat := (c.pieces[q.pc]?.map fun p => p.part q.idx).getD (0, 0)
    match d.pieces.find? fun q => (partOf q).1 + q.asked < (partOf q).2 && (s.livePiece q.x).isSome with
    | some q => some ⟨q.idx, q.pc, q.x, (partOf q).1 + q.asked, (partOf q).2⟩
    | none =>
      let taken := d.pieces.foldl (fun l q => addSpan l (partOf q).1 (partOf q).2) d.spans
      match (gaps taken d.lo (d.lo + d.count)).head? with
      | none => none
      | some g =>
        let pc := c.pieceAt g.1
        match c.pieces[pc]? with
        | none => none
        | some p => match p.st.exch with
          | none => none
          | some x => if (s.livePiece x).isSome then some ⟨g.1 / 512, pc, x, g.1, (p.part (g.1 / 512)).2⟩ else none

/-- The quad of an exchange. -/
def exchQuad (x : Nat) : Nat := x / 4096

def Piece.large (p : Piece) : Bool := 4096 * 512 < p.len

/-- A piece of a read descriptor may be filled: it has its segment, or could take one now; an exchange above 4,096 segments takes
all of them before (R294, R295, R299). -/
def State.mayFill (s : State) (k : Nat) (d : Desc) (f : Fill) : Bool :=
  let o : SegOwner := .xfer d.sch d.cmd f.pc f.x
  (s.segOf o f.k).isSome ||
    (!(((s.cmd? d.sch d.cmd).bind fun c => c.pieces[f.pc]?).map (·.large)).getD false
      && s.turn 37 (s.progKey d.sch) (32 + exchQuad f.x) d.sch (s.clsOf d.sch) (.seg k f.k)
      && s.segsHeld o < s.exchLimit (exchQuad f.x))

/-- Whether the next bytes of a read descriptor come from host memory. -/
def State.fillsFromHost (s : State) (d : Desc) : Bool :=
  match s.nextFill d, s.cmd? d.sch d.cmd with
  | some f, some c => ((extAt c.ext f.a).map (·.1.host)).getD false
  | some _, none => false
  | none, some _ => false
  | none, none => false

/-- The byte that follows the first `n` of some intervals, with the end of its interval. -/
def spanFrom (l : List (Nat × Nat)) (n : Nat) : Option (Nat × Nat) :=
  match l with
  | [] => none
  | (a, b) :: l => if n < b - a then some (a + n, b) else spanFrom l (n - (b - a))

/-- The next request of a write piece (R300): its bytes [a, a + n) of the command's data, its extent and the offset there. -/
structure WriteReq where
  a : Nat
  n : Nat
  e : Extent
  o : Nat
  deriving DecidableEq, Repr

/-- One request stays within an extent, the rules of R33, and, to the global scratchpad, one buffer word. -/
def Cmd.writeReq (c : Cmd) (m : BitVec 512) (piece asked mps : Nat) : Option WriteReq :=
  match spanFrom (maskSpans m) asked with
  | none => none
  | some (lo, hi) =>
    let a := 512 * piece + lo
    match extAt c.ext a with
    | none => none
    | some (e, o) =>
      let left := min (hi - lo) (e.len - o)
      some ⟨a, if e.skip then left else if e.host then reqLen (e.addr.toNat + o) left mps else min left (64 - a % 64), e, o⟩

/-- The segment of a piece in the hands of the write engine, and its next request. -/
def State.nextReq (s : State) (d : Desc) (q : DmaPiece) : Option (Nat × HeldSeg × WriteReq) :=
  match s.cmd? d.sch d.cmd, s.segOf (.xfer d.sch d.cmd q.pc q.x) q.idx with
  | some c, some n =>
    match AMap.get? s.dma.segs n with
    | none => none
    | some h => (c.writeReq h.mask q.idx q.asked s.link.mps).map fun r => (n, h, r)
  | some _, none => none
  | none, some _ => none
  | none, none => none

/-- The next request of a piece goes to host memory. -/
def State.writesHost (s : State) (d : Desc) (q : DmaPiece) : Bool := (s.nextReq d q).any fun r => r.2.2.e.host && !r.2.2.e.skip

/-- The piece that a write descriptor writes next: the first that became ready. -/
def Desc.nextWrite (d : Desc) : Option DmaPiece := d.pieces.find? fun q => !q.issued

/-- Since when the piece that a read descriptor fills next may be filled: the requests of one piece carry one stamp (R326). -/
def State.fillSince (s : State) (d : Desc) : Time :=
  match s.nextFill d with
  | none => s.time
  | some f => ((d.pieces.find? fun q => q.idx = f.k && q.pc = f.pc).map (·.since)).getD s.time

/-- A descriptor that holds a channel asks for the host-link issue of its next request (R300, R326). -/
def State.wantDma (s : State) (k : Nat) : State :=
  match AMap.get? s.dma.descs k with
  | none => s
  | some d =>
    if !d.chan then s
    else if d.rd then
      if s.fillsFromHost d && !s.md.reqs.any (fun r => r.who = .read k) then
        ((if s.poolFree 2 (s.clsOf d.sch) then s else s.waited 2).modDesc k fun d => { d with mayFrom := s.fillSince d }).request 1
          (s.stamp d.sch (s.fillSince d)) 4 d.sch (.read k)
      else s
    else match d.nextWrite with
      | none => s
      | some q => if s.writesHost d q then s.request 2 (s.stamp d.sch q.since) 5 d.sch (.write k) else s

/-- A descriptor has work for its engine now (R299). -/
def State.hasWork (s : State) (k : Nat) (d : Desc) : Bool :=
  if d.rd then (s.nextFill d).any (s.mayFill k d) else d.nextWrite.isSome

/-- R299: a parked descriptor with work takes a channel, in the order of R17. -/
def execDmaChannelGrant (d : Nat) (s : State) : Res :=
  .next (match AMap.get? s.dma.descs d with
    | none => s
    | some x =>
      let n := if x.rd then 3 else 4
      let rix := if x.rd then 4 else 5
      if x.chan || !s.hasWork d x then s
      else if !s.turn n (s.progKey x.sch) rix x.sch (s.clsOf x.sch) (.chan d) then
        s.await n (s.progKey x.sch) rix x.sch (s.clsOf x.sch) (.chan d)
      else ((s.unwait n (.chan d)).takeChan d x.rd).wantDma d)

/-- A descriptor after a request: it asks again, or gives up its channel where it has no work now (R299). -/
def State.onward (s : State) (k : Nat) : State :=
  match AMap.get? s.dma.descs k with
  | none => s
  | some d => if s.hasWork k d then s.wantDma k else ((s.dropChan k).withdraw (.write k)).withdraw (.read k)

/-! ## The write engine (R300, R315) -/


/-- A request of the write engine with its bytes: to host memory, poisoned where a buffer word of it is, to the global scratchpad,
whose words with a poisoned byte are `bad`, or nowhere, in a skipped extent. -/
def State.writeOut (s : State) (r : WriteReq) (bs : List Byte) (poison : Bool) (bad : List Nat) : State :=
  let addr := r.e.addr.toNat + r.o
  if r.e.skip then s
  else if r.e.host then s.hostWrite (BitVec.ofNat 64 addr) r.e.pasid poison bs
  else State.gsBytes (r.n + 1) s addr bs bad (r.o + r.n = r.e.len)

/-- Words that Armature brings uncorrectable: its source, and UE (R14, R400). -/
def State.fabricUe (s : State) (n sch : Nat) : State := State.iter n (fun t => t.memError 3 0 0 sch) s

/-- R300: the write engine makes the next request of the next ready piece, each on a grant of its own where it goes to host memory.
`fault` names the buffer words that are uncorrectable as they are read, and those that Armature brings so. -/
def execDmaWriteIssue (d piece : Nat) (fault : PieceFault) (s : State) : Res :=
  .next (match AMap.get? s.dma.descs d with
    | none => s
    | some x =>
      match x.nextWrite with
      | none => s
      | some q =>
        match s.nextReq x q with
        | none => s
        | some (n, h, r) =>
          let host := r.e.host && !r.e.skip
          if x.rd || !x.chan || q.idx ≠ piece || (host && (!s.granted (.write d) || !s.link.mayIssue)) then s
          else
            let words := wordsOf piece r.a (r.a + r.n)
            let ue := if r.e.skip then 0 else fault.buffer &&& words
            let arm := if r.e.skip then 0 else fault.arm &&& words
            let poison := !r.e.skip && (h.poison ||| ue ||| arm) &&& words ≠ 0
            let kept := if r.e.host || r.e.skip then [] else partWords (r.e.addr.toNat + r.o) r.n (r.o + r.n = r.e.len)
            let badKept := fault.gs.dedup.filter kept.contains
            let badWords := if r.e.host || r.e.skip then x.badWords
              else x.badWords ++ badKept ++ (poisonRuns (h.poison ||| ue ||| arm) (r.a % 512) r.n).flatMap fun g =>
                gsWords (r.e.addr.toNat + r.o + g.1) g.2
            let total := sumBy (fun g => g.2 - g.1) (maskSpans h.mask)
            let s0 := (((badKept.foldl (fun t w => t.gsFault x.sch w) s).bufferUe (bitsSet ue) n).fabricUe (bitsSet arm) x.sch).corrected
              (min fault.fixed (bitsSet words + kept.length))
            let s1 := s0.modSeg n fun h => { h with poison := h.poison ||| ue }
            let s2 := (s1.writeOut r (slice h.data (r.a % 512) r.n) poison badWords).withdraw (.write d)
            let s3 := s2.modDesc d fun x => { x with
              poison := x.poison || poison, badWords := badWords,
              pieces := x.pieces.map fun p => if p = q then { p with asked := p.asked + r.n, issued := total ≤ p.asked + r.n } else p }
            let s4 := if poison then s3.poisonCmd x.sch x.cmd else s3
            (if host && s.refusesWrite r.e.pasid then s4.writeRefused x.sch x.cmd else s4).onward d)

/-- R297, R291: the write has been accepted: the piece is visible, its segment is freed, and the events of its descriptor follow. -/
def execDmaWriteVisible (d piece : Nat) (s : State) : Res :=
  .next (match AMap.get? s.dma.descs d with
    | none => s
    | some x =>
      match x.pieces.find? fun q => q.issued && q.idx = piece with
      | none => s
      | some q =>
        if x.rd then s
        else
          let o : SegOwner := .xfer x.sch x.cmd q.pc q.x
          let s1 := s.modDesc d fun x => { x with pieces := x.pieces.erase q }
          match s1.segOf o piece with
          | none => s1.onward d
          | some n =>
            let m := ((AMap.get? s1.dma.segs n).map (·.mask)).getD 0
            let s2 := (maskSpans m).foldl (fun t g => t.descMoved d (512 * piece + g.1) (512 * piece + g.2)) s1
            (s2.releaseSeg n o).onward d)

/-! ## The read engine (R294, R300) -/

/-- Take a segment for each of some pieces. -/
def State.allocAll (s : State) (quad sch no pc x : Nat) (who : WaitWho) (pieces segs : List Nat) : Option State :=
  match pieces with
  | [] => some s
  | k :: pieces =>
    match s.segFor quad sch no pc x k false who segs with
    | none => none
    | some (s1, _, rest) => State.allocAll s1 quad sch no pc x who pieces rest

/-- The pieces of the whole exchange, for one that takes all its segments at once. -/
def Piece.all (p : Piece) : List Nat := (List.range ((p.len + 511) / 512)).map (p.off / 512 + ·)

/-- R294, R295: a waiting allocation is granted: one segment for the next piece of a read descriptor, or every segment of an
exchange above 4,096 segments at once. -/
def execSegmentAllocate (d piece : Nat) (segs : List Nat) (s : State) : Res :=
  .next (match AMap.get? s.dma.descs d with
    | none => s
    | some x =>
      match s.nextFill x with
      | none => s
      | some f =>
        match (s.cmd? x.sch x.cmd).bind fun c => c.pieces[f.pc]? with
        | none => s
        | some p =>
          let quad := exchQuad f.x
          if !x.rd || f.k ≠ piece || (s.segOf (.xfer x.sch x.cmd f.pc f.x) f.k).isSome then s
          else match s.allocAll quad x.sch x.cmd f.pc f.x (.seg d f.k) (if p.large then p.all else [f.k]) segs with
            | none => (s.segWait quad x.sch (.seg d f.k)).flowSync quad
            | some t => t.flowSync quad)

/-! ## Data that devices read (R163, R294) -/

/-- The segment of a 512-byte piece of an exchange, once every byte that the exchange has there is filled. -/
def State.filledSeg (s : State) (e : Exch) (x : Nat) (p : Piece) (k : Nat) : Option HeldSeg :=
  let full := maskOf ((p.part k).1 - 512 * k) ((p.part k).2 - (p.part k).1)
  (((s.segOf (.xfer e.sch e.cmd e.pc x) k).bind fun n => AMap.get? s.dma.segs n).filter fun h => h.mask &&& full = full)

/-- Read the bytes of an exchange's data for a device: none while a piece is not yet filled; and whether a word of their segments is
poisoned. -/
def State.readOut (s : State) (e : Exch) (x : Nat) (p : Piece) (a len : Nat) : Option (List Byte × Bool) :=
  let hs := (List.range ((a + len + 511) / 512 - a / 512)).map fun i => s.filledSeg e x p (a / 512 + i)
  if hs.all Option.isSome then
    let l := hs.filterMap id
    some (slice (l.flatMap fun h => fit 512 h.data) (a % 512) len, l.any fun h => h.poison ≠ 0)
  else none

/-- What the buffer finds as it delivers a word for a device: an uncorrectable one aborts the exchange before its segment leaves
(R289, R315). -/
def State.bufferFault (s : State) (e : Exch) (x a : Nat) : State :=
  ((s.bufferUe 1 ((s.segOf (.xfer e.sch e.cmd e.pc x) (a / 512)).getD 0)).poisonCmd e.sch e.cmd).giveUp x

/-- A device's read of an aperture is answered: its bytes go, or the exchange is aborted before a poisoned one does (R315). -/
def State.answerRead (s : State) (e : Exch) (quad port : Nat) (addr : Word) (x : Nat) (r : List Byte × Bool) : State :=
  if r.2 then (s.poisonCmd e.sch e.cmd).giveUp x else s.emit (.devMem quad port addr r.1)

/-- Words for a device that Armature brings uncorrectable: the exchange is aborted before they leave (R14, R315). -/
def State.fabricFault (s : State) (e : Exch) (x : Nat) : State := ((s.memError 3 0 0 e.sch).poisonCmd e.sch e.cmd).giveUp x

/-- A read that waits is answered if its bytes have come and EGRESS is granted to it; else it asks for EGRESS (R325, R331). -/
def State.answerWait (s : State) (x : Nat) (r : DevRead) : State :=
  match s.livePiece x with
  | none => s
  | some (e, _, p) =>
    match s.readOut e x p (p.off + r.off) r.len with
    | none => s
    | some bs =>
      let res := 3 + exchQuad x
      if !s.winsAs res (s.progKey e.sch) (32 + exchQuad x) e.sch (.answer x) then
        (s.onDma fun d => { d with devReads := d.devReads.map fun q => if q = r then { r with due := true } else q }).request res
          (s.progKey e.sch) (32 + exchQuad x) e.sch (.answer x)
      else
        let s1 := (s.onDma fun d => { d with devReads := d.devReads.erase r }).withdraw (.answer x)
        match r.fault with
        | .buffer => s1.bufferFault e x (p.off + r.off)
        | .fabric => s1.fabricFault e x
        | .corrected => (s1.corrected 1).answerRead e (exchQuad x) r.port r.addr x bs
        | .sound => s1.answerRead e (exchQuad x) r.port r.addr x bs

/-- Reads of an exchange's aperture that waited for their bytes are answered when these have come (R294). -/
def State.answerReads (s : State) (x : Nat) : State :=
  (s.dma.devReads.filter fun r => r.x = x).foldl (fun t r => t.answerWait x r) s

/-! ## The read engine, piece by piece -/

/-- Data for a device is in its segment: the bytes count as done, and a full piece leaves the engine (R297). -/
def State.filled (s : State) (d : Nat) (pc x' k a : Nat) (bs : List Byte) (bad : BitVec 8) : State :=
  match AMap.get? s.dma.descs d with
  | none => s
  | some x =>
    match s.segOf (.xfer x.sch x.cmd pc x') k with
    | none => s
    | some n =>
      let s1 := s.modSeg n fun h => h.fill (a - 512 * k) bs bad
      let part := (((s.cmd? x.sch x.cmd).bind fun c => c.pieces[pc]?).map fun p => p.part k).getD (0, 0)
      let s2 := s1.modDesc d fun x => { x with
        poison := x.poison || bad ≠ 0,
        pieces := (x.pieces.map fun q => if q.idx = k && q.pc = pc then { q with got := q.got + bs.length } else q).filter
          fun q => !(q.idx = k && q.pc = pc && part.2 - part.1 ≤ q.got) }
      (s2.descMoved d a (a + bs.length)).answerReads x'

/-- The piece that a request fills is in hand from its first request on. -/
def Desc.ask (d : Desc) (k pc x n : Nat) : Desc :=
  if d.pieces.any fun q => q.idx = k && q.pc = pc then
    { d with pieces := d.pieces.map fun q => if q.idx = k && q.pc = pc then { q with asked := q.asked + n } else q }
  else { d with pieces := d.pieces ++ [⟨k, pc, x, false, n, 0, d.mayFrom⟩] }

/-- R300: the next request of a read descriptor, to host memory with a tag, or to the global scratchpad at once, some of whose words
it may find uncorrectable (R196), or Armature may bring so (R14). The first request of a piece takes its segment (R291). -/
def execDmaReadIssue (d piece tag : Nat) (seg : ReadSeg) (s : State) : Res :=
  .next (match AMap.get? s.dma.descs d with
    | none => s
    | some x =>
      match s.nextFill x, s.cmd? x.sch x.cmd with
      | some f, some c =>
        match extAt c.ext f.a, c.pieces[f.pc]? with
        | some (e, o), some p =>
          let addr := e.addr.toNat + o
          let left := min (f.b - f.a) (e.len - o)
          let quad := exchQuad f.x
          if !x.rd || !x.chan || f.k ≠ piece
              || (e.host && (!s.granted (.read d) || !s.link.mayIssue || !s.tagFree tag || !s.poolFree 2 (s.clsOf x.sch))) then s
          else if p.large && (s.segOf (.xfer x.sch x.cmd f.pc f.x) f.k).isNone then
            ((s.segWait quad x.sch (.seg d f.k)).onward d).flowSync quad
          else match s.segFor quad x.sch x.cmd f.pc f.x f.k false (.seg d f.k) [seg.seg] with
            | none => ((s.segWait quad x.sch (.seg d f.k)).onward d).flowSync quad
            | some (s1, _, _) =>
              let n := if e.host then reqLen addr left s.link.mrrs else left
              let s2 := (s1.modDesc d fun x => x.ask f.k f.pc f.x n).flowSync quad
              if e.host then
                ((((s2.withdraw (.read d)).takeRead tag (.dma d f.k f.a n)).hostRead tag (BitVec.ofNat 64 addr) e.pasid n)).onward d
              else
                let hit := (gsWords addr n).filter seg.bad.contains
                let arm := (gsWords addr n).filter seg.arm.contains
                let s3 := ((hit.foldl (fun t w => t.gsFault x.sch w) s2).fabricUe arm.length x.sch).corrected
                  (min seg.fixed (gsWords addr n).length)
                let r := s3.gsFetch addr n
                let flags := r.zipIdx.foldl (fun m b => if b.1.2 || arm.contains ((addr + b.2) / 8) then
                  m ||| wordsOf f.k (f.a + b.2) (f.a + b.2 + 1) else m) 0
                (s3.filled d f.pc f.x f.k f.a (r.map (·.1)) flags).onward d
        | some _, none => s
        | none, some _ => s
        | none, none => s
      | some _, none => s
      | none, some _ => s
      | none, none => s)

/-- How a failed or poisoned read for a device shows: in CSTAT, and its exchange is aborted before the piece leaves (R65,
R534). -/
def State.fillFailed (s : State) (d a : Nat) (st : CplStatus) : State :=
  match AMap.get? s.dma.descs d with
  | none => s
  | some x =>
    match s.cmd? x.sch x.cmd with
    | none => s
    | some c =>
      let s1 := s.readFailed x.sch st
      match c.pieces[c.pieceAt a]? with
      | none => s1
      | some p => match p.st with
        | .sent n => s1.giveUp n
        | .unsent _ _ => s1
        | .ended _ _ => s1
        | .cut => s1

/-- R300, R65, R315, R534: a completion of a read request arrives, or the request fails. One that brings fewer bytes than are wanted
leaves the read open for the rest. Poisoned data sets the flags of the buffer words it fills; so does a word that Armature finds
uncorrectable (R14). A read whose piece has left the engine frees its tag, and its failure still sets its bit while the program
lives. -/
def execDmaReadCompletion (tag : Nat) (st : CplStatus) (data : Checked (List Byte)) (s : State) : Res :=
  .next (match AMap.get? s.link.reads tag with
    | some (.dma d k a n) =>
      if s.link.drops st then s
      else
      let st := s.cplOf tag st
      let m := data.val.length
      let more := (st = .ok || st = .poison) && m ≠ 0 && m < n
      let s1 := (if more then s.onLink fun l => { l with reads := AMap.put l.reads tag (.dma d k (a + m) (n - m)) }
        else s.dropRead tag).countCpl st
      let n := if more then m else n
      match AMap.get? s1.dma.descs d with
      | none => s1
      | some x =>
        match x.pieces.find? fun q => q.idx = k && ((s1.cmd? x.sch x.cmd).map (·.pieceAt a)) = some q.pc with
        | none => s1.readFailed x.sch st
        | some q =>
          let came := st = .ok || st = .poison
          let bad := (data.ue && came) || st = .poison
          let s2 := if !came then s1 else if data.ue then s1.memError 3 0 0 x.sch else s1.eccFix data.ecc
          let s3 := if came then s2.filled d q.pc q.x k a (fit n data.val) (if bad then wordsOf k a (a + n) else 0) else s2
          let s4 := if st = .ok then s3 else s3.fillFailed d a st
          s4.onward d
    | some (.ring _ _ _) => s
    | some (.text _ _) => s
    | some (.load _ _) => s
    | none => s)

end Sys2Proof.Machine
end

