-- ==== Sys2Proof/Machine/Fifo.lean ====
section
/-! DEFINITION. Sys2Proof/Machine/Fifo.lean: frames through the receive and transmit FIFOs, flow control, and the memory requests of
devices (09, 11). -/

namespace Sys2Proof.Machine

/-! ## FIFO words (R305 to R307) -/

/-- One even-parity bit for each 32-bit lane word of 64 data bytes. -/
def parityOf (data : List Byte) : BitVec 16 :=
  BitVec.ofNat 16 (sumBy (fun j =>
    let w := BitVec.ofNat 32 (rd data (4 * j) 4)
    (countBelow 32 fun i => w.getLsbD i) % 2 * 2 ^ j) (List.range 16))

def fifoWord (type : BitVec 2) (vb : Nat) (data : List Byte) : FifoWord :=
  let d := fit 64 data
  ⟨type, BitVec.ofNat 6 vb, false, parityOf d, d⟩

/-- The HEAD word of R307. -/
def headWord (len fstat port : Nat) (time : Time) : FifoWord :=
  fifoWord 1 0 (leBytes 2 len ++ leBytes 1 fstat ++ leBytes 1 port ++ leBytes 6 time.toNat)

/-- The DATA words of a frame and its LAST word (R306). -/
def bodyWords (n : Nat) (bs : List Byte) : List FifoWord :=
  match n with
  | 0 => []
  | n + 1 =>
    if bs.isEmpty then []
    else if bs.length ≤ 64 then [fifoWord 3 (bs.length - 1) bs]
    else fifoWord 2 63 (bs.take 64) :: bodyWords n (bs.drop 64)

/-- The FIFO words of a frame (R306). -/
def packFrame (bs : List Byte) (fstat port : Nat) (time : Time) : List FifoWord :=
  headWord bs.length fstat port time :: bodyWords (bs.length / 64 + 1) bs

/-- The bytes that a DATA or LAST word brings. -/
def FifoWord.bytes (w : FifoWord) : List Byte := w.data.take (w.vb.toNat + 1)

/-- The bytes of a frame in a FIFO. -/
def RxFrame.bytes (r : RxFrame) : List Byte := r.words.tail.flatMap FifoWord.bytes

/-! ## Banks (R304, R309) -/

def Banks.occ (b : Banks) : Nat := b.wr + b.left

/-- Words that the writer can still write: the rest of its bank, and the other bank where that is empty. -/
def Banks.room (b : Banks) : Nat := (128 - b.wr) + (if b.left = 0 then 128 else 0)

/-- The bank changes hands when a frame has ended in it and the reader's bank is empty. -/
def Banks.handOver (b : Banks) : Banks := if b.left = 0 && b.wr ≠ 0 then ⟨0, b.wr, !b.bank⟩ else b

/-- The writer writes words; a full bank is handed over. -/
def Banks.push (b : Banks) (n : Nat) : Banks :=
  (if b.wr + n ≤ 128 then { b with wr := b.wr + n } else ⟨b.wr + n - 128, b.left + 128, !b.bank⟩).handOver

/-- The reader reads words. -/
def Banks.pop (b : Banks) (n : Nat) : Banks :=
  if n ≤ b.left then Banks.handOver { b with left := b.left - n }
  else
    let g := Banks.handOver { b with left := 0 }
    Banks.handOver { g with left := g.left - (n - b.left) }

/-! ## Receive FIFO (R304 to R313) -/

def Fifo.occ (f : Fifo) : Nat := f.rxB.occ

/-- FIFO words of a frame: HEAD, and one for each 64 bytes (R306) (log 45, DEDUCED). -/
def frameWords (len : Nat) : Nat := 1 + (len + 63) / 64

/-- R311: the stop state begins when OCC reaches HIGH, and ends when it is at or below LOW. -/
def Fifo.flow (f : Fifo) : Fifo :=
  if f.stop then (if f.occ ≤ f.low then { f with stop := false } else f)
  else if f.high ≤ f.occ then { f with stop := true, stops := inc16 f.stops } else f

/-- A change of a quad's FIFO with its stop state, its in-band stop and its pin. -/
def State.onFifo (s : State) (quad : Nat) (f : Fifo → Fifo) : State := (s.modFifo quad fun x => (f x).flow).flowSync quad

/-- A frame is lost: FIFO_OVERRUN, and the transport failure of its exchange (R313). -/
def State.overrun (s : State) (x : Nat) : State :=
  (s.onDma fun d => { d with fifoOverrun := inc16 d.fifoOverrun }).transport x

/-- The port has a link of the quad's mode. -/
def State.portUp (s : State) (quad port : Nat) : Bool :=
  (s.portOf quad port).st = 2 && !(modeLanes (s.quadOf quad).cfg.mode port).isEmpty

/-- A frame for an exchange keeps its SAS connection open (R365). -/
def State.touchConn (s : State) (x : Nat) : State :=
  match AMap.get? s.dev.exch x with
  | none => s
  | some e => s.useConn e.dev ⟨e.quad, e.port, false⟩

/-- R306 to R309, R313: a frame from the lanes. -/
def execFrameReceive (quad : Nat) (fr : Frame) (s : State) : Res :=
  .next (
    if !s.portUp quad fr.port || 1152 < fr.bytes.length then s
    else
      let room := (s.fifoOf quad).rxB.room
      let x := 4096 * quad + fr.idx
      let fstat := if room < frameWords fr.bytes.length then 3 else if fr.crcBad then 1 else if fr.cut then 2 else 0
      let words := (packFrame fr.bytes fstat fr.port s.time).take room
      let s0 := s.touchConn x
      if room = 0 then s0.overrun x
      else
        let s1 := s0.onFifo quad fun f => { f with rxB := f.rxB.push words.length, rx := f.rx ++ [⟨fr, words, fstat, s.time⟩] }
        if fstat = 3 then s1.overrun x else s1)

/-- The frame at the front leaves the receive FIFO. -/
def State.popFrame (s : State) (quad : Nat) (r : RxFrame) : State :=
  (s.unwait 37 (.frame quad)).onFifo quad fun f => { f with rxB := f.rxB.pop r.words.length, rx := f.rx.tail }

/-- The command offsets that the bytes of some FIFO words of a frame take: `off` is where its payload starts. -/
def badSpans (r : RxFrame) (off : Nat) (bad : List Nat) : List (Nat × Nat) :=
  bad.map fun k => (off + (64 * (k - 1) - r.fr.hdr), off + (64 * k - r.fr.hdr))

/-- R308, R310, R314: the frame mover takes the oldest frame: it discards one that is not GOOD or whose HEAD word fails its parity,
and writes the payload of another into the segments of its exchange. A payload for an exchange that is aborted, has ended or
takes no data is discarded (R321). -/
def execFrameMove (quad : Nat) (found : BadFifo) (segs : List Nat) (s : State) : Res :=
  .next (match (s.fifoOf quad).rx with
    | [] => s
    | r :: _ =>
      let x := 4096 * quad + r.fr.idx
      let badHead := found.parity.contains 0
      let bad := (found.parity.eraseDups).filter fun k => k < r.words.length && (k ≠ 0 || r.fstat = 0 || badHead)
      let s1 := s.popFrame quad r
      let s2 := s1.onDma fun d => { d with fifoParity := sat 16 (d.fifoParity + bad.length) }
      if badHead then s2.overrun x
      else if r.fstat ≠ 0 then s2
      else match s2.livePiece x with
        | none => s2
        | some (e, c, p) =>
          let off := p.off + r.fr.off
          let bs := (r.bytes.drop r.fr.hdr).take (p.off + p.len - off)
          let hit := found.arm.filter fun k => 0 < k && k < r.words.length
          if !c.toMem || bs.isEmpty || e.port ≠ r.fr.port then s2
          else
            let s3 := (hit.foldl (fun t _ => t.memError 3 0 0 e.sch) s2).corrected (min found.fixed r.words.length)
            match State.deliver (bs.length / 512 + 2) s3 quad e.sch e.cmd e.pc x c p off bs (badSpans r off (bad ++ hit))
                (.frame quad) segs with
            | none => (s.segWait quad e.sch (.frame quad)).flowSync quad
            | some t => t.flowSync quad)

/-- A pair of watermarks that is out of order is ignored as a whole (R324). -/
def State.setWatermarks (s : State) (quad : Nat) (val : Word) : State :=
  let high := bits val.toNat 0 9
  let low := bits val.toNat 9 9
  if high < low + 16 || 240 < high then s else s.modFifo quad fun f => { f with high := high, low := low }

/-- R324: DM_FIFO_WM takes effect when the pair is in order. `hi4` names the half of a 4-byte write. -/
def execFifoWatermarkWrite (quad : Nat) (hi4 : Option Bool) (val : Word) (s : State) : Res :=
  .next (s.bar0Write (if hi4.isSome then 4 else 8) true (
    if s.link.ep = .recovery || hi4 = some true then s else s.setWatermarks quad val))

/-! ## Transmit FIFO (R306, R309, R314) -/

/-- The bytes that one frame or write request of an exchange carries at most: 512, and to a PMEM endpoint no more than its root port's
Max Payload Size (R170). -/
def Exch.outMax (e : Exch) : Nat := if e.kind = 3 then min 512 (portMps e.quad e.port) else 512

/-- The next bytes of an exchange's data that go out as a frame on a SAS port, or as a write request to a PMEM endpoint: part of one
segment, filled. -/
def State.nextOut (s : State) (x : Nat) : Option (Exch × Piece × HeldSeg × Nat) :=
  match s.livePiece x with
  | none => none
  | some (e, c, p) =>
    if c.toMem || (e.st ≠ .reached && e.kind ≠ 3) || e.kind = 1 || p.len ≤ e.sentOff then none
    else
      let a := p.off + e.sentOff
      let len := min ((p.part (a / 512)).2 - a) e.outMax
      match s.segOf (.xfer e.sch e.cmd e.pc x) (a / 512) with
      | none => none
      | some n =>
        match AMap.get? s.dma.segs n with
        | none => none
        | some h =>
          if (s.filledSeg e x p (a / 512)).isSome then some (e, p, h, len) else none

/-- The next frame of an exchange enters the transmit FIFO; a poisoned segment aborts the exchange first (R315)
(log 45, DEDUCED). -/
def State.offer (s : State) (x : Nat) : State :=
  match s.nextOut x with
  | none => s
  | some (e, p, h, len) =>
    let a := p.off + e.sentOff
    if h.poison ≠ 0 then (s.poisonCmd e.sch e.cmd).giveUp x
    else
      let fr : Frame := ⟨e.port, slice h.data (a % 512) len, false, false, x % 4096, e.sentOff, 0⟩
      let words := packFrame (List.replicate 24 0 ++ fr.bytes) 0 e.port s.time
      if (s.fifoOf e.quad).txB.room < words.length then s
      else (s.modFifo e.quad fun f => { f with tx := f.tx ++ [⟨fr, words, 0, s.time⟩], txB := f.txB.push words.length }).modExch x
        fun e => { e with sentOff := e.sentOff + len }

/-- An exchange takes its place in a list in the order of R329. -/
def State.byKey (s : State) (x : Nat) (l : List Nat) : List Nat :=
  match l with
  | [] => [x]
  | y :: l =>
    match AMap.get? s.dev.exch x, AMap.get? s.dev.exch y with
    | some e, some f => if f.asReq.less e.asReq then y :: State.byKey s x l else x :: y :: l
    | some _, none => x :: y :: l
    | none, some _ => x :: y :: l
    | none, none => x :: y :: l

/-- The frame of an exchange may leave: it is granted EGRESS in this step, and a connection stands ready (R331, R365). -/
def State.frameReady (s : State) (quad x : Nat) : Bool :=
  match s.livePiece x with
  | none => !s.md.frozen (3 + quad)
  | some (e, _, _) => s.wins (3 + quad) (e.bg, e.dl) (32 + quad) e.sch && s.connReady e.dev e.pathDesc

/-- A frame enters the transmit FIFO as EGRESS is granted to it, so that a smaller key passes at every frame: the next one of the exchange
with the smallest key that has data to send and may send it (R329, R331). -/
def State.offerNext (s : State) (quad : Nat) : State :=
  if !(s.fifoOf quad).tx.isEmpty then s
  else match ((s.exchWhere fun e => e.quad = quad).foldr s.byKey []).find? fun x => (s.nextOut x).isSome && s.frameReady quad x with
    | some x => s.offer x
    | none => s

/-- A parity fault on the transmit side; the sixteenth within 1 s brings a quad reset (R387). -/
def State.txFault (s : State) (quad : Nat) : State :=
  let l := s.time :: (s.fifoOf quad).txFaults.filter fun t => !reached s.time (addNs t 1000000000)
  let s1 := s.modFifo quad fun f => { f with txFaults := l.take 16 }
  if 16 ≤ l.length then s1.modQuad quad fun q => { q with resetReq := true } else s1

/-- The payload of a frame leaves: as a write request at the BAR offset to a PMEM endpoint (R170), else as data of its exchange. -/
def State.sendPayload (s : State) (x : Nat) (e : Exch) (p : Piece) (off : Nat) (data : List Byte) : State :=
  if e.kind = 3 then s.emit (.pmemWrite x e.ctrl (p.blk + off) data)
  else s.emit (.devData x off data)

/-- R309, R314, R315: the lane transmitter takes the next frame. A word that fails its parity ends the frame with the link's
invalidation and its exchange with a transport failure; a word that the buffer or Armature finds uncorrectable aborts the exchange
before its segment leaves (R14, R289). Frames of an exchange that has ended are dropped (log 45, DEDUCED). -/
def execFrameTransmit (quad : Nat) (parityBad : Bool) (fault : FrameFault) (s : State) : Res :=
  .next (
    let s := s.offerNext quad
    match (s.fifoOf quad).tx with
    | [] => s
    | r :: rest =>
      let x := 4096 * quad + r.fr.idx
      if !s.frameReady quad x then s else
      let s1 := s.modFifo quad fun f => { f with tx := rest, txB := f.txB.pop r.words.length }
      match s1.livePiece x with
      | none => s1
      | some (e, _, p) =>
        let s1 := if fault = .corrected then s1.corrected 1 else s1
        if fault = .buffer then s1.bufferFault e x (p.off + r.fr.off)
        else if fault = .fabric then s1.fabricFault e x
        else if parityBad then
          (((s1.onDma fun d => { d with fifoParity := inc16 d.fifoParity }).txFault quad).emit
            (.frame quad r.fr.port r.fr.bytes true)).transport x
        else (s1.sendPayload x e p r.fr.off r.fr.bytes).touchConn x)

/-! ## Memory requests of devices (R358) -/

/-- The windows of the device-side map. -/
inductive DevWin where
  | aperture (x off : Nat)
  | queueRam
  | capture
  | prp (x off : Nat)
  | outside
  deriving DecidableEq, Repr

def devWin (addr len : Nat) : DevWin :=
  if 0x100000000 ≤ addr && addr + len ≤ 0x300000000 then
    .aperture ((addr - 0x100000000) / 2097152) ((addr - 0x100000000) % 2097152)
  else if 0x300000000 ≤ addr && addr + len ≤ 0x300040000 then .queueRam
  else if 0x300080000 ≤ addr && addr + len ≤ 0x300081000 then .capture
  else if 0x400000000 ≤ addr && addr + len ≤ 0x401000000 then .prp ((addr - 0x400000000) / 4096) ((addr - 0x400000000) % 4096)
  else .outside

/-- Entry j of the list of exchange x: the aperture address of page j + 1. -/
def prpEntry (x j : Nat) : Nat := 0x100000000 + x * 2097152 + (j + 1) * 4096

/-- Bytes of the PRP list window, computed as they are read. -/
def prpBytes (x off len : Nat) : List Byte :=
  slice ((List.range (len / 8 + 2)).flatMap fun j => leBytes 8 (prpEntry x (off / 8 + j))) (off % 8) len

/-- The quad refuses a device request: DEV_UR and a record, which names the device where the request belongs to an exchange (R436); the
exchange has a transport failure. -/
def State.devRefuse (s : State) (quad port : Nat) (addr : Word) (x : Option Nat) : State :=
  let id := ((x.bind fun x => AMap.get? s.dev.exch x).map s.exchDiscId).getD 0
  let s1 := (((s.modQuad quad fun q => { q with devUr := inc16 q.devUr }).event (32 + quad) 5 2 quad port 0 id).emit
    (.devUr quad port addr))
  match x with
  | some x => s1.transport x
  | none => s1

/-- A request to the aperture of an exchange, within the part it owns: a read waits until its bytes are there (R294). -/
def State.apertureReq (s : State) (quad port : Nat) (r : DevMemReq) (x off : Nat) : State :=
  match s.livePiece x with
  | none =>
    match AMap.get? s.dev.exch x with
    | some e => if e.st = .aborting && r.write then s else s.devRefuse quad port r.addr (some x)
    | none => s.devRefuse quad port r.addr none
  | some (e, c, p) =>
    let own := if c.op = .control && c.code = 9 then 16 else p.len
    if e.port ≠ port || own < off + r.len || c.toMem ≠ r.write then s.devRefuse quad port r.addr (some x)
    else if r.write then
      let words := (r.len + 63) / 64
      let hit := r.bad.dedup.filter (· < words)
      let spans := hit.map fun k => (p.off + off + 64 * k, p.off + off + 64 * k + 64)
      let s1 := (hit.foldl (fun t _ => t.memError 3 0 0 e.sch) s).corrected (min r.fixed words)
      match State.deliver (r.len / 512 + 2) s1 quad e.sch e.cmd e.pc x c p (p.off + off) r.data spans (.dev x) r.segs with
      | none => (s.segWait quad e.sch (.dev x)).flowSync quad
      | some t => (t.unwait 37 (.dev x)).flowSync quad
    else if c.op = .control then s.emit (.devMem quad port r.addr (slice (dsmRange p) off r.len))
    else
      let q : DevRead := ⟨x, port, r.addr, off, r.len, r.fault, false⟩
      (s.onDma fun d => { d with devReads := d.devReads ++ [q] }).answerWait x q

/-- A request to the queue RAM of a quad: bytes that the device writes stand there; what the quad's own entries hold, and where, is open
(R358) (log 71, DESIGN CHOICE). -/
def State.queueRamReq (s : State) (quad port : Nat) (r : DevMemReq) : State :=
  let at_ := 2 ^ 18 * quad + (r.addr.toNat - 0x300000000)
  if r.write then s.onDev fun d => { d with qram := (r.data.zipIdx).foldl (fun m e => AMap.put m (at_ + e.2) e.1) d.qram }
  else
    let bs := (List.range r.len).map fun i => AMap.getD s.dev.qram (at_ + i) (Config.queueRam s.fresh (at_ + i))
    ({ s with fresh := s.fresh + 1 } : State).emit (.devMem quad port r.addr bs)

/-- A request to the list of an exchange: one that stands at an NVMe controller of the port owns the window of its list, which the quad
answers by computation; nothing is written there (R358). -/
def State.prpReq (s : State) (quad port : Nat) (r : DevMemReq) (x off : Nat) : State :=
  match AMap.get? s.dev.exch x with
  | none => s.devRefuse quad port r.addr none
  | some e =>
    if r.write || e.port ≠ port || e.kind ≠ 1 || 4096 < off + r.len then s.devRefuse quad port r.addr (some x)
    else s.emit (.devMem quad port r.addr (prpBytes (x % 4096) off r.len))

/-- R358: a device request to a root port. The queue RAM and the capture window belong to the quad's own NVMe driver, and a read of the
capture window is refused like one outside the windows (log 71, DESIGN CHOICE); a write beyond the 512 bytes of R357 is no request that
the port takes (log 47, DEDUCED). -/
def execDeviceMemoryRequest (quad port : Nat) (req : DevMemReq) (s : State) : Res :=
  .next (
    if !s.portUp quad port || !isPcie (s.quadOf quad).cfg.mode || (req.write && 512 < req.len) then s
    else
      let s := s.usePort quad port
      match devWin req.addr.toNat req.len with
      | .aperture x off => s.apertureReq quad port req (4096 * quad + x) off
      | .queueRam => s.queueRamReq quad port req
      | .capture => if req.write then s else s.devRefuse quad port req.addr none
      | .prp x off => s.prpReq quad port req (4096 * quad + x) off
      | .outside => s.devRefuse quad port req.addr none)

end Sys2Proof.Machine
end

