-- ==== Sys2Proof/Machine/Awake.lean ====
section
/-! DEFINITION. Sys2Proof/Machine/Awake.lean: the awake set, the timer wheel's earliest entry, and the power states of clusters
(R482 to R487). -/

namespace Sys2Proof.Machine

/-! ## The awake set (R484) -/

def ceilDiv (a b : Nat) : Nat := if b = 0 then 0 else (a + b - 1) / b

/-- N of R484. -/
def State.nAwake (s : State) : Nat :=
  let m := s.md.sched
  let e := if m.admitted.getLsbD 0 && s.md.valid then countBelow 16 fun k => m.expClusters.getLsbD k else 0
  let t := ceilDiv (sumBy (fun c => (m.rec_ c).resThr) (List.range 7)) 256
  let u := ceilDiv (s.utilPpm 0 * s.capOf 0) 8000000000
  min (16 - s.fencedN) (max e (max t u) + 1)

/-- The members of the awake set: unfenced express clusters, then the other unfenced ones, in ascending number. -/
def State.awakeSet (s : State) : List Nat :=
  let up := (List.range 16).filter fun k => !s.tally.fenced.getLsbD k
  let x (k : Nat) : Bool := s.md.sched.expClusters.getLsbD k
  (up.filter x ++ up.filter fun k => !x k).take s.nAwake

/-- A cluster begins to wake; wakes from DOZE and SLEEP count (R498). -/
def State.wake (s : State) (k : Nat) : State :=
  let c := s.cluOf k
  if c.waking || c.st = .run || c.st = .nap then s
  else (s.modClu k fun c => { c with waking := true }).onPw fun p =>
    if c.st = .doze then { p with dozeWakes := inc16 p.dozeWakes } else { p with sleepWakes := inc16 p.sleepWakes }

/-- R484: the set is computed again; a cluster that joins it wakes at once. -/
def State.recomputeAwake (s : State) : State :=
  let l := s.awakeSet
  let s1 := s.onPw fun p => { p with
    awakeN := s.nAwake, clusters := p.clusters.zipIdx.map fun e => { e.1 with awake := l.contains e.2 } }
  l.foldl (fun t k => t.wake k) s1

/-! ## The timer wheel (R479, R485) -/

def dueList (l : List (Option Time)) : List Time := l.filterMap id

/-- Every event that the wheel holds; an entry that has acted is in it no more. -/
def State.wheel (s : State) : List Time :=
  (s.sub.ctx.filter fun e => e.2.armed).map (·.2.expiry)
    ++ dueList (s.q.cqs.map fun e => e.2.aggDue)
    ++ s.pw.timers.map (·.2)
    ++ dueList [s.pw.wdogDue]
    ++ dueList (s.dev.exch.flatMap fun e => [e.2.abortDue, e.2.escDue])
    ++ dueList (s.dev.ghosts.flatMap fun e => [e.2.due, e.2.abortDue])
    ++ dueList (s.dev.quads.flatMap fun q => [q.sgpioDue] ++ q.conns.map (·.idleDue)
        ++ q.ports.flatMap fun p => [p.debounce, p.powerDue, p.offDue, p.retryDue, p.pollDue])
    ++ (s.dispatchQueue.filter fun k => s.clsOf k ≤ 5 && !(s.progOf k).missed).map fun k => (s.ctxOf k).deadline

/-- The time from now to the earliest entry, none for an empty wheel. -/
def State.nextWheel (s : State) : Option Nat :=
  (s.wheel.map fun t => if reached s.time t then 0 else (t - s.time).toNat).foldl
    (fun a n => some (match a with
      | none => n
      | some m => min m n)) none

def CluSt.depth (c : CluSt) : Nat :=
  match c with
  | .run => 0
  | .nap => 1
  | .doze => 2
  | .sleep => 3

/-- The deepest state whose wake time and break-even fit before the next entry, no deeper than MAXSTATE. -/
def restState (t : Option Nat) (maxState : Nat) : CluSt :=
  let fits (n : Nat) : Bool := match t with
    | none => true
    | some t => n ≤ t
  if 3 ≤ maxState && fits 140000 then .sleep
  else if 2 ≤ maxState && fits 10000 then .doze
  else if fits 50 then .nap
  else .run

/-- No thread of the cluster holds a program. -/
def State.cluIdle (s : State) (k : Nat) : Bool := s.threadsOn k = 0

/-- A cluster in a rest state: SLEEP keeps nothing in it, NAP and DOZE all (R482). -/
def Cluster.rests (c : Cluster) (st : CluSt) : Cluster :=
  if st = .sleep then { Cluster.off with awake := c.awake } else { c with st := st, waking := false }

/-- A cluster takes a rest state. -/
def State.rest (s : State) (k : Nat) (st : CluSt) : State :=
  let s1 := s.modClu k fun c => c.rests st
  if st = .sleep && (s.cluOf k).st ≠ .sleep then s1.onPw fun p => { p with sleeps := inc16 p.sleeps } else s1

/-- R485: an idle cluster rests: NAP inside the awake set, the deepest fitting state outside it, never shallower than before. -/
def execClusterIdle (cluster : Nat) (s : State) : Res :=
  .next (
    let c := s.cluOf cluster
    if !s.cluIdle cluster || c.waking || s.tally.fenced.getLsbD cluster || !s.pw.supUp then s
    else if c.awake then (if c.st = .run then s.rest cluster .nap else s)
    else
      let st := restState s.nextWheel s.pw.maxState
      if c.st.depth < st.depth then s.rest cluster st else s)

/-- Clusters in RUN or NAP have no thread that a waiting request could take. -/
def State.noThreadFree (s : State) : Bool :=
  (List.range 16).all fun k =>
    let c := s.cluOf k
    !((c.st = .run || c.st = .nap) && !c.waking && !s.tally.fenced.getLsbD k && s.threadsOn k < 256)

/-- The cluster that a demand wakes next: outside the awake set, the shallowest state first, then the lower number. -/
def State.wakeNext (s : State) : Option Nat :=
  let l := (List.range 16).filter fun k => let c := s.cluOf k
    !c.awake && !c.waking && !s.tally.fenced.getLsbD k && (c.st = .doze || c.st = .sleep)
  match l.find? fun k => (s.cluOf k).st = .doze with
  | some k => some k
  | none => l.head?

/-- R486: a demand wake; one cluster for each 256 waiting requests. -/
def execClusterWake (cluster : Nat) (s : State) : Res :=
  .next (
    let n := ceilDiv s.dispatchQueue.length 256
    let going := countBelow 16 fun k => (s.cluOf k).waking && !(s.cluOf k).awake
    if s.noThreadFree && going < n && s.wakeNext = some cluster && s.pw.supUp then
      (s.wake cluster).onPw fun p => { p with demandWakes := inc16 p.demandWakes }
    else s)

/-- A cluster that has woken: from SLEEP it reloads its decode-table copy, writes its scratchpad UNSET, and has an empty instruction cache;
from DOZE it finds all of them (R482, R483). -/
def Cluster.woken (c : Cluster) : Cluster :=
  if c.st = .sleep then { c with st := .run, waking := false, table := true, pad := true, cache := [] } else { c with st := .run, waking := false }

/-- A raise of the core supply that the monitors have called for is not acknowledged yet (R489). -/
def Power.raising (p : Power) : Bool := p.vcoreTry.any fun mv => p.vcore < mv

/-- R482, R483, R489: a waking cluster is in RUN, once the supply has the target that the monitors call for. -/
def execClusterWakeDone (cluster : Nat) (s : State) : Res :=
  .next (if (s.cluOf cluster).waking && !s.pw.raising then s.modClu cluster Cluster.woken else s)

/-- The new MAXSTATE; 0b00 is taken as 0b01 (R498). -/
def State.setMaxState (s : State) (val : Word) : State :=
  (s.onPw fun p => { p with maxState := max 1 (bits val.toNat 0 2) }).recomputeAwake

/-- R498: MAXSTATE; a write of 0 is taken as NAP. The awake set is computed again (R484). -/
def execMaxstateWrite (val : Word) (s : State) : Res :=
  .next (s.bar0Write 8 true (if s.link.ep = .recovery then s else s.setMaxState val))

end Sys2Proof.Machine
end

