-- ==== Sys2Proof/Machine/Sirax.lean ====
section
/-! DEFINITION. Sys2Proof/Machine/Sirax.lean: the commands that issue the next bundle of a thread, one for each opcode. A command
fires when the bundle holds its opcode; it then issues the whole bundle. -/

namespace Sys2Proof.Machine

/-- An operation in long form, by its opcode. -/
def State.issueLong (s : State) (th : Nat) (t : Thread) (b : BitVec 128) (op : Op) : State :=
  let o := op.opc
  if o = 0x200 || o = 0x201 || o = 0x204 || o = 0x241 then s.opLoad th t op
  else if o = 0x202 || o = 0x203 || o = 0x205 then s.opStore th t b op
  else if o = 0x220 then s.opRpt th t op
  else if 0x230 ≤ o && o ≤ 0x233 then s.opBlock th t b op
  else if o = 0x240 || o = 0x242 then s.opAtomic th t op
  else if 0x250 ≤ o && o ≤ 0x252 then s.opCommit th t op
  else if 0x600 ≤ o && o ≤ 0x606 then s.opXfer th t op
  else s.issuePlain th t b [op]

/-- The issue of a bundle that has been fetched, in the order of R230. -/
def State.issue (s : State) (th : Nat) (t : Thread) (b : BitVec 128) : State :=
  let ops := decodeBundle b
  if t.budget = 0 then s.programCheck th t pcBudget
  else if pairCheck b ops ≠ 0 then s.programCheck th t (pairCheck b ops)
  else match ops with
    | [op] => s.issueLong th t b op
    | _ => s.issuePlain th t b ops

/-- The bundle that a thread can issue now: the thread runs (R205), the fetch checks of R153 pass, and the text is there. -/
def State.ready (s : State) (th : Nat) (t : Thread) : Option (BitVec 128) :=
  if s.runs th t && (t.cur.isSome || fetchCheck (s.segsOf t.stb) t.ic = 0) then s.bundle th t else none

/-! ## Words that a bundle finds uncorrectable (R14, R196) -/

/-- The words that an operand looks at: the word that names its place, and its own where it is read, as a set or clear store to the local
window reads the word that it changes (R318). -/
def Src.words (v : Env) (s : Src) (read : Bool) : List BadWord :=
  let own := if !read then (match s.place v 8 false true with
      | .ok (.win w view) => if view = 0 then [] else [.win w]
      | .ok (.frame _) => []
      | .ok (.mem _ _) => []
      | .ok (.imm _) => []
      | .error _ => [])
    else match s.place v 8 true false with
    | .ok (.frame n) => [BadWord.frame n]
    | .ok (.win w _) => [.win w]
    | .ok (.mem g off) => if g.type = 2 then [.gs (g.word off), .fabric] else []
    | .ok (.imm _) => []
    | .error _ => []
  match s with
  | .frame _ => own
  | .imm _ _ => own
  | .frameRpt _ => own
  | .localInd n _ _ => .frame n :: own
  | .globalInd n _ => .frame n :: own
  | .hostInd n _ => [.frame n]

/-- An operation reads the operand of a role: no destination, and scratchpad words in LDG, LRS and TAS alone. -/
def Op.readsRole (op : Op) (i : OpInfo) (r : Role) : Bool :=
  match r with
  | .dst => false
  | .src => true
  | .hmem => false
  | .gmem => op.opc = 0x204 || op.opc = 0x240 || op.opc = 0x241
  | .frame => i.kind = .xfer || i.kind = .block
  | .target => true
  | .immOnly => false
  | .count => true
  | .value => true

/-- The units that the next step of a block repeat reads. -/
def Thread.unitWords (t : Thread) (v : Env) (op : Op) (srcs : List Src) : List BadWord :=
  match t.run v op srcs with
  | .error _ => []
  | .ok r => (stepUnits op.opc).flatMap fun u =>
    match unitPlace v.segs (if u.1 = 0 then r.1 else r.2.1) (op.modN % 2 = 1) u.2 with
      | .ok (.win w view) => if u.2 && view = 0 then [] else [BadWord.win w]
      | .ok (.mem g off) => if g.type = 2 && !u.2 then [.gs (g.word off), .fabric] else []
      | .ok (.frame _) => []
      | .ok (.imm _) => []
      | .error _ => []

/-- An operation may release the store buffer: a commit point, one that the 6128 adds before it, or END (R188, R223, R224). -/
def Op.commits (op : Op) (t : Thread) : Bool :=
  let o := op.opc
  o = 0x001 || (0x250 ≤ o && o ≤ 0x252) || o = 0x240 || o = 0x242 || (0x600 ≤ o && o ≤ 0x606)
    || (32 ≤ t.sbuf.length && ((0x202 ≤ o && o ≤ 0x205) || (0x230 ≤ o && o ≤ 0x233))) || ((o = 0x200 || o = 0x201 || o = 0x204) && !t.sbuf.isEmpty)

/-- What an operation that may release the store buffer or the thread reads beside its operands: the words of the frame, which the
checkpoint record or the context takes (R196, R226), those that set and clear stores change, and the held sense data of SENSE. -/
def State.savedWords (s : State) (t : Thread) (op : Op) : List BadWord :=
  (if op.commits t then (List.range 64).map BadWord.frame else [])
    ++ (if op.commits t && op.opc ≠ 0x001 then (viewReads t.sbuf).map .gs else [])
    ++ (if op.opc = 0x603 then (List.range (((s.progOf t.sch).sense.length + 63) / 64)).map .sense else [])

/-- The words that an operation reads. -/
def State.readsOf (s : State) (t : Thread) (op : Op) : List BadWord :=
  let v := s.env t
  match (if op.customer then (s.decEntry t op.opc).map DecEntry.info else op.info) with
  | none => []
  | some i =>
    match op.operands i with
    | none => []
    | some srcs =>
      ((srcs.zip i.roles).flatMap fun x => x.1.words v (op.readsRole i x.2))
        ++ (if i.kind = .block then t.unitWords v op srcs else [])
        ++ (match i.kind, srcs with
          | .xfer, [_, .frame ps, .frame ns] =>
            (List.range (wordsNamed (xopOf op.opc) (if op.opc = 0x602 then (v.fr ps).pay.toNat else 0) !t.group.isEmpty)).map
              fun j => .frame (ns + 1 + j)
          | _, _ => [])
        ++ s.savedWords t op


/-- A word is delivered with tag POISON: UE of TL_MEMERR, a record, and the memory or the Armature source (R14, R196, R400). -/
def State.spoil (s : State) (t : Thread) (w : BadWord) : State × Thread :=
  match w with
  | .corrected => (s, t)
  | .frame n => (s.memError 4 0 0 t.sch, { t with f := modAt t.f n spoilWord })
  | .win k => (s.memError 4 0 0 t.sch, { t with win := AMap.put t.win k (spoilWord (AMap.getD t.win k TWord.unset)) })
  | .gs k => (s.gsFault t.sch k, t)
  | .fabric => (s.memError 3 0 0 t.sch, t)
  | .sense k => match (s.progOf t.sch).senseSeg with
    | none => (s, t)
    | some n => ((s.bufferUe 1 n).onDma fun x => { x with segs := AMap.upd x.segs n fun h => { h with poison := h.poison ||| (1#8 <<< k) } }, t)

/-- The word of the global scratchpad that a place names. -/
def BadWord.bank (w : BadWord) : Option Nat :=
  match w with
  | .gs k => some k
  | .corrected => none
  | .frame _ => none
  | .win _ => none
  | .fabric => none
  | .sense _ => none

/-- The result of a TAS, which Armature brings poisoned: the bank has acted; the word and CC are those of a POISON lock word (R14, R260)
(log 64, DESIGN CHOICE). -/
def Thread.spoilTas (t : Thread) (at_ : Nat) : Thread :=
  { t with pend := t.pend.map fun p => if p.at_ ≠ at_ then p else match p.loc with
    | .frame _ => { p with val := spoilWord p.val }
    | .cc => { p with val := ⟨p.val.tag, 0⟩ }
    | .win _ _ => p }

/-- The issue of a bundle to which Armature brings a word of the global scratchpad poisoned, while the bank keeps it sound (R14). -/
def State.issueFabric (s : State) (th : Nat) (t : Thread) (b : BitVec 128) (k : Nat) : State :=
  if (decodeBundle b).any fun op => op.opc = 0x240 then
    s.issue th t b |>.onSx fun x => { x with threads := AMap.upd x.threads th fun u => u.spoilTas (t.issue + 2) }
  else
    let old := s.gsRead k
    let s1 := (s.gsSpoil k).issue th t b
    if s1.gsRead k = spoilWord old then s1.onSx fun x => { x with gs := AMap.store x.gs k old TWord.unset } else s1

/-- A bundle changes no thread: it is held (R205). -/
def State.heldAt (s before : State) : Bool := s.sx.threads = before.sx.threads

/-- The words found uncorrectable, one by one. -/
def State.spoils (s : State) (t : Thread) (bad : List BadWord) : State × Thread :=
  match bad with
  | [] => (s, t)
  | w :: bad => (s.spoil t w).1.spoils (s.spoil t w).2 bad

/-- The issue of a bundle that finds some of the words that it reads uncorrectable, or corrected (R400). -/
def State.issueBad (s : State) (th : Nat) (t : Thread) (b : BitVec 128) (bad : List BadWord) : State :=
  let words := (decodeBundle b).flatMap (s.readsOf t)
  let s := s.corrected (min (bad.count .corrected) words.length)
  match bad.filter words.contains with
  | [] => s.issue th t b
  | bad =>
    let x := s.spoils t.settle bad
    match words.filterMap BadWord.bank with
    | k :: _ => if bad.contains .fabric then x.1.issueFabric th x.2 b k else x.1.issue th x.2 b
    | [] => x.1.issue th x.2 b

/-! ## The thread that issues (R205, R331) -/

/-- A thread goes before another of its engine: the nearer dispatch deadline, ties to the lower thread number. -/
def State.nearer (s : State) (a b : Nat × Thread) : Bool :=
  let x := s.dispKey a.2.sch
  let y := s.dispKey b.2.sch
  if x.1 ≠ y.1 then y.1 else if x.2 ≠ y.2 then before x.2 y.2 else a.1 < b.1

/-- A thread has a bundle that it could issue now. -/
def State.couldIssue (s : State) (th : Nat) (t : Thread) : Bool :=
  let x := s.adopt th t
  match x.1.ready th x.2 with
  | none => false
  | some b => !(x.1.issue th x.2 b).heldAt x.1

/-- The thread is in its routine, or its next bundle waits for the microsequencer, which runs the routine of another (R275). -/
def State.inMicro (s : State) (th : Nat) (t : Thread) : Bool :=
  match AMap.get? s.sx.micro (th / 32) with
  | none => false
  | some (o, _) => o = th || (let x := s.adopt th t
    ((x.1.ready th x.2).map fun b => (decodeBundle b).any Op.customer).getD false)

/-- A thread is not ready yet: it is among those of the last three issues of its engine, within the 4 cycles of R205, or a routine holds it
back (R275). -/
def State.notReady (s : State) (th : Nat) (t : Thread) : Bool :=
  (AMap.getD s.sx.recent (th / 32) []).contains th || s.inMicro th t

/-- The engine may take this thread now: no ready thread of the engine with a nearer deadline could issue, and no ready thread at all where
this one is not ready, since with none the cycles pass until it is (R205, R275); and the resource is not frozen (R334)
(log 70, DEDUCED). -/
def State.first (s : State) (th : Nat) (t : Thread) : Bool :=
  !s.md.frozen 0 && !(s.sx.threads.any fun e => e.1 ≠ th && e.1 / 32 = th / 32
    && !s.notReady e.1 e.2 && (s.notReady th t || s.nearer e (th, t)) && s.couldIssue e.1 e.2)

/-- The payload that a customer instruction reads from one of its sources. -/
def srcPay (v : Env) (op : Op) (e : DecEntry) (i : Nat) : Word :=
  let srcs := ((op.operands e.info).map fun l => (splitDst e.info l).2).getD []
  (((srcs[i]?).bind v.read?).map (·.pay)).getD 0

/-- The cycles that the routine of a bundle takes, none for an ordinary bundle (R275) (log 70, DEDUCED). -/
def State.routine (s : State) (t : Thread) (b : BitVec 128) : Option Nat :=
  ((decodeBundle b).find? Op.customer).map fun op =>
    let v := s.env t.settle
    ((s.decEntry t op.opc).map fun e => max 1 (e.cycles (srcPay v op e 0) (srcPay v op e 1))).getD 1

/-- An engine issues a bundle: its cycle counts for the routine that its microsequencer runs, and the thread waits for no tag any
more. The thread whose routine runs issues again only after its end (R275). -/
def State.noteIssue (s : State) (th : Nat) (routine : Option Nat) : State :=
  let eng := th / 32
  let micro := match routine, AMap.get? s.sx.micro eng with
    | some n, _ => some (th, n)
    | none, some (o, n) => if o = th then none else some (o, n)
    | none, none => none
  (s.unwait 2 (.load th)).onSx fun x => { x with
    recent := AMap.put x.recent eng ((th :: AMap.getD x.recent eng []).take 3)
    lastIssue := AMap.put x.lastIssue eng s.time
    micro := match micro with
      | some (o, n + 2) => AMap.put x.micro eng (o, n + 1)
      | some (_, _) => AMap.del x.micro eng
      | none => AMap.del x.micro eng }

/-- A command that issues bundles holding an operation of a kind: the engine takes the thread, and the bundle issues unless it is
held. -/
def State.opRow (s : State) (th : Nat) (bad : List BadWord) (hit : Op → Bool) : Res :=
  .next (match s.th? th with
    | none => s
    | some t =>
      let x := s.adopt th t
      match x.1.ready th x.2 with
      | none => s
      | some b =>
        if !(decodeBundle b).any hit || !s.first th t then s
        else
          let s1 := x.1.issue th x.2 b
          if s1.heldAt x.1 then s1 else (x.1.issueBad th x.2 b bad).noteIssue th (s.routine x.2 b))

def opIs (k : Nat) (op : Op) : Bool := op.opc = k

/-- R247: NOP. -/
def execOpNop (turn : Turn) (s : State) : Res := s.opRow turn.th turn.bad (opIs 0x000)

/-- R188, R247: END. -/
def execOpEnd (turn : Turn) (s : State) : Res := s.opRow turn.th turn.bad (opIs 0x001)

/-- R237: MOVE. -/
def execOpMove (turn : Turn) (s : State) : Res := s.opRow turn.th turn.bad (opIs 0x008)

/-- R202: ADD. -/
def execOpAdd (turn : Turn) (s : State) : Res := s.opRow turn.th turn.bad (opIs 0x010)

/-- R202: SUB. -/
def execOpSub (turn : Turn) (s : State) : Res := s.opRow turn.th turn.bad (opIs 0x011)

/-- R238: MUL. -/
def execOpMul (turn : Turn) (s : State) : Res := s.opRow turn.th turn.bad (opIs 0x012)

/-- R238: DIV. -/
def execOpDiv (turn : Turn) (s : State) : Res := s.opRow turn.th turn.bad (opIs 0x013)

/-- R238: NEG. -/
def execOpNeg (turn : Turn) (s : State) : Res := s.opRow turn.th turn.bad (opIs 0x014)

/-- R239: AND. -/
def execOpAnd (turn : Turn) (s : State) : Res := s.opRow turn.th turn.bad (opIs 0x018)

/-- R239: OR. -/
def execOpOr (turn : Turn) (s : State) : Res := s.opRow turn.th turn.bad (opIs 0x019)

/-- R239: XOR. -/
def execOpXor (turn : Turn) (s : State) : Res := s.opRow turn.th turn.bad (opIs 0x01A)

/-- R239: ANDN. -/
def execOpAndn (turn : Turn) (s : State) : Res := s.opRow turn.th turn.bad (opIs 0x01B)

/-- R239: SHL. -/
def execOpShl (turn : Turn) (s : State) : Res := s.opRow turn.th turn.bad (opIs 0x01C)

/-- R239: SHR. -/
def execOpShr (turn : Turn) (s : State) : Res := s.opRow turn.th turn.bad (opIs 0x01D)

/-- R239: SAR. -/
def execOpSar (turn : Turn) (s : State) : Res := s.opRow turn.th turn.bad (opIs 0x01E)

/-- R240: CMP. -/
def execOpCmp (turn : Turn) (s : State) : Res := s.opRow turn.th turn.bad (opIs 0x020)

/-- R240: TST. -/
def execOpTst (turn : Turn) (s : State) : Res := s.opRow turn.th turn.bad (opIs 0x021)

/-- R241: TTAG. -/
def execOpTtag (turn : Turn) (s : State) : Res := s.opRow turn.th turn.bad (opIs 0x022)

/-- R241: GTAG. -/
def execOpGtag (turn : Turn) (s : State) : Res := s.opRow turn.th turn.bad (opIs 0x023)

/-- R241: CVT. -/
def execOpCvt (turn : Turn) (s : State) : Res := s.opRow turn.th turn.bad (opIs 0x024)

/-- R241: OFFS. -/
def execOpOffs (turn : Turn) (s : State) : Res := s.opRow turn.th turn.bad (opIs 0x025)

/-- R241: EXTS. -/
def execOpExts (turn : Turn) (s : State) : Res := s.opRow turn.th turn.bad (opIs 0x026)

/-- R241: RDCC. -/
def execOpRdcc (turn : Turn) (s : State) : Res := s.opRow turn.th turn.bad (opIs 0x027)

/-- R241: STAT. -/
def execOpStat (turn : Turn) (s : State) : Res := s.opRow turn.th turn.bad (opIs 0x028)

/-- R245: BCC. -/
def execOpBcc (turn : Turn) (s : State) : Res := s.opRow turn.th turn.bad (opIs 0x030)

/-- R246: BDS. -/
def execOpBds (turn : Turn) (s : State) : Res := s.opRow turn.th turn.bad (opIs 0x031)

/-- R246: BAL. -/
def execOpBal (turn : Turn) (s : State) : Res := s.opRow turn.th turn.bad (opIs 0x032)

/-- R248: LDH. -/
def execOpLdh (turn : Turn) (s : State) : Res := s.opRow turn.th turn.bad (opIs 0x200)

/-- R248: LDHR. -/
def execOpLdhr (turn : Turn) (s : State) : Res := s.opRow turn.th turn.bad (opIs 0x201)

/-- R248: STH. -/
def execOpSth (turn : Turn) (s : State) : Res := s.opRow turn.th turn.bad (opIs 0x202)

/-- R248: STHR. -/
def execOpSthr (turn : Turn) (s : State) : Res := s.opRow turn.th turn.bad (opIs 0x203)

/-- R249: LDG. -/
def execOpLdg (turn : Turn) (s : State) : Res := s.opRow turn.th turn.bad (opIs 0x204)

/-- R249: STG. -/
def execOpStg (turn : Turn) (s : State) : Res := s.opRow turn.th turn.bad (opIs 0x205)

/-- R242: SEGADDR. -/
def execOpSegaddr (turn : Turn) (s : State) : Res := s.opRow turn.th turn.bad (opIs 0x210)

/-- R243: DEVH. -/
def execOpDevh (turn : Turn) (s : State) : Res := s.opRow turn.th turn.bad (opIs 0x211)

/-- R253: RPT. -/
def execOpRpt (turn : Turn) (s : State) : Res := s.opRow turn.th turn.bad (opIs 0x220)

/-- R256: MOVB. -/
def execOpMovb (turn : Turn) (s : State) : Res := s.opRow turn.th turn.bad (opIs 0x230)

/-- R256: CMPB. -/
def execOpCmpb (turn : Turn) (s : State) : Res := s.opRow turn.th turn.bad (opIs 0x231)

/-- R256: SCNB. -/
def execOpScnb (turn : Turn) (s : State) : Res := s.opRow turn.th turn.bad (opIs 0x232)

/-- R256: FILB. -/
def execOpFilb (turn : Turn) (s : State) : Res := s.opRow turn.th turn.bad (opIs 0x233)

/-- R260: TAS. -/
def execOpTas (turn : Turn) (s : State) : Res := s.opRow turn.th turn.bad (opIs 0x240)

/-- R261: LRS. -/
def execOpLrs (turn : Turn) (s : State) : Res := s.opRow turn.th turn.bad (opIs 0x241)

/-- R262: SCS. -/
def execOpScs (turn : Turn) (s : State) : Res := s.opRow turn.th turn.bad (opIs 0x242)

/-- R252: COMMIT. -/
def execOpCommit (turn : Turn) (s : State) : Res := s.opRow turn.th turn.bad (opIs 0x250)

/-- R252: WAITH. -/
def execOpWaith (turn : Turn) (s : State) : Res := s.opRow turn.th turn.bad (opIs 0x251)

/-- R252: WAITG. -/
def execOpWaitg (turn : Turn) (s : State) : Res := s.opRow turn.th turn.bad (opIs 0x252)

/-- R164: READ. -/
def execOpRead (turn : Turn) (s : State) : Res := s.opRow turn.th turn.bad (opIs 0x600)

/-- R164: WRITE. -/
def execOpWrite (turn : Turn) (s : State) : Res := s.opRow turn.th turn.bad (opIs 0x601)

/-- R164: CONTROL. -/
def execOpControl (turn : Turn) (s : State) : Res := s.opRow turn.th turn.bad (opIs 0x602)

/-- R171: SENSE. -/
def execOpSense (turn : Turn) (s : State) : Res := s.opRow turn.th turn.bad (opIs 0x603)

/-- R167: NVME. -/
def execOpNvme (turn : Turn) (s : State) : Res := s.opRow turn.th turn.bad (opIs 0x604)

/-- R168: SCSI. -/
def execOpScsi (turn : Turn) (s : State) : Res := s.opRow turn.th turn.bad (opIs 0x605)

/-- R170: PMEM. -/
def execOpPmem (turn : Turn) (s : State) : Res := s.opRow turn.th turn.bad (opIs 0x606)

/-- R268: a customer instruction. -/
def execCustomerInstruction (turn : Turn) (s : State) : Res := s.opRow turn.th turn.bad Op.customer

/-- R213, R267: an opcode that no rule defines. -/
def execUndefinedOpcode (th : Nat) (s : State) : Res :=
  s.opRow th [] fun op => op.info.isNone && !op.customer && !op.privileged

/-- R213: an opcode that is privileged whether or not it is defined. -/
def execPrivilegedOpcode (th : Nat) (s : State) : Res := s.opRow th [] Op.privileged

end Sys2Proof.Machine
end

