-- ==== Sys2Proof/Machine/Recover.lean ====
section
/-! DEFINITION. Sys2Proof/Machine/Recover.lean: replacement of a path set, the Tally, and engine and cluster faults (04, 12). -/

namespace Sys2Proof.Machine

/-! ## SET_PATH_SET (R113, R146, R147) -/

def readPath (b : List Byte) (i : Nat) : PathDesc :=
  let v := rd b (8 * i) 8
  ⟨bits v 0 5, bits v 5 2, bits v 8 1 = 1⟩

/-- Reserved bits are 0 and the device was found through the port: one of those for which its device-table entry holds a target (R145,
R146) (log 64, DESIGN CHOICE). -/
def State.pathOk (s : State) (dev : Nat) (b : List Byte) (i : Nat) : Bool :=
  let v := rd b (8 * i) 8
  let p := readPath b i
  bits v 7 1 = 0 && bits v 9 55 = 0 && (match AMap.get? s.sub.devs dev with
    | some d => d.targets.any fun x => x.quad = p.quad && x.port = p.port
    | none => false)

/-- The generation after a replacement: 0 is skipped. -/
def nextPgen (g : BitVec 16) : BitVec 16 := if g + 1 = 0 then 1 else g + 1

/-- Exchanges in flight on paths that the new set removes end there and are redriven (log 43, DEDUCED). -/
def State.leavePaths (s : State) (pset : Nat) (ps : PathSet) : State :=
  let l := s.exchWhere fun e => (e.st = .sent || e.st = .reached) && (s.ctxOf e.sch).psv && (s.ctxOf e.sch).pset = pset
    && !(e.dev = ps.dev && ps.paths.any fun p => p.quad = e.quad && p.port = e.port)
  l.foldl (fun t x => match AMap.get? t.dev.exch x with
    | some e => ((t.abortExch x).modExch x fun e => { e with redrive := true }).abortLater e
    | none => t) s

/-- R113, R109, R146, R147: SET_PATH_SET. `buf` is what the read of BUF on channel S brings (log 43, DEDUCED). -/
def execSetPathSet (buf : HostData) (s : State) : Res :=
  .next (s.admRun 0x22 fun e s =>
    let pset := aField e 1 0 16
    let n := aField e 1 16 4
    let dev := aField e 2 0 14
    if n = 0 || 8 < n then (admFail s 2)
    else if aBufLen e ≠ 8 * n then (admFail s 5)
    else if !AMap.has s.sub.devs dev then (admFail s 4)
    else if !s.ownReady true 1 then admWait (s.supWait true (aBuf e) none (8 * n))
    else
      let x := s.supRead (aBuf e) none (8 * n) buf
      let s := x.1
      match x.2 with
      | none => admFail s 0xD
      | some b =>
        if !(List.range n).all (s.pathOk dev b) then (admFail s 2)
        else
          let gen := match AMap.get? s.sub.psets pset with
            | some o => nextPgen o.gen
            | none => 1
          let ps : PathSet := ⟨gen, dev, (List.range n).map (readPath b)⟩
          let s1 := s.onSub fun x => { x with psets := AMap.put x.psets pset ps }
          (admOk ((s1.leavePaths pset ps).wantAll)))

/-! ## The Tally (R394 to R397) -/

/-- The units of bounds 1 to 36, 38 and 39 that are held. -/
def State.creditHeld (s : State) : Nat :=
  s.occ 1 + s.occ 2 + s.occ 3 + s.occ 4 + (s.dev.exch.filter fun e => e.2.live).length
    + sumBy (fun e => if e.2.st = .queued then 0 else e.2.slotUnits) s.dev.exch

/-- What the owners of a line hold (log 23, DEDUCED). -/
def State.walk (s : State) (line : Nat) : Nat :=
  if line = 0 then s.occ 0
  else if line = 1 then s.creditHeld
  else if line = 2 then s.dma.segs.length
  else sumBy (fun e => e.2.count - e.2.done) s.dma.descs + SupDesc.left s.dma.sRd + SupDesc.left s.dma.sWr

def State.lineOf (s : State) (line : Nat) : Line4 := s.tally.lines.getD line Line4.zero

/-- The held count of a line: the owners' occupancy, with the error of a counting fault. -/
def State.heldOf (s : State) (line : Nat) : Word := BitVec.ofNat 64 (s.walk line) + (s.lineOf line).skew

def State.lineDiff (s : State) (line : Nat) : Word := (s.lineOf line).issued - (s.lineOf line).returned - s.heldOf line

/-- The counters of the Tally are read: a single-bit error in one is corrected on the read and adds 1 to CE; no command carries it, so whether
a read finds one is free (R400) (log 8, DESIGN CHOICE). -/
def State.tallyRead (s : State) : State :=
  ({ s with fresh := s.fresh + 1 } : State).corrected (if Config.tallyUpset s.fresh then 1 else 0)

/-- R396: one check of all four lines, from one snapshot. The core clock stands while the host reference is absent (R22). -/
def execTallyCheck (s : State) : Res :=
  .next (
    if !s.pw.hrefOk then s
    else
    let s1 := s.tallyRead.onTally fun t => { t with checks := t.checks + 1 }
    (List.range 4).foldl (fun t l => if s.lineDiff l = 0 then t else t.mismatch l (s.lineDiff l)) s1)

/-- A segment whose owner is gone. -/
def State.stray (s : State) (h : HeldSeg) : Bool :=
  match h.owner with
    | .xfer sch no _ _ => (s.cmd? sch no).isNone
    | .zero sch no => (s.cmd? sch no).isNone
    | .sense sch => !AMap.has s.sub.prog sch
    | .sup => false

/-- The units of a line that a live owner holds. -/
def State.liveWalk (s : State) (line : Nat) : Nat :=
  s.walk line - (if line = 2 then (s.dma.segs.filter fun e => s.stray e.2).length else 0)

/-- The units without a live owner return: strays go, and what the line counts beyond its owners counts as returned (R397). -/
def State.returnLeak (s : State) (line : Nat) (n : Word) : State :=
  (if line = 2 then s.onDma fun d => { d with segs := d.segs.filter fun e => !s.stray e.2 } else s).onTally fun t => { t with
    lines := modAt t.lines line fun l => { l with returned := l.returned + n } }

/-- R397: the outcome of an audit, and what the 6128 does: `n` units that the line counts have no live owner (log 23, DEDUCED). -/
def State.auditLine (s : State) (line : Nat) : State × Nat :=
  let l := s.lineOf line
  let live := s.liveWalk line
  let n := l.issued - l.returned - BitVec.ofNat 64 live
  let strays := live ≠ s.walk line
  if l.skew ≠ 0 then
    if n = 0 && !strays then (s.onTally fun t => { t with lines := modAt t.lines line fun l => { l with skew := 0 } }, 2) else (s, 4)
  else if line = 0 && s.sub.writtenOff ≠ 0 then (s, if n = BitVec.ofNat 64 s.sub.writtenOff then 3 else 4)
  else if 0 < n.toInt || (n = 0 && strays) then (s.returnLeak line n, 1)
  else (s, 4)

/-- R397: Obulo ends the audit of a line. -/
def execTallyAudit (line : Nat) (s : State) : Res :=
  .next (
    if !s.tally.audits.contains line || !s.pw.supUp then s
    else
      let x := s.tallyRead.auditLine line
      (x.1.onTally fun t => { t with audits := t.audits.erase line, lastAudit := x.2 }).event 1 10 2 line x.2 0 0)

/-- The twelve counts of one cycle. -/
def State.tallySnap (s : State) : State := s.onTally fun t => { t with
  snapValid := true,
  snap := (List.range 4).flatMap fun l => [(s.lineOf l).issued, (s.lineOf l).returned, s.heldOf l] }

/-- R415: SNAP takes the twelve counts in one cycle. -/
def execTallySnap (s : State) : Res :=
  .next (s.bar0Write 8 true (if s.link.ep = .recovery then s else s.tallyRead.tallySnap))

/-! ## Engine and cluster faults (R402, R403) -/

/-- The threads that a property picks stop where their valid records stand, and return to the CREDIT line; their programs wait
to be restored. -/
def State.stopThreads (s : State) (p : Nat → Bool) : State :=
  (s.sx.threads.filter fun e => p e.1).foldl (fun t e =>
    let r := ((AMap.get? t.sx.ckpt e.1).bind (·.rec_)).map (·.th)
    (t.dropThread e.1).onSx fun x => { x with stopped := AMap.put x.stopped e.1 (r.getD e.2) }) s

/-- Programs of stopped threads of a cluster enter the dispatch queue with the key they held (R227, R403)
(log 49, DEDUCED). -/
def State.requeueStopped (s : State) (k : Nat) : State :=
  (s.sx.stopped.filter fun e => thCluster e.1 = k).foldl (fun t e =>
    let sch := e.2.sch
    (t.modCtx sch fun c => { c with dreq := true }).request 0 (t.dispKey sch) 3 sch (.dispatch sch)) s

/-- R403, R487: a cluster is fenced, its threads stop, and the schedule is tested again when a second one is fenced
(log 49, DEDUCED). -/
def State.fence (s : State) (k : Nat) : State :=
  let s1 := s.onTally fun t => { t with fenced := t.fenced ||| (1#16 <<< k), cluFence := inc16 t.cluFence }
  let s2 := (((s1.stopThreads fun th => thCluster th = k).requeueStopped k).rest k .sleep).irq (32 + k)
  let s3 := (s2.recovery (16 + k) 4 k 0 0).recomputeAwake
  if 1 < s3.fencedN then s3.capacity 0 else s3

/-- An engine that executes: its cluster runs or naps, it has not failed, and it is no unused spare. -/
def State.engineLive (s : State) (k e : Nat) : Bool := e < 9 && s.engineUp ((k * 9 + e) * 32)

/-- R400, R402: the engine stops; its threads go to the spare, or the cluster is fenced where the spare is in use
(log 49, DEDUCED). -/
def State.failEngine (s : State) (k e : Nat) : State :=
  if !s.engineLive k e then s
  else
    let s1 := s.onTally fun t => { t with failed := t.failed ++ [k * 9 + e] }
    if s.tally.spareUsed.getLsbD k then s1.fence k
    else
      let s2 := (s1.stopThreads fun th => thCluster th = k && thEngine th = e).onTally fun t => { t with
        spareUsed := t.spareUsed ||| (1#16 <<< k), engRestore := inc16 t.engRestore }
      (s2.irq (32 + k)).recovery (16 + k) 3 k e 0

/-- R400: a datapath or instruction-buffer check fails. -/
def execEngineFault (cluster engine : Nat) (s : State) : Res := .next (s.failEngine cluster engine)

/-- A thread has had what it waits for during 4 µs (R402). -/
def State.readyLong (s : State) (th : Nat) : Bool := (AMap.get? s.sx.readyAt th).all fun t => reached s.time (addNs t 4000)

/-- R402: an engine with a ready thread issues nothing for 4 µs. A thread without its text is not ready (log 49, DEDUCED). -/
def execEngineHang (cluster engine : Nat) (s : State) : Res :=
  .next (
    if (s.sx.threads.any fun e => thCluster e.1 = cluster && thEngine e.1 = engine && s.readyLong e.1 && s.couldIssue e.1 e.2)
        && (AMap.get? s.sx.lastIssue (cluster * 9 + engine)).all fun t => reached s.time (addNs t 4000) then
      s.failEngine cluster engine
    else s)

/-- R400, R403: the heartbeat of a cluster is missed, or its shared logic fails. -/
def execClusterFault (cluster : Nat) (s : State) : Res :=
  .next (
    let c := s.cluOf cluster
    if s.tally.fenced.getLsbD cluster || !(c.st = .run || c.st = .nap || c.waking) then s else s.fence cluster)

/-- R400: a compare error in duplicated control logic: the unit of work in progress is performed again from its committed
inputs, so nothing but the record and vector 4 remains of it. Without the host reference that logic has no clock (R22). -/
def execControlCompareError (block : Nat) (s : State) : Res :=
  .next (if s.pw.hrefOk then (s.irq 8).recovery 1 5 block 0 0 else s)

end Sys2Proof.Machine
end

