-- ==== Sys2Proof/Machine/Meridian.lean ====
section
/-! DEFINITION. Sys2Proof/Machine/Meridian.lean: grants, the freeze, commits, policing by cost, re-tests and the deadline watch
(10, 15). -/

namespace Sys2Proof.Machine

/-- Completions, messages and answers to devices go at once when they are granted; any other requester uses its grant in a row of its own. -/
def State.serve (s : State) (who : ReqWho) : State :=
  match who with
  | .comp q => ((s.sendComps q).admSettle).pumpPaired q
  | .msix v => s.message v
  | .answer x => State.sendReads 130 (s.answerReads x) x
  | .dispatch _ => s
  | .ring _ => s
  | .write _ => s
  | .read _ => s
  | .exch _ => s
  | .own _ => s
  | .store _ => s

/-- R329, R330: the smallest key among the waiting requests of a resource is granted. -/
def execMeridianGrant (res : Nat) (s : State) : Res :=
  .next (match s.nextGrant res with
    | none => s
    | some r => (s.onMd fun m => { m with reqs := m.reqs.map fun q => if q = r then { q with granted := true } else q }).serve r.who)

/-- R345, R484: a passed Maquette is installed at the next boundaries, SCHED_GEN rises, the command completes, and the awake set
is computed again (log 29, DEDUCED). -/
def execMaquetteCommit (s : State) : Res :=
  .next (match s.md.commit with
    | none => s
    | some c =>
      let s1 := ((s.install c.plan).onMd fun m => { m with
        commit := none, gen := (m.gen + 1) % 2 ^ 24, commits := inc16 m.commits }).recomputeAwake
      match c.cid with
      | none => s1
      | some cid => (s1.onQ fun x => { x with admWait := none }).admPost cid 0 0)

/-- Bundles that a program has issued: its class's budget less what is left (log 40, DEDUCED). -/
def State.issued (s : State) (sch : Nat) : Nat :=
  let left := match s.sx.threads.find? fun e => e.2.sch = sch with
    | some e => e.2.budget.toNat
    | none => (s.ctxOf sch).budget.toNat
  s.md.sched.budget (s.clsOf sch) - left

/-- R335: a program of an admitted class whose bundles exceed COST_NS / 0.625 ns carries the class 7 key from now on. -/
def execCostOverrun (sch : Nat) (s : State) : Res :=
  .next (
    let p := s.progOf sch
    if AMap.has s.sub.prog sch && !p.demoted && s.clsOf sch < 7 && p.cost * 8 < s.issued sch * 5 then
      (s.modProg sch fun p => { p with demoted := true }).onMd fun m => { m with overrun := inc16 m.overrun }
    else s)

/-- R334: every frozen resource has released its grant; source 10 (R470). -/
def execFreezeDrained (s : State) : Res := .next s.freezeDrained

/-- R346, R349: the re-test that a change of capacity asks for, after the commit of a test under way. -/
def execCapacityRetest (change : Nat) (s : State) : Res :=
  .next (if s.md.retests.contains change && s.md.commit.isNone && !s.md.passed then
    (s.onMd fun m => { m with retests := m.retests.erase change }).retest change else s)

/-- R479: a dispatch request of classes 0 to 5 still waits at its deadline; the watch only counts. -/
def execDeadlineWatchExpiry (sch : Nat) (s : State) : Res :=
  .next (
    let c := s.ctxOf sch
    if c.cls ≤ 5 && s.dispatchQueue.contains sch && !(s.progOf sch).missed && reached s.time c.deadline then
      ((s.late c.deadline).modProg sch fun p => { p with missed := true }).onPw fun p => { p with dlMiss := inc16 p.dlMiss }
    else s)

end Sys2Proof.Machine
end

