-- ==== Sys2Proof/Machine/Mailbox.lean ====
section
/-! DEFINITION. Sys2Proof/Machine/Mailbox.lean: mailbox channels, doorbells, Obulo's notices, and the interrupt controllers
(14). -/

namespace Sys2Proof.Machine

/-! ## Channels (R453 to R459) -/

/-- The place of a channel in the order of R454. -/
def chIdx (ch : Chan) : Nat :=
  match ch with
  | .hostSup => 0
  | .supHost => 1
  | .hostPln => 2
  | .plnHost => 3
  | .supPln => 4
  | .plnSup => 5
  | .cluSup k => 6 + k % 16
  | .supClu k => 22 + k % 16

def State.box (s : State) (ch : Chan) : Box := s.mail.boxes.getD (chIdx ch) Box.reset
def State.modBox (s : State) (ch : Chan) (f : Box → Box) : State :=
  s.onMail fun m => { m with boxes := modAt m.boxes (chIdx ch) f }
def State.sender (s : State) (ch : Chan) : Sender := s.mail.senders.getD (chIdx ch) Sender.reset
def State.modSender (s : State) (ch : Chan) (f : Sender → Sender) : State :=
  s.onMail fun m => { m with senders := modAt m.senders (chIdx ch) f }

def Bell.ring (b : Bell) (bit : Nat) : Bell := { b with db := b.db ||| (1#32 <<< bit) }
def Bell.open_ (b : Bell) : Bool := b.db &&& ~~~b.mask ≠ 0

/-- The summaries of R461, for vectors 1 and 2. -/
def Mail.summary (m : Mail) (v : Nat) : Bool :=
  let h := if v = 1 then m.sup else m.pln
  let e := m.senders.getD (if v = 1 then 0 else 2) Sender.reset
  h.bell.open_ || (e.empty && h.ieEmpty) || (e.aborted && h.ieAborted) || e.overrun

/-- R461: a vector is signalled when its summary rises. -/
def State.mbEdge (before : State) (s : State) : State :=
  [1, 2].foldl (fun t v => if s.mail.summary v && !before.mail.summary v then t.signal v else t) s

/-- A change of the doorbell register of a channel's receiver. -/
def State.modBell (s : State) (ch : Chan) (f : Bell → Bell) : State :=
  match ch with
  | .hostSup => s.onMail fun m => { m with supBell := f m.supBell }
  | .supHost => s.onMail fun m => { m with sup := { m.sup with bell := f m.sup.bell } }
  | .hostPln => s.onMail fun m => { m with plnBell := f m.plnBell }
  | .plnHost => s.onMail fun m => { m with pln := { m.pln with bell := f m.pln.bell } }
  | .supPln => s.onMail fun m => { m with plnBell := f m.plnBell }
  | .plnSup => s.onMail fun m => { m with supBell := f m.supBell }
  | .cluSup _ => s.onMail fun m => { m with supBell := f m.supBell }
  | .supClu k => s.onMail fun m => { m with cluBells := modAt m.cluBells (k % 16) f }

/-- The source that a receiver inside the 6128 holds its doorbell interrupt on, Plinth one for each sender (R470, R471). -/
def bellSource (ch : Chan) : Option (IcInst × Nat) :=
  match ch with
  | .hostSup => some (.sup, 20)
  | .supHost => none
  | .hostPln => some (.pln, 0)
  | .plnHost => none
  | .supPln => some (.pln, 1)
  | .plnSup => some (.sup, 20)
  | .cluSup _ => some (.sup, 20)
  | .supClu _ => none

/-- The doorbell bits that the receiver of a channel masks; those of the host and the clusters count for no source. -/
def Mail.maskOf (m : Mail) (ch : Chan) : BitVec 32 := if ch = .hostPln || ch = .supPln then m.plnBell.mask else m.supBell.mask

/-- A bit of Plinth's doorbell is rung by the host or the supervisor; a bit that was clear belongs to its new ringer alone (R471). -/
def Mail.rung (m : Mail) (ch : Chan) (bit : Nat) : Mail :=
  let b : BitVec 32 := 1#32 <<< bit
  let keep := if m.plnBell.db &&& b = 0 then ~~~b else BitVec.allOnes 32
  if ch = .hostPln then { m with rungHost := m.rungHost ||| b, rungSup := m.rungSup &&& keep }
  else if ch = .supPln then { m with rungSup := m.rungSup ||| b, rungHost := m.rungHost &&& keep }
  else m

/-- The occurrence of a source counts and sets its pending bit. -/
def State.raiseAt (s : State) (src : Option (IcInst × Nat)) : State :=
  match src with
  | none => s
  | some (.sup, n) => s.irq n
  | some (.pln, n) => s.irqPl n

/-- Ring bit `bit` of the receiver of a channel: an occurrence of its interrupt where the bit is not masked (R458, R468). -/
def State.ring (s : State) (ch : Chan) (bit : Nat) : State :=
  let s1 := (s.onMail fun m => m.rung ch bit).modBell ch fun b => b.ring bit
  if (s.mail.maskOf ch).getLsbD bit then s1 else s1.raiseAt (bellSource ch)

/-- The sender of a channel hears of EMPTY or ABORTED. -/
def State.tellSender (s : State) (ch : Chan) : State :=
  match ch with
  | .hostSup => s
  | .supHost => s.irq 21
  | .hostPln => s
  | .plnHost => s.irqPl 2
  | .supPln => s.irq 22
  | .plnSup => s.irqPl 3
  | .cluSup _ => s
  | .supClu k => s.irq (48 + k % 16)

/-- The error interrupt of a sender (R457). -/
def State.overrunOf (s : State) (ch : Chan) : State :=
  match ch with
  | .hostSup => s
  | .supHost => s.irq 23
  | .hostPln => s
  | .plnHost => s.irqPl 4
  | .supPln => s.irq 23
  | .plnSup => s.irqPl 4
  | .cluSup _ => s
  | .supClu _ => s.irq 23

/-- The host sends on this channel, and clears its events itself. -/
def chOfHost (ch : Chan) : Bool := ch = .hostSup || ch = .hostPln

/-- The request channel whose OWED flag a write to a channel clears (R455). -/
def owedBy (ch : Chan) : Option Chan :=
  match ch with
  | .hostSup => none
  | .supHost => none
  | .hostPln => none
  | .plnHost => some .hostPln
  | .supPln => none
  | .plnSup => some .supPln
  | .cluSup _ => none
  | .supClu _ => none

/-- R455, R457: a sender's 8-byte write. -/
def State.mbSend (s : State) (ch : Chan) (bit : Nat) (word : Word) : State :=
  let s0 := s
  let s1 := if (s.box ch).full then (s.modSender ch fun e => { e with overrun := true }).overrunOf ch
    else
      let t := (s.modBox ch fun b => { b with word := word, full := true, bit := bit }).ring ch bit
      match owedBy ch with
      | some c => t.modBox c fun b => { b with owed := false }
      | none => t
  s0.mbEdge s1

/-- The doorbell bits of the words that still wait for a receiver inside the 6128. -/
def State.stillRung (s : State) (chs : List Chan) : BitVec 32 :=
  chs.foldl (fun v c => if (s.box c).full then v ||| (1#32 <<< (s.box c).bit) else v) 0

def supInbound : List Chan := [.hostSup, .plnSup] ++ (List.range 16).map .cluSup

/-- The channels to the receiver of a channel. -/
def inboundWith (ch : Chan) : List Chan :=
  match ch with
  | .hostSup => supInbound
  | .supHost => [.supHost]
  | .hostPln => [.hostPln, .supPln]
  | .plnHost => [.plnHost]
  | .supPln => [.hostPln, .supPln]
  | .plnSup => supInbound
  | .cluSup _ => supInbound
  | .supClu k => [.supClu k]

/-- The procedure of R458: Obulo, Plinth or a cluster clears the unmasked bits of the words that it has served; the host does so by its
own writes (log 31, DEDUCED). -/
def State.serveBell (s : State) (ch : Chan) : State :=
  if ch = .supHost || ch = .plnHost then s
  else s.modBell ch fun b => { b with db := b.db &&& (b.mask ||| s.stillRung (inboundWith ch)) }

/-- R455: a receiver takes the word: FULL falls, EMPTY rises, and Plinth's read of a request sets OWED. -/
def State.mbTake (s : State) (ch : Chan) : State :=
  let s0 := s
  let s1 := s.modBox ch fun b => { b with full := false, owed := b.owed || ch = .hostPln || ch = .supPln }
  let s2 := (s1.modSender ch fun e => { e with empty := true }).tellSender ch
  s0.mbEdge s2

/-- Obulo or Plinth takes a word by the whole procedure of R458. -/
def State.mbServe (s : State) (ch : Chan) : State := (s.mbTake ch).serveBell ch

/-- A reset clears a channel; its sender gets an aborted notice when a word or an owed answer is lost (R453, R465). -/
def State.mbAbort (s : State) (ch : Chan) : State :=
  let b := s.box ch
  let s1 := (s.modBox ch fun _ => Box.reset).serveBell ch
  if b.full || b.owed then s.mbEdge ((s1.modSender ch fun e => { e with aborted := true }).tellSender ch) else s1

/-! ## Obulo's notices (R462) -/

def noticeType (w : Word) : Nat := bits w.toNat 0 8

/-- Obulo sends a notice it holds once the channel is empty, ringing bit TYPE. -/
def State.pumpNotices (s : State) : State :=
  match s.mail.notices with
  | [] => s
  | w :: rest =>
    if (s.box .supHost).full || !s.pw.supUp then s
    else (s.onMail fun m => { m with notices := rest }).mbSend .supHost (noticeType w) w

def noticeWord (type value : Nat) : Word := BitVec.ofNat 64 (type + value % 2 ^ 32 * 2 ^ 32)

/-- Obulo makes a notice; a newer DISCOVERY-CHANGED replaces the value of one that waits. -/
def State.notice (s : State) (type value : Nat) : State :=
  let w := noticeWord type value
  (s.onMail fun m => { m with notices :=
    if type = 1 && m.notices.any (fun x => noticeType x = 1) then m.notices.map fun x => if noticeType x = 1 then w else x
    else m.notices ++ [w] }).pumpNotices

/-! ## Lines (R466, R470, R471) -/

def setBits (n : Nat) (f : Nat → Bool) : BitVec 256 :=
  (List.range n).foldl (fun v i => if f i then v ||| (1#256 <<< i) else v) 0

def Sender.notice (e : Sender) : Bool := e.empty || e.aborted

/-- The lines that a cause standing in the state holds high (R470); every other cause holds its line for the moment only, as the spec names no
way to serve it (log 21, DESIGN CHOICE). -/
def State.lineSup (s : State) (i : Nat) : Bool :=
  if i = 0 then (s.sq? 0).any fun r => r.c ≠ r.t
  else if i = 1 then !s.q.qevt.isEmpty
  else if i = 2 then (s.cq? 1).any fun r => !s.hasRoom r || !r.held.isEmpty
  else if i = 7 then s.tally.lines.any (·.mism)
  else if i = 9 then !s.md.retests.isEmpty
  else if i = 19 then s.pw.fallback && s.pw.hrefOk
  else if i = 20 then s.mail.supBell.open_
  else if i = 21 then (s.sender .supHost).notice
  else if i = 22 then (s.sender .supPln).notice
  else if i = 23 then (s.sender .supHost).overrun || (s.sender .supPln).overrun
      || (List.range 16).any fun k => (s.sender (.supClu k)).overrun
  else if 32 ≤ i && i < 48 then s.tally.fenced.getLsbD (i - 32) || s.sx.stopped.any fun e => thCluster e.1 = i - 32
  else if 48 ≤ i && i < 64 then (s.sender (.supClu (i - 48))).notice
  else if 64 ≤ i && i < 96 then (s.quadOf (i - 64)).resetReq || (s.quadOf (i - 64)).ports.any fun p => p.rerun && !p.running
  else if 96 ≤ i && i < 128 then s.dev.exch.any fun e => e.2.quad = i - 96 && e.2.st = .lost
  else false

/-- The lines of Plinth's sources (R471): its doorbell's unmasked bits by the sender that rang them, and the events of its channels
(log 21, DESIGN CHOICE). -/
def State.linePln (s : State) (i : Nat) : Bool :=
  let m := s.mail
  let open_ := m.plnBell.db &&& ~~~m.plnBell.mask
  if i = 0 then open_ &&& m.rungHost ≠ 0
  else if i = 1 then open_ &&& m.rungSup ≠ 0
  else if i = 2 then (s.sender .plnHost).notice
  else if i = 3 then (s.sender .plnSup).notice
  else if i = 4 then (s.sender .plnHost).overrun || (s.sender .plnSup).overrun
  else false

def State.lines (s : State) (inst : IcInst) : BitVec 256 :=
  match inst with
  | .sup => setBits 128 s.lineSup
  | .pln => setBits 5 s.linePln

def State.icOf (s : State) (inst : IcInst) : Ic :=
  match inst with
  | .sup => s.ic
  | .pln => s.icPl

def State.modIc (s : State) (inst : IcInst) (f : Ic → Ic) : State :=
  match inst with
  | .sup => s.onIc f
  | .pln => s.onIcPl f

/-- A line that is high sets its pending bit (R466). -/
def State.relatch (s : State) (inst : IcInst) : State := s.modIc inst fun ic => { ic with pend := ic.pend ||| s.lines inst }

/-! ## The mailbox rows -/

def mbSupTx : Nat := 0x01C00000
def mbPlnTx : Nat := 0x01C01000

/-- The sender inside the 6128 can send: a cluster has its clock, in service (R22). -/
def State.senderUp (s : State) (ch : Chan) : Bool :=
  match ch with
  | .hostSup => true
  | .supHost => s.pw.supUp
  | .hostPln => true
  | .plnHost => s.pw.released
  | .supPln => s.pw.supUp
  | .plnSup => s.pw.released
  | .cluSup k => s.pw.hrefOk && (s.cluOf k).st = .run && !s.tally.fenced.getLsbD k && k < 16
  | .supClu k => s.pw.supUp && k < 16

/-- The words that Obulo sends to the host, each on the bit of its TYPE (R458, R462). -/
def soundNotice (bit : Nat) (w : Word) : Bool := 1 ≤ noticeType w && noticeType w ≤ 4 && bits w.toNat 8 24 = 0 && bit = noticeType w

/-- R455, R457, R458: a send. The host's is a BAR0 write, and one of 4 bytes is no send. Obulo sends the host its notices alone, in the order
that it makes them, and holds them back while the channel is full (R462). -/
def execMailboxSend (ch : Chan) (bit size : Nat) (word : Word) (s : State) : Res :=
  .next (
    if 32 ≤ bit then s
    else if chOfHost ch then s.bar0Write size true (if size = 4 then s else s.mbSend ch bit word)
    else if !s.senderUp ch || size ≠ 8 then s
    else if ch = .supHost then
      (if soundNotice bit word then s.notice (noticeType word) (bits word.toNat 32 32) else s)
    else s.mbSend ch bit word)

/-- The receiver inside the 6128 can receive. -/
def State.receiverUp (s : State) (ch : Chan) : Bool :=
  match ch with
  | .hostSup => s.pw.supUp
  | .supHost => true
  | .hostPln => s.pw.released
  | .plnHost => true
  | .supPln => s.pw.released
  | .plnSup => s.pw.supUp
  | .cluSup k => s.pw.supUp && k < 16
  | .supClu k => s.pw.hrefOk && !s.tally.fenced.getLsbD k && k < 16

/-- R455: what a receiver's read leaves: of an empty channel or with 4 bytes nothing but 0. -/
def State.mbRead (s : State) (ch : Chan) (size : Nat) (show_ : Word → Out) : State :=
  let b := s.box ch
  if size ≠ 8 || !b.full then s.emit (show_ 0)
  else ((s.mbTake ch).emit (show_ b.word)).pumpNotices

/-- R462: Obulo takes the host's word, and answers PONG or UNKNOWN. -/
def State.obuloTakes (s : State) : State :=
  let w := (s.box .hostSup).word
  let s1 := s.mbServe .hostSup
  if bits w.toNat 0 32 = 1 then s1.notice 3 (bits w.toNat 32 32) else s1.notice 4 (bits w.toNat 0 32)

/-- R462: Obulo takes a word that waits. -/
def execPing (s : State) : Res := .next (if !(s.box .hostSup).full || !s.pw.supUp then s else s.obuloTakes)

/-- R455: a receive. The host's is a BAR0 read of MB_SUP_RX or MB_PLN_RX; Obulo answers every word of the host that it reads (R462). -/
def execMailboxReceive (ch : Chan) (size : Nat) (s : State) : Res :=
  .next (
    if ch = .supHost then s.bar0Read 0x01C00100 size (s.mbRead ch size (.readData 0 0x01C00100 size))
    else if ch = .plnHost then s.bar0Read 0x01C01100 size (s.mbRead ch size (.readData 0 0x01C01100 size))
    else if !s.receiverUp ch then s
    else if ch = .hostSup && size = 8 && (s.box ch).full then (s.emit (.mbRead ch (s.box ch).word)).obuloTakes
    else s.mbRead ch size (.mbRead ch))

/-- The halves that a write reaches: all of the register, or the upper or lower 32 bits. -/
def reaches (half : Option Bool) (upper : Bool) : Bool := half = none || half = some upper

/-- The value at its place in the register. -/
def atHalf (half : Option Bool) (val : Word) : Word := if half = some true then val <<< 32 else val

/-- A doorbell register: DB is W1C, MASK is RW (R458, R460). -/
def Bell.write (b : Bell) (half : Option Bool) (v : Word) : Bell :=
  ⟨if reaches half false then b.db &&& ~~~(v.extractLsb' 0 32) else b.db, if reaches half true then v.extractLsb' 32 32 else b.mask⟩

/-- MB_x_DB. -/
def HostMb.writeDb (h : HostMb) (half : Option Bool) (v : Word) : HostMb := { h with bell := h.bell.write half v }

/-- MB_x_STAT: the events are W1C, the enables RW. -/
def HostMb.writeStat (h : HostMb) (half : Option Bool) (v : Word) : HostMb :=
  if reaches half false then { h with ieEmpty := v.getLsbD 4, ieAborted := v.getLsbD 5 } else h

def Sender.writeStat (e : Sender) (half : Option Bool) (v : Word) : Sender :=
  if reaches half false then
    ⟨e.empty && !v.getLsbD 1, e.aborted && !v.getLsbD 2, e.overrun && !v.getLsbD 3⟩ else e

/-- A host write of MB_SUP_DB, MB_SUP_STAT, MB_PLN_DB or MB_PLN_STAT; the vector is signalled again while its summary stays 1
(R461). -/
def State.mbStatus (s : State) (plinth stat : Bool) (half : Option Bool) (val : Word) : State :=
  let v := atHalf half val
  let f := fun h => if stat then HostMb.writeStat h half v else HostMb.writeDb h half v
  let s1 := s.onMail fun m => if plinth then { m with pln := f m.pln } else { m with sup := f m.sup }
  let s2 := if stat then s1.modSender (if plinth then .hostPln else .hostSup) fun e => e.writeStat half v else s1
  let vec := if plinth then 2 else 1
  if s2.mail.summary vec then s2.signal vec else s2

/-- The receiver of a channel inside the 6128 writes its doorbell register, or the sender its status register, in its private map; they
have the layout of the host's (R458 to R460) (log 31, DEDUCED). A bit that such a write opens holds its line, and is no new occurrence
(R468). -/
def State.innerStatus (s : State) (ch : Chan) (stat : Bool) (half : Option Bool) (v : Word) : State :=
  if stat then if chOfHost ch || !s.senderUp ch then s else s.modSender ch fun e => e.writeStat half v
  else if ch = .supHost || ch = .plnHost || !s.receiverUp ch then s
  else
    let s1 := s.modBell ch fun b => b.write half v
    match bellSource ch with
    | some (inst, _) => s1.relatch inst
    | none => s1

/-- R458 to R461: a write to a doorbell or status register; the host's is a BAR0 write. -/
def execMailboxStatusWrite (reg : MbReg) (stat : Bool) (half : Option Bool) (val : Word) (s : State) : Res :=
  .next (match reg with
    | .host plinth => s.bar0Write (if half.isSome then 4 else 8) true (s.mbStatus plinth stat half val)
    | .inner ch => s.innerStatus ch stat half (atHalf half val))

/-! ## Interrupt controllers (R466 to R469) -/

/-- The owner of an instance runs. -/
def State.icUp (s : State) (inst : IcInst) : Bool :=
  match inst with
  | .sup => s.pw.supUp
  | .pln => s.pw.released

def Ic.prioOf (ic : Ic) (i : Nat) : Nat := (ic.prio.extractLsb' (4 * i) 4).toNat

/-- A candidate of R467: `run` 16 is IDLE, below every level. -/
def Ic.candidate (ic : Ic) (i : Nat) : Bool :=
  ic.pend.getLsbD i && !ic.mask.getLsbD i && (ic.run = 16 || ic.run < ic.prioOf i)

/-- The candidate with the highest priority, ties to the lower source. -/
def Ic.best (ic : Ic) : Option Nat :=
  (List.range 256).foldl (fun b i => if ic.candidate i && (match b with
    | none => true
    | some j => ic.prioOf j < ic.prioOf i) then some i else b) none

/-- The value that IC_ACK reads. -/
def Ic.ackWord (ic : Ic) : Word :=
  match ic.best with
  | none => 0x1FF
  | some i => BitVec.ofNat 64 (i + ic.prioOf i * 512)

/-- R467 items 1 to 3. -/
def Ic.ack (ic : Ic) : Ic :=
  match ic.best with
  | none => ic
  | some i => { ic with stack := ic.run :: ic.stack, run := ic.prioOf i, pend := ic.pend &&& ~~~(1#256 <<< i) }

/-- R467 items 4 and 5. -/
def Ic.eoi (ic : Ic) : Ic :=
  match ic.stack with
  | [] => { ic with under := true }
  | r :: rest => { ic with run := r, stack := rest }

/-- The owner of an instance acknowledges its first candidate. -/
def State.icAcked (s : State) (inst : IcInst) : State := (s.modIc inst Ic.ack).relatch inst

/-- R467, R468: a read of IC_ACK; only the owner's acknowledges. -/
def execIcAck (inst : IcInst) (owner : Bool) (s : State) : Res :=
  .next (
    if !s.icUp inst then s
    else
      let s1 := s.emit (.icRead (s.icOf inst).ackWord)
      if owner then s1.icAcked inst else s1)

/-- R467: a write to IC_EOI. -/
def execIcEoi (inst : IcInst) (s : State) : Res :=
  .next (if s.icUp inst then s.modIc inst Ic.eoi else s)

/-- The sources that bits of array element i stand for: 64 to a register, in Plinth's instance 16 (log 57, DEDUCED). -/
def icBits (inst : IcInst) (i : Nat) (val : Word) : BitVec 256 :=
  match inst with
  | .sup => if i < 4 then val.setWidth 256 <<< (64 * i) else 0
  | .pln => if i < 2 then (val.setWidth 16).setWidth 256 <<< (16 * i) else 0

/-- R466: a write to the pending-set address. -/
def execIcPendSet (inst : IcInst) (i : Nat) (val : Word) (s : State) : Res :=
  .next (if s.icUp inst then s.modIc inst fun ic => { ic with pend := ic.pend ||| icBits inst i val } else s)

/-- R466: a write to the pending-clear address; a line still high sets its bit again. -/
def execIcPendClr (inst : IcInst) (i : Nat) (val : Word) (s : State) : Res :=
  .next (if s.icUp inst then
    (s.modIc inst fun ic => { ic with pend := ic.pend &&& ~~~(icBits inst i val) }).relatch inst else s)

/-- R469: a write to IC_MASK_SET. -/
def execIcMaskSet (inst : IcInst) (i : Nat) (val : Word) (s : State) : Res :=
  .next (if s.icUp inst then s.modIc inst fun ic => { ic with mask := ic.mask ||| icBits inst i val } else s)

/-- R469: a write to IC_MASK_CLR. -/
def execIcMaskClr (inst : IcInst) (i : Nat) (val : Word) (s : State) : Res :=
  .next (if s.icUp inst then s.modIc inst fun ic => { ic with mask := ic.mask &&& ~~~(icBits inst i val) } else s)

/-- Counters to one register of IC_CNT: eight, in Plinth's instance two (log 57, DEDUCED). -/
def icPer (inst : IcInst) : Nat :=
  match inst with
  | .sup => 8
  | .pln => 2

/-- The owner's read clears counters `js` of register `i` of IC_CNT. -/
def State.icCounted (s : State) (inst : IcInst) (i : Nat) (js : List Nat) : State :=
  s.modIc inst fun ic => { ic with cnt := js.foldl (fun l j => modAt l (icPer inst * i + j) fun _ => 0) ic.cnt }

/-- Register `i` of IC_CNT. -/
def Ic.cntWord (ic : Ic) (inst : IcInst) (i : Nat) : Nat :=
  sumBy (fun j => ic.cnt.getD (icPer inst * i + j) 0 % 256 * 2 ^ (8 * j)) (List.range (icPer inst))

/-- R468: a read of IC_CNT; only the owner's clears (log 57, DEDUCED). -/
def execIcCntRead (inst : IcInst) (i : Nat) (owner : Bool) (s : State) : Res :=
  .next (
    if !s.icUp inst || 32 ≤ i then s
    else
      let s1 := s.emit (.icRead (BitVec.ofNat 64 ((s.icOf inst).cntWord inst i)))
      if owner then s1.icCounted inst i (List.range (icPer inst)) else s1)

end Sys2Proof.Machine
end

