-- ==== Sys2Proof/Machine/Quads.lean ====
section
/-! DEFINITION. Sys2Proof/Machine/Quads.lean: ports, lanes and sideband of the quads, discovery runs and quad resets (11). -/

namespace Sys2Proof

open Machine

/-! ## Identity reads (R363, R374, R375) -/

/-- The SPDM exchange of a device passes (R375): version 1.2 or 1.3, an algorithm of R52 for the signature and the digest, a chain under a
device trust anchor, a signature over the nonce and the measurements, and at most 5 s. -/
def SpdmRun.passes (m : SpdmRun) (anchors : List (List Byte)) (nonce : BitVec 256) : Bool :=
  (m.version = 0x12 || m.version = 0x13) && m.algs.contains .ecdsaP384 && m.algs.contains .sha384
    && anchors.any (fun k => Config.anchored k m.cert)
    && Config.verify (Config.leafKey m.cert) (Config.measDigest nonce m.meas) m.sig && m.micros ≤ 5000000

/-- The SPDM exchange of an identity read; an expander has none (R374). -/
def IdentityRead.run (r : IdentityRead) : Option SpdmRun := if r.kind = 4 then none else r.spdm

/-- FORM of an identity read (R375, R435). -/
def IdentityRead.form (r : IdentityRead) (anchors : List (List Byte)) (nonce : BitVec 256) : Nat :=
  match r.run with
  | none => 0
  | some m => if m.passes anchors nonce then 1 else 2

/-- The quad reads an identity: the functions of SMP that it sends to an expander, which it sets up where that is table-routed (R363). -/
def IdentityRead.asks (r : IdentityRead) (quad port : Nat) : List Out :=
  if r.kind = 4 then ([SmpFn.reportGeneral, .reportManufacturer, .discoverList, .discover] ++
    if r.table then [SmpFn.reportRoute, SmpFn.configureRoute] else []).map fun f => .smp quad port r.target f
  else []

/-! ## What a run finds (R357, R362, R363, R369 to R371) -/

/-- What was found belongs to a port of this mode. -/
def Found.fits (w : Found) (mode : Nat) : Bool :=
  match w with
  | .nvmeNs _ _ _ => isPcie mode
  | .pcieFn _ _ => isPcie mode
  | .lun _ _ => isSas mode
  | .stp => isSas mode

/-- The classes of a PMEM endpoint (R369). -/
def isPmemClass (c : BitVec 24) : Bool := c.toNat / 2 ^ 16 = 0x10 || c.toNat / 2 ^ 8 = 0x0B40
/-- R357 keeps switches and bridges apart and gives no code for them: base class 0x06 (log 75, PRESUMED). -/
def isBridgeClass (c : BitVec 24) : Bool := c.toNat / 2 ^ 16 = 0x06

/-- KIND of what was found, 0 for what the 6128 does not serve, with its REASON. -/
def Found.class (w : Found) : Nat × Nat :=
  match w with
  | .nvmeNs nvm mdBytes pi => if nvm && (mdBytes = 0 || (mdBytes = 8 && pi)) then (1, 0) else (0, 1)
  | .lun pdt _ => if pdt = 0x00 || pdt = 0x01 || pdt = 0x07 || pdt = 0x08 then (2, 0) else (0, 4)
  | .stp => (0, 2)
  | .pcieFn c _ => if isPmemClass c then (3, 0) else (0, if isBridgeClass c then 3 else 4)

/-- The kind of identity record that a finding's device has. -/
def idKind (kind : Nat) : Nat := if kind = 1 then 1 else if kind = 3 then 2 else 3

/-- The identity that a run has read of a finding of a kind (R374), or of its controller or target where it has no kind. -/
def Finding.idOf (f : Finding) (kind : Nat) (ids : List PortId) : Option PortId :=
  ids.find? fun p => (p.kind = idKind kind || (kind = 0 && p.kind ≠ 4)) && p.func = f.func && (kind = 3 || p.target = f.target)

/-- KIND and REASON of a finding (R369): a device whose identification failed, or whose identity was not read, is IDENTIFY-FAILED, and one
behind more than 4 levels of expanders TOPOLOGY (log 32, DEDUCED). -/
def Finding.class (f : Finding) (ids : List PortId) : Nat × Nat :=
  let c := f.what.class
  if c.1 = 0 then c
  else if 4 < f.level then (0, 3)
  else if f.failed || (f.idOf c.1 ids).isNone then (0, 6)
  else c

/-- The device's form on this port is SPDM-SIGNED (R376). -/
def Finding.attested (f : Finding) (ids : List PortId) : Bool := ((f.idOf f.what.class.1 ids).map (·.signed)).getD false

/-- SEQ, PI and PDT of a finding. -/
def Found.seq (w : Found) : Bool :=
  match w with
  | .lun pdt _ => pdt = 0x01
  | .nvmeNs _ _ _ => false
  | .stp => false
  | .pcieFn _ _ => false

def Found.pi (w : Found) : Bool :=
  match w with
  | .nvmeNs _ mdBytes pi => mdBytes = 8 && pi
  | .lun _ pi => pi
  | .stp => false
  | .pcieFn _ _ => false

def Found.pdt (w : Found) : Byte :=
  match w with
  | .lun pdt _ => pdt
  | .nvmeNs _ _ _ => 0
  | .stp => 0
  | .pcieFn _ _ => 0

/-- The length of the BAR that PMEM commands reach, by the PMEM_BAR of the quad record (R354). -/
def Found.barLen (w : Found) (bar : Nat) : Nat :=
  match w with
  | .pcieFn _ bars => bars.getD bar 0
  | .nvmeNs _ _ _ => 0
  | .lun _ _ => 0
  | .stp => 0

/-- ASCII padded with 0x20 (R371). -/
def ascii (n : Nat) (l : List Byte) : Nat := ofLe ((l ++ List.replicate n 0x20).take n)

/-- The target of a path entry: the SAS address or the CNTLID, or the BAR of a PMEM endpoint (R371). -/
def Finding.place (f : Finding) (cfg : QuadRec) : Word := if f.what.class.1 = 3 then BitVec.ofNat 64 cfg.pmemBar else f.target

/-- The device answered identification in the run, and its identity was read where it has a kind that R374 reads one of (R374, R377). -/
def Finding.answered (f : Finding) (ids : List PortId) : Bool :=
  !f.failed && (f.what.class.1 = 0 || (f.idOf f.what.class.1 ids).isSome)

/-- The path of a finding: DOWN where the device did not answer identification (R377), and where the quad demands an attestation that it has
not passed (R376). -/
def Finding.path (f : Finding) (quad port : Nat) (cfg : QuadRec) (ids : List PortId) : DiscPath :=
  let passes := !cfg.flags.getLsbD 0 || f.attested ids
  ⟨quad, port, passes && f.answered ids, false, f.func, f.rate, f.place cfg, if passes then .none else .attest⟩

/-- A finding is the device of a record: their identifiers match, within one subsystem; one without an identifier is the record without one at its
own place, which no other finding of its run has (R370) (log 32, DEDUCED). -/
def Finding.isOf (f : Finding) (quad port : Nat) (cfg : QuadRec) (r : DiscRec) : Bool :=
  if f.uid ≠ 0 then r.uid = f.uid && r.nqn = f.nqn
  else r.uid = 0 && (f.what.class.1 = 3 || r.lunid = f.lunid) && r.paths.any fun p =>
    p.quad = quad && p.port = port && p.target = f.place cfg && p.func = f.func

/-- What was found is a namespace. -/
def Found.isNs (w : Found) : Bool :=
  match w with
  | .nvmeNs _ _ _ => true
  | .lun _ _ => false
  | .stp => false
  | .pcieFn _ _ => false

/-- What was found is a unit behind an SSP target port, of any type. -/
def Found.isLun (w : Found) : Bool :=
  match w with
  | .lun _ _ => true
  | .nvmeNs _ _ _ => false
  | .stp => false
  | .pcieFn _ _ => false

end Sys2Proof

namespace Sys2Proof.Machine

/-! ## Ports (R352 to R356) -/

/-- The mode of the quad has this port. -/
def State.hasPort (s : State) (quad port : Nat) : Bool := !(modeLanes (s.quadOf quad).cfg.mode port).isEmpty


def setBit4 (b : BitVec 4) (p : Nat) (v : Bool) : BitVec 4 := if v then b ||| (1#4 <<< p) else b &&& ~~~(1#4 <<< p)

/-- The functional drivers of pins: during EXTEST the boundary register drives the pins in their place (R527). -/
def State.drive (s : State) (l : List Out) : State := if s.pw.extest then s else s.emits l

/-- The supervisor hears of a link, lane, sideband or discovery event (R470). -/
def State.quadIrq (s : State) (quad : Nat) : State := s.irq (64 + quad)

def State.pinPwren (s : State) (quad port : Nat) (level : Bool) : State :=
  (s.modPort quad port fun p => { p with pwren := level }).drive [.pin quad port 0 level]

/-- PERST_N asserted (`held`) or released; it is not used in SAS mode, and its assertion ends the ghosts of the port (R413). -/
def State.pinPerst (s : State) (quad port : Nat) (held : Bool) : State :=
  if !isPcie (s.quadOf quad).cfg.mode then s
  else
    let s1 := (s.modPort quad port fun p => { p with perst := held }).drive [.pin quad port 1 (!held)]
    if !held then s1
    else
      let dead := (s1.dev.ghosts.filter fun g => g.2.quad = quad && g.2.port = port)
      dead.foldl (fun t g =>
        let q := t.readPos
        q.1.ghostGone g.1 g.2 q.2) s1


/-- A port is down by a fault. -/
def State.portFault (s : State) (quad port : Nat) : State :=
  if (s.portOf quad port).st = 2 then s.portDown quad port 3
  else s.modPort quad port fun p => { p with st := 3, retryDue := none }

/-! ## Presence and power (R382, R383) -/

/-- R382: PRSNT_N goes low; the 10 ms of its debounce begin. -/
def execPresenceAssert (quad port : Nat) (s : State) : Res :=
  .next (
    let p := s.portOf quad port
    if !s.hasPort quad port || p.present || p.debounce.isSome then s
    else s.modPort quad port fun p => { p with debounce := some (addNs s.time 10000000) })

/-- A sideband fault on PWREN: held low, the port down, one record and vector 4 (R383). -/
def State.pwrenFault (s : State) (quad port : Nat) : State :=
  let s1 := ((s.pinPwren quad port false).modPort quad port fun p => { p with powerDue := none, pollDue := none }).modQuad quad fun q =>
    { q with pwrenF := setBit4 q.pwrenF port true }
  (((s1.portFault quad port).event (32 + quad) 5 9 quad port 1 0).quadIrq quad).signal 4

/-- The power supply of a port is switched on, and PWR_DELAY_US begins; the management structure of a powered PCIe port is read every
second (R382, R385). A driver that VSB33 has released switches nothing on, and its readback differs (R383, R520). -/
def State.powerUp (s : State) (quad port : Nat) (readbackOk : Bool) : State :=
  let s1 := if s.pw.sbLow then s else s.pinPwren quad port true
  let poll := isPcie (s.quadOf quad).cfg.mode && (s.quadOf quad).cfg.flags.getLsbD 2
  if !readbackOk || s.pw.sbLow then s1.pwrenFault quad port
  else (s1.modPort quad port fun p => { p with
      powerDue := some (addNs s.time (1000 * (s.quadOf quad).cfg.pwrDelay)),
      pollDue := if poll then some (p.pollDue.getD (addNs s.time 1000000000)) else none }).modQuad quad fun q =>
    { q with pwrenF := setBit4 q.pwrenF port false }

/-- SGPIO runs again: its next frame tests it (R383). -/
def State.sgpioAgain (s : State) (quad : Nat) : State :=
  if (s.quadOf quad).sgpioF then
    s.modQuad quad fun q => { q with sgpioF := false, sgpioDue := some (addNs s.time 10000000) }
  else s

/-- The test of an I2C segment: its bus switch opens while the test fails (R383). -/
def State.testI2c (s : State) (quad port : Nat) (ok : Bool) : State :=
  let s1 := (s.modPort quad port fun p => { p with i2cOpen := !ok }).modQuad quad fun q => { q with i2cF := setBit4 q.i2cF port (!ok) }
  if ok || (s.quadOf quad).i2cF.getLsbD port then s1 else s1.signal 4

/-- R382, R383: presence after the debounce; the faulty sideband is tested again, the I2C segment with it. -/
def execPresenceDebounced (quad port : Nat) (readbackOk : Bool) (i2cOk : Bool) (s : State) : Res :=
  .next (match (s.portOf quad port).debounce with
    | none => s
    | some t =>
      if !s.quadTimer quad t then s
      else
        let s1 := ((s.late t).modPort quad port fun p => { p with
            present := true, debounce := none, offDue := none, rerun := true }).modQuad quad fun q => { q with
          perstF := setBit4 q.perstF port false, nolinkF := setBit4 q.nolinkF port false }
        (((s1.testI2c quad port i2cOk).sgpioAgain quad).powerUp quad port readbackOk).quadIrq quad)

/-- PERST_N is released, and the link trains. A read back that is low holds it asserted, the port down (R383). -/
def State.unreset (s : State) (quad port : Nat) (readbackOk : Bool) : State :=
  if isPcie (s.quadOf quad).cfg.mode && !readbackOk then
    ((((s.pinPerst quad port true).portFault quad port).modQuad quad fun q =>
      { q with perstF := setBit4 q.perstF port true }).quadIrq quad).signal 4
  else ((s.pinPerst quad port false).modQuad quad fun q => { q with perstF := setBit4 q.perstF port false }).train quad port

/-- R382: PWR_DELAY_US after PWREN the device leaves its reset. -/
def execPowerDelayExpiry (quad port : Nat) (readbackOk : Bool) (s : State) : Res :=
  .next (match (s.portOf quad port).powerDue with
    | none => s
    | some t =>
      if !s.quadTimer quad t then s
      else ((s.late t).modPort quad port fun p => { p with powerDue := none }).unreset quad port readbackOk)

/-- Presence is lost: DL_Down, PERST_N at once, PWREN low 10 ms later; the sideband is tested again (R383). -/
def State.unplug (s : State) (quad port : Nat) (i2cOk : Bool) : State :=
  let s1 := if (s.portOf quad port).st = 2 then (s.linkLost quad port 0).signal 4 else s
  let s2 := (s1.modPort quad port fun p => { p with
      st := 0, present := false, powerDue := none, retryDue := none, pollDue := none,
      offDue := some (addNs s.time 10000000), running := false, rerun := true, mgmt := p.mgmt &&& 0xFFFFFF#25 }).modQuad quad fun q =>
    { q with nolinkF := setBit4 q.nolinkF port false }
  (((s2.pinPerst quad port true).testI2c quad port i2cOk).sgpioAgain quad).quadIrq quad

/-- R382: PRSNT_N goes high. -/
def execPresenceDeassert (quad : Nat) (i2c : PortTest) (s : State) : Res :=
  .next (
    if !s.hasPort quad i2c.port then s
    else if !(s.portOf quad i2c.port).present then s.modPort quad i2c.port fun p => { p with debounce := none }
    else s.unplug quad i2c.port i2c.ok)

/-- R382, R383: 10 ms after its removal a port loses its power; a PWREN that does not read low is at fault. -/
def execPwrenOffDelayExpiry (quad : Nat) (pwren : PortTest) (s : State) : Res :=
  let port := pwren.port
  .next (match (s.portOf quad port).offDue with
    | none => s
    | some t =>
      if !s.quadTimer quad t then s
      else
        let s1 := ((s.late t).modPort quad port fun p => { p with offDue := none, pollDue := none }).pinPwren quad port false
        if pwren.ok then s1 else s1.pwrenFault quad port)

/-- R383: a powered port with no link after 1 s; training is tried again every second. -/
def execNolinkRetry (quad port : Nat) (s : State) : Res :=
  .next (match (s.portOf quad port).retryDue with
    | none => s
    | some t =>
      if !s.quadTimer quad t || !((s.portOf quad port).st = 1 || (s.portOf quad port).st = 3) || !(s.portOf quad port).pwren then s
      else
        let s1 := (s.late t).modQuad quad fun q => { q with nolinkF := setBit4 q.nolinkF port true }
        ((if (s.quadOf quad).nolinkF.getLsbD port then s1 else (s1.quadIrq quad).signal 4).train quad port))

/-! ## SGPIO, management and messages (R359, R384, R385) -/

/-- An exchange of the port is outstanding. -/
def State.active (s : State) (quad port : Nat) : Bool := s.dev.exch.any fun e => e.2.live && e.2.quad = quad && e.2.port = port

/-- The twelve bits of a frame: activity, locate and fault of each port. -/
def State.sgpioBits (s : State) (quad : Nat) : BitVec 12 :=
  let q := s.quadOf quad
  BitVec.ofNat 12 (sumBy (fun p => (b2n (s.active quad p) + 2 * b2n (q.locate.getLsbD p) + 4 * b2n (q.fault.getLsbD p)) * 2 ^ (3 * p))
    (List.range 4))

/-- R383, R384: an SGPIO frame every 10 ms. Drivers that VSB33 has released send none, and do not read back (R520). -/
def execSgpioFrame (quad : Nat) (readbackOk : Bool) (s : State) : Res :=
  .next (match (s.quadOf quad).sgpioDue with
    | none => s
    | some t =>
      if !s.quadTimer quad t || !(s.quadOf quad).cfg.flags.getLsbD 3 || (s.quadOf quad).sgpioF then s
      else
        let s1 := if s.pw.sbLow then s.late t else (s.late t).emit (.sgpio quad (s.sgpioBits quad))
        if readbackOk && !s.pw.sbLow then s1.modQuad quad fun q => { q with sgpioDue := some (addNs s.time 10000000) }
        else (s1.modQuad quad fun q => { q with sgpioF := true, sgpioDue := none }).quadIrq quad |>.signal 4)

/-- R385: the basic management structure of a powered PCIe port is read every second; `resp` is none without an acknowledge. -/
def execMgmtPoll (quad port : Nat) (resp : Option (BitVec 24)) (s : State) : Res :=
  .next (
    let p := s.portOf quad port
    match p.pollDue with
    | none => s
    | some t =>
      if !s.quadTimer quad t || !p.pwren then s
      else
        let s1 := (s.late t).modPort quad port fun p => { p with
          pollDue := some (addNs s.time 1000000000),
          mgmt := match (if p.i2cOpen then none else resp) with
            | some r => r.setWidth 25 ||| 0x1000000#25
            | none => p.mgmt &&& 0xFFFFFF#25 }
        if p.i2cOpen then s1 else s1.emit (.i2c quad port))

/-- A root port whose link is up. -/
def State.rootUp (s : State) (quad port : Nat) : Bool := s.portUp quad port && isPcie (s.quadOf quad).cfg.mode

/-- R359: ERR_COR messages are counted. -/
def execErrCorMessage (quad port : Nat) (s : State) : Res :=
  .next (if s.rootUp quad port then s.modQuad quad fun q => { q with corMsg := inc16 q.corMsg } else s)

/-- R359: the AER status of the device is read and cleared; a record remains. -/
def execErrNonfatalMessage (quad port : Nat) (s : State) : Res :=
  .next (if s.rootUp quad port then (s.event (32 + quad) 5 4 quad port 0 0).emit (.aerClear quad port) else s)

/-- R361, R368: an asynchronous event starts rediscovery. -/
def execNvmeAsyncEvent (quad port : Nat) (s : State) : Res :=
  .next (if s.rootUp quad port && !(s.portOf quad port).ctrls.isEmpty then
    (s.modPort quad port fun p => { p with rerun := true }).quadIrq quad else s)

/-- R368: BROADCAST (CHANGE) starts rediscovery. -/
def execSasBroadcastChange (quad port : Nat) (s : State) : Res :=
  .next (if s.portUp quad port && isSas (s.quadOf quad).cfg.mode then
    (s.modPort quad port fun p => { p with rerun := true }).quadIrq quad else s)

/-! ## Links and lanes (R356, R364, R379, R380) -/

def Quad.lane (q : Quad) (k : Nat) : Lane := q.lanes.getD k Lane.reset

/-- SHORT, OPEN and MISWIRED take a lane out of use, and so does a partner that is too slow (R356). -/
def Lane.works (l : Lane) : Bool := !(l.code = 1 || l.code = 2 || l.code = 4 || l.off)

/-- Rates that a port of the mode carries traffic at, no higher than RATECAP (R354, R356). -/
def rateOk (cfg : QuadRec) (rate : Nat) : Bool :=
  rate ≤ cfg.rateCap && (if isPcie cfg.mode then 3 ≤ rate && rate ≤ 5 else 2 ≤ rate && rate ≤ 4)

/-- The widest link of a root port on some of its lanes, and whether it takes their order reversed: x4, x2 or x1 from its first lane on, or
from its last one down (R380) (log 76, PRESUMED). -/
def pcieLanes (mine good : List Nat) : List Nat × Bool :=
  ((([4, 2, 1].filter (· ≤ mine.length)).flatMap fun w =>
    [(mine.take w, false), (mine.reverse.take w, true)]).find? fun e => e.1.all fun k => good.contains k).getD ([], false)

/-- The phys of a port that learnt the address of its lowest one (R364). -/
def joined (l : List TrainedLane) : List Nat := (l.filter fun t => some t.addr = (l.head?).map (·.addr)).map (·.lane)

/-- The lanes that a link takes of those that trained. -/
def linkLanes (mode port : Nat) (l : List TrainedLane) : List Nat × Bool :=
  let mine := modeLanes mode port
  if isPcie mode then pcieLanes mine (l.map (·.lane)) else (joined (l.filter fun t => mine.contains t.lane), false)

/-- A link stands on some lanes of a port. `rev` says that it takes them in reversed order, `addr` brings the address of a phy; a faulty
lane that carries it has passed its test again, and RATE goes where the shared rate was reached. -/
def Quad.trained (q : Quad) (port : Nat) (use : List Nat) (rev full : Bool) (addr : Nat → Option Word) : Quad :=
  let l := modeLanes q.cfg.mode port
  { q with lanes := q.lanes.zipIdx.map fun e =>
    if use.contains e.2 then
      { e.1 with
        inuse := true, off := false, rev := e.1.rev || rev, addr := (addr e.2).getD e.1.addr,
        code := if !e.1.works || (e.1.code = 3 && full) then 0 else e.1.code }
    else if l.contains e.2 then { e.1 with inuse := false } else e.1 }

/-- R380: the capacity of the quad's EGRESS has changed. -/
def State.portChanged (s : State) (before : State) (quad port : Nat) : State :=
  let a := before.portOf quad port
  let b := s.portOf quad port
  let mode := (s.quadOf quad).cfg.mode
  let n := (modeLanes mode port).length
  if portRaw mode port a ≠ portRaw mode port b || (if a.st = 2 then a.width else n) ≠ b.width then s.capacity (3 + quad) else s


/-- A link that comes up enables ASPM L1 or slumber where LPM is 1; where it is 0 it keeps them disabled, and answers its partner's requests
for a low-power state with the negative acknowledgement (R386, R488). -/
def State.linkPower (s : State) (quad port : Nat) : State :=
  let on := (s.quadOf quad).cfg.lpm
  (s.modPort quad port fun p => { p with pm := on, used := s.time }).emit (.linkPower quad port on (!on))

/-- The highest rate that a port, its partner and RATECAP share (R356). -/
def QuadRec.shared (c : QuadRec) (partner : Nat) : Nat := min partner c.rateCap

/-- The phys of a port that learnt a foreign address stay disabled (R364, R379). -/
def State.miswire (s : State) (quad : Nat) (foreign : List Nat) : State :=
  if foreign.isEmpty then s
  else
    let out := fun (e : Lane × Nat) => if foreign.contains e.2 then { e.1 with code := 4, inuse := false } else e.1
    (s.modQuad quad fun q => { q with lanes := q.lanes.zipIdx.map out }).signal 4

/-- R356, R364, R380, R386: a link is up at the rate that the ends share, or lower where a lane of it has code RATE, on the lanes that
trained; the device's Completion Timeout Value is set (R359), and discovery follows (R368) (log 47, DEDUCED). -/
def execPortLinkUp (quad port : Nat) (rate : LinkRate) (lanes : List TrainedLane) (s : State) : Res :=
  .next (
    let q := s.quadOf quad
    let full := q.cfg.shared rate.partner
    let use := linkLanes q.cfg.mode port lanes
    let slow := rate.reached < full && use.1.any fun k => (q.lane k).code = 3
    if (s.portOf quad port).st ≠ 1 || !s.refOk quad || !rateOk q.cfg rate.reached || use.1.isEmpty
        || !(rate.reached = full || slow) then s
    else
      let addr := fun k => (lanes.find? fun t => t.lane = k).map (·.addr)
      let s1 := (s.modQuad quad fun q => { q.trained port use.1 use.2 (!slow) addr with
        nolinkF := setBit4 q.nolinkF port false }).modPort quad port
          fun p => { p with st := 2, rate := rate.reached, width := use.1.length, retryDue := none, rerun := true }
      let foreign := if isSas q.cfg.mode then
        (lanes.map (·.lane)).filter fun k => (modeLanes q.cfg.mode port).contains k && !use.1.contains k else []
      let s2 := (((s1.linkPower quad port).miswire quad foreign).portChanged s quad port).quadIrq quad
      if isPcie q.cfg.mode then s2.emit (.timeoutRange quad port) else s2)

/-- The port of a lane. -/
def portOfLane (mode lane : Nat) : Option Nat := (List.range 4).find? fun p => (modeLanes mode p).contains lane

/-- R488: the power of a lane of a quad; a lane of no port is down, and one that trains is active (log 72, DEDUCED). -/
def State.lanePower (s : State) (quad lane : Nat) : LanePower :=
  let q := s.quadOf quad
  match if q.cfg.mode = 0 then none else portOfLane q.cfg.mode lane with
  | none => .down
  | some port =>
    let p := s.portOf quad port
    if !p.present then .detecting else if p.rests s.time then .resting else .active

/-- The lowest-numbered active phy takes a pinned target over (R365). -/
def State.repin (s : State) (quad port : Nat) : State :=
  let q := s.quadOf quad
  let target := q.cfg.pins.getD port 0
  if (s.portOf quad port).st ≠ 2 || !(s.portOf quad port).pinned then s
  else match q.phys port with
    | [] => s
    | k :: _ => s.modQuad quad fun q => { q with conns := (q.conns.filter fun c => c.phy ≠ k && !(c.pinned && c.target = target)) ++ [⟨k, target, true, none⟩] }

/-- A port that a lane fault has taken down trains again after a second, where it is powered (R379, R383). -/
def State.retrainLater (s : State) (quad port : Nat) : State :=
  s.modPort quad port fun p => if p.pwren then { p with retryDue := some (addNs s.time 1000000000) } else p

/-- A lane leaves its port: the link goes on with the width that its working lanes allow where they stand, or goes down (R380, R364). -/
def State.loseLane (s : State) (quad port lane : Nat) : State :=
  let s1 := s.modQuad quad fun q => { q with conns := q.conns.filter fun c => c.phy ≠ lane }
  if (s.portOf quad port).st ≠ 2 then s1
  else
    let q := s1.quadOf quad
    let good := (modeLanes q.cfg.mode port).filter fun k => (q.lane k).works && (q.lane k).inuse
    let use := if isPcie q.cfg.mode then pcieLanes (modeLanes q.cfg.mode port) good else (good, false)
    if use.1.isEmpty then (s1.portDown quad port 3).retrainLater quad port
    else
      let s2 := (s1.modQuad quad fun q => q.trained port use.1 use.2 false fun _ => none).modPort quad port fun p =>
        { p with width := use.1.length }
      (s2.portChanged s quad port).repin quad port

def laneCode (c : LaneCode) : BitVec 4 :=
  match c with
  | .short => 1
  | .open_ => 2
  | .rate => 3
  | .slow => 3
  | .miswired _ => 4
  | .polarity => 0
  | .reversed => 0

/-- A phy of a port learns another address than the port's other active phys (R364). -/
def State.foreign (s : State) (quad port lane : Nat) (addr : Word) : Bool :=
  let q := s.quadOf quad
  isSas q.cfg.mode && (modeLanes q.cfg.mode port).any fun k => k ≠ lane && (q.lane k).inuse && (q.lane k).addr ≠ addr

/-- R379: a lane fault or correction. A fault signals vector 4 (R48); SHORT and OPEN leave a record as well. A reversed order is corrected
on an x4 or x2 root port alone. -/
def execLaneFault (quad lane : Nat) (code : LaneCode) (s : State) : Res :=
  .next (match portOfLane (s.quadOf quad).cfg.mode lane with
    | none => s
    | some port =>
      let set := fun (f : Lane → Lane) => (s.modQuad quad fun q => { q with lanes := modAt q.lanes lane f }).quadIrq quad
      let out := (set fun l => { l with code := laneCode code, inuse := false, off := code = .slow }).loseLane quad port lane
      match code with
      | .polarity => set fun l => { l with polinv := true }
      | .reversed =>
        if isPcie (s.quadOf quad).cfg.mode && 1 < (modeLanes (s.quadOf quad).cfg.mode port).length then set fun l => { l with rev := true }
        else s
      | .rate => ((set fun l => { l with code := 3 }).capacity (3 + quad)).signal 4
      | .slow => if isSas (s.quadOf quad).cfg.mode then (out.capacity (3 + quad)).signal 4 else s
      | .miswired addr => if s.foreign quad port lane addr then out.signal 4 else s
      | .short => (out.event (32 + quad) 5 8 quad port 1 0).signal 4
      | .open_ => (out.event (32 + quad) 5 8 quad port 2 0).signal 4)

/-! ## Discovery (R368 to R376) -/

/-- The record of an identity read (R435): the digest of the measurements where the device offers SPDM, else of its responses (R374). -/
def identityPayload (quad port : Nat) (r : IdentityRead) (form : Nat) : List Byte :=
  leBytes 1 r.kind ++ leBytes 1 form ++ leBytes 1 (quad + port * 32) ++ [0] ++ leBytes 20 r.serial.toNat ++ leBytes 8 r.fwrev.toNat
    ++ leBytes 24 r.model.toNat ++ leBytes 48 (Config.sha384 ((r.run.map (·.meas)).getD r.resp)).toNat
    ++ (match r.run with
      | none => List.replicate 48 0
      | some m => leBytes 48 (Config.sha384 m.cert).toNat) ++ leBytes 8 r.target.toNat

/-- One identity read of a run: a nonce is drawn for its SPDM exchange, its record goes to the Almanac, and the run keeps its form
(R374, R375). -/
def State.readIdentity (s : State) (quad port : Nat) (r : IdentityRead) : State :=
  let form := r.form ((s.pl.img.map (·.anchors)).getD []) (Config.random s.fresh)
  let payload := identityPayload quad port r form
  let s1 := (({ s with fresh := s.fresh + 1 } : State).emits (r.asks quad port)).modPort quad port fun p =>
    { p with expander := p.expander || r.kind = 4, ids := p.ids ++ [⟨r.kind, r.target, r.func, decide (form = 1), payload⟩] }
  let s2 := if r.kind ≠ 4 && r.spdm.isSome && Config.rngFails s.fresh then s1.irqPl 13 else s1
  (s2.record 9 (32 + quad) payload 160).irqPl 10

/-- R360: the controllers that a run finds at a port: a new one is set up, one that is set up already is enabled, identified and given its
queues again; every controller of the quad takes its share of pairs (log 20, DESIGN CHOICE). -/
def State.setCtrls (s : State) (quad port : Nat) (ids : List Word) : State :=
  let s1 := s.modPort quad port fun p => { p with ctrls := p.ctrls.filter fun c => ids.contains c.id }
  let known := (s1.portOf quad port).ctrls.map (·.id)
  let s2 := (ids.filter known.contains).foldl (fun t k => t.enableCtrl quad port k) s1
  let s3 := ((ids.filter fun k => !known.contains k).foldl (fun t k => t.initCtrl quad port k) s2).shareQuad quad
  s3.emits (((s3.portOf quad port).ctrls.filter fun c => known.contains c.id).map fun c =>
    .ctrlInit quad port c.id (CtrlSetup.of c.pairs (s3.quadOf quad).cfg.lpm))

/-- R360, R368, R374: Obulo starts a run: the controllers that it finds are set up first, then identities are read, and each leaves its
record. -/
def execDiscoveryRunStart (quad port : Nat) (ids : List IdentityRead) (s : State) : Res :=
  .next (
    let p := s.portOf quad port
    if !s.pw.supUp || !s.hasPort quad port || !p.rerun || p.running || (s.quadOf quad).resetReq then s
    else
      let s1 := s.modPort quad port fun p => { p with running := true, rerun := false, ids := [], expander := false }
      let found := if isPcie (s.quadOf quad).cfg.mode then ((ids.filter fun r => r.kind = 1).map (·.target)).eraseDups else []
      if p.st = 2 then ids.foldl (fun t r => t.readIdentity quad port r) (s1.setCtrls quad port found) else s1)

/-- The sequence number of the latest identity record of a device in the Almanac, which is that of the identity that its run has read
(R371). -/
def State.latestId (s : State) (id : Option PortId) (old : BitVec 32) : BitVec 32 :=
  match id with
  | none => old
  | some p => (s.pl.alm.slots.foldl (fun (b : Option Nat) e =>
      if e.2.type = 9 && e.2.payload = p.payload && (match b with
        | none => true
        | some n => n < e.2.seq) then some e.2.seq else b) none).elim old (BitVec.ofNat 32)

/-- Identity records of the port that the Almanac has yet to write. -/
def State.idsWaiting (s : State) (quad port : Nat) : Bool :=
  (s.pl.alm.queue ++ s.pl.alm.hold).any fun r => r.type = 9 && rd r.payload 2 1 = quad + port * 32

/-- What the finding makes of a record: KIND 0 and REASON ATTEST where no path has passed; the fields that its kind does not use are 0
(R369, R371, R376) (log 32, DEDUCED). -/
def State.findRec (s : State) (quad port : Nat) (f : Finding) (r : DiscRec) (paths : List DiscPath) : DiscRec :=
  let cfg := (s.quadOf quad).cfg
  let ids := (s.portOf quad port).ids
  let c := f.class ids
  let fails := cfg.flags.getLsbD 0 && !f.attested ids && !paths.any (·.up)
  { r with
    kind := if fails then 0 else c.1, seq := f.what.seq, pi := f.what.pi, pdt := f.what.pdt,
    reason := if c.2 ≠ 0 then c.2 else if fails then 5 else 0, uid := f.uid, nqn := f.nqn,
    nblocks := if f.what.seq || c.1 = 3 then 0 else f.nblocks, blksize := f.blksize, maxxfer := min f.maxxfer 2097152,
    maxblk := if f.what.seq then f.maxblk else 0,
    lunid := if c.1 = 3 then 0 else if isPcie cfg.mode then f.lunid &&& 0xFFFFFFFF#64 else f.lunid,
    fwrev := BitVec.ofNat 64 (ascii 8 f.fwrev), model := BitVec.ofNat 320 (ascii 40 f.model),
    almSeq := s.latestId (f.idOf f.what.class.1 ids) r.almSeq, barLen := f.what.barLen cfg.pmemBar, paths := paths }

/-- R373: the index of a new device: the lowest free one, else that of a record neither present nor in use, of the lowest DGEN. -/
def State.newIndex (s : State) : Option Nat :=
  let n := AMap.gap s.dev.disc 0
  if n < 32768 then some n
  else
    let ok := s.dev.disc.filter fun e => e.2.dev.isNone && !e.2.paths.any (·.up)
    (ok.foldl (fun (b : Option (Nat × DiscRec)) e => match b with
      | none => some e
      | some a => if e.2.dgen.toNat < a.2.dgen.toNat then some e else b) none).map (·.1)

def blankRec (dgen : BitVec 32) : DiscRec := ⟨dgen, 0, false, false, 0, 0, 0, [], 0, 0, 0, 0, none, 0, 0, 0, 0, 0, []⟩

/-- What a run leaves of a record that it did not find: its path through the port is DOWN, with UID-CHANGED where another device
answered in its place (R377) (log 32, DEDUCED). -/
def DiscRec.missed (r : DiscRec) (quad port : Nat) (cfg : QuadRec) (found : List Finding) : DiscRec :=
  { r with paths := r.paths.map fun p =>
      if p.quad = quad && p.port = port then
        { p with
          up := false, lost := false,
          why := if found.any (fun f => f.uid ≠ 0 && f.lunid = r.lunid && f.place cfg = p.target && f.func = p.func) then .uidChanged
            else .none }
      else p }

/-- List one finding of a run whose changes will make discovery generation `gen` (log 32, DEDUCED). -/
def State.listOne (s : State) (quad port : Nat) (gen : BitVec 32) (f : Finding) : State :=
  let cfg := (s.quadOf quad).cfg
  let path := f.path quad port cfg (s.portOf quad port).ids
  match s.dev.disc.find? fun e => f.isOf quad port cfg e.2 with
  | some (i, r) =>
    let here := r.paths.any fun p => p.quad = quad && p.port = port
    if !here && 8 ≤ r.paths.length then s.event (32 + quad) 5 7 quad port 0 (i + r.dgen.toNat * 2 ^ 32)
    else
      let paths := if here then r.paths.map fun p => if p.quad = quad && p.port = port then path else p else r.paths ++ [path]
      s.onDev fun d => { d with disc := AMap.put d.disc i (s.findRec quad port f r paths) }
  | none =>
    match s.newIndex with
    | some i => s.onDev fun d => { d with disc := AMap.put d.disc i (s.findRec quad port f (blankRec gen) [path]) }
    | none => (s.modPort quad port fun p => { p with unlisted := p.unlisted + 1 }).event (32 + quad) 5 0xA quad port 0 0

/-- The position of a sequential device that a run found is not known (R408). -/
def State.forgetPos (s : State) (quad port : Nat) : State :=
  let devs := s.dev.disc.filterMap fun e => if e.2.seq && e.2.paths.any fun p => p.quad = quad && p.port = port then e.2.dev else none
  devs.foldl (fun t k => t.setSeq k { t.seqOf k with pos := none }) s


/-- R365: the pinned connection opens when its target is found, and is given up when it is not. -/
def State.pinTarget (s : State) (quad port : Nat) (found : List Finding) : State :=
  let target := (s.quadOf quad).cfg.pins.getD port 0
  if isSas (s.quadOf quad).cfg.mode && target ≠ 0 && found.any (fun f => f.target = target) then
    (s.modPort quad port fun p => { p with pinned := true }).repin quad port
  else (s.modPort quad port fun p => { p with pinned := false }).modQuad quad fun q =>
    { q with conns := q.conns.filter fun c => !(c.pinned && (modeLanes q.cfg.mode port).contains c.phy) }

/-- NVMe controllers whose namespaces were found without their own identity read, one for each CNTLID: they are set up as well. -/
def State.lateCtrls (s : State) (quad port : Nat) (found : List Finding) : State :=
  if !isPcie (s.quadOf quad).cfg.mode then s
  else
    let known := (s.portOf quad port).ctrls.map (·.id)
    let new := (((found.filter fun f => f.what.isNs).map (·.target)).eraseDups).filter fun k => !known.contains k
    (new.foldl (fun t k => t.initCtrl quad port k) s).shareQuad quad

/-- R407: the quad sets the I_T NEXUS LOSS TIME of each SSP target port that it finds to 100 ms. -/
def nexusTimes (quad port : Nat) (found : List Finding) (ids : List PortId) : List Out :=
  (((ids.filter fun p => p.kind = 3).map (·.target) ++ (found.filter fun f => f.what.isLun).map (·.target)).eraseDups).map fun a =>
    .nexusTime quad port a 100

/-- R368 to R373, R377: a run ends, once the Almanac holds its identity records: its findings are listed, the paths of devices
that it did not find go DOWN, and a changed list raises DGEN and tells the host. A run that a QRESET has ended does not come here (R388). -/
def execDiscoveryRunEnd (quad port : Nat) (found : List Finding) (s : State) : Res :=
  .next (
    let p := s.portOf quad port
    if !s.pw.supUp || !p.running || (s.quadOf quad).resetReq || s.idsWaiting quad port then s
    else
      let cfg := (s.quadOf quad).cfg
      let found := if p.st = 2 then found.filter fun f => f.what.fits cfg.mode else []
      let gen := s.dev.dgen + 1
      let s1 := s.modPort quad port fun p => { p with running := false, unlisted := 0 }
      let s2 := found.foldl (fun t f => t.listOne quad port gen f) s1
      let s3 := s2.onDev fun d => { d with disc := d.disc.map fun e =>
        if (found.any fun f => f.isOf quad port cfg e.2) = true then e else (e.1, DiscRec.missed e.2 quad port cfg found) }
      let changed : Bool := s3.dev.disc ≠ s.dev.disc
      let s4 := if changed then s3.onDev fun d => { d with dgen := gen } else s3
      let s5 := (((s4.modPort quad port fun p => { p with devs := found.length, dgen := s4.dev.dgen }).lateCtrls quad port
        found).pinTarget quad port found).emits (nexusTimes quad port found p.ids)
      let s6 := ((s5.forgetPos quad port).quadIrq quad).wantAll
      if changed then s6.notice 1 gen.toNat else s6)

/-! ## Quad resets (R387) -/

def State.askReset (s : State) (quad : Nat) : State :=
  if (s.quadOf quad).cfg.mode = 0 then s else s.modQuad quad fun q => { q with resetReq := true }

/-- R387: a write of 1 to QRESET asks Obulo for a quad reset (log 48, DEDUCED). -/
def execQreset (quad : Nat) (s : State) : Res :=
  .next (s.bar0Write 8 true (if s.link.ep = .recovery || 32 ≤ quad then s else s.askReset quad))

/-- The exchanges that a quad reset ends for good: those of cleared programs (R135). -/
def State.endCleared (s : State) (quad : Nat) : State :=
  let l := (s.dev.exch.filter fun e => e.2.quad = quad && e.2.live && (s.ctxOf e.2.sch).clrreq).map (·.1)
  l.foldl (fun t x => t.exchCut x false) s

/-- A quad reset clears the timers of a port (R497); one whose cause stands begins again, the training of its link with its reset (log 48,
DEDUCED). -/
def Port.restarted (p : Port) (now : Time) (cfg : QuadRec) : Port :=
  { p with
    debounce := p.debounce.map fun _ => addNs now 10000000, powerDue := p.powerDue.map fun _ => addNs now (1000 * cfg.pwrDelay),
    offDue := p.offDue.map fun _ => addNs now 10000000, pollDue := p.pollDue.map fun _ => addNs now 1000000000, retryDue := none }

/-- Links are reset: PERST_N, read back as it is released (R383), and training in PCIe mode, a link reset in SAS mode. -/
def State.resetPort (s : State) (quad port : Nat) (readbackOk : Bool) : State :=
  if !s.hasPort quad port then s
  else
    let present := (s.portOf quad port).present && (s.portOf quad port).pwren && (s.portOf quad port).powerDue.isNone
    let s1 := if (s.portOf quad port).st = 2 then s.portDown quad port 1 else s
    let s2 := (s1.modPort quad port fun p => ({ p with rerun := true, running := false } : Port).restarted s.time (s.quadOf quad).cfg).emits
      (if isSas (s.quadOf quad).cfg.mode then [.linkReset quad port] else [])
    if !present || (s.quadOf quad).perstF.getLsbD port then s2
    else (s2.pinPerst quad port true).unreset quad port readbackOk

/-- The requests for the EGRESS of a quad are withdrawn (R332), and its waits at bound 37 end, so that BUF_WAIT is 0 (R322). -/
def Meridian.quadCleared (m : Meridian) (quad : Nat) : Meridian :=
  { m with reqs := m.reqs.filter fun r => r.res ≠ 3 + quad
           waits := m.waits.filter fun w => !(w.bound = 37 && w.rix = 32 + quad) }

/-- Steps 2 to 4 of R387 (log 48, DEDUCED). -/
def State.quadResetNow (s : State) (quad : Nat) (perstBad : BitVec 4) : State :=
  let s1 := (s.onMd fun m => m.quadCleared quad).endCleared quad
  let s2 := (List.range 4).foldl (fun t p => t.resetPort quad p (!perstBad.getLsbD p)) s1
  let lost := (s2.dev.exch.filter fun e => e.2.quad = quad && e.2.st = .lost).map (·.1)
  let s3 := lost.foldl (fun t x => t.dropExch x) s2
  let s4 := s3.onFifo quad fun f => { f with rx := [], rxB := ⟨0, 0, f.rxB.bank⟩, stop := false, tx := [], txB := ⟨0, 0, f.txB.bank⟩, txFaults := [] }
  let seqs := s4.dev.disc.filterMap fun e => if e.2.seq && e.2.paths.any fun p => p.quad = quad then e.2.dev else none
  let s5 := seqs.foldl (fun t k => t.setSeq k { t.seqOf k with pos := none }) s4
  (((s5.modQuad quad fun q => { q with
      conns := [], resetReq := false, sgpioDue := q.sgpioDue.map fun _ => addNs s.time 10000000 }).onMd fun m =>
    { m with frzEgr := m.frzEgr &&& ~~~(1#32 <<< quad) }).quadIrq quad).wantAll

/-- R387: Obulo freezes the EGRESS of the quad, waits until it is drained, and resets the quad (log 48, DEDUCED). -/
def execQuadReset (test : QuadTest) (s : State) : Res :=
  let quad := test.quad
  .next (
    if !s.pw.supUp || !(s.quadOf quad).resetReq then s
    else
      let held := s.md.reqs.any fun r => r.res = 3 + quad && r.granted
      let s1 := s.onMd fun m => { m with frzEgr := m.frzEgr ||| (1#32 <<< quad), drained := m.drained && !held }
      if held then s1 else s1.freezeDrained.quadResetNow quad test.perstBad)

/-! ## SBRETRY (R383) -/

/-- The tests of one port's faulted sideband again. -/
def State.retryPort (s : State) (quad : Nat) (still : BitVec 17) (port : Nat) : State :=
  let q := s.quadOf quad
  let p := s.portOf quad port
  let s1 := if q.i2cF.getLsbD port then
      (s.modPort quad port fun p => { p with i2cOpen := still.getLsbD (8 + port) }).modQuad quad fun q =>
        { q with i2cF := setBit4 q.i2cF port (still.getLsbD (8 + port)) }
    else s
  let s2 := if q.nolinkF.getLsbD port && !still.getLsbD (12 + port) then
      s1.modQuad quad fun q => { q with nolinkF := setBit4 q.nolinkF port false } else s1
  let s3 := if q.pwrenF.getLsbD port && !still.getLsbD port then
      (if p.present then s2.powerUp quad port true
       else s2.modQuad quad fun q => { q with pwrenF := setBit4 q.pwrenF port false }) else s2
  if q.perstF.getLsbD port && !still.getLsbD (4 + port) then
    (if p.present && p.pwren && p.powerDue.isNone then s3.unreset quad port true
     else s3.modQuad quad fun q => { q with perstF := setBit4 q.perstF port false })
  else s3

/-- The faulted sideband of a quad is tested again; what still fails has the layout of PQ_SB_STAT. -/
def State.retrySideband (s : State) (quad : Nat) (stillFaulty : BitVec 17) : State :=
  let s1 := (List.range 4).foldl (fun t p => t.retryPort quad stillFaulty p) s
  if (s.quadOf quad).sgpioF && !stillFaulty.getLsbD 16 then s1.sgpioAgain quad else s1

/-- R383: a write of 1 to SBRETRY tests faulted sideband again (log 33, DESIGN CHOICE). -/
def execSbretry (quad : Nat) (stillFaulty : BitVec 17) (s : State) : Res :=
  .next (s.bar0Write 8 true (if s.link.ep = .recovery || 32 ≤ quad then s else s.retrySideband quad stillFaulty))

end Sys2Proof.Machine
end

