-- ==== Sys2Proof/Machine/Almanac.lean ====
section
/-! DEFINITION. Sys2Proof/Machine/Almanac.lean: the records of the Almanac, its chain, its header and quotes (13). -/

namespace Sys2Proof.Machine

/-! ## Records (R431 to R433, R437) -/

/-- The slot of a sequence number. -/
def almSlot (seq : Nat) : Nat := if seq < 4096 then seq else 4096 + (seq - 4096) % 4096

/-- Bytes 0 to 23. -/
def AlmRec.head (r : AlmRec) : List Byte :=
  leBytes 8 r.seq ++ leBytes 6 r.time.toNat ++ leBytes 2 r.type ++ leBytes 2 r.source ++ leBytes 2 r.bootno ++ leBytes 2 r.len ++ [0, 0]

def digestBytes (d : BitVec 384) : List Byte := leBytes 48 d.toNat

/-- The 256 bytes of a record (R432). -/
def AlmRec.bytes (r : AlmRec) : List Byte := r.head ++ digestBytes r.chain ++ fit 180 r.payload ++ leBytes 4 r.crc.toNat

/-- chain and crc of R433. -/
def AlmRec.seal (r : AlmRec) (prev : BitVec 384) : AlmRec :=
  let r1 := { r with chain := Config.sha384 (digestBytes (if r.seq = 0 then 0 else prev) ++ r.head ++ fit 180 r.payload) }
  { r1 with crc := crc32c (r1.head ++ digestBytes r1.chain ++ fit 180 r1.payload) }

/-- OLDEST of R439. -/
def almOldest (records : Nat) : Nat := if records ≤ 4096 then records else max 4096 (records - 4096)

/-- A record takes its slot, then the chain fields, then RECORDS (R440). -/
def Almanac.write (a : Almanac) (now : Time) (bootno : Nat) (q : AlmReq) : Almanac :=
  let seq := a.next
  let r := (AlmRec.mk seq now q.type q.source bootno q.len q.payload 0 0).seal a.head
  let old := ((AMap.get? a.slots (almSlot seq)).map (·.chain)).getD 0
  { a with
    slots := AMap.put a.slots (almSlot seq) r, next := seq + 1, head := r.chain,
    pinnedEnd := if seq < 4096 then r.chain else a.pinnedEnd,
    tailAnchor := if seq < 4096 then r.chain else if seq < 8192 then a.tailAnchor else old }

/-- A record is written at this moment: the vectors that announce it are signalled, now that it can be read, and with SEQ 4,095 vector 5
(R437, R473). -/
def State.writeRec (s : State) (q : AlmReq) : State :=
  let seq := s.pl.alm.next
  let s1 := q.vecs.foldl (fun t v => t.signalNow v) (s.onPl fun p => { p with alm := p.alm.write s.time p.bootno q })
  if seq = 4095 then s1.signalNow 5 else s1

/-- The counts of suppressed events, the most frequent first. -/
def insertCount (e : Nat × Nat) (l : List (Nat × Nat)) : List (Nat × Nat) :=
  match l with
  | [] => [e]
  | f :: l => if f.2 < e.2 then e :: f :: l else f :: insertCount e l

def sortCounts (l : List (Nat × Nat)) : List (Nat × Nat) := l.foldl (fun acc e => insertCount e acc) []

/-- The SUPPRESSED record (R434). -/
def suppressedReq (m : AMap Nat) : AlmReq :=
  let top := (sortCounts m).take 16
  ⟨0xB, 0, fit 180 (leBytes 4 (sumBy (·.2) m) ++ top.flatMap fun e =>
    leBytes 2 (e.1 / 65536) ++ leBytes 2 (e.1 % 65536) ++ leBytes 4 e.2), 4 + 8 * top.length, []⟩

/-- The writer takes the next record, and the first source that waits hands over its own; when the queue falls to 128, the suppressed
events get theirs (log 50, DEDUCED). -/
def State.writeNext (s : State) : State :=
  match s.pl.alm.queue with
  | [] => s
  | q :: rest =>
    let rest := rest ++ s.pl.alm.hold.take 1
    let s1 := (s.onPl fun p => { p with alm := { p.alm with queue := rest, hold := p.alm.hold.drop 1 } }).writeRec q
    if rest.length ≠ 128 then s1
    else
      let s2 := s1.irqPl 9
      if s2.pl.alm.suppressed.isEmpty then s2
      else (s2.writeRec (suppressedReq s2.pl.alm.suppressed)).onPl fun p => { p with alm := { p.alm with suppressed := [] } }

/-- R437: a waiting record is written. -/
def execAlmanacWrite (s : State) : Res :=
  .next (if s.pl.started && s.pw.released then s.writeNext else s)

def writeMany (n : Nat) (s : State) : State :=
  match n with
  | 0 => s
  | n + 1 => writeMany n s.writeNext

/-- Every waiting record is written, in order: Plinth waits until the last one has its SEQ (log 50, DEDUCED). -/
def State.flushAlm (s : State) : State := writeMany (s.pl.alm.queue.length + s.pl.alm.hold.length) s

/-- A record of Plinth itself. -/
def State.plRecord (s : State) (type : Nat) (payload : List Byte) : State := s.record type 0 payload payload.length

/-! ## Header and quotes (R439, R443) -/

/-- STATE of a quote. -/
def Plinth.stateByte (p : Plinth) : Nat := p.mode + 4 * b2n p.tamper + 8 * b2n p.extLock

/-- This manual's stepping, B0 (R1, R505). -/
def stepping : Nat := 0x10

/-- Bytes 0 to 215 of a quote. -/
def State.quoteBody (s : State) (nonce : List Byte) : List Byte :=
  let a := s.pl.alm
  leBytes 2 1 ++ leBytes 1 stepping ++ leBytes 1 s.pl.stateByte ++ leBytes 2 s.pl.bootno ++ [0, 0] ++ leBytes 8 Config.serial.toNat
    ++ leBytes 8 s.time.toNat ++ leBytes 8 a.next ++ leBytes 8 (almOldest a.next) ++ fit 32 nonce ++ digestBytes a.pinnedEnd
    ++ digestBytes a.tailAnchor ++ digestBytes a.head

/-- "ALMANAC-QUOTE", "THAZO-UPDATE" and "THAZO-DECODE" in ASCII. -/
def asciiQuote : List Byte := [0x41, 0x4C, 0x4D, 0x41, 0x4E, 0x41, 0x43, 0x2D, 0x51, 0x55, 0x4F, 0x54, 0x45]
def asciiUpdate : List Byte := [0x54, 0x48, 0x41, 0x5A, 0x4F, 0x2D, 0x55, 0x50, 0x44, 0x41, 0x54, 0x45]
def asciiDecode : List Byte := [0x54, 0x48, 0x41, 0x5A, 0x4F, 0x2D, 0x44, 0x45, 0x43, 0x4F, 0x44, 0x45]

/-- Plinth reads its SRAM, whose words may be found uncorrectable (R471). -/
def State.sramRead (s : State) : State :=
  if Config.sramUpset s.fresh then ({ s with fresh := s.fresh + 1 } : State).irqPl 14 else { s with fresh := s.fresh + 1 }

/-- A quote, signed by the identity key; the signature is a fresh one. -/
def State.makeQuote (s : State) (nonce : List Byte) : State × List Byte :=
  let b := s.quoteBody nonce
  (s.sramRead, b ++ fit 96 (Config.sign s.fresh (asciiQuote ++ b)))

/-- The header of the read window (R439). -/
def State.almHeader (s : State) : List Byte :=
  let a := s.pl.alm
  let b := leBytes 8 a.next ++ leBytes 8 (almOldest a.next) ++ leBytes 2 s.pl.bootno ++ leBytes 1 s.pl.stateByte
  let c := patch (patch (patch b 0x20 (digestBytes a.pinnedEnd)) 0x50 (digestBytes a.tailAnchor)) 0x80 (digestBytes a.head)
  fit 4096 (patch (patch c 0xB0 (leBytes 8 s.pl.quotes)) 0x100 (fit 312 s.pl.quote))

/-- Bytes of the Almanac read window (R438). -/
def State.almWindow (s : State) (off n : Nat) : List Byte :=
  if off < 0x1000 then slice s.almHeader off n
  else if off < 0x40000 then List.replicate n 0
  else
    let page := s.link.almPage.toNat
    match AMap.get? s.pl.alm.slots (1024 * page + (off - 0x40000) / 256) with
    | none => List.replicate n 0
    | some r => slice r.bytes (off % 256) n

end Sys2Proof.Machine
end

