-- ==== Sys2Proof/Machine/Link.lean ====
section
/-! DEFINITION. Sys2Proof/Machine/Link.lean: events of the host link, Link IDE, and the SPDM, DOE and MCTP responders (02, 13). -/

namespace Sys2Proof.Machine

/-! ## Function events (R32, R64, R50) -/

/-- The link can carry requests again: ended programs release their stores, completions and messages go, and queues that waited
for room go on (R64, R98). -/
def State.resumes (s : State) : State :=
  ((s.sub.prog.foldl (fun t e => t.progress e.1) s).linkResumes).pumpAll

/-- A change of what the link lets through wakes what waited for it. -/
def State.ifOpened (s : State) (before : State) : State :=
  if s.link.mayIssue && !before.link.mayIssue then s.resumes else s

/-- A configuration request: from the deassertion of PERST_N to the release of the endpoint it completes with Request Retry Status and
takes no effect (R57, R60). -/
def State.config (s : State) (t : State) : State :=
  if s.link.ep ≠ .held then t else if s.pw.released && !s.pw.perstLow && s.pw.hrefOk then s.emit .rrs else s

/-- R32: tags and bound (log 13, PRESUMED). -/
def Link.bindTags (l : Link) (c : HostCfg) : Link :=
  { l with
    bme := true, tagw := if c.tag14 then 2 else if c.tag10 then 1 else 0,
    rdLimit := if c.tag14 then 8192 else if c.tag10 then 768 else 256,
    pasidEn := c.pasid, relaxed := c.relaxed, mps := max 128 c.mps, mrrs := max 128 c.mrrs }

/-- R32, R64: Bus Master Enable changes from 0 to 1. A change of the host read bound falls to a re-test (R337, R346). -/
def execBusMasterEnableSet (cfg : HostCfg) (s : State) : Res :=
  .next (s.config (if s.link.bme then s
    else
      let s1 := (s.onLink fun l => l.bindTags cfg).irq 17
      (if s1.link.rdLimit = s.link.rdLimit then s1 else s1.capacity 1).ifOpened s))

/-- R64: no requests and no messages until it is set again. -/
def execBusMasterEnableCleared (s : State) : Res :=
  .next (s.config (if !s.link.bme then s else (s.onLink fun l => { l with bme := false }).irq 17))

/-- R64: BAR requests complete with Unsupported Request. -/
def execMemorySpaceEnableCleared (s : State) : Res :=
  .next (s.config (if !s.link.mse then s else (s.onLink fun l => { l with mse := false }).irq 17))

/-- R64: BAR requests are accepted again. -/
def execMemorySpaceEnableSet (s : State) : Res :=
  .next (s.config (if s.link.mse then s else (s.onLink fun l => { l with mse := true }).irq 17))

/-- R50: a vector is unmasked, by a write to its table entry in BAR4 (R42, R55, R59, R64, R65); `none`: MSI-X Enable is set with Function
Mask clear (log 25, DEDUCED). -/
def execMsixUnmask (vec : Option Nat) (s : State) : Res :=
  .next (match vec with
    | none => s.config (s.onLink fun l => { l with msixEn := true, fmask := false }).sendPending
    | some v =>
      if s.link.ep = .held || s.link.ide.discarding then s
      else if !s.link.opens4 0 then s.urSent
      else if 2048 ≤ v || (s.link.ep = .recovery && !(v = 0 || v = 2 || v = 5)) then s
      else (s.onLink fun l => { l with vecs := AMap.put l.vecs v { l.vec v with masked := false } }).sendPending)

/-! ## Rates and errors (R35, R65, R67) -/

/-- RATE and WIDTH as GL_HL_STAT places them. -/
def Link.speed (l : Link) : Nat := l.rate + 16 * l.width

/-- Flit mode is negotiated once, when the link trains, and holds at every rate from then on (R29). -/
def Link.flitAt (l : Link) (rate : Nat) (flit : Bool) : Bool := rate = 6 || (if l.linkUp then l.flit else flit)

/-- R22, R35: a negotiated rate or width, which needs the host reference; a change goes to Meridian, the supervisor and the Almanac (log 47,
DEDUCED). -/
def execHostLinkRateChange (rate width : Nat) (flit : Bool) (s : State) : Res :=
  .next (
    if s.link.ep = .held || !s.pw.hrefOk || rate < 3 || 6 < rate || !([1, 2, 4, 8, 16].contains width) then s
    else
      let s1 := s.onLink fun l => { l with rate := rate, width := width, flit := l.flitAt rate flit, linkUp := true }
      if s.link.rate = rate && s.link.width = width then s1
      else (((s1.event 2 0 1 s.link.speed s1.link.speed 0 0).irq 16).capacity 1).capacity 2)

/-- R65: a poisoned write is discarded; one on a discarding stream is not seen at all (R56). -/
def execPoisonedTlpReceived (s : State) : Res :=
  .next (if s.link.ep = .held || s.link.ide.discarding then s else s.onLink fun l =>
    { l with poisonRx := inc16 l.poisonRx, aer := { l.aer with poisoned := true } })

/-- R65: recovered by the link layer. -/
def execCorrectableLinkError (s : State) : Res :=
  .next (if s.link.ep = .held then s else s.onLink fun l => { l with aer := { l.aer with correctable := true } })

/-- R65: a host read ends with a completion timeout. -/
def execHostCompletionTimeout (tag : Nat) (s : State) : Res :=
  match AMap.get? s.link.reads tag with
  | none => .next s
  | some (.ring _ _ _) => execRingFetchComplete tag .timeout ⟨[], .sound⟩ s
  | some (.text _ _) => execTextLineArrival tag .timeout ⟨0, .sound⟩ s
  | some (.load _ _) => execHostLoadReturn tag .timeout ⟨0, .sound⟩ s
  | some (.dma _ _ _ _) => execDmaReadCompletion tag .timeout ⟨[], .sound⟩ s

/-! ## Link IDE (R54 to R56) -/

/-- Every sub-stream has an active key in both directions. -/
def Ide.complete (i : Ide) : Bool :=
  [SubStream.posted, .nonPosted, .completion].all fun u => [true, false].all fun t =>
    i.keys.any fun k => k.sub = u && k.tx = t && k.active

/-- The stream takes the state that its keys give it; the supervisor hears of a change. -/
def State.ideState (s : State) : State :=
  let now := s.link.ide.complete
  let s1 := s.onLink fun l => { l with ide := { l.ide with secure := now, discarding := l.ide.discarding && !now } }
  if now = s.link.ide.secure then s1 else (s1.irq 18).ifOpened s

/-- R56: the stream becomes Insecure, and its later TLPs are discarded until new keys take effect. -/
def State.ideFail (s : State) : State :=
  let s1 := s.onLink fun l => { l with
    ide := { l.ide with secure := false, discarding := true, keys := l.ide.keys.map fun k => { k with active := false } },
    aer := { l.aer with ide := true } }
  (s1.event 2 0 2 0 0 0 0).irq 18

/-- R56: an IDE check failure. -/
def execIdeCheckFailure (s : State) : Res := .next (if s.link.ide.secure then s.ideFail else s)

/-- The SPDM session, once finished. -/
def State.secureSession (s : State) (id : Nat) : Option SpdmSession := s.link.sessions.find? fun x => x.id = id && x.finished

/-- A response of the SPDM responder, its content opaque (log 12). -/
def State.spdmSay (s : State) (tr : Transport) (code : Byte) : State :=
  { s with fresh := s.fresh + 1 }.emit (.spdm tr code (Config.spdmBody s.fresh code))

/-- A key in IDE_KM's terms. -/
def IdeKey.named (k : IdeKey) (sub : SubStream) (tx k1 : Bool) : Bool := k.sub = sub && k.tx = tx && k.k1 = k1

/-- R54: KEY_PROG stores a key; it takes effect with KEY_SET_GO. A key that was active is inactive until then, and the stream keeps its
state (log 64, DESIGN CHOICE). -/
def execKeyProg (session : Nat) (sub : SubStream) (tx k1 : Bool) (key : BitVec 256) (s : State) : Res :=
  .next (match s.secureSession session with
    | none => s
    | some x => (s.onLink fun l => { l with ide := { l.ide with
        keys := (l.ide.keys.filter fun k => !k.named sub tx k1) ++ [⟨sub, tx, k1, key, false⟩] } }).spdmSay x.tr 0x7E)

/-- R54: KEY_SET_GO; the stream is Secure once all its sub-streams are. -/
def execKeySetGo (session : Nat) (sub : SubStream) (tx k1 : Bool) (s : State) : Res :=
  .next (match s.secureSession session with
    | none => s
    | some x =>
      let s1 := s.onLink fun l => { l with ide := { l.ide with
        keys := l.ide.keys.map fun k => if k.named sub tx k1 then { k with active := true } else k } }
      (s1.ideState).spdmSay x.tr 0x7E)

/-- R54: KEY_SET_STOP. -/
def execKeySetStop (session : Nat) (sub : SubStream) (tx k1 : Bool) (s : State) : Res :=
  .next (match s.secureSession session with
    | none => s
    | some x =>
      let s1 := s.onLink fun l => { l with ide := { l.ide with
        keys := l.ide.keys.map fun k => if k.named sub tx k1 then { k with active := false } else k } }
      (s1.ideState).spdmSay x.tr 0x7E)

/-- R54: a TLP carries a new K bit; the sub-stream goes on with that key set, in both directions, when a key of the set is active in either
(log 64, DESIGN CHOICE). -/
def execKeySetSwitch (sub : SubStream) (k1 : Bool) (s : State) : Res :=
  .next (
    if s.link.ide.secure && s.link.ide.keys.any fun k => k.sub = sub && k.k1 = k1 && k.active then
      s.onLink fun l => { l with ide := { l.ide with
        setK1 := (l.ide.setK1.filter fun e => e.1 ≠ sub) ++ [(sub, k1)] } }
    else s)

/-! ## SPDM (R51 to R53, R418, R444) -/

/-- Plinth can answer on a transport. -/
def State.spdmUp (s : State) : Bool := s.link.ep ≠ .held && s.pl.started

def State.conn (s : State) (tr : Transport) : SpdmConn := if tr = .doe then s.link.spdmDoe else s.link.spdmMctp

def State.setConn (s : State) (tr : Transport) (c : SpdmConn) : State :=
  s.onLink fun l => if tr = .doe then { l with spdmDoe := c } else { l with spdmMctp := c }

/-- A request arrived: Plinth's source 5 or 6. -/
def State.heard (s : State) (tr : Transport) : State := s.irqPl (if tr = .doe then 5 else 6)

/-- An ERROR response with its code. -/
def State.spdmError (s : State) (tr : Transport) (code : Byte) : State := s.emit (.spdm tr 0x7F [code, 0])

/-- Serve a request: nothing before Plinth runs, an ERROR where the connection is not ready for it (log 12, PRESUMED). -/
def State.spdmServe (s : State) (tr : Transport) (ready : Bool) (t : State → State) : State :=
  if !s.spdmUp then s else if ready then t (s.heard tr) else (s.heard tr).spdmError tr 0x04

/-- R52: GET_VERSION starts the connection of its transport, at version 1.3. -/
def execSpdmGetVersion (tr : Transport) (s : State) : Res :=
  .next (s.spdmServe tr true fun s => ((s.setConn tr ⟨true, false, false⟩).emit (.spdmVersion tr 1 3)).spdmSay tr 0x04)

/-- R52: GET_CAPABILITIES. -/
def execSpdmGetCapabilities (tr : Transport) (s : State) : Res :=
  .next (s.spdmServe tr (s.conn tr).version fun s => (s.setConn tr { s.conn tr with caps := true }).spdmSay tr 0x61)

/-- The algorithms of the responder (R52). -/
def spdmAlgSet : List SpdmAlg := [.ecdsaP384, .sha384, .ecdheSecp384r1, .aes256Gcm]

/-- R52: NEGOTIATE_ALGORITHMS selects the algorithms of R52. -/
def execSpdmNegotiateAlgorithms (tr : Transport) (s : State) : Res :=
  .next (s.spdmServe tr (s.conn tr).caps fun s => ((s.setConn tr { s.conn tr with algs := true }).emit
    (.spdmAlgs tr spdmAlgSet)).spdmSay tr 0x63)

/-- The chain of a certificate slot: slot 0 the device's, slot 1 the customer's when it is installed. -/
def State.certChain (s : State) (slot : Nat) : Option (List Byte) :=
  if slot = 0 then some Config.chain0
  else match s.pl.img with
    | none => none
    | some i => if slot = 1 && i.slot1 then AMap.get? i.bodies 6 else none

/-- R52: GET_DIGESTS returns the digests of the slots in use. -/
def execSpdmGetDigests (tr : Transport) (s : State) : Res :=
  .next (s.spdmServe tr (s.conn tr).algs fun s =>
    let l := [0, 1].filterMap s.certChain
    s.emit (.spdm tr 0x01 (leBytes 1 (if l.length = 2 then 3 else 1) ++ l.flatMap fun c => digestBytes (Config.sha384 c))))

/-- The most bytes of a chain that one response carries: a DOE object has at most 16 KiB (R51), of which its header and that of the
response take 16 bytes (log 12, PRESUMED). -/
def chainPart (tr : Transport) (len : Nat) : Nat := if tr = .doe then min len (16384 - 16) else len

/-- R418: GET_CERTIFICATE returns a part of a chain. -/
def execSpdmGetCertificate (tr : Transport) (slot off len : Nat) (s : State) : Res :=
  .next (s.spdmServe tr (s.conn tr).algs fun s => match s.certChain slot with
    | none => s.spdmError tr 0x01
    | some c => s.emit (.spdm tr 0x02 (slice c off (chainPart tr len))))

/-- R52: CHALLENGE, signed by the identity key. -/
def execSpdmChallenge (tr : Transport) (slot : Nat) (nonce : BitVec 256) (s : State) : Res :=
  .next (s.spdmServe tr (s.conn tr).algs fun s => match s.certChain slot with
    | none => s.spdmError tr 0x01
    | some c => { s with fresh := s.fresh + 1 }.emit (.spdm tr 0x03 (digestBytes (Config.sha384 c)
        ++ fit 96 (Config.sign s.fresh (digestBytes (Config.sha384 c) ++ leBytes 32 nonce.toNat)))))

/-- The body behind a measurement index of R444, from 3 to 8: of the sections 3 to 7 the one in force, none where the defaults are. -/
def State.bodyInForce (s : State) (index : Nat) : List Byte :=
  if index = 4 then (if s.sx.bank then s.sx.body1 else s.sx.body0)
  else match s.pl.img with
    | none => []
    | some i => AMap.getD (if index = 8 then i.bodies else i.inForce) (index - 2) []

/-- The digest behind a measurement index of R444; recovery mode serves index 1 alone of these (R430). -/
def State.measurement (s : State) (index : Nat) : Option (BitVec 384) :=
  if index = 1 then some Config.romDigest
  else if s.link.ep = .recovery then none
  else if index = 2 then some (Config.sha384 ((s.pl.img.map (·.header)).getD []))
  else if 3 ≤ index && index ≤ 8 then some (Config.sha384 (s.bodyInForce index))
  else none

/-- R444: GET_MEASUREMENTS; index 0x40 returns a quote of the requester's nonce. -/
def execSpdmGetMeasurements (tr : Transport) (index : Nat) (nonce : BitVec 256) (s : State) : Res :=
  .next (s.spdmServe tr (s.conn tr).algs fun s =>
    if index = 0x40 then
      let q := s.makeQuote (leBytes 32 nonce.toNat)
      q.1.emit (.spdm tr 0x60 q.2)
    else match s.measurement index with
      | none => s.spdmError tr 0x01
      | some d => s.emit (.spdm tr 0x60 (digestBytes d)))

/-- R52: KEY_EXCHANGE opens one of four sessions. -/
def execSpdmKeyExchange (tr : Transport) (id : Nat) (s : State) : Res :=
  .next (s.spdmServe tr (s.conn tr).algs fun s =>
    if s.link.sessions.any fun x => x.id = id then s.spdmError tr 0x01
    else if 4 ≤ s.link.sessions.length then s.spdmError tr 0x0A
    else (s.onLink fun l => { l with sessions := l.sessions ++ [⟨id, tr, false, 0⟩] }).spdmSay tr 0x64)

/-- The session of a request on its transport. -/
def State.session (s : State) (tr : Transport) (id : Nat) (finished : Bool) : Bool :=
  s.link.sessions.any fun x => x.id = id && x.tr = tr && x.finished = finished

def State.modSession (s : State) (id : Nat) (f : SpdmSession → SpdmSession) : State :=
  s.onLink fun l => { l with sessions := l.sessions.map fun x => if x.id = id then f x else x }

/-- R52: FINISH completes the handshake of a session. -/
def execSpdmFinish (tr : Transport) (id : Nat) (s : State) : Res :=
  .next (s.spdmServe tr (s.session tr id false) fun s => (s.modSession id fun x => { x with finished := true }).spdmSay tr 0x65)

/-- R52: HEARTBEAT. -/
def execSpdmHeartbeat (tr : Transport) (id : Nat) (s : State) : Res :=
  .next (s.spdmServe tr (s.session tr id true) fun s => s.spdmSay tr 0x68)

/-- R52: KEY_UPDATE. -/
def execSpdmKeyUpdate (tr : Transport) (id : Nat) (s : State) : Res :=
  .next (s.spdmServe tr (s.session tr id true) fun s =>
    (s.modSession id fun x => { x with updates := x.updates + 1 }).spdmSay tr 0x69)

/-- R52: END_SESSION. -/
def execSpdmEndSession (tr : Transport) (id : Nat) (s : State) : Res :=
  .next (s.spdmServe tr (s.session tr id true) fun s =>
    (s.onLink fun l => { l with sessions := l.sessions.filter fun x => x.id ≠ id }).spdmSay tr 0x6C)

/-- R52: any other request is answered with ERROR UnsupportedRequest. -/
def execSpdmUnsupportedRequest (tr : Transport) (code : Byte) (s : State) : Res :=
  .next (if !s.spdmUp then s else (s.heard tr).emit (.spdm tr 0x7F [0x07, code]))

/-- Every SPDM session ends. -/
def State.endSessions (s : State) : State := s.onLink fun l => { l with sessions := [] }

/-- R51: the data object types, one for each index, with the next index. -/
def doeEntry (index : Nat) : List Byte :=
  if index = 0 then [0x01, 0x00, 0x00, 0x01] else if index = 1 then [0x01, 0x00, 0x01, 0x02]
  else if index = 2 then [0x01, 0x00, 0x02, 0x00] else [0xFF, 0xFF, 0x00, 0x00]

/-- R51: DOE Discovery. -/
def execDoeDiscovery (index : Nat) (s : State) : Res :=
  .next (if !s.spdmUp then s else (s.heard .doe).emit (.doe (doeEntry index)))

/-- R53: MCTP control messages; the bus owner sets the endpoint ID. -/
def execMctpControlMessage (setEid : Option Byte) (s : State) : Res :=
  .next (
    if !s.spdmUp then s
    else
      let s1 := (s.heard .mctp).onLink fun l => { l with eid := setEid.getD l.eid }
      { s1 with fresh := s1.fresh + 1 }.emit (.mctp (Config.mctpBody s1.fresh)))

end Sys2Proof.Machine
end

