-- ==== Sys2Proof/Machine/Image.lean ====
section
/-! DEFINITION. Sys2Proof/Machine/Image.lean: the Thazo image, the checks of its copies and of its section bodies (08, 13). -/

namespace Sys2Proof.Machine

/-! ## Header and section table (R421, R422) -/

def imgNsect (d : List Byte) : Nat := rd d 6 2
def imgLen (d : List Byte) : Nat := rd d 8 4
def imgVersion (d : List Byte) : Nat := rd d 12 4
def imgMinver (d : List Byte) : Nat := rd d 16 4
def imgKeyid (d : List Byte) : Nat := rd d 20 1
def imgCosign (d : List Byte) : Bool := rd d 21 1 % 2 = 1
def imgCustkey (d : List Byte) : List Byte := slice d 32 96
def secOff (i : Nat) : Nat := 128 + 64 * i
def secType (d : List Byte) (i : Nat) : Nat := rd d (secOff i) 2
def secStart (d : List Byte) (i : Nat) : Nat := rd d (secOff i + 4) 4
def secLen (d : List Byte) (i : Nat) : Nat := rd d (secOff i + 8) 4
def secDigest (d : List Byte) (i : Nat) : BitVec 384 := BitVec.ofNat 384 (rd d (secOff i + 16) 48)
def secBody (d : List Byte) (i : Nat) : List Byte := slice d (secStart d i) (secLen d i)

/-- The digest that both signatures cover (R423). -/
def imgDigest (d : List Byte) : BitVec 384 := Config.sha384 (d.take (imgLen d - 192))

/-- MAGIC, FMT, NSECT and the reserved header fields (log 51, DEDUCED). -/
def imgFormat (d : List Byte) : Bool :=
  rd d 0 4 = 0x5A414854 && rd d 4 2 = 1 && 1 ≤ imgNsect d && imgNsect d ≤ 16 && rd d 21 1 < 2 && rd d 22 2 = 0
    && (List.range (imgNsect d)).all (fun i => rd d (secOff i + 2) 2 = 0 && rd d (secOff i + 12) 4 = 0)
    && allZero (slice d (secOff (imgNsect d)) (1152 - secOff (imgNsect d)))

def imgLenOk (d : List Byte) : Bool := 1536 ≤ imgLen d && imgLen d ≤ 16777216 && imgLen d % 16 = 0

/-- The rules of R422 and R424 for the table: types known and once each, OBULO present, bodies in order inside the image. -/
def imgTable (d : List Byte) : Bool :=
  let n := imgNsect d
  let l := List.range n
  l.all (fun i => 1 ≤ secType d i && secType d i ≤ 6)
    && l.all (fun i => (List.range i).all fun j => secType d i ≠ secType d j)
    && l.any (fun i => secType d i = 1)
    && l.all (fun i => secStart d i % 16 = 0 && 1152 ≤ secStart d i && secStart d i + secLen d i ≤ imgLen d - 192
        && (i = 0 || secStart d (i - 1) + secLen d (i - 1) ≤ secStart d i))

/-- The code of the first failure of R425, 0 when the copy passes (log 51, DEDUCED). -/
def imgCheck (copy : Option (List Byte)) : Nat :=
  match copy with
  | none => 1
  | some d =>
    if d.length < 1152 then 1
    else if !imgFormat d then 2
    else if !imgLenOk d then 3
    else if d.length < imgLen d then 1
    else if imgVersion d < imgMinver d then 4
    else if !imgTable d then 5
    else if !(List.range (imgNsect d)).all fun i => Config.sha384 (secBody d i) = secDigest d i then 6
    else if 3 < imgKeyid d || !Config.verify (Config.romKey (imgKeyid d)) (imgDigest d) (slice d (imgLen d - 192) 96) then 7
    else if imgCosign d then (if Config.verify (imgCustkey d) (imgDigest d) (slice d (imgLen d - 96) 96) then 0 else 8)
    else if allZero (slice d (imgLen d - 96) 96) && allZero (imgCustkey d) then 0 else 8

/-! ## PORTCFG (R354, R426) -/

/-- FMT, the length and the reserved fields of a PORTCFG body. -/
def portcfgOk (b : List Byte) : Bool :=
  rd b 0 2 = 1 && rd b 136 1 ≤ 16 && b.length = 2192 + 96 * rd b 136 1 && rd b 6 2 < 16 && rd b 137 7 = 0

def quadBytes (b : List Byte) (q : Nat) : List Byte := slice b (144 + 64 * q) 64

/-- The watermarks of a quad record; a pair out of order is ignored as a whole (R324). -/
def readMarks (r : List Byte) : Nat × Nat :=
  let m := (rd r 8 2, rd r 10 2)
  if m.2 + 16 ≤ m.1 && m.1 ≤ 240 then m else (QuadRec.off.high, QuadRec.off.low)

def readQuad (r : List Byte) : QuadRec where
  mode := rd r 0 1 % 16
  flags := BitVec.ofNat 6 (rd r 1 1)
  rateCap := rd r 2 1
  pmemBar := rd r 3 1 % 8
  pwrDelay := rd r 4 4
  high := (readMarks r).1
  low := (readMarks r).2
  pins := (List.range 4).map fun i => BitVec.ofNat 64 (rd r (16 + 8 * i) 8)

/-- A quad record keeps the layout of R354; in OFF mode its other fields may hold any value. -/
def quadOk (r : List Byte) : Bool :=
  let c := readQuad r
  rd r 0 1 < 8 && rd r 1 1 < 64 && rd r 3 1 < 8 && rd r 12 4 = 0 && allZero (slice r 48 16)
    && (c.mode = 0 || (c.pmemBar ≤ 5 && 100000 ≤ c.pwrDelay && c.pwrDelay ≤ 1000000 && rd r 10 2 + 16 ≤ rd r 8 2 && rd r 8 2 ≤ 240
      && (if isPcie c.mode then 3 ≤ c.rateCap && c.rateCap ≤ 5 else 2 ≤ c.rateCap && c.rateCap ≤ 4)))

/-! ## SERDES (R427) -/

def serdesOk (b : List Byte) : Bool := rd b 0 2 = 1 && allZero (slice b 4 12) && b.length = 16 + 8 * rd b 2 2

/-- The mode of a lane's quad, a root port's for the host lanes. -/
def laneMode (modes : List Nat) (lane : Nat) : Nat := if lane < 128 then modes.getD (lane / 4) 0 else 1

/-- An entry of a SERDES body, none where a value is out of its range (log 51, DEDUCED). -/
def readTune (modes : List Nat) (e : List Byte) : Option (Nat × LaneTune) :=
  let lane := rd e 0 1
  let t : LaneTune := ⟨rd e 1 1, rd e 2 1, rd e 3 1, rd e 4 1 = 1⟩
  if lane < 144 && t.preset ≤ (if isSas (laneMode modes lane) then 15 else 10) && t.swing ≤ 7 && t.ctle ≤ 15 && rd e 4 1 ≤ 1
      && rd e 5 3 = 0 then some (lane, t)
  else none

/-- The settings of a SERDES body: of two entries for a lane the later one counts; a body that breaks its layout gives none
(log 51, DEDUCED). -/
def readTunes (modes : List Nat) (b : List Byte) : AMap LaneTune :=
  if !serdesOk b then []
  else (List.range (rd b 2 2)).foldl (fun m i => match readTune modes (slice b (16 + 8 * i) 8) with
    | some e => AMap.put m e.1 e.2
    | none => m) []

/-! ## DECODE (R272, R277, R278) -/

def stepOp (u : BitVec 32) : Nat := bits u.toNat 26 6

/-- The fields of a micro-step that its primitive uses: TD, TS1, TS2, IMM. -/
def stepUses (op : Nat) : Option (Bool × Bool × Bool × Bool) :=
  if op = 0x00 || op = 0x13 then some (false, false, false, false)
  else if 0x01 ≤ op && op ≤ 0x05 then some (true, true, true, false)
  else if op = 0x06 || op = 0x07 then some (true, true, false, true)
  else if op = 0x08 then some (true, false, false, true)
  else if op = 0x09 then some (true, true, true, true)
  else if op = 0x0A || op = 0x0C then some (true, true, false, true)
  else if op = 0x0B || op = 0x0D || op = 0x0E then some (true, true, true, true)
  else if op = 0x0F || op = 0x10 then some (true, true, true, false)
  else if op = 0x11 || op = 0x12 then some (false, true, false, true)
  else none

/-- A step is no reserved primitive, its unused fields are 0, and its skip stays inside the routine (log 51, DEDUCED). -/
def stepOk (u : BitVec 32) (i nstep : Nat) : Bool :=
  let v := u.toNat
  match stepUses (stepOp u) with
  | none => false
  | some (td, a, b, imm) =>
    (td || bits v 23 3 = 0) && (a || bits v 20 3 = 0) && (b || bits v 17 3 = 0) && (imm || bits v 0 16 = 0)
      && bits v 16 1 = 0 && (stepOp u ≠ 0x09 || bits v 19 1 = 0)
      && (!(stepOp u = 0x11 || stepOp u = 0x12) || i + 1 + bits v 0 6 ≤ nstep)

def readEntry (r : List Byte) : DecEntry where
  nops := rd r 2 1 % 4
  rptok := rd r 2 1 / 4 % 2 = 1
  ccmode := rd r 2 1 / 8 % 4
  nstep := rd r 3 1 % 128
  rtag := BitVec.ofNat 4 (rd r 4 1)
  maskA := BitVec.ofNat 16 (rd r 6 2)
  maskB := BitVec.ofNat 16 (rd r 8 2)
  name := BitVec.ofNat 48 (rd r 10 6)
  steps := (List.range 64).map fun i => BitVec.ofNat 32 (rd r (16 + 4 * i) 4)

/-- Sources of an entry. -/
def DecEntry.sources (e : DecEntry) : Nat := if e.rtag = 0 then e.nops else e.nops - 1

/-- The mask of a source: at least one bit, of INT, COUNT, STATUS and BYTES alone. -/
def maskOk (m : BitVec 16) : Bool := m ≠ 0 && m &&& ~~~(0x00A6#16) = 0

/-- R277. The six bytes of NAME may be any (log 64, DESIGN CHOICE). -/
def entryOk (r : List Byte) : Bool :=
  let e := readEntry r
  rd r 2 1 < 32 && rd r 3 1 < 128 && rd r 4 1 < 16 && rd r 5 1 = 0
    && (e.rtag = 0 || e.rtag = 1 || e.rtag = 2 || e.rtag = 7) && 1 ≤ e.nstep && e.nstep ≤ 64
    && e.steps.zipIdx.all (fun x => if x.2 < e.nstep then stepOk x.1 x.2 e.nstep else x.1 = 0)
    && (e.rtag = 0 || 1 ≤ e.nops) && e.sources ≤ 2
    && (if 1 ≤ e.sources then maskOk e.maskA else e.maskA = 0) && (if 2 ≤ e.sources then maskOk e.maskB else e.maskB = 0)
    && (e.rtag ≠ 0 || e.ccmode = 0 || e.ccmode = 2)

def entryBytes (b : List Byte) (i : Nat) : List Byte := slice b (16 + 272 * i) 272
def decCount (b : List Byte) : Nat := rd b 2 2

/-- R277 and R278 for a whole body. -/
def decodeOk (b : List Byte) : Bool :=
  rd b 0 2 = 1 && decCount b ≤ 64 && allZero (slice b 4 12) && b.length = 16 + 272 * decCount b
    && (List.range (decCount b)).all fun i =>
      let opc := rd (entryBytes b i) 0 2
      0x7C0 ≤ opc && opc ≤ 0x7FF && (i = 0 || rd (entryBytes b (i - 1)) 0 2 < opc) && entryOk (entryBytes b i)

/-- The entries of a body, keyed by OPC − 0x7C0. -/
def readEntries (b : List Byte) : AMap DecEntry :=
  (List.range (decCount b)).foldl (fun m i => AMap.put m (rd (entryBytes b i) 0 2 - 0x7C0) (readEntry (entryBytes b i))) []

/-! ## The facts of a booted copy -/

/-- The bodies by type. -/
def imgBodies (d : List Byte) : AMap (List Byte) :=
  (List.range (imgNsect d)).foldl (fun m i => AMap.put m (secType d i) (secBody d i)) []

/-- The PORTCFG body, where it keeps its own rules. -/
def goodPortcfg (bodies : AMap (List Byte)) : Option (List Byte) :=
  match AMap.get? bodies 3 with
  | some b => if portcfgOk b then some b else none
  | none => none

/-- R428: the customer chain is presented when its leaf carries this device's identity public key. -/
def custcertOk (b : List Byte) : Bool := b.length ≤ 8192 && decide (Config.leafKey b = Config.identityKey)

/-- STATUS of a MEASURE record (R434): 0 applied, 1 absent, 2 rejected by the rules of the body. An OBULO body of any length is applied
(log 64, DESIGN CHOICE). -/
def secStatus (bodies : AMap (List Byte)) (type : Nat) : Nat :=
  match AMap.get? bodies type with
  | none => 1
  | some b =>
    let good : Bool :=
      if type = 2 then decodeOk b else if type = 3 then portcfgOk b else if type = 4 then serdesOk b
      else if type = 5 then schedRule b (readSched b) = 0 else if type = 6 then custcertOk b else true
    if good then 0 else 2

def imgFacts (d : List Byte) : ImgFacts :=
  let bodies := imgBodies d
  let p := (goodPortcfg bodies).getD []
  { version := BitVec.ofNat 32 (imgVersion d), minver := BitVec.ofNat 32 (imgMinver d), keyid := BitVec.ofNat 8 (imgKeyid d),
    cosign := imgCosign d, custkey := imgCustkey d, updkey := fit 96 (slice p 40 96),
    anchors := (List.range (rd p 136 1)).map fun i => slice p (2192 + 96 * i) 96,
    lock := BitVec.ofNat 256 (rd p 8 32), flags := BitVec.ofNat 16 (rd p 6 2), header := d.take 1152, bodies := bodies,
    inForce := bodies.filter fun e => secStatus bodies e.1 = 0,
    slot1 := ((AMap.get? bodies 6).map custcertOk).getD false }

end Sys2Proof.Machine
end

