-- ==== Sys2Proof/Machine/Plinth.lean ====
section
/-! DEFINITION. Sys2Proof/Machine/Plinth.lean: the boot, the host-to-Plinth requests, flash updates, decode loads, refused
accesses and tamper (08, 13). -/

namespace Sys2Proof.Machine

/-! ## Boot (R429, R430) -/

/-- CAUSE of BOOT-START: host reference loss and PWROK low count as PERST_N when it was low, else as a hot reset (R498). -/
def Power.bootCause (p : Power) : Nat := if p.last = 4 || p.last = 5 then (if p.perstWas then 2 else 3) else p.last

def State.bootStart (s : State) : List Byte :=
  leBytes 1 s.pw.bootCause ++ leBytes 1 stepping ++ [0, 0] ++ leBytes 4 Config.romVersion.toNat ++ leBytes 8 Config.serial.toNat
    ++ digestBytes (Config.sha384 Config.identityKey)

/-- Step 1: BOOT-START comes first in the Almanac, and a TAMPER record of the time before right after it (R449); at later boots BOOTNO
rises. -/
def State.beginBoot (s : State) : State :=
  let b := s.bootStart
  if s.pl.started then
    (s.onPl fun p => { p with
      bootno := sat 16 (p.bootno + 1), extLock := false, nonce := none, req := none, readDue := none, job := none, aCode := 0, bCode := 0,
      aValid := false, bValid := false }).plRecord 1 b
  else s.onPl fun p =>
    let early := p.alm.queue.filter fun r => r.type = 0xA
    { p with started := true, alm := { p.alm with
      queue := ⟨1, 0, fit 180 b, b.length, []⟩ :: early ++ p.alm.queue.filter fun r => r.type ≠ 0xA } }

/-- Steps 2 to 4: a copy is read and checked; its IMAGE record. -/
def State.imageRecord (s : State) (copy : Nat) (d : Option (List Byte)) (code : Nat) : State :=
  let b := leBytes 1 copy ++ leBytes 1 code
  match d with
  | none => s.plRecord 2 (fit 108 b)
  | some d => s.plRecord 2 (b ++ leBytes 1 (imgKeyid d) ++ leBytes 1 (b2n (imgCosign d)) ++ leBytes 4 (imgVersion d)
      ++ leBytes 4 (imgMinver d) ++ digestBytes (Config.sha384 (d.take 1152))
      ++ (if imgCosign d then digestBytes (Config.sha384 (imgCustkey d)) else List.replicate 48 0))

/-- One MEASURE record. -/
def State.measure (s : State) (copy : Nat) (bodies : AMap (List Byte)) (type : Nat) : State :=
  let body := AMap.getD bodies type []
  s.plRecord 3 (leBytes 2 type ++ leBytes 1 (secStatus bodies type) ++ leBytes 1 copy ++ leBytes 4 body.length
    ++ digestBytes (Config.sha384 body) ++ leBytes 4 (if type = 2 then 1 else 0))

/-- R279: the boot load of the decode table. -/
def Sirax.bootDecode (x : Sirax) (body : Option (List Byte)) (fixed : Bool) : Sirax :=
  let b := match body with
    | some b => if decodeOk b then b else []
    | none => []
  { x with bank0 := if b.isEmpty then [] else readEntries b, body0 := b, bank1 := [], body1 := [], bank := false,
           retiring := false, gen := 1, fixed := fixed, load := none }

/-- A quad starts in the mode of its record; the power of a device still falls 10 ms after its PERST_N (R352, R496). -/
def Quad.start (q : Quad) (cfg : QuadRec) (now : Time) : Quad :=
  { Quad.reset with
    cfg := cfg
    ports := q.ports.zipIdx.map fun e =>
      { Port.reset with pwren := e.1.pwren, offDue := e.1.offDue, rerun := !(modeLanes cfg.mode e.2).isEmpty }
    sgpioDue := if cfg.mode ≠ 0 && cfg.flags.getLsbD 3 then some (addNs now 10000000) else none }

/-- Step 6: port configuration. A bad quad record leaves its quad OFF and a record (R352). -/
def State.portConfig (s : State) (p : Option (List Byte)) : State :=
  let cfgs := (List.range 32).map fun q => match p with
    | none => (QuadRec.off, true)
    | some b =>
      let r := quadBytes b q
      if quadOk r then (readQuad r, true) else (QuadRec.off, false)
  let cfg := fun q => (cfgs.getD q (QuadRec.off, true)).1
  let s1 := s.onDev fun d => { d with quads := d.quads.zipIdx.map fun e => e.1.start (cfg e.2) s.time }
  let s2 := s1.onDma fun d => { d with
    fifos := d.fifos.zipIdx.map fun e => { e.1 with high := (cfg e.2).high, low := (cfg e.2).low },
    flowEn := (List.range 16).foldl (fun v k => if (cfg (2 * k)).flags.getLsbD 4 then v ||| (1#16 <<< k) else v) 0 }
  let s3 := (cfgs.zipIdx.filter fun e => !e.1.2).foldl (fun t e => t.event 0 5 1 e.2 0 0 0) s2
  s3.onPw fun w => { w with qlock := (List.range 32).foldl (fun v q =>
    if (cfg q).mode ≠ 0 && s3.refOk q then v ||| (1#32 <<< q) else v) 0 }

/-- The quads start: each tests the I2C segments of its ports (R383). -/
def State.testSegments (s : State) (bad : BitVec 128) : State :=
  ((List.range 128).filter fun k => s.hasPort (k / 4) (k % 4)).foldl (fun t k => t.testI2c (k / 4) (k % 4) (!bad.getLsbD k)) s

/-- Step 6: SerDes tuning (R427). -/
def State.tuneLanes (s : State) (b : List Byte) : State :=
  s.onDev fun d => { d with tune := readTunes (d.quads.map (·.cfg.mode)) b }

/-- The Device Serial Number, derived from the fused identity (R29) (log 7, DESIGN CHOICE). -/
def Link.serialNumber (_l : Link) : Word := Config.serial

/-- The endpoint is released, with the Device ID and Subsystem IDs of its mode (R30). -/
def Link.released (l : Link) (ep : EpMode) (ssvid ssid : BitVec 16) (ideReq : Bool) : Link :=
  { l with
    ep := ep, ready := true, ssvid := ssvid, ssid := ssid, ideReq := ideReq,
    cfg := { l.cfg with device := if ep = .recovery then 0x612F else 0x6128 } }

/-- Obulo starts, and arms the timers that it uses (R479) (log 54, DESIGN CHOICE). -/
def State.armTimers (s : State) : State :=
  ({ s with fresh := s.fresh + 1 } : State).onPw fun p => { p with
    timers := (List.range 64).filterMap fun n => (Config.supTimer s.fresh n).map fun d => (n, addNs s.time d) }

/-- Steps 5 to 7 for a copy that passed (log 53, DEDUCED). -/
def State.bootNormal (s : State) (mode : Nat) (d : List Byte) (start : BootTest) : State :=
  let f := imgFacts d
  let p := goodPortcfg f.bodies
  let s1 := [1, 2, 3, 4, 5, 6].foldl (fun t k => t.measure mode f.bodies k)
    (s.onPl fun x => { x with img := some f, mode := mode })
  let s2 := (((s1.onSx fun x => x.bootDecode (AMap.get? f.bodies 2) (f.flags.getLsbD 1)).portConfig p).testSegments start.i2cBad).tuneLanes
    (AMap.getD f.bodies 4 [])
  let ssvid := match p with
    | some b => BitVec.ofNat 16 (rd b 2 2)
    | none => 0x1F6A
  let s3 := s2.onLink fun l => l.released .normal ssvid (BitVec.ofNat 16 (rd (p.getD []) 4 2)) (f.flags.getLsbD 0)
  let s4 := ((s3.onPw fun w => { w with supUp := true, coreLock := true, bootDue := false, perstWas := false, holdDue := none }).armTimers).plRecord
    4 (leBytes 4 mode ++ leBytes 4 start.micros)
  let s5 := (s4.onMd fun m => { m with boot := AMap.get? f.bodies 5 }).commitBoot (AMap.get? f.bodies 5)
  (s5.recomputeAwake).emit .drs

/-- R430: both copies failed. -/
def State.bootRecovery (s : State) (micros : Nat) : State :=
  let s1 := ((s.onPl fun x => { x with img := none, mode := 2 }).portConfig none).onLink fun l => l.released .recovery 0x1F6A 0 false
  ((s1.onPw fun w => { w with coreLock := true, bootDue := false, perstWas := false, holdDue := none }).plRecord 4
    (leBytes 4 2 ++ leBytes 4 micros)).emit .drs

/-- The boot may run: power-on release made, PERST_N high, no cause holds the chip, and the host reference present, on which the core PLL
locks before Plinth releases the supervisor, and the endpoint trains (R22, R490, R493) (log 53, DEDUCED). -/
def State.bootReady (s : State) : Bool :=
  s.pw.released && s.pw.bootDue && !s.pw.perstLow && !s.pw.held && s.pw.hrefOk && (match s.pw.holdDue with
    | none => true
    | some t => reached s.time t)

/-- Steps 1 to 3 of R525 on a flash device. -/
def flashOpen (f : FlashDev) (device : Bool) : List Out :=
  ([FlashCmd.resetPulse, .readSfdp] ++ if f.octal then [FlashCmd.enterOctal] else []).map fun c => Out.flashCmd device c

/-- The copy of a device of at least 512 Mbit; Plinth does not boot from a smaller one (R525). -/
def flashCopy (f : FlashDev) (d : Option (List Byte)) : Option (List Byte) := if f.mbit < 512 then none else d

/-- Step 4 of R525: the copy of a device is read, in octal mode or in 1S-1S-1S. -/
def State.flashRead (s : State) (device : Bool) (f : FlashDev) : State :=
  if f.mbit < 512 then s else s.emit (.flashCmd device (.readImage f.octal))

/-- R429, R525: the boot, whole (log 53, DEDUCED). -/
def execBoot (a b : Option (List Byte)) (start : BootTest) (s : State) : Res :=
  .next (
    if !s.bootReady then s
    else
      let a := flashCopy start.flash0 a
      let b := flashCopy start.flash1 b
      let ca := imgCheck a
      let s0 := ((s.beginBoot).emits (flashOpen start.flash0 false ++ flashOpen start.flash1 true)).flashRead false start.flash0
      let s1 := (s0.imageRecord 0 a ca).onPl fun p => { p with aCode := ca, aValid := ca = 0 }
      if ca = 0 then s1.bootNormal 0 (a.getD []) start
      else
        let cb := imgCheck b
        let s2 := ((s1.flashRead true start.flash1).imageRecord 1 b cb).onPl fun p => { p with bCode := cb, bValid := cb = 0 }
        if cb = 0 then s2.bootNormal 1 (b.getD []) start else s2.bootRecovery start.micros)

/-! ## Requests and replies (R441, R442, R445) -/

def reqOp (w : Word) : Nat := bits w.toNat 0 8
def reqAddr (w : Word) : Nat := bits w.toNat 12 52 * 4096

def knownOp (op : Nat) : Bool := op = 0x01 || op = 0x02 || op = 0x03 || op = 0x10 || op = 0x11 || op = 0x20

def stOk : Nat := 0
def stBadOp : Nat := 1
def stBadField : Nat := 2
def stBadSignature : Nat := 3
def stLocked : Nat := 4
def stBusy : Nat := 5
def stHostRead : Nat := 6
def stVersion : Nat := 7
def stTarget : Nat := 8
def stImageInvalid : Nat := 9
def stFlash : Nat := 0xA
def stNonce : Nat := 0xB
def stRetireTimeout : Nat := 0xC
def stDecodeInvalid : Nat := 0xD

/-- The request that Plinth can take now: it serves one at a time, and its reply has room. -/
def State.plnWaits (s : State) : Option Word :=
  if s.pl.started && s.pw.released && s.pl.req.isNone && (s.box .hostPln).full && !(s.box .plnHost).full then
    some (s.box .hostPln).word
  else none

/-- The reply to a request word; one that an FLR has cleared gets none (R62, R284). REFUSED counts replies (R452). -/
def State.reply (s : State) (w : Word) (status value : Nat) : State :=
  let s1 := if status = 0 then s else s.onPl fun p => { p with refused := inc16 p.refused }
  if !(s.box .hostPln).owed then s
  else s1.mbSend .plnHost 0 (BitVec.ofNat 64 (bits w.toNat 0 12 + status * 2 ^ 12 + value % 2 ^ 36 * 2 ^ 28))

/-- What a request does: its state, STATUS and VALUE; `none` while it goes on. -/
structure PlnRes where
  s : State
  status : Nat
  value : Nat

def plnFail (s : State) (status : Nat) : PlnRes := ⟨s, status, 0⟩

/-- Take a request of an OP, perform it, and reply. -/
def State.plnServe (s : State) (op : Nat) (f : Word → State → PlnRes) : State :=
  match s.plnWaits with
  | none => s
  | some w =>
    if reqOp w ≠ op then s
    else
      let r := f w (s.mbServe .hostPln)
      r.s.reply w r.status r.value

/-- A request whose block Plinth reads through the link, with class 7 keys (R441). `pre` are the refusals that come before the read;
`fail` replies with a status, and `go` does the rest. A read that waits more than 10 s fails with HOST-READ (R445). -/
def State.plnRead (s : State) (op : Nat) (pre : State → Option Nat) (fail : Word → State → Nat → State) (go : Word → State → State) :
    State :=
  match s.plnWaits with
  | none => s
  | some w =>
    if reqOp w ≠ op then s
    else
      let t := (s.mbServe .hostPln).onPl fun p => { p with readDue := none }
      match pre s with
      | some st => fail w t st
      | none =>
        if s.ownReady true 0 then go w t
        else if s.pl.readDue.any fun d => reached s.time d.2 then fail w (t.withdraw (.own 0)) stHostRead
        else (s.ownAsk true 0).onPl fun p => { p with readDue := p.readDue.or (some (op, addNs s.time 10000000000)) }

/-- The same for a request that replies with what it did. -/
def State.plnLinked (s : State) (op : Nat) (pre : State → Option Nat) (f : Word → State → PlnRes) : State :=
  s.plnRead op pre (fun w t st => t.reply w st 0) fun w t => (f w t).s.reply w (f w t).status (f w t).value

/-- Block bytes below 2,048 outside the listed fields are 0. -/
def blockOk (b : List Byte) (used : List (Nat × Nat)) : Bool :=
  (List.range 2048).all fun i => b.getD i 0 = 0 || used.any fun u => u.1 ≤ i && i < u.1 + u.2

/-- Results go to bytes 2,048 onwards of the block. -/
def State.blockWrite (s : State) (w : Word) (data : List Byte) : State :=
  s.hostWrites 16 (BitVec.ofNat 64 (reqAddr w + 2048)) none false data

/-- Plinth reads the first 2,048 bytes of the request's block (R33, R44, R441). -/
def State.blockRead (s : State) (w : Word) (d : HostData) : State × Option (List Byte) :=
  s.ownRead 0 (BitVec.ofNat 64 (reqAddr w)) none 2048 d

/-- R442, R446: EXTEND. Plinth waits for the SEQ of its record (log 50, DEDUCED) (log 52, DEDUCED). -/
def execExtend (block : HostData) (s : State) : Res :=
  .next (s.plnLinked 0x01 (fun s => if s.pl.extLock then some stLocked else none) fun w s =>
      let x := s.blockRead w block
      let s := x.1
      match x.2 with
      | none => plnFail s stHostRead
      | some b =>
        if 16 ≤ rd b 0 1 || 96 < rd b 56 1 || !blockOk b [(0, 1), (4, 4), (8, 48), (56, 1), (64, 96)] then plnFail s stBadField
        else
          let payload := leBytes 4 (rd b 0 1) ++ leBytes 4 (rd b 4 4) ++ fit 48 (slice b 8 48) ++ leBytes 1 (rd b 56 1) ++ fit 96 (slice b 64 96)
          let s1 := (s.record 5 (0x100 + rd b 0 1) payload 153).flushAlm
          ⟨s1.signal 5, stOk, s1.pl.alm.next - 1⟩)

/-- R442, R446: EXTEND_LOCK. -/
def execExtendLock (s : State) : Res :=
  .next (s.plnServe 0x02 fun w s =>
    if reqAddr w ≠ 0 then plnFail s stBadField
    else
      let s1 := ((s.onPl fun p => { p with extLock := true }).plRecord 6 []).flushAlm
      ⟨s1, stOk, s1.pl.alm.next - 1⟩)

/-- R442, R443: QUOTE. -/
def execQuote (block : HostData) (s : State) : Res :=
  .next (s.plnLinked 0x03 (fun _ => none) fun w s =>
    let x := s.blockRead w block
    let s := x.1
    match x.2 with
    | none => plnFail s stHostRead
    | some b =>
      if !blockOk b [(0, 32)] then plnFail s stBadField
      else
        let q := s.makeQuote (slice b 0 32)
        let s1 := q.1.onPl fun p => { p with quotes := p.quotes + 1, quote := q.2 }
        ⟨(s1.blockWrite w q.2).signal 5, stOk, s1.pl.quotes⟩)

/-- R442: GET_NONCE. -/
def execGetNonce (block : HostData) (s : State) : Res :=
  .next (s.plnLinked 0x10 (fun _ => none) fun w s =>
    let x := s.blockRead w block
    let s := x.1
    match x.2 with
    | none => plnFail s stHostRead
    | some b =>
      if !blockOk b [] then plnFail s stBadField
      else
        let n := Config.random s.fresh
        let s0 : State := { s with fresh := s.fresh + 1 }
        let s1 := (if Config.rngFails s.fresh then s0.irqPl 13 else s0).onPl fun p => { p with nonce := some n }
        ⟨s1.blockWrite w (leBytes 32 n.toNat), stOk, 0⟩)

/-- R445: an OP that R442 does not list. -/
def execPlinthBadOp (s : State) : Res :=
  .next (match s.plnWaits with
    | none => s
    | some w => if knownOp (reqOp w) then s else (s.mbServe .hostPln).reply w stBadOp 0)

/-! ## Flash update (R447) -/

/-- The key that authorises an update. -/
def State.updateKey (s : State) : Option (List Byte) :=
  match s.pl.img with
  | none => some Config.recoveryKey
  | some i => if i.cosign then some i.custkey else if allZero i.updkey then none else some i.updkey

/-- The string that AUTH signs. -/
def authBytes (nonce : BitVec 256) (target : Nat) (image : List Byte) : List Byte :=
  asciiUpdate ++ leBytes 8 Config.serial.toNat ++ leBytes 32 nonce.toNat ++ leBytes 1 target ++ digestBytes (imgDigest image)

def State.flashRecord (s : State) (phase target status version : Nat) (digest : BitVec 384) : State :=
  s.plRecord 8 (leBytes 1 phase ++ leBytes 1 target ++ leBytes 2 status ++ leBytes 4 version ++ digestBytes digest)

/-- Steps 4 to 7 of R447 for an image: the status and VALUE of a refusal, none when it is accepted. -/
def State.updRefuse (s : State) (key : List Byte) (nonce : BitVec 256) (target : Nat) (auth : List Byte) (image : List Byte) :
    Option (Nat × Nat) :=
  let code := imgCheck (some image)
  let other := if target = 0 then s.pl.bValid else s.pl.aValid
  if code ≠ 0 then some (stImageInvalid, code)
  else if !Config.verify key (Config.sha384 (authBytes nonce target image)) auth then some (stBadSignature, 0)
  else if (s.pl.img.map fun i => decide (imgVersion image < i.minver.toNat)).getD false then some (stVersion, 0)
  else if s.pl.img.isSome && s.pl.mode = target && !other then some (stTarget, 0)
  else none

/-- Writing begins: the target copy is no valid copy any more (log 52, DEDUCED). -/
def State.flashBegin (s : State) (target : Nat) (image : List Byte) : State :=
  let t : Bool := target = 1
  (s.onPl fun p => { p with
    job := some ⟨t, BitVec.ofNat 32 (imgVersion image), imgDigest image, (imgLen image + 1023) / 1024, s.time⟩,
    updState := 2, updTarget := t, updResult := 0, updProgress := 0,
    aValid := p.aValid && t, bValid := p.bValid && !t }).emit (.flash t (image.take (imgLen image)))

/-- Steps 1 and 2 of R447: BUSY while a write runs, LOCKED under the tamper lock and without a key. -/
def State.flashBar (s : State) : Option Nat :=
  if s.pl.job.isSome then some stBusy else if s.pl.tamperLock || s.updateKey.isNone then some stLocked else none

/-- R447: FLASH_UPDATE. An IMG_LEN above the 16 MiB of a copy is out of range (log 52, DEDUCED). -/
def execFlashUpdate (block image : HostData) (s : State) : Res :=
  .next (s.plnLinked 0x11 State.flashBar fun w s =>
    match s.updateKey with
      | none => plnFail s stLocked
      | some key =>
        let x := s.blockRead w block
        let s := x.1
        match x.2 with
        | none => plnFail s stHostRead
        | some b =>
          let target := rd b 0 1
          if 1 < target || rd b 8 8 % 4096 ≠ 0 || 16777216 < rd b 16 4 || !blockOk b [(0, 1), (8, 8), (16, 4), (32, 96)] then plnFail s stBadField
          else match s.pl.nonce with
            | none => plnFail s stNonce
            | some n =>
              let y := (s.onPl fun p => { p with nonce := none }).ownRead 0 (BitVec.ofNat 64 (rd b 8 8)) none (rd b 16 4) image
              let s1 := y.1
              match y.2 with
              | none => plnFail s1 stHostRead
              | some d =>
                match s1.updRefuse key n target (slice b 32 96) d with
                | some (st, v) => ⟨s1, st, v⟩
                | none =>
                  let s2 := s1.flashBegin target d
                  ⟨s2.flashRecord 0 target 0 (imgVersion d) (imgDigest d), stOk, 0⟩)

/-- How far a flash write is: 0 erasing, 1 programming, 2 verifying (log 77, DESIGN CHOICE). -/
def FlashJob.stage (j : FlashJob) (now : Time) : Nat := Config.flashStage (now - j.since).toNat % 3

/-- STATE of PL_UPD: reading while an update waits for its read. -/
def Plinth.updCode (p : Plinth) (now : Time) : Nat :=
  match p.job with
  | some j => 2 + j.stage now
  | none => if p.readDue.any fun d => d.1 = 0x11 then 1 else p.updState

/-- PROGRESS of PL_UPD. -/
def Plinth.progress (p : Plinth) (now : Time) : Nat :=
  match p.job with
  | some j => if j.stage now = 0 then 0 else if j.stage now = 2 then j.kib else min j.kib (Config.flashKib (now - j.since).toNat)
  | none => p.updProgress

/-- The write ends with a status: its record and PL_UPD. -/
def State.flashEnd (s : State) (j : FlashJob) (status : Nat) : State :=
  let ok : Bool := status = 0
  let s1 := s.onPl fun p => { p with
    job := none, updState := if ok then 5 else 6, updResult := status, updProgress := if ok then j.kib else p.progress s.time,
    aValid := if ok && !j.target then true else p.aValid, bValid := if ok && j.target then true else p.bValid }
  (s1.flashRecord 1 (b2n j.target) status j.version.toNat j.digest).irqPl 8

/-- R447: the background write ends. -/
def execFlashUpdateEnd (ok : Bool) (s : State) : Res :=
  .next (match s.pl.job with
    | none => s
    | some j => s.flashEnd j (if ok then stOk else stFlash))

/-! ## Decode loads (R280 to R282, R448) -/

/-- The record of a decode load. -/
def State.decodeRecord (s : State) (status : Nat) (body : List Byte) : State :=
  s.plRecord 7 (leBytes 2 status ++ [0, 0] ++ leBytes 4 s.sx.gen.toNat ++ digestBytes (Config.sha384 body) ++ leBytes 2 (decCount body))

/-- A refused load changes no bank. -/
def State.decodeRefuse (s : State) (status : Nat) (body : List Byte) : State :=
  (s.onSx fun x => { x with refused := inc16 x.refused, load := none }).decodeRecord status body

/-- The signatures of a delivered body (R448). -/
def State.decodeSigned (s : State) (body vsig csig : List Byte) : Bool :=
  let h := Config.sha384 (asciiDecode ++ body)
  match s.pl.img with
  | none => false
  | some i => Config.verify (Config.romKey i.keyid.toNat) h vsig && (if i.cosign then Config.verify i.custkey h csig else allZero csig)

/-- The inactive bank is retired: no thread uses its generation, and no valid record names it (R282). -/
def State.bankRetired (s : State) : Bool :=
  (s.sx.threads.all fun e => e.2.gen = s.sx.gen) && (s.sx.stopped.all fun e => e.2.gen = s.sx.gen)
    && s.sx.ckpt.all fun e => match e.2.rec_ with
      | none => true
      | some c => c.th.gen = s.sx.gen

/-- Step 1 of R280: LOCKED, before any read. -/
def State.decodeBar (s : State) : Option Nat :=
  if s.link.ep = .recovery || s.sx.fixed || s.pl.tamperLock then some stLocked else none

/-- A decode load is refused with a reply. The record of one refused before its body is read carries the digest of no bytes and COUNT 0
(log 64, DESIGN CHOICE). -/
def State.decodeFail (s : State) (w : Word) (st : Nat) (body : List Byte) : State := (s.decodeRefuse st body).reply w st 0

/-- R280 steps 1 and 2, R448: DECODE_LOAD. An accepted body waits for the retirement of the inactive bank. One refused before its body is
read has the record of `decodeFail` (log 64, DESIGN CHOICE). -/
def execDecodeLoad (block body : HostData) (s : State) : Res :=
  .next (s.plnRead 0x20 State.decodeBar (fun w t st => t.decodeFail w st []) fun w s =>
    let x := s.blockRead w block
    let s := x.1
    match x.2 with
    | none => s.decodeFail w stHostRead []
    | some b =>
      if rd b 8 8 % 64 ≠ 0 || !blockOk b [(8, 8), (16, 4), (32, 96), (128, 96)] then s.decodeFail w stBadField []
      else
        let y := s.ownRead 0 (BitVec.ofNat 64 (rd b 8 8)) none (rd b 16 4) body
        let s := y.1
        match y.2 with
        | none => s.decodeFail w stHostRead []
        | some d =>
          if !s.decodeSigned d (slice b 32 96) (slice b 128 96) then s.decodeFail w stBadSignature d
          else if !decodeOk d then s.decodeFail w stDecodeInvalid d
          else (s.onSx fun x => { x with
            load := some ⟨readEntries d, d, addNs s.time 100000000⟩ }).onPl fun p => { p with req := some w })

/-- R280 step 3: the bank was not retired within 100 ms. -/
def execDecodeRetireTimeout (s : State) : Res :=
  .next (match s.sx.load, s.pl.req with
    | some l, some w =>
      if !reached s.time l.due || s.bankRetired || (s.box .plnHost).full then s
      else ((s.decodeRefuse stRetireTimeout l.body).onPl fun p => { p with req := none }).reply w stRetireTimeout 0
    | some _, none => s
    | none, some _ => s
    | none, none => s)

/-- R280 steps 5 and 6, R281: the other bank is written and becomes active. -/
def Sirax.switch (x : Sirax) (l : DecLoad) : Sirax :=
  { x with
    bank := !x.bank, retiring := true, gen := x.gen + 1, loads := inc16 x.loads, load := none,
    bank0 := if x.bank then l.entries else x.bank0, body0 := if x.bank then l.body else x.body0,
    bank1 := if x.bank then x.bank1 else l.entries, body1 := if x.bank then x.body1 else l.body }

/-- R280, R281: a load whose bank is retired is measured into the Almanac, and the generation switches. -/
def execGenerationSwitch (s : State) : Res :=
  .next (match s.sx.load, s.pl.req with
    | some l, some w =>
      if !s.bankRetired || (s.box .plnHost).full then s
      else
        let s1 := ((s.onSx fun x => x.switch l).decodeRecord 0 l.body).flushAlm
        (s1.onPl fun p => { p with req := none }).reply w stOk s1.sx.gen.toNat
    | some _, none => s
    | none, some _ => s
    | none, none => s)

/-! ## Refused accesses (R417) -/

/-- R417: a request to Plinth's own resources reads 0 or is discarded; either way it is counted. -/
def execPlinthAccessRefused (requester : Nat) (write : Bool) (addr : Word) (s : State) : Res :=
  .next (
    if requester = 0 || requester = 7 || !s.pl.started then s
    else
      let s1 := ((s.onPl fun p => { p with violation := inc16 p.violation }).event 0 8 2 requester 0 addr.toNat 0).irqPl 12
      if write then s1 else s1.emit (.accessRead requester 0))

/-! ## Tamper (R449) -/

/-- TAMPER_ACTION of the image in force; 0 while none is, and no lock follows with the boot (log 64, DESIGN CHOICE). -/
def State.tamperAction (s : State) : Nat := (s.pl.img.map fun i => bits i.flags.toNat 2 2).getD 0

def State.tamperRecord (s : State) (edge : Nat) : State :=
  (s.plRecord 0xA (leBytes 1 edge ++ leBytes 1 s.tamperAction)).onPl fun p => { p with lastEdge := some s.time }

/-- A second has passed since the last TAMPER record. -/
def State.edgeDue (s : State) : Bool :=
  match s.pl.lastEdge with
  | none => true
  | some t => 1000000000 ≤ (s.time - t).toNat

/-- The tamper lock: sessions and IDE keys end, a flash write is abandoned. -/
def State.tamperLocks (s : State) : State :=
  let s1 := (s.endSessions).onPl fun p => { p with tamperLock := true }
  let s2 := s1.onLink fun l => { l with ide := { l.ide with keys := [] } }
  let s3 := if s.link.ide.secure then s2.ideFail else s2
  match s3.pl.job with
  | none => s3
  | some j => s3.flashEnd j stFlash

/-- R449: TAMPER_N has been low for 100 µs. Nightwatch samples it whenever its supply is present (R475): an assertion before the Almanac
starts waits for its record until BOOT-START is written. -/
def execTamperAssert (s : State) : Res :=
  .next (
    if s.pl.tamperLow || !s.pw.aon then s
    else
      let s1 := (s.onPl fun p => { p with tamperLow := true, tamper := true, tamperEdges := inc16 p.tamperEdges }).irqPl 7
      let s2 := if !s.pl.tamper || s.edgeDue then s1.tamperRecord 1 else s1
      if s.tamperAction = 0 then s2 else s2.tamperLocks)

/-- R449: a release edge. -/
def execTamperRelease (s : State) : Res :=
  .next (
    if !s.pl.tamperLow then s
    else
      let s1 := (s.onPl fun p => { p with tamperLow := false, tamperEdges := inc16 p.tamperEdges }).irqPl 7
      if s.edgeDue then s1.tamperRecord 0 else s1)

end Sys2Proof.Machine
end

