-- ==== Sys2Proof/Machine/Resets.lean ====
section
/-! DEFINITION. Sys2Proof/Machine/Resets.lean: Obulo and Plinth restarts, FLR and D3hot, warm resets, power-on, clocks, rails,
the core supply and JTAG (02, 12 to 15, 17). -/

namespace Sys2Proof.Machine

/-! ## Obulo restart (R465, R472, R497, R389) -/

/-- A controller after its owner's restart: pending bits rebuilt from the lines, counters kept (R472). -/
def Ic.restart (ic : Ic) (lines : BitVec 256) : Ic :=
  { ic with pend := lines, mask := BitVec.allOnes 256, prio := 0, stack := [], run := 16 }

/-- Runs in progress start again, after an FLR as after a restart of the supervisor (R60, R389) (log 54, DEDUCED). -/
def Port.rediscover (p : Port) : Port := if p.running then { p with running := false, rerun := true } else p

/-- What an Obulo restart clears; a descriptor on channel S is cancelled (R302). -/
def State.obuloClears (s : State) : State :=
  let s1 := ([Chan.hostSup, .plnSup] ++ (List.range 16).map Chan.cluSup).foldl (fun t c => t.mbAbort c) s
  let s2 := (s1.onPw fun p => { p with timers := [], wdogDue := none }).chanIdle.onDev fun d =>
    { d with quads := d.quads.map fun q => { q with ports := q.ports.map Port.rediscover } }
  s2.onIc fun ic => ic.restart (s2.lines .sup)

/-- Obulo restarts; OBULO-RESTARTED goes first, and a PONG or UNKNOWN that waits is lost (R462) (log 54, DEDUCED). -/
def State.obuloRestart (s : State) : State :=
  let s1 := s.obuloClears
  let w := noticeWord 2 s1.tally.supRestart
  ((s1.onMail fun m => { m with notices := w :: m.notices.filter fun x => noticeType x = 1 }).pumpNotices).armTimers

/-- R400: the supervisor's cores disagree. -/
def execSupervisorLockstepMismatch (s : State) : Res :=
  .next (
    if !s.pw.supUp then s
    else ((s.onTally fun t => { t with supRestart := inc16 t.supRestart }).obuloRestart).recovery 1 9 0 0 0)

/-- R481: Obulo writes the watchdog. -/
def execWatchdogWrite (s : State) : Res :=
  .next (if s.pw.supUp then s.onPw fun p => { p with wdogDue := some (addNs s.time 4000000) } else s)

/-- R481: 4 ms without a write (log 54, DEDUCED). -/
def execWatchdogExpiry (s : State) : Res :=
  .next (match s.pw.wdogDue with
    | none => s
    | some t =>
      if !reached s.time t || !s.pw.supUp then s
      else (((s.late t).onPw fun p => { p with wdog := inc16 p.wdog }).obuloRestart).event 6 10 9 0 0 0 0)

/-- Obulo arms a timer again once it has acted, if it uses it (log 54, DESIGN CHOICE). -/
def State.rearm (s : State) (n : Nat) : State :=
  ({ s with fresh := s.fresh + 1 } : State).onPw fun p => { p with timers := match Config.supTimer s.fresh n with
    | none => AMap.del p.timers n
    | some d => AMap.put p.timers n (addNs s.time d) }

/-- R479, R480: an armed supervisor timer falls due. -/
def execSupervisorTimerExpiry (n : Nat) (s : State) : Res :=
  .next (match AMap.get? s.pw.timers n with
    | none => s
    | some t => if !s.pw.supUp || 64 ≤ n || !s.supTimer n t then s else ((s.late t).rearm n).irq (128 + n))

/-! ## Plinth restart (R400, R450, R465) -/

/-- R400: Plinth's cores disagree: it restarts from its ROM, the Almanac kept, its requests and sessions ended. -/
def execPlinthLockstepMismatch (s : State) : Res :=
  .next (
    if !s.pl.started then s
    else
      let s1 := (((s.endSessions.withdraw (.own 0)).onPl fun p => { p with req := none, readDue := none }).onSx fun x => { x with load := none })
      let s2 := [Chan.hostPln, .supPln].foldl (fun t c => t.mbAbort c) s1
      let s3 := s2.onIcPl fun ic => ic.restart (s2.lines .pln)
      let s4 := match s3.pl.job with
        | none => s3
        | some j => s3.flashEnd j stFlash
      (s4.event 0 8 1 0 0 0 0).signal 4)

/-! ## FLR and D3hot (R60 to R64) -/

/-- The device of an exchange has an abort to answer, sent or still to send: not that of a PMEM exchange (R366). -/
def Exch.owesAbort (e : Exch) : Bool := (e.st = .sent || e.st = .reached || e.st = .aborting) && e.kind ≠ 3

/-- The abort of an exchange has still to leave: of one in the hands of its device, and of one that waits for room among the Abort commands
of its controller (R366). -/
def Exch.abortToSend (e : Exch) : Bool := e.owesAbort && !(e.st = .aborting && e.abortDue.isSome)

/-- One exchange of each controller or logical unit that a list names. -/
def resetHeads (l : AMap Exch) : List Exch :=
  match l with
  | [] => []
  | e :: l => let r := resetHeads l
    if r.any fun f => e.2.sameSlots f then r else e.2 :: r

/-- Every exchange is aborted with its protocol's abort; a device that leaves one unanswered for 50 ms, one of `silent`, is reset
as an escalation (R60 step 3, R367). The function then knows none of them (log 73, DESIGN CHOICE). -/
def State.dropExchanges (s : State) (silent : Nat → Bool) : State :=
  let l := (s.dev.exch.filter fun e => e.2.abortToSend).map (·.1)
  let quiet := resetHeads (s.dev.exch.filter fun e => e.2.owesAbort && silent e.1)
  (quiet.foldl (fun t e => (t.noteEscalate e).sendReset e) (s.emits (l.map Out.devAbort))).onDev fun d => { d with
    exch := [], aborts := [], ghosts := d.ghosts.map fun g => (g.1, { g.2 with sch := noSub, abortDue := none }), seqPos := [] }

/-- The frame FIFOs and DMA registers with the image's values (R322). -/
def State.freshDma (s : State) : Dma :=
  { Dma.reset with
    fifos := s.dev.quads.zipIdx.map fun e =>
      { Fifo.reset with high := e.1.cfg.high, low := e.1.cfg.low, inband := (s.fifoOf e.2).inband }
    flowN := s.dma.flowN
    flowEn := (List.range 16).foldl (fun v k =>
      if (s.quadOf (2 * k)).cfg.flags.getLsbD 4 then v ||| (1#16 <<< k) else v) 0 }

/-- Contexts after an FLR: every field 0, GEN kept (R136). -/
def flrCtx (m : AMap Ctx) : AMap Ctx :=
  m.foldl (fun n e => AMap.store n e.1 { Ctx.zero with gen := e.2.gen } Ctx.zero) []

/-- The Tally after an FLR: lines, registers and bound counters 0, fences and failed engines kept (R414, R21). -/
def Tally.flr (t : Tally) : Tally :=
  { Tally.reset with fenced := t.fenced, fencedBefore := t.fencedBefore, spareUsed := t.spareUsed, failed := t.failed }

/-- Meridian after an FLR, before the recommit (R350). -/
def Meridian.flr (m : Meridian) : Meridian :=
  { m with reqs := [], waits := [], leaving := [], commit := none, retests := [], frzEng := false, frzRd := false, frzWr := false, frzEgr := 0, drained := true,
           policed := 0, overrun := 0, refused := 0, commits := 0 }

/-- Nightwatch registers after an FLR (R497). -/
def Power.flr (p : Power) : Power :=
  { p with maxState := 3, dozeWakes := 0, sleepWakes := 0, demandWakes := 0, sleeps := 0, maxLag := 0, dlMiss := 0 }

/-- The admin pair of a function that enters D3hot: it stands, its commands in progress ended without completion. -/
def Queues.admOnly (q : Queues) : Queues :=
  { Queues.reset with
    sqs := q.sqs.filterMap fun e => if e.1 = 0 then some (0, { e.2 with taken := [], fenceOk := false, reading := [], block := none }) else none
    cqs := q.cqs.filterMap fun e => if e.1 = 1 then some (1, { e.2 with held := [] }) else none
    admEnable := q.admEnable, admReady := q.admReady, admSqLog2 := q.admSqLog2, admCqLog2 := q.admCqLog2,
    admSqBase := q.admSqBase, admCqBase := q.admCqBase }

/-- Steps 3 and 5 of R60, but for the queues: programs, exchanges, tables and counters (log 55, DEDUCED). -/
def State.flrState (s : State) : State :=
  let s1 := { s.dropExchanges (Config.abortUnanswered s.fresh) with fresh := s.fresh + 1 }
  let s2 := { s1 with
    sub := { Subch.reset with ctx := flrCtx s1.sub.ctx }
    sx := { s1.sx with segTabs := [], threads := [], ckpt := [], stopped := [], recent := [], lastIssue := [], readyAt := [], micro := [], gs := [] }
    dma := s1.freshDma
    tally := s1.tally.flr
    md := s1.md.flr }
  (((s2.onDev fun d => { d with
    disc := d.disc.map fun e => (e.1, { e.2 with dev := none })
    quads := d.quads.map fun q => { q with linkDown := 0, corMsg := 0, devUr := 0, escalate := 0 } }).onPw Power.flr).onLink
      fun l => { l with reads := [], noIssue := [] }).flowSyncAll

/-- Step 6: the boot schedule once more, its re-test, the record, the awake set. -/
def State.flrEnd (s : State) : State :=
  let s1 := if s.pw.supUp then ((s.commitBoot s.md.boot).retest 0).recomputeAwake else s
  s1.event 2 0 3 0 0 0 0

/-- R62: the four host channels; Obulo and Plinth hear of their words, the host's registers are reset. -/
def State.flrMail (s : State) : State :=
  let s1 := [Chan.supHost, .plnHost].foldl (fun t c => t.mbAbort c) s
  (([Chan.hostSup, .hostPln].foldl (fun t c => (t.modBox c fun _ => Box.reset).serveBell c) s1).modSender .hostSup
    fun _ => Sender.reset).modSender .hostPln (fun _ => Sender.reset) |>.onMail
      fun m => { m with sup := HostMb.reset, pln := HostMb.reset }

/-- Configuration space and GL_HL_ERR after an FLR; the link, IDE, SPDM and the Almanac page stay (R60, R61, R67). -/
def Link.flr (l : Link) : Link :=
  { l with bme := false, mse := false, d3 := false, tagw := 0, rdLimit := 256, pasidEn := false, relaxed := true, mps := 128,
           mrrs := 512, msixEn := false, fmask := false, vecs := [], pba := [],
           aer := ⟨false, false, false, false, false⟩, urSent := 0, cplErr := 0, cplTimeout := 0, poisonRx := 0 }

/-- R60: the function level reset (log 55, DEDUCED). Which aborts stay unanswered is free (log 73, DESIGN CHOICE). -/
def execFlr (s : State) : Res :=
  .next (s.config (
      let s1 := (((s.irq 15).irqPl 11).flrState).onQ fun _ => Queues.reset
      let s2 := s1.flrMail
      let s3 := if s2.pw.supUp then s2.obuloRestart else s2
      (((s3.flrEnd.onPw fun p => { p with flrs := inc16 p.flrs }).onLink Link.flr).onPl fun p => { p with readDue := none }).emit .frs))

/-- R64: D3hot performs steps 1 to 6 of R60 and keeps configuration space (log 55, DEDUCED). -/
def execD3hotEntry (s : State) : Res :=
  .next (s.config (
    if s.link.d3 then s
    else
      let s1 := (s.flrState).onQ Queues.admOnly
      let s2 := if s1.pw.supUp then s1.obuloRestart else s1
      (s2.flrEnd.onLink fun l => { l with d3 := true }).irq 17))

/-- R64: D0 again. -/
def execPowerStateD0 (s : State) : Res :=
  .next (s.config (if !s.link.d3 then s else ((s.onLink fun l => { l with d3 := false }).irq 17).ifOpened s))

/-! ## Warm resets (R494 to R497) -/

/-- Device PERST_N of every port is asserted at once, and PWREN falls 10 ms later. -/
def Quad.hold (q : Quad) (now : Time) : Quad :=
  { Quad.reset with ports := q.ports.map fun p =>
    { Port.reset with pwren := p.pwren, offDue := if p.pwren then some (p.offDue.getD (addNs now 10000000)) else none } }

def State.perstPins (s : State) : List Out :=
  (List.range 32).flatMap fun q =>
    if isPcie (s.quadOf q).cfg.mode then
      ((List.range 4).filter fun p => s.hasPort q p && !(s.portOf q p).perst).map fun p => Out.pin q p 1 false
    else []

/-- Plinth in a warm reset: requests, sessions, nonce, lock and flash write end; the Almanac, counters and tamper latch stay. A write so
abandoned shows as FLASH and leaves no record (R450) (log 64, DESIGN CHOICE). -/
def Plinth.warm (p : Plinth) (now : Time) : Plinth :=
  { p with img := none, extLock := false, nonce := none, req := none, readDue := none, job := none, updProgress := p.progress now,
           updState := if p.job.isSome then 6 else p.updState, updResult := if p.job.isSome then stFlash else p.updResult }

/-- Nightwatch in a warm reset: clocks, causes and the supply target stay. -/
def Power.warm_ (p : Power) : Power :=
  { p.flr with clusters := List.replicate 16 Cluster.off, awakeN := 0, supUp := false, coreLock := false, qlock := 0,
               timers := [], wdogDue := none }

/-- The FLOW_N pins that are low rise again (R312). -/
def State.flowPins (s : State) : List Out := ((List.range 16).filter fun k => s.dma.flowN.getLsbD k).map fun k => Out.pin k 0 3 true

/-- Steps 1 and 2 of R496. Fences before a warm reset still count (R404). -/
def State.holdDown (s : State) : State :=
  { (s.drive (s.perstPins ++ s.flowPins)) with
    link := Link.reset
    q := Queues.reset
    sub := Subch.reset
    sx := Sirax.reset
    dma := Dma.reset
    md := Meridian.reset
    dev := { Devices.reset with quads := s.dev.quads.map fun q => q.hold s.time }
    tally := { Tally.reset with fencedBefore := s.tally.fencedBefore }
    pl := s.pl.warm s.time
    mail := Mail.reset
    ic := Ic.reset
    icPl := Ic.reset
    pw := s.pw.warm_ }

/-- A cause holds the chip in its warm reset. -/
def Power.cause (p : Power) : Bool := p.perstLow || !p.hrefOk || !p.pwrok || !p.railsBad.isEmpty || p.trip

/-- R496: a warm reset of a cause; one that runs already goes on. -/
def State.warmReset (s : State) (last : Nat) (hold : Option Time) : State :=
  if !s.pw.released || s.pw.trip then s
  else if s.pw.held then s.onPw fun p => { p with perstWas := p.perstWas || p.perstLow }
  else s.holdDown.onPw fun p => { p with
    held := p.cause, holdDue := hold, bootDue := true, last := last, warm := inc16 p.warm, perstWas := p.perstLow }

/-- A cause has ended: the hold ends with the last one. -/
def State.unhold (s : State) : State := s.onPw fun p => { p with held := p.held && p.cause }

/-- R64: hot reset, link disable or DL_Down; the reset holds for 1 ms. -/
def execLinkResetEvent (s : State) : Res :=
  .next (if s.link.ep = .held then s else s.warmReset 3 (some (addNs s.time 1000000)))

/-- R494: PERST_N has been low for 10 µs. -/
def execPerstNWarmReset (s : State) : Res :=
  .next (if s.pw.perstLow then s else (s.onPw fun p => { p with perstLow := true }).warmReset 2 none)

/-- R57: PERST_N is deasserted. -/
def execPerstNDeassert (s : State) : Res :=
  .next (if s.pw.perstLow then (s.onPw fun p => { p with perstLow := false }).unhold else s)

/-- R492: the host reference is lost. -/
def execHostReferenceLoss (s : State) : Res :=
  .next (if s.pw.hrefOk then (s.onPw fun p => { p with hrefOk := false }).warmReset 4 none else s)

/-- R491, R492: the host reference is back. -/
def execHostReferenceReturn (s : State) : Res :=
  .next (if s.pw.hrefOk then s else (s.onPw fun p => { p with hrefOk := true }).unhold)

/-! ## Port references (R355, R491) -/

def halfQuads (half : Bool) : List Nat := (List.range 32).filter fun q => decide (16 ≤ q) = half

def State.setPref (s : State) (half v : Bool) : State :=
  s.onPw fun p => if half then { p with pref1 := v } else { p with pref0 := v }

def State.prefOk (s : State) (half : Bool) : Bool := if half then s.pw.pref1 else s.pw.pref0

/-- The PLLs of the half's quads that are not OFF. -/
def State.lockHalf (s : State) (half v : Bool) : State :=
  (halfQuads half).foldl (fun t q => t.onPw fun p => { p with
    qlock := if v && (s.quadOf q).cfg.mode ≠ 0 then p.qlock ||| (1#32 <<< q) else p.qlock &&& ~~~(1#32 <<< q) }) s

/-- R355: the ports of the half go down. -/
def execPortReferenceLoss (half : Bool) (s : State) : Res :=
  .next (
    if !s.prefOk half then s
    else
      let s1 := (s.setPref half false).lockHalf half false
      (halfQuads half).foldl (fun t q => (List.range 4).foldl (fun t p =>
        if (t.portOf q p).st = 2 then (t.linkLost q p 3).signal 4
        else if (t.portOf q p).st = 1 then t.modPort q p fun x => { x with st := 3, retryDue := none } else t) t) s1)

/-- R355, R491: the quads of the half bring their ports up again. -/
def execPortReferenceReturn (half : Bool) (s : State) : Res :=
  .next (
    if s.prefOk half then s
    else
      let s1 := (s.setPref half true).lockHalf half true
      (halfQuads half).foldl (fun t q => (List.range 4).foldl (fun t p =>
        let x := t.portOf q p
        if x.st = 3 && x.present && x.pwren && x.powerDue.isNone && !(t.quadOf q).perstF.getLsbD p then t.train q p else t) t) s1)

/-! ## Power-on, rails and the thermal trip (R493, R495, R520, R531) -/

/-- Steps 1 to 3 of R493; nothing but what has left the chip, and the rails that are out of their range, is older. -/
def State.powerOn (s : State) : State :=
  { State.reset with
    fresh := s.fresh, out := s.out, pending := s.pending,
    pw := { Power.reset with xtalOk := true, railsBad := s.pw.railsBad, sbLow := s.pw.sbLow } }

/-- Step 4: power-on release; a thermal trip holds it off until the next power-on (R531) (log 56, DEDUCED). -/
def State.tryRelease (s : State) : State :=
  if s.pw.released || !s.pw.aon || !s.pw.xtalOk || !s.pw.pwrok || !s.pw.railsBad.isEmpty || s.pw.sbLow || s.pw.trip then s
  else { (s.onPw fun p => { p with released := true, plinthLock := true, bootDue := true, last := 1 }) with time := 0 }

def Rail.alwaysOn (r : Rail) : Bool := r = .vaon || r = .vioAon

/-- R493: the always-on rail enters its range (log 56, DEDUCED). -/
def execPowerOn (s : State) : Res :=
  .next (if s.pw.aon && (s.pw.xtalOk || s.pw.released) || s.pw.railsBad.any (fun r => Rail.alwaysOn r) then s else s.powerOn)

/-- R493, R495: PWROK rises. -/
def execPwrokRise (s : State) : Res :=
  .next (if s.pw.pwrok || !s.pw.aon then s
    else
      let s1 := s.onPw fun p => { p with pwrok := true }
      if s1.pw.released then s1.unhold else s1.tryRelease)

/-- R495: PWROK falls. -/
def execPwrokFall (s : State) : Res :=
  .next (if s.pw.pwrok then (s.onPw fun p => { p with pwrok := false }).warmReset 5 none else s)

/-- VSB33 fails: sideband drivers are released, and each powered port acts as presence lost, with a PWREN fault (R520). -/
def State.sidebandLost (s : State) : State :=
  (List.range 32).foldl (fun t q => (List.range 4).foldl (fun t p =>
    if (t.portOf q p).pwren then (t.unplug q p (!(t.quadOf q).i2cF.getLsbD p)).pwrenFault q p else t) t) s

/-- R520: a rail leaves its range; VSB33 below it with quads configured releases the sideband alone (log 56, DEDUCED). -/
def execRailOutOfRange (f : RailFault) (s : State) : Res :=
  let rail := f.rail
  .next (
    if s.pw.railsBad.contains rail then s
    else if Rail.alwaysOn rail then
      { State.reset with fresh := s.fresh, out := s.out, pending := s.pending,
                         pw := { Power.reset with aon := false, railsBad := s.pw.railsBad ++ [rail], sbLow := s.pw.sbLow } }
    else if rail = .vsb33 && !f.above && s.dev.quads.any (fun q => q.cfg.mode ≠ 0) then
      (if s.pw.sbLow then s else (s.onPw fun p => { p with sbLow := true }).sidebandLost)
    else (s.onPw fun p => { p with railsBad := p.railsBad ++ [rail], sbLow := p.sbLow && rail ≠ .vsb33 }).warmReset 5 none)

/-- R520: a rail is within its range again. -/
def execRailReturn (rail : Rail) (s : State) : Res :=
  .next (
    if !s.pw.railsBad.contains rail && !(rail = .vsb33 && s.pw.sbLow) then s
    else
      let s1 := s.onPw fun p => { p with railsBad := p.railsBad.filter fun r => r ≠ rail, sbLow := p.sbLow && rail ≠ .vsb33 }
      if Rail.alwaysOn rail then (if s1.pw.railsBad.any (fun r => Rail.alwaysOn r) then s1 else s1.powerOn)
      else if s1.pw.released then s1.unhold else s1.tryRelease)

/-- R531: the trip point: steps 1 and 2 of R496, held until power-on. -/
def execThermalTrip (s : State) : Res :=
  .next (
    if s.pw.trip || !s.pw.aon then s
    else (s.holdDown.onPw fun p => { p with trip := true, held := true, bootDue := false }).emit .thermtrip)

/-! ## The crystal (R478, R400) -/

/-- R478: the crystal is lost. -/
def execCrystalLoss (s : State) : Res :=
  .next (
    if !s.pw.xtalOk then s
    else if !s.pw.released then s.onPw fun p => { p with xtalOk := false }
    else
      let s1 := s.onPw fun p => { p with xtalOk := false, fallback := true }
      (if s.pw.hrefOk then s1.irq 19 else s1).recovery 6 0xA 0 0 0)

/-- R478, R493: 65,536 stable crystal cycles (log 56, DEDUCED). -/
def execCrystalReturn (s : State) : Res :=
  .next (
    if s.pw.xtalOk || !s.pw.aon then s
    else
      let s1 := s.onPw fun p => { p with xtalOk := true, fallback := false }
      if s.pw.released then (if s.pw.fallback then s1.event 6 10 0xA 0 0 0 0 else s1) else s1.tryRelease)

/-! ## The core supply (R489, R518) -/

/-- A target goes out over AVSBus; the previous one stands until it is acknowledged (log 62, DEDUCED). -/
def State.avsWrite (s : State) (mv : Nat) (acked : Bool) : State :=
  (s.onPw fun p => { p with
    vcore := if acked then mv else p.vcore, vcoreTry := if acked then none else some mv,
    vcoreDue := addNs s.time 10000 }).emit (.avs mv)

/-- R489: one 5 mV step between 0.700 V and 0.800 V, at most every 10 µs (log 62, DEDUCED). -/
def execVcoreStep (up acked : Bool) (s : State) : Res :=
  .next (
    let mv := if up then s.pw.vcore + 5 else s.pw.vcore - 5
    if !s.pw.released || s.pw.vcoreTry.isSome || !reached s.time s.pw.vcoreDue || mv < 700 || 800 < mv then s
    else s.avsWrite mv acked)

/-- R518: an unacknowledged write is sent again after 10 µs (log 62, DEDUCED). -/
def execAvsRetry (acked : Bool) (s : State) : Res :=
  .next (match s.pw.vcoreTry with
    | none => s
    | some mv => if reached s.time s.pw.vcoreDue then s.avsWrite mv acked else s)

/-! ## JTAG (R527) -/

def idcode : BitVec 32 := 0x1612856B

/-- Boundary-scan instructions work while PERST_N is low; an unknown instruction is BYPASS. -/
def jtagRuns (ir : JtagOp) (perstLow : Bool) : JtagOp :=
  match ir with
  | .bypass => .bypass
  | .idcode => .idcode
  | .extest c => if perstLow then .extest c else .bypass
  | .boundary c => if perstLow then .boundary c else .bypass
  | .other _ => .bypass

/-- The pins return to their functional drivers (R527). -/
def State.handBack (s : State) : State :=
  let t := s.onPw fun p => { p with extest := false }
  if !s.pw.extest then t
  else t.emits ((List.range 32).flatMap fun q => ((List.range 4).filter (s.hasPort q)).flatMap fun p =>
    Out.pin q p 0 (s.portOf q p).pwren :: if isPcie (s.quadOf q).cfg.mode then [.pin q p 1 (!(s.portOf q p).perst)] else [])

/-- The boundary register takes cells in and shifts out those that it held; EXTEST drives the pins with the new ones (R527) (log 56,
DEDUCED). -/
def State.boundaryScan (s : State) (cells : List Bool) (extest : Bool) : State :=
  let s1 := (s.onPw fun p => { p with cells := cells, extest := extest }).emit (.boundaryShift s.pw.cells)
  if extest then s1.emit (.boundaryDrive cells) else s1

/-- R527: an instruction is loaded, and the path that it selects shifts. While PERST_N is high EXTEST keeps the pins that it has taken until
Test-Logic-Reset. -/
def execJtagInstruction (ir : JtagOp) (s : State) : Res :=
  .next (
    let op := jtagRuns ir s.pw.perstLow
    let s1 := s.onPw fun p => { p with jtag := op }
    let s2 := if s.pw.perstLow then s1.handBack else s1
    match op with
    | .idcode => s2.emit (.jtagData idcode 32)
    | .bypass => s2.emit (.jtagData 0 1)
    | .boundary c => s2.boundaryScan c false
    | .extest c => s1.boundaryScan c true
    | .other _ => s2)

/-- R527: Test-Logic-Reset. -/
def execTestLogicReset (s : State) : Res := .next ((s.onPw fun p => { p with jtag := .idcode }).handBack)

/-! ## Cluster resets -/

/-- R404: the cluster reset of a fenced cluster, once its programs are restored; it returns to service when the memory self-test
passes and it was not fenced before. The supervisor's channel to it is cleared (R465). -/
def execClusterReset (cluster : Nat) (selfTestOk : Bool) (s : State) : Res :=
  .next (
    if !s.tally.fenced.getLsbD cluster || s.sx.stopped.any (fun e => thCluster e.1 = cluster) || !s.pw.supUp then s
    else
      let s := s.mbAbort (.supClu cluster)
      if !selfTestOk || s.tally.fencedBefore.getLsbD cluster then
        s.onTally fun t => { t with fencedBefore := t.fencedBefore ||| (1#16 <<< cluster) }
      else
      let s1 := s.onTally fun t => { t with
        fenced := t.fenced &&& ~~~(1#16 <<< cluster), fencedBefore := t.fencedBefore ||| (1#16 <<< cluster) }
      (s1.event 1 10 0xB cluster 0 0 0).recomputeAwake)

end Sys2Proof.Machine
end

