-- ==== Sys2Proof/Machine/Registers.lean ====
section
/-! DEFINITION. Sys2Proof/Machine/Registers.lean: reads and writes of the registers that have no row of their own: the index
of R506 (BAR0), the doorbell BAR (R41) and the structures of BAR4 (R507). Every read function answers the 64 bits of the
register at an offset that is a multiple of 8, as a number; 0 at an offset that the index does not list (R7, R500). -/

namespace Sys2Proof.Machine

/-! ## Values of the registers, block by block -/

/-- Element of an array of 64-bit registers: the index, when the offset lies in the array. -/
def arrIdx (base n o : Nat) : Option Nat := if base ≤ o && o < base + 8 * n then some ((o - base) / 8) else none

def pack4 (a b c d : Nat) : Nat := a + b * 2 ^ 16 + c * 2 ^ 32 + d * 2 ^ 48

def packBools (l : List Bool) : Nat :=
  match l with
  | [] => 0
  | b :: l => b2n b + 2 * packBools l

/-- GL_HL_STAT (R66). -/
def Link.statWord (l : Link) : Nat :=
  (if l.linkUp then l.rate + l.width * 2 ^ 4 + b2n l.flit * 2 ^ 9 else 0) + l.tagw.toNat * 2 ^ 10 + b2n l.bme * 2 ^ 12
    + b2n l.ide.secure * 2 ^ 13 + b2n l.ideReq * 2 ^ 14 + b2n (l.ep = .recovery) * 2 ^ 15 + l.rdLimit * 2 ^ 32

/-- GL_ (R505, R66, R452, R20). -/
def State.glWord (s : State) (o : Nat) : Nat :=
  if o = 0x00 then 0x6128 + stepping * 2 ^ 16 + b2n (s.link.ep = .recovery) * 2 ^ 24
  else if o = 0x08 then s.link.statWord
  else if o = 0x10 then pack4 s.link.urSent s.link.cplErr s.link.cplTimeout s.link.poisonRx
  else if o = 0x18 then s.link.almPage.toNat
  else match arrIdx 0x1000 41 o, arrIdx 0x1200 41 o, arrIdx 0x1400 41 o with
    | some n, _, _ => s.occ n + s.limit n * 2 ^ 32
    | none, some n, _ => s.tally.bndHwm.getD n 0
    | none, none, some n => s.tally.bndWait.getD n 0
    | none, none, none => 0

/-- QM_ (R104, R96, R117). QM_QEVT and QM_LEG_FIFO are read by State.readBar0. -/
def State.qmWord (s : State) (o : Nat) : Nat :=
  if o = 0x00 then b2n s.q.admEnable + b2n s.q.admReady * 2 + s.q.admSqLog2 * 2 ^ 2 + s.q.admCqLog2 * 2 ^ 6
  else if o = 0x08 then s.q.admSqBase.toNat
  else if o = 0x10 then s.q.admCqBase.toNat
  else if o = 0x28 then pack4 s.q.pushDiscard s.q.dbDiscard s.q.captureFallback s.q.ringFull
  else if o = 0x48 then b2n s.q.legOn + s.q.leg.length * 2
  else 0

/-- Subchannels in the state of a code (R150); those without a context of their own are DISABLED. -/
def State.stateCount (s : State) (code : Nat) : Nat :=
  let others := (s.sub.ctx.filter fun e => e.2.state.code ≠ 0).length
  if code = 0 then 1048576 - others else (s.sub.ctx.filter fun e => e.2.state.code = code).length

/-- SC_ (R150). -/
def State.scWord (s : State) (o : Nat) : Nat :=
  if o = 0x80 then pack4 s.sub.timeouts s.sub.abortLost s.sub.rejBusy s.sub.rejDisabled
  else match arrIdx 0 9 o with
    | some k => s.stateCount k
    | none => 0

/-- MD_RESA and MD_RESB (R351). -/
def State.resaWord (s : State) (c : Nat) : Nat :=
  let m := s.md.sched
  s.resv m 1 c + s.resv m 2 c * 2 ^ 13 + s.resv m 3 c * 2 ^ 27 + s.resv m 4 c * 2 ^ 37 + s.resv m 5 c * 2 ^ 47

def State.resbWord (s : State) (c : Nat) : Nat :=
  if 7 ≤ c then 0 else s.resv s.md.sched 37 c + s.md.sched.need s.demands c 1 * 2 ^ 18

/-- MD_ (R351, R193). -/
def State.mdWord (s : State) (o : Nat) : Nat :=
  let m := s.md
  if o = 0x00 then
    packBools [m.valid, m.degraded, m.commit.isSome] + m.lastCode * 2 ^ 8 + m.lastKind * 2 ^ 16 + m.lastIndex * 2 ^ 24
      + m.gen % 2 ^ 24 * 2 ^ 40
  else if o = 0x08 then packBools [m.frzEng, m.frzRd, m.frzWr, !m.holding] + m.frzEgr.toNat * 2 ^ 4
  else if o = 0x10 then
    m.sched.expClusters.toNat + sumBy s.warmFree (List.range 16) * 2 ^ 16
      + sumBy (·.textKib) (s.demands.filter fun d => d.cls = 0) * 2 ^ 29
  else if o = 0x18 then pack4 m.policed m.overrun m.refused m.commits
  else match arrIdx 0x100 8 o, arrIdx 0x200 8 o, arrIdx 0x300 8 o, arrIdx 0x400 35 o with
    | some c, _, _, _ => m.sched.budget c
    | none, some c, _, _ => s.resaWord c
    | none, none, some c, _ => s.resbWord c
    | none, none, none, some r => s.utilPpm r + s.capOf r % 2 ^ 32 * 2 ^ 32
    | none, none, none, none => 0

/-- DM_FIFO_STAT (R323). -/
def Fifo.statWord (f : Fifo) (bufWait : Bool) : Nat :=
  f.occ + b2n f.stop * 2 ^ 9 + b2n f.rxB.bank * 2 ^ 10 + f.txB.occ * 2 ^ 11 + b2n bufWait * 2 ^ 20 + f.stops * 2 ^ 32

/-- A descriptor that has bytes left and holds no channel (R299, R323); one that has ended has none left. -/
def Desc.parked (d : Desc) : Bool := !d.chan && d.done < d.count

/-- DM_ (R323). -/
def State.dmWord (s : State) (o : Nat) : Nat :=
  let d := s.dma
  if o = 0x00 then
    131072 - d.segs.length + (d.segs.filter fun e => e.2.toMem).length * 2 ^ 18
      + (d.segs.filter fun e => !e.2.toMem).length * 2 ^ 36
  else if o = 0x08 then
    s.occ 3 + s.occ 4 * 2 ^ 10 + (d.descs.filter fun e => e.2.rd && e.2.parked).length * 2 ^ 20
      + (d.descs.filter fun e => !e.2.rd && e.2.parked).length * 2 ^ 38 + packBools [d.sRd.isSome, d.sWr.isSome] * 2 ^ 56
  else if o = 0x10 then pack4 d.fifoParity d.tbEccUe d.fifoOverrun d.freeRefused
  else if o = 0x18 then d.flowEn.toNat + packBools ((List.range 16).map s.flowLow) * 2 ^ 16
  else match arrIdx 0x100 32 o, arrIdx 0x200 32 o with
    | some q, _ => (s.fifoOf q).high + (s.fifoOf q).low * 2 ^ 9
    | none, some q => (s.fifoOf q).statWord (s.bufWait q)
    | none, none => 0

def Lane.word (l : Lane) : Nat := l.code.toNat + packBools [l.polinv, l.rev, l.inuse] * 2 ^ 4

def Port.statWord (p : Port) : Nat :=
  p.st.toNat + p.rate * 2 ^ 2 + p.width * 2 ^ 10 + b2n p.pinned * 2 ^ 13 + p.devs % 2 ^ 16 * 2 ^ 14 + p.dgen.toNat * 2 ^ 32

/-- The window of one quad (R390). -/
def Quad.word (q : Quad) (o : Nat) : Nat :=
  if o = 0x00 then q.cfg.mode + q.cfg.flags.toNat * 2 ^ 4 + q.cfg.rateCap * 2 ^ 10
  else if o = 0x08 then sumBy (fun k => (q.lanes.getD k Lane.reset).word * 2 ^ (16 * k)) (List.range 4)
  else if o = 0x10 then
    q.pwrenF.toNat + q.perstF.toNat * 2 ^ 4 + q.i2cF.toNat * 2 ^ 8 + q.nolinkF.toNat * 2 ^ 12 + b2n q.sgpioF * 2 ^ 16
      + packBools (q.ports.map (·.present)) * 2 ^ 17 + packBools (q.ports.map (·.pwren)) * 2 ^ 21
  else if o = 0x18 then q.locate.toNat * 2 ^ 2 + q.fault.toNat * 2 ^ 6
  else if o = 0x20 then pack4 q.linkDown q.corMsg q.devUr q.escalate
  else match arrIdx 0x40 4 o, arrIdx 0x60 4 o with
    | some p, _ => (q.ports.getD p Port.reset).statWord
    | none, some p => (q.ports.getD p Port.reset).mgmt.toNat
    | none, none => 0

/-- Sixty-four bits of a wide register. -/
def quadword {n : Nat} (v : BitVec n) (i : Nat) : Nat := (v.extractLsb' (64 * i) 64).toNat

/-- Bits of register `i` of an array of an instance: 64, in Plinth's a quarter of that, of 32 sources (R469) (log 57, DEDUCED). -/
def icReg (inst : IcInst) (v : BitVec 256) (i : Nat) : Nat :=
  match inst with
  | .sup => quadword v (i % 4)
  | .pln => v.toNat % 2 ^ 32 / 2 ^ (16 * (i % 4)) % 2 ^ 16

/-- IC_ of an instance, with no acknowledgement and no clearing (R468, R469). -/
def State.icWord (s : State) (inst : IcInst) (o : Nat) : Nat :=
  let ic := s.icOf inst
  if o = 0x00 then ic.ackWord.toNat
  else if o = 0x10 then ic.run + ic.stack.length * 2 ^ 5 + b2n ic.under * 2 ^ 10
  else match arrIdx 0x100 8 o, arrIdx 0x140 8 o, arrIdx 0x180 4 o, arrIdx 0x200 16 o, arrIdx 0x300 32 o with
    | some i, _, _, _, _ => icReg inst ic.mask i
    | none, some i, _, _, _ => icReg inst ic.pend i
    | none, none, some i, _, _ => icReg inst (s.lines inst) i
    | none, none, none, some i, _ => if inst = .sup then quadword ic.prio i else quadword ic.prio (i / 4) / 2 ^ (16 * (i % 4)) % 2 ^ 16
    | none, none, none, none, some i => ic.cntWord inst i
    | none, none, none, none, none => 0

/-- MB_x_STAT (R460): outbound channel, inbound channel (log 24, DEDUCED). -/
def State.mbStat (s : State) (out inb : Chan) (h : HostMb) : Nat :=
  let e := s.sender out
  let i := s.box inb
  packBools [(s.box out).full, e.empty, e.aborted, e.overrun, h.ieEmpty, h.ieAborted] + b2n i.full * 2 ^ 8
    + (if i.full then i.bit * 2 ^ 9 else 0) + b2n (out = .hostPln && (s.box out).owed) * 2 ^ 14

def Bell.word (b : Bell) : Nat := b.db.toNat + b.mask.toNat * 2 ^ 32

/-- MB_ (R460); the TX registers are write-only and read 0. -/
def State.mbWord (s : State) (o : Nat) : Nat :=
  if o = 0x108 then s.mail.sup.bell.word
  else if o = 0x110 then s.mbStat .hostSup .supHost s.mail.sup
  else if o = 0x1108 then s.mail.pln.bell.word
  else if o = 0x1110 then s.mbStat .hostPln .plnHost s.mail.pln
  else 0

/-- PL_ (R452). -/
def Plinth.word (p : Plinth) (now : Time) (o : Nat) : Nat :=
  if o = 0x00 then
    p.mode + packBools [p.tamper, p.extLock, decide (4095 < p.alm.next), p.aValid, p.bValid, decide (256 ≤ p.alm.queue.length)] * 2 ^ 2
      + p.aCode * 2 ^ 8 + p.bCode * 2 ^ 16 + p.bootno % 2 ^ 16 * 2 ^ 24
      + (match p.img with
        | some i => i.keyid.toNat % 4 * 2 ^ 40 + b2n i.cosign * 2 ^ 42
        | none => 0)
  else if o = 0x08 then (match p.img with
    | some i => i.version.toNat + i.minver.toNat * 2 ^ 32
    | none => 0)
  else if o = 0x10 then p.updCode now + b2n p.updTarget * 2 ^ 3 + p.updResult * 2 ^ 4 + p.progress now * 2 ^ 20
  else if o = 0x18 then pack4 p.violation p.supprCnt p.refused p.tamperEdges
  else 0

def CluSt.code (c : CluSt) : Nat :=
  match c with
  | .run => 0
  | .nap => 1
  | .doze => 2
  | .sleep => 3

def Cluster.word (c : Cluster) : Nat := c.st.code + packBools [c.awake, c.waking] * 2 ^ 2

/-- NW_ (R498). -/
def State.nwWord (s : State) (o : Nat) : Nat :=
  let p := s.pw
  if o = 0x00 then s.time.toNat
  else if o = 0x08 then
    packBools [p.xtalOk, p.fallback, p.hrefOk, p.pref0, p.pref1, p.coreLock, p.plinthLock] + p.qlock.toNat * 2 ^ 32
  else if o = 0x10 then sumBy (fun k => (s.cluOf k).word * 2 ^ (4 * k)) (List.range 16)
  else if o = 0x18 then p.maxState
  else if o = 0x20 then p.awakeN + p.vcore * 2 ^ 32
  else if o = 0x28 then pack4 p.dozeWakes p.sleepWakes p.demandWakes p.sleeps
  else if o = 0x30 then (s.sub.ctx.filter fun e => e.2.armed).length + p.maxLag * 2 ^ 32 + p.dlMiss * 2 ^ 48
  else if o = 0x38 then pack4 p.last p.warm p.flrs p.wdog
  else 0

/-- TL_ (R415). CLOCK_FALLBACK is 1 while device time counts from the host reference (R478). -/
def State.tlWord (s : State) (o : Nat) : Nat :=
  let t := s.tally
  if o = 0x00 then b2n t.snapValid * 2
  else if o = 0x08 then
    packBools (t.lines.map (·.mism)) + b2n (!t.audits.isEmpty) * 2 ^ 4 + t.lastAudit * 2 ^ 8 + t.checks.toNat * 2 ^ 16
  else if o = 0x10 then pack4 t.engRestore t.cluFence t.redrive t.supRestart
  else if o = 0x18 then
    pack4 t.fenced.toNat t.spareUsed.toNat (min s.dev.ghosts.length 65535) (b2n (s.pw.fallback && s.pw.hrefOk))
  else if o = 0x20 then t.ce + t.ue * 2 ^ 32
  else match arrIdx 0x100 12 o, arrIdx 0x200 4 o with
    | some n, _ => (t.snap.getD n 0).toNat
    | none, some l => (s.lineOf l).diff.toNat + (s.lineOf l).fails * 2 ^ 48
    | none, none => 0

/-- The decode entries of the active bank. -/
def Sirax.active (x : Sirax) : AMap DecEntry := if x.bank then x.bank1 else x.bank0

/-- FX_ENTRY (R287). -/
def DecEntry.word (e : DecEntry) : Nat :=
  e.nops + b2n e.rptok * 2 ^ 2 + e.ccmode * 2 ^ 3 + 2 ^ 5 + e.nstep * 2 ^ 8 + e.rtag.toNat * 2 ^ 16 + e.maskA.toNat * 2 ^ 32
    + e.maskB.toNat * 2 ^ 48

/-- FX_ (R287). -/
def State.fxWord (s : State) (o : Nat) : Nat :=
  let x := s.sx
  if o = 0x00 then
    packBools [x.bank, x.retiring && !s.bankRetired, x.load.isSome || s.pl.readDue.any (fun d => d.1 = 0x20), x.fixed] + x.active.length * 2 ^ 4 + x.gen.toNat * 2 ^ 32
  else if o = 0x08 then pack4 x.loads x.refused x.unloaded 0
  else match arrIdx 0x100 64 o, arrIdx 0x400 64 o with
    | some i, _ => ((AMap.get? x.active i).map DecEntry.word).getD 0
    | none, some i => ((AMap.get? x.active i).map fun e => e.name.toNat).getD 0
    | none, none => 0

/-- The register at an offset of BAR0 that is a multiple of 8 (R499, R506). -/
def State.regWord (s : State) (off : Nat) : Nat :=
  let b := off / 0x400000
  let o := off % 0x400000
  if b = 0 then s.glWord o
  else if b = 1 then s.qmWord o
  else if b = 2 then s.scWord o
  else if b = 3 then s.mdWord o
  else if b = 4 then s.dmWord o
  else if b = 5 then (s.quadOf (o / 0x20000)).word (o % 0x20000)
  else if b = 6 then s.icWord .sup o
  else if b = 7 then s.mbWord o
  else if b = 8 then s.pl.word s.time o
  else if b = 9 then s.nwWord o
  else if b = 10 then s.tlWord o
  else if b = 11 then s.fxWord o
  else 0

/-! ## Read-to-clear (R6, R502, R504) -/

/-- A field after a read that reaches its half, or does not. -/
def zap (hit : Bool) (n : Nat) : Nat := if hit then 0 else n

/-- The RC fields of the lower (`lo`) and upper (`hi`) half of a register clear. A high-water mark holds at least the present
occupancy from then on (R20). -/
def State.clearRc (s : State) (off : Nat) (lo hi : Bool) : State :=
  if off = 0x10 then
    s.onLink fun l => { l with
      urSent := zap lo l.urSent, cplErr := zap lo l.cplErr, cplTimeout := zap hi l.cplTimeout, poisonRx := zap hi l.poisonRx }
  else if off = 0x00400028 then
    s.onQ fun q => { q with
      pushDiscard := zap lo q.pushDiscard, dbDiscard := zap lo q.dbDiscard, captureFallback := zap hi q.captureFallback,
      ringFull := zap hi q.ringFull }
  else if off = 0x00800080 then
    s.onSub fun b => { b with
      timeouts := zap lo b.timeouts, abortLost := zap lo b.abortLost, rejBusy := zap hi b.rejBusy,
      rejDisabled := zap hi b.rejDisabled }
  else if off = 0x00C00018 then
    s.onMd fun m => { m with
      policed := zap lo m.policed, overrun := zap lo m.overrun, refused := zap hi m.refused, commits := zap hi m.commits }
  else if off = 0x01000010 then
    s.onDma fun d => { d with
      fifoParity := zap lo d.fifoParity, tbEccUe := zap lo d.tbEccUe, fifoOverrun := zap hi d.fifoOverrun,
      freeRefused := zap hi d.freeRefused }
  else if off / 0x400000 = 5 && off % 0x20000 = 0x20 then
    s.modQuad (off % 0x400000 / 0x20000) fun q => { q with
      linkDown := zap lo q.linkDown, corMsg := zap lo q.corMsg, devUr := zap hi q.devUr, escalate := zap hi q.escalate }
  else if off = 0x02400028 then
    s.onPw fun p => { p with
      dozeWakes := zap lo p.dozeWakes, sleepWakes := zap lo p.sleepWakes, demandWakes := zap hi p.demandWakes,
      sleeps := zap hi p.sleeps }
  else if off = 0x02400030 then s.onPw fun p => { p with maxLag := zap hi p.maxLag, dlMiss := zap hi p.dlMiss }
  else if off = 0x02800010 then
    s.onTally fun t => { t with
      engRestore := zap lo t.engRestore, cluFence := zap lo t.cluFence, redrive := zap hi t.redrive,
      supRestart := zap hi t.supRestart }
  else if off = 0x02800020 then s.onTally fun t => { t with ce := zap lo t.ce, ue := zap hi t.ue }
  else if off = 0x02C00008 then s.onSx fun x => { x with unloaded := zap hi x.unloaded }
  else match arrIdx 0x1200 41 off, arrIdx 0x1400 41 off, arrIdx 0x01000200 32 off, arrIdx 0x02800200 4 off with
    | some n, _, _, _ =>
      let o := s.occ n
      if lo then s.onTally fun t => { t with bndHwm := modAt t.bndHwm n fun _ => o } else s
    | none, some n, _, _ => s.onTally fun t => { t with bndWait := modAt t.bndWait n fun w => zap lo w }
    | none, none, some q, _ => s.modFifo q fun f => { f with stops := zap hi f.stops }
    | none, none, none, some l => s.onTally fun t => { t with lines := modAt t.lines l fun x => { x with fails := zap hi x.fails } }
    | none, none, none, none => s

/-! ## Access (R38, R42, R55, R59, R502) -/

/-- In recovery mode only the GL_, MB_ and PL_ windows of BAR0 are implemented (R59, R499) (log 24, DEDUCED). -/
def State.hasBlock (s : State) (off : Nat) : Bool :=
  s.link.ep ≠ .recovery || off / 0x400000 = 0 || off / 0x400000 = 7 || off / 0x400000 = 8

/-- The half of a register that an access names. -/
def halfOf (off size : Nat) : Option Bool := if size = 4 then some (decide (off % 8 = 4)) else none

/-- The bits that a read of a register returns. -/
def cutHalf (half : Option Bool) (v : Nat) : Word :=
  match half with
  | none => BitVec.ofNat 64 v
  | some false => BitVec.ofNat 64 (v % 2 ^ 32)
  | some true => BitVec.ofNat 64 (v / 2 ^ 32 % 2 ^ 32)

/-- A read of BAR0 that the endpoint serves. The reads that take something out of the 6128 are those of rows of their own. -/
def State.readBar0 (s : State) (off size : Nat) : State :=
  let half := halfOf off size
  let base := off - off % 8
  if !s.hasBlock off then s.emit (.readData 0 off size 0)
  else if base = qevtOff then (if size = 8 then s.qevtTake else s.emit (.readData 0 off size 0))
  else if base = legFifoOff then (if size = 8 then s.legTake else s.emit (.readData 0 off size 0))
  else if base = 0x01C00100 then s.mbRead .supHost size (.readData 0 off size)
  else if base = 0x01C01100 then s.mbRead .plnHost size (.readData 0 off size)
  else (s.clearRc base (reaches half false) (reaches half true)).emit (.readData 0 off size (cutHalf half (s.regWord base)))

/-- The 64 bits of BAR4 at an offset that is a multiple of 8 (R507). In recovery mode vectors 0, 2 and 5 alone exist (R59). -/
def State.bar4Word (s : State) (off : Nat) : Nat :=
  let has (v : Nat) : Bool := s.link.ep ≠ .recovery || v = 0 || v = 2 || v = 5
  if off < 0x8000 then
    let e := s.link.vec (off / 16)
    if !has (off / 16) then 0 else if off % 16 = 0 then e.addr.toNat else e.data.toNat + b2n e.masked * 2 ^ 32
  else if off < 0x8100 then
    packBools ((List.range 64).map fun j => has ((off - 0x8000) * 8 + j) && s.link.pba.contains ((off - 0x8000) * 8 + j))
  else if 0x80000 ≤ off && off < 0x100000 then ofLe (s.almWindow (off - 0x80000) 8)
  else 0


def aligned (off size : Nat) (allBytes : Bool) : Bool := (size = 4 || size = 8) && off % size = 0 && allBytes

/-- The completions of a read of BAR2, which returns zeros (R41): each carries at most Max Payload Size, and ends on a 64-byte
boundary unless it is the last (R34) (log 65, DESIGN CHOICE). -/
def State.readZeros (n : Nat) (s : State) (off len : Nat) : State :=
  match n with
  | 0 => s
  | n + 1 =>
    if len = 0 then s
    else
      let k := min len (s.link.mps - off % 64)
      State.readZeros n (s.emit (.readData 2 off k 0)) (off + k) (len - k)

/-- The register that the supervisor or Plinth finds through its private map: what the host would read, and its own interrupt controller. The
oldest queue event and the next legacy completion stay in place; the host's side of the mailboxes is not there (R460, R504)
(log 57, DEDUCED). -/
def State.privWord (s : State) (inst : IcInst) (off : Nat) : Nat :=
  if off = qevtOff then (s.q.qevt.head?.map fun e => (e.word s.q.qevtLost).toNat).getD 0
  else if off = legFifoOff then ((legNext s.q.leg).map fun e => e.word.toNat).getD (2 ^ 63)
  else if off / 0x400000 = 6 then s.icWord inst (off % 0x400000)
  else if off / 0x400000 = 7 then 0
  else s.regWord off

/-- A read through a private map clears nothing but what only its own read takes: IC_ACK and IC_CNT (R468, R504). -/
def State.privRead (s : State) (inst : IcInst) (bar off size : Nat) : State :=
  let half := halfOf off size
  let base := off - off % 8
  let s1 := s.emit (.readData bar off size (cutHalf half (s.privWord inst base)))
  if base = 0x01800000 && reaches half false then s1.icAcked inst
  else match arrIdx 0x01800300 32 base with
    | some i => s1.icCounted inst i ((List.range (icPer inst)).filter fun j => reaches half (4 ≤ j))
    | none => s1

/-- A host read of a BAR. Of another size or alignment, or without all byte enables, one of BAR0 or BAR4 completes with
Unsupported Request (R38, R42); one of BAR2 returns zeros (R41). `bar` 6 and 7 stand for the
private maps of the supervisor and of Plinth (R504) (log 57, DEDUCED). -/
def execRegisterReadClear (bar off size : Nat) (allBytes : Bool) (s : State) : Res :=
  .next (
    let bad := s.urSent.emit (.readUr bar off size)
    if bar = 6 then (if s.icUp .sup && aligned off size allBytes then s.privRead .sup bar off size else s)
    else if bar = 7 then (if s.pl.started && aligned off size allBytes then s.privRead .pln bar off size else s)
    else if s.link.ep = .held || s.link.ide.discarding then s
    else if bar = 0 then (if !s.link.opens || !aligned off size allBytes then bad else s.readBar0 off size)
    else if bar = 2 then (if !s.link.opens then bad else s.readZeros (size / 64 + 2) off size)
    else if bar = 4 then
      (if !s.link.opens4 off || !aligned off size allBytes then bad
       else s.emit (.readData 4 off size (cutHalf (halfOf off size) (s.bar4Word (off - off % 8)))))
    else s)

/-! ## Writes -/

/-- A register after a write of it whole or of one half. -/
def mergeHalf (old : Word) (half : Option Bool) (v : Word) : Word :=
  match half with
  | none => v
  | some false => (v &&& 0x00000000FFFFFFFF#64) ||| (old &&& 0xFFFFFFFF00000000#64)
  | some true => (v &&& 0xFFFFFFFF00000000#64) ||| (old &&& 0x00000000FFFFFFFF#64)

/-- QM_ADM_CTRL (R104): the size fields are frozen while ENABLE is 1. -/
def State.writeAdmCtrl (s : State) (v : Word) : State :=
  if s.q.admEnable then (if v.getLsbD 0 then s else s.admStop)
  else if v.getLsbD 0 then s.admStart v
  else s.onQ fun x => { x with admSqLog2 := bits v.toNat 2 4, admCqLog2 := bits v.toNat 6 4 }

def pageBits (v : Word) : Word := v &&& 0xFFFFFFFFFFFFF000#64

/-- DM_FLOW_CTRL (R312, R323): EN, and the pins that follow it. -/
def State.writeFlow (s : State) (v : Word) : State :=
  (s.onDma fun d => { d with flowEn := v.extractLsb' 0 16 }).flowSyncAll

/-- PQ_CTRL (R390): LOCATE and FAULT are kept, QRESET asks for a reset, SBRETRY tests faulted sideband again (log 33,
DESIGN CHOICE). -/
def State.writeQuadCtrl (s : State) (q : Nat) (v : Word) : State :=
  let s1 := s.modQuad q fun x => { x with locate := v.extractLsb' 2 4, fault := v.extractLsb' 6 4 }
  let s2 := if v.getLsbD 1 then ({ s1 with fresh := s1.fresh + 1 } : State).retrySideband q (Config.stillFaulty s1.fresh) else s1
  if v.getLsbD 0 then s2.askReset q else s2

/-- TL_STAT (R415): a cleared MISMATCH bit starts DIFF again. -/
def State.writeTlStat (s : State) (v : Word) : State :=
  (List.range 4).foldl (fun t l =>
    if v.getLsbD l then t.onTally fun x => { x with lines := modAt x.lines l fun y => { y with mism := false, diff := 0 } } else t) s

/-- A write of BAR0 that the endpoint passes on: the registers marked "yes" in the index (R503, R506); every other one is
ignored. `half` names the half that a write of 4 bytes reaches, and `val` is right-aligned. -/
def State.writeReg (s : State) (off : Nat) (half : Option Bool) (val : Word) : State :=
  let v := atHalf half val
  let low := reaches half false
  if off = 0x18 then (if low then s.onLink fun l => { l with almPage := v.extractLsb' 0 3 } else s)
  else if off = 0x00400000 then (if low then s.writeAdmCtrl v else s)
  else if off = 0x00400008 then
    (if s.q.admEnable then s else s.onQ fun x => { x with admSqBase := pageBits (mergeHalf x.admSqBase half v) })
  else if off = 0x00400010 then
    (if s.q.admEnable then s else s.onQ fun x => { x with admCqBase := pageBits (mergeHalf x.admCqBase half v) })
  else if off = 0x01000018 then (if low then s.writeFlow v else s)
  else if off / 0x400000 = 5 && off % 0x20000 = 0x18 then (if low then s.writeQuadCtrl (off % 0x400000 / 0x20000) v else s)
  else if off = 0x01C00108 then s.mbStatus false false half val
  else if off = 0x01C00110 then s.mbStatus false true half val
  else if off = 0x01C01108 then s.mbStatus true false half val
  else if off = 0x01C01110 then s.mbStatus true true half val
  else if off = 0x02400018 then (if low then s.setMaxState v else s)
  else if off = 0x02800000 then (if low && v.getLsbD 0 then s.tallySnap else s)
  else if off = 0x02800008 then (if low then s.writeTlStat v else s)
  else match arrIdx 0x01000100 32 off, arrIdx mbSupTx 32 off, arrIdx mbPlnTx 32 off with
    | some q, _, _ => if low then s.setWatermarks q v else s
    | none, some b, _ => if half.isSome then s else s.mbSend .hostSup b val
    | none, none, some b => if half.isSome then s else s.mbSend .hostPln b val
    | none, none, none => s

/-- A write of an MSI-X table entry (R50): an unmasked vector sends the message it kept. The PBA and the Almanac window ignore
writes (R42). -/
def State.writeBar4 (s : State) (off : Nat) (half : Option Bool) (val : Word) : State :=
  let v := atHalf half val
  let k := off / 16
  let e := s.link.vec k
  if 0x8000 ≤ off || (s.link.ep = .recovery && !(k = 0 || k = 2 || k = 5)) then s
  else
    let e1 := if off % 16 = 0 then { e with addr := mergeHalf e.addr half v }
      else { e with
        data := if reaches half false then v.extractLsb' 0 32 else e.data,
        masked := if reaches half true then v.getLsbD 32 else e.masked }
    (s.onLink fun l => { l with vecs := AMap.put l.vecs k e1 }).sendPending

/-- Register `i` of IC_PRIO, `w` bits wide: 64 at the supervisor's instance, a quarter of that at Plinth's (R469). -/
def Ic.setPrio (ic : Ic) (w i : Nat) (half : Option Bool) (v : Word) : Ic :=
  let old := (ic.prio >>> (w * i)).setWidth 64
  let ones := BitVec.ofNat 1024 (2 ^ w - 1)
  { ic with prio := (ic.prio &&& ~~~(ones <<< (w * i))) ||| (((mergeHalf old half v).setWidth 1024 &&& ones) <<< (w * i)) }

/-- A write by the owner of an interrupt controller through its private map: IC_PRIO takes the value, and a 1 clears EOI_UNDER of
IC_RUN (R6, R469, R504) (log 57, DEDUCED). -/
def Ic.write (ic : Ic) (w off : Nat) (half : Option Bool) (val : Word) : Ic :=
  let v := atHalf half val
  if off = 0x01800010 then { ic with under := ic.under && !(reaches half false && v.getLsbD 10) }
  else match arrIdx 0x01800200 16 off with
    | some i => ic.setPrio w i half v
    | none => ic

/-- A host write of a BAR0 or BAR4 register. One of another size or alignment is discarded and counts (R38, R65)
(log 24, DEDUCED). `bar` 6 and 7 stand for the private maps of the supervisor and of Plinth (R504) (log 57, DEDUCED). -/
def execRegisterWrite (bar off size : Nat) (allBytes : Bool) (val : Word) (s : State) : Res :=
  .next (
    if bar = 6 then
      (if s.pw.supUp && aligned off size allBytes then s.onIc fun ic => ic.write 64 (off - off % 8) (halfOf off size) val else s)
    else if bar = 7 then
      (if s.pl.started && aligned off size allBytes then s.onIcPl fun ic => ic.write 16 (off - off % 8) (halfOf off size) val else s)
    else if s.link.ep = .held || s.link.ide.discarding then s
    else if bar = 0 then
      (if !s.link.opens || !aligned off size allBytes then s.urSent
       else if !s.hasBlock off then s
       else s.writeReg (off - off % 8) (halfOf off size) val)
    else if bar = 4 then
      (if !s.link.opens4 0 || !aligned off size allBytes then s.urSent
       else s.writeBar4 (off - off % 8) (halfOf off size) val)
    else s)

end Sys2Proof.Machine
end

