-- ==== Sys2Proof/Machine/Dispatch.lean ====
section
/-! DEFINITION. Sys2Proof/Machine/Dispatch.lean: one arm per command, each a direct call of its meaning. -/

namespace Sys2Proof.Machine

def exec (i : Instr) (s : State) : Host.Outcome State Fault Refusal :=
  match i with
  | .wholePush q entry => Sys2Proof.Machine.execWholePush q entry s
  | .tornPush q be => Sys2Proof.Machine.execTornPush q be s
  | .sqDoorbell q be val => Sys2Proof.Machine.execSqDoorbell q be val s
  | .cqDoorbell q be val => Sys2Proof.Machine.execCqDoorbell q be val s
  | .poisonedTlpReceived => Sys2Proof.Machine.execPoisonedTlpReceived s
  | .registerWrite bar off size allBytes val => Sys2Proof.Machine.execRegisterWrite bar off size allBytes val s
  | .msixUnmask vec => Sys2Proof.Machine.execMsixUnmask vec s
  | .busMasterEnableSet cfg => Sys2Proof.Machine.execBusMasterEnableSet cfg s
  | .busMasterEnableCleared => Sys2Proof.Machine.execBusMasterEnableCleared s
  | .memorySpaceEnableCleared => Sys2Proof.Machine.execMemorySpaceEnableCleared s
  | .d3hotEntry => Sys2Proof.Machine.execD3hotEntry s
  | .flr => Sys2Proof.Machine.execFlr s
  | .linkResetEvent => Sys2Proof.Machine.execLinkResetEvent s
  | .hostLinkRateChange rate width flit => Sys2Proof.Machine.execHostLinkRateChange rate width flit s
  | .hostCompletionTimeout tag => Sys2Proof.Machine.execHostCompletionTimeout tag s
  | .ideCheckFailure => Sys2Proof.Machine.execIdeCheckFailure s
  | .keyProg session sub tx k1 key => Sys2Proof.Machine.execKeyProg session sub tx k1 key s
  | .keySetGo session sub tx k1 => Sys2Proof.Machine.execKeySetGo session sub tx k1 s
  | .keySetStop session sub tx k1 => Sys2Proof.Machine.execKeySetStop session sub tx k1 s
  | .keySetSwitch sub k1 => Sys2Proof.Machine.execKeySetSwitch sub k1 s
  | .spdmGetVersion tr => Sys2Proof.Machine.execSpdmGetVersion tr s
  | .spdmGetCapabilities tr => Sys2Proof.Machine.execSpdmGetCapabilities tr s
  | .spdmNegotiateAlgorithms tr => Sys2Proof.Machine.execSpdmNegotiateAlgorithms tr s
  | .spdmGetDigests tr => Sys2Proof.Machine.execSpdmGetDigests tr s
  | .spdmGetCertificate tr slot off len => Sys2Proof.Machine.execSpdmGetCertificate tr slot off len s
  | .spdmChallenge tr slot nonce => Sys2Proof.Machine.execSpdmChallenge tr slot nonce s
  | .spdmGetMeasurements tr index nonce => Sys2Proof.Machine.execSpdmGetMeasurements tr index nonce s
  | .spdmKeyExchange tr id => Sys2Proof.Machine.execSpdmKeyExchange tr id s
  | .spdmFinish tr id => Sys2Proof.Machine.execSpdmFinish tr id s
  | .spdmHeartbeat tr id => Sys2Proof.Machine.execSpdmHeartbeat tr id s
  | .spdmKeyUpdate tr id => Sys2Proof.Machine.execSpdmKeyUpdate tr id s
  | .spdmEndSession tr id => Sys2Proof.Machine.execSpdmEndSession tr id s
  | .spdmUnsupportedRequest tr code => Sys2Proof.Machine.execSpdmUnsupportedRequest tr code s
  | .doeDiscovery index => Sys2Proof.Machine.execDoeDiscovery index s
  | .mctpControlMessage setEid => Sys2Proof.Machine.execMctpControlMessage setEid s
  | .ringFetch q tag => Sys2Proof.Machine.execRingFetch q tag s
  | .ringFetchComplete tag st slots => Sys2Proof.Machine.execRingFetchComplete tag st slots s
  | .phaseStaleReread q tag data => Sys2Proof.Machine.execPhaseStaleReread q tag data s
  | .nopEntry q => Sys2Proof.Machine.execNopEntry q s
  | .start q ue => Sys2Proof.Machine.execStart q ue s
  | .resume q => Sys2Proof.Machine.execResume q s
  | .halt q => Sys2Proof.Machine.execHalt q s
  | .clear q => Sys2Proof.Machine.execClear q s
  | .fenceRelease q => Sys2Proof.Machine.execFenceRelease q s
  | .finalStatusPending rel => Sys2Proof.Machine.execFinalStatusPending rel s
  | .aggregationTimerExpiry q => Sys2Proof.Machine.execAggregationTimerExpiry q s
  | .adminEnable val => Sys2Proof.Machine.execAdminEnable val s
  | .adminDisable val => Sys2Proof.Machine.execAdminDisable val s
  | .adminUndefinedOpcode => Sys2Proof.Machine.execAdminUndefinedOpcode s
  | .createSq text => Sys2Proof.Machine.execCreateSq text s
  | .createCq => Sys2Proof.Machine.execCreateCq s
  | .deleteQueue => Sys2Proof.Machine.execDeleteQueue s
  | .resetQueue => Sys2Proof.Machine.execResetQueue s
  | .modifySq text => Sys2Proof.Machine.execModifySq text s
  | .pauseQueue => Sys2Proof.Machine.execPauseQueue s
  | .queryQueue => Sys2Proof.Machine.execQueryQueue s
  | .loadSegmentTable buf => Sys2Proof.Machine.execLoadSegmentTable buf s
  | .deleteSegmentTable => Sys2Proof.Machine.execDeleteSegmentTable s
  | .configureSubchannel => Sys2Proof.Machine.execConfigureSubchannel s
  | .querySubchannel => Sys2Proof.Machine.execQuerySubchannel s
  | .listDevices w => Sys2Proof.Machine.execListDevices w s
  | .createDevice => Sys2Proof.Machine.execCreateDevice s
  | .setPathSet buf => Sys2Proof.Machine.execSetPathSet buf s
  | .deletePathSet => Sys2Proof.Machine.execDeletePathSet s
  | .deleteDevice => Sys2Proof.Machine.execDeleteDevice s
  | .setLegacyFifo => Sys2Proof.Machine.execSetLegacyFifo s
  | .maquetteCommit => Sys2Proof.Machine.execMaquetteCommit s
  | .qevtRead size => Sys2Proof.Machine.execQevtRead size s
  | .legFifoRead size => Sys2Proof.Machine.execLegFifoRead size s
  | .dispatch sch th ue => Sys2Proof.Machine.execDispatch sch th ue s
  | .threadRestore th th' ue => Sys2Proof.Machine.execThreadRestore th th' ue s
  | .textLineFetch th tag => Sys2Proof.Machine.execTextLineFetch th tag s
  | .textLineArrival tag st line => Sys2Proof.Machine.execTextLineArrival tag st line s
  | .threadStop th => Sys2Proof.Machine.execThreadStop th s
  | .autoCommit rel => Sys2Proof.Machine.execAutoCommit rel s
  | .opNop turn => Sys2Proof.Machine.execOpNop turn s
  | .opEnd turn => Sys2Proof.Machine.execOpEnd turn s
  | .opMove turn => Sys2Proof.Machine.execOpMove turn s
  | .opAdd turn => Sys2Proof.Machine.execOpAdd turn s
  | .opSub turn => Sys2Proof.Machine.execOpSub turn s
  | .opMul turn => Sys2Proof.Machine.execOpMul turn s
  | .opDiv turn => Sys2Proof.Machine.execOpDiv turn s
  | .opNeg turn => Sys2Proof.Machine.execOpNeg turn s
  | .opAnd turn => Sys2Proof.Machine.execOpAnd turn s
  | .opOr turn => Sys2Proof.Machine.execOpOr turn s
  | .opXor turn => Sys2Proof.Machine.execOpXor turn s
  | .opAndn turn => Sys2Proof.Machine.execOpAndn turn s
  | .opShl turn => Sys2Proof.Machine.execOpShl turn s
  | .opShr turn => Sys2Proof.Machine.execOpShr turn s
  | .opSar turn => Sys2Proof.Machine.execOpSar turn s
  | .opCmp turn => Sys2Proof.Machine.execOpCmp turn s
  | .opTst turn => Sys2Proof.Machine.execOpTst turn s
  | .opTtag turn => Sys2Proof.Machine.execOpTtag turn s
  | .opGtag turn => Sys2Proof.Machine.execOpGtag turn s
  | .opCvt turn => Sys2Proof.Machine.execOpCvt turn s
  | .opOffs turn => Sys2Proof.Machine.execOpOffs turn s
  | .opExts turn => Sys2Proof.Machine.execOpExts turn s
  | .opRdcc turn => Sys2Proof.Machine.execOpRdcc turn s
  | .opStat turn => Sys2Proof.Machine.execOpStat turn s
  | .opBcc turn => Sys2Proof.Machine.execOpBcc turn s
  | .opBds turn => Sys2Proof.Machine.execOpBds turn s
  | .opBal turn => Sys2Proof.Machine.execOpBal turn s
  | .opLdh turn => Sys2Proof.Machine.execOpLdh turn s
  | .opLdhr turn => Sys2Proof.Machine.execOpLdhr turn s
  | .opSth turn => Sys2Proof.Machine.execOpSth turn s
  | .opSthr turn => Sys2Proof.Machine.execOpSthr turn s
  | .opLdg turn => Sys2Proof.Machine.execOpLdg turn s
  | .opStg turn => Sys2Proof.Machine.execOpStg turn s
  | .hostLoadReturn tag st data => Sys2Proof.Machine.execHostLoadReturn tag st data s
  | .opSegaddr turn => Sys2Proof.Machine.execOpSegaddr turn s
  | .opDevh turn => Sys2Proof.Machine.execOpDevh turn s
  | .opRpt turn => Sys2Proof.Machine.execOpRpt turn s
  | .opMovb turn => Sys2Proof.Machine.execOpMovb turn s
  | .opCmpb turn => Sys2Proof.Machine.execOpCmpb turn s
  | .opScnb turn => Sys2Proof.Machine.execOpScnb turn s
  | .opFilb turn => Sys2Proof.Machine.execOpFilb turn s
  | .opTas turn => Sys2Proof.Machine.execOpTas turn s
  | .opLrs turn => Sys2Proof.Machine.execOpLrs turn s
  | .opScs turn => Sys2Proof.Machine.execOpScs turn s
  | .opCommit turn => Sys2Proof.Machine.execOpCommit turn s
  | .opWaith turn => Sys2Proof.Machine.execOpWaith turn s
  | .opWaitg turn => Sys2Proof.Machine.execOpWaitg turn s
  | .opRead turn => Sys2Proof.Machine.execOpRead turn s
  | .opWrite turn => Sys2Proof.Machine.execOpWrite turn s
  | .opControl turn => Sys2Proof.Machine.execOpControl turn s
  | .opSense turn => Sys2Proof.Machine.execOpSense turn s
  | .opNvme turn => Sys2Proof.Machine.execOpNvme turn s
  | .opScsi turn => Sys2Proof.Machine.execOpScsi turn s
  | .opPmem turn => Sys2Proof.Machine.execOpPmem turn s
  | .customerInstruction turn => Sys2Proof.Machine.execCustomerInstruction turn s
  | .exchangeSend sch idx => Sys2Proof.Machine.execExchangeSend sch idx s
  | .exchangeReachedDevice x => Sys2Proof.Machine.execExchangeReachedDevice x s
  | .exchangeEnd x ans ue => Sys2Proof.Machine.execExchangeEnd x ans ue s
  | .abortAnswered x => Sys2Proof.Machine.execAbortAnswered x s
  | .exchangeAbortTimeout x => Sys2Proof.Machine.execExchangeAbortTimeout x s
  | .escalationHardReset x => Sys2Proof.Machine.execEscalationHardReset x s
  | .subchannelTimeout sch => Sys2Proof.Machine.execSubchannelTimeout sch s
  | .timeoutSpan sch => Sys2Proof.Machine.execTimeoutSpan sch s
  | .frameReceive quad fr => Sys2Proof.Machine.execFrameReceive quad fr s
  | .frameMove quad bad segs => Sys2Proof.Machine.execFrameMove quad bad segs s
  | .frameTransmit quad parityBad eccBad => Sys2Proof.Machine.execFrameTransmit quad parityBad eccBad s
  | .segmentAllocate d piece segs => Sys2Proof.Machine.execSegmentAllocate d piece segs s
  | .dmaChannelGrant d => Sys2Proof.Machine.execDmaChannelGrant d s
  | .dmaWriteIssue d piece bad => Sys2Proof.Machine.execDmaWriteIssue d piece bad s
  | .dmaWriteVisible d piece => Sys2Proof.Machine.execDmaWriteVisible d piece s
  | .dmaReadIssue d piece tag seg => Sys2Proof.Machine.execDmaReadIssue d piece tag seg s
  | .dmaReadCompletion tag st data => Sys2Proof.Machine.execDmaReadCompletion tag st data s
  | .fifoWatermarkWrite quad hi4 val => Sys2Proof.Machine.execFifoWatermarkWrite quad hi4 val s
  | .meridianGrant res => Sys2Proof.Machine.execMeridianGrant res s
  | .costOverrun sch => Sys2Proof.Machine.execCostOverrun sch s
  | .freezeDrained => Sys2Proof.Machine.execFreezeDrained s
  | .capacityRetest change => Sys2Proof.Machine.execCapacityRetest change s
  | .deadlineWatchExpiry sch => Sys2Proof.Machine.execDeadlineWatchExpiry sch s
  | .discoveryRunStart quad port ids => Sys2Proof.Machine.execDiscoveryRunStart quad port ids s
  | .discoveryRunEnd quad port found => Sys2Proof.Machine.execDiscoveryRunEnd quad port found s
  | .portLinkUp quad port rate width => Sys2Proof.Machine.execPortLinkUp quad port rate width s
  | .errCorMessage quad port => Sys2Proof.Machine.execErrCorMessage quad port s
  | .errNonfatalMessage quad port => Sys2Proof.Machine.execErrNonfatalMessage quad port s
  | .pathFault quad port kind => Sys2Proof.Machine.execPathFault quad port kind s
  | .controllerFatal quad port => Sys2Proof.Machine.execControllerFatal quad port s
  | .transportFailure x => Sys2Proof.Machine.execTransportFailure x s
  | .ghostDeath g rdy0 pos => Sys2Proof.Machine.execGhostDeath g rdy0 pos s
  | .nvmeAsyncEvent quad port => Sys2Proof.Machine.execNvmeAsyncEvent quad port s
  | .sasBroadcastChange quad port => Sys2Proof.Machine.execSasBroadcastChange quad port s
  | .deviceMemoryRequest quad port req => Sys2Proof.Machine.execDeviceMemoryRequest quad port req s
  | .connectionIdleClose quad phy => Sys2Proof.Machine.execConnectionIdleClose quad phy s
  | .laneFault quad lane code => Sys2Proof.Machine.execLaneFault quad lane code s
  | .presenceAssert quad port => Sys2Proof.Machine.execPresenceAssert quad port s
  | .presenceDebounced quad port readbackOk i2cOk => Sys2Proof.Machine.execPresenceDebounced quad port readbackOk i2cOk s
  | .powerDelayExpiry quad port readbackOk => Sys2Proof.Machine.execPowerDelayExpiry quad port readbackOk s
  | .presenceDeassert quad port => Sys2Proof.Machine.execPresenceDeassert quad port s
  | .pwrenOffDelayExpiry quad port => Sys2Proof.Machine.execPwrenOffDelayExpiry quad port s
  | .nolinkRetry quad port => Sys2Proof.Machine.execNolinkRetry quad port s
  | .sgpioFrame quad readbackOk => Sys2Proof.Machine.execSgpioFrame quad readbackOk s
  | .mgmtPoll quad port resp => Sys2Proof.Machine.execMgmtPoll quad port resp s
  | .qreset quad => Sys2Proof.Machine.execQreset quad s
  | .quadReset quad => Sys2Proof.Machine.execQuadReset quad s
  | .sbretry quad stillFaulty => Sys2Proof.Machine.execSbretry quad stillFaulty s
  | .tallyCheck => Sys2Proof.Machine.execTallyCheck s
  | .tallyAudit line => Sys2Proof.Machine.execTallyAudit line s
  | .tallySnap => Sys2Proof.Machine.execTallySnap s
  | .engineFault cluster engine => Sys2Proof.Machine.execEngineFault cluster engine s
  | .engineHang cluster engine => Sys2Proof.Machine.execEngineHang cluster engine s
  | .clusterFault cluster => Sys2Proof.Machine.execClusterFault cluster s
  | .clusterReset cluster selfTestOk => Sys2Proof.Machine.execClusterReset cluster selfTestOk s
  | .controlCompareError block => Sys2Proof.Machine.execControlCompareError block s
  | .supervisorLockstepMismatch => Sys2Proof.Machine.execSupervisorLockstepMismatch s
  | .plinthLockstepMismatch => Sys2Proof.Machine.execPlinthLockstepMismatch s
  | .crystalLoss => Sys2Proof.Machine.execCrystalLoss s
  | .crystalReturn => Sys2Proof.Machine.execCrystalReturn s
  | .boot a b micros => Sys2Proof.Machine.execBoot a b micros s
  | .almanacWrite => Sys2Proof.Machine.execAlmanacWrite s
  | .extend block => Sys2Proof.Machine.execExtend block s
  | .extendLock => Sys2Proof.Machine.execExtendLock s
  | .quote block => Sys2Proof.Machine.execQuote block s
  | .getNonce block => Sys2Proof.Machine.execGetNonce block s
  | .flashUpdate block image => Sys2Proof.Machine.execFlashUpdate block image s
  | .flashUpdateEnd ok => Sys2Proof.Machine.execFlashUpdateEnd ok s
  | .decodeLoad block body => Sys2Proof.Machine.execDecodeLoad block body s
  | .decodeRetireTimeout => Sys2Proof.Machine.execDecodeRetireTimeout s
  | .generationSwitch => Sys2Proof.Machine.execGenerationSwitch s
  | .plinthBadOp => Sys2Proof.Machine.execPlinthBadOp s
  | .plinthAccessRefused requester write addr => Sys2Proof.Machine.execPlinthAccessRefused requester write addr s
  | .tamperAssert => Sys2Proof.Machine.execTamperAssert s
  | .tamperRelease => Sys2Proof.Machine.execTamperRelease s
  | .mailboxSend ch bit size word => Sys2Proof.Machine.execMailboxSend ch bit size word s
  | .mailboxReceive ch size => Sys2Proof.Machine.execMailboxReceive ch size s
  | .mailboxStatusWrite plinth stat half val => Sys2Proof.Machine.execMailboxStatusWrite plinth stat half val s
  | .ping => Sys2Proof.Machine.execPing s
  | .icAck inst owner => Sys2Proof.Machine.execIcAck inst owner s
  | .icEoi inst => Sys2Proof.Machine.execIcEoi inst s
  | .icPendSet inst idx val => Sys2Proof.Machine.execIcPendSet inst idx val s
  | .icPendClr inst idx val => Sys2Proof.Machine.execIcPendClr inst idx val s
  | .icMaskSet inst idx val => Sys2Proof.Machine.execIcMaskSet inst idx val s
  | .icMaskClr inst idx val => Sys2Proof.Machine.execIcMaskClr inst idx val s
  | .icCntRead inst idx owner => Sys2Proof.Machine.execIcCntRead inst idx owner s
  | .supervisorTimerExpiry n => Sys2Proof.Machine.execSupervisorTimerExpiry n s
  | .watchdogWrite => Sys2Proof.Machine.execWatchdogWrite s
  | .watchdogExpiry => Sys2Proof.Machine.execWatchdogExpiry s
  | .clusterIdle cluster => Sys2Proof.Machine.execClusterIdle cluster s
  | .clusterWake cluster => Sys2Proof.Machine.execClusterWake cluster s
  | .clusterWakeDone cluster => Sys2Proof.Machine.execClusterWakeDone cluster s
  | .maxstateWrite val => Sys2Proof.Machine.execMaxstateWrite val s
  | .vcoreStep up acked => Sys2Proof.Machine.execVcoreStep up acked s
  | .avsRetry acked => Sys2Proof.Machine.execAvsRetry acked s
  | .hostReferenceLoss => Sys2Proof.Machine.execHostReferenceLoss s
  | .portReferenceLoss half => Sys2Proof.Machine.execPortReferenceLoss half s
  | .powerOn => Sys2Proof.Machine.execPowerOn s
  | .perstNWarmReset => Sys2Proof.Machine.execPerstNWarmReset s
  | .perstNDeassert => Sys2Proof.Machine.execPerstNDeassert s
  | .pwrokFall => Sys2Proof.Machine.execPwrokFall s
  | .railOutOfRange f => Sys2Proof.Machine.execRailOutOfRange f s
  | .thermalTrip => Sys2Proof.Machine.execThermalTrip s
  | .jtagInstruction ir => Sys2Proof.Machine.execJtagInstruction ir s
  | .powerStateD0 => Sys2Proof.Machine.execPowerStateD0 s
  | .memorySpaceEnableSet => Sys2Proof.Machine.execMemorySpaceEnableSet s
  | .registerReadClear bar off size allBytes => Sys2Proof.Machine.execRegisterReadClear bar off size allBytes s
  | .correctableLinkError => Sys2Proof.Machine.execCorrectableLinkError s
  | .pmemReadCompletionTimeout x => Sys2Proof.Machine.execPmemReadCompletionTimeout x s
  | .hostReferenceReturn => Sys2Proof.Machine.execHostReferenceReturn s
  | .portReferenceReturn half => Sys2Proof.Machine.execPortReferenceReturn half s
  | .pwrokRise => Sys2Proof.Machine.execPwrokRise s
  | .railReturn rail => Sys2Proof.Machine.execRailReturn rail s
  | .undefinedOpcode th => Sys2Proof.Machine.execUndefinedOpcode th s
  | .privilegedOpcode th => Sys2Proof.Machine.execPrivilegedOpcode th s
  | .testLogicReset => Sys2Proof.Machine.execTestLogicReset s

end Sys2Proof.Machine
end

