-- ==== Sys2Proof/Machine/Tick.lean ====
section
/-! DEFINITION. Sys2Proof/Machine/Tick.lean: what passes on an empty queue. -/

namespace Sys2Proof.Machine

/-- The least time that device time can show passes (R477): with the core domain running 8 of its cycles, after which its copy has 5 ns
more, and takes the master value again at every eighth; with the core stopped a period of the 25 MHz crystal. `phase` counts the 5 ns steps
of the copy since the last crystal cycle. Device time starts at power-on release (R476) (log 2, DESIGN CHOICE). -/
def tick (s : State) : State :=
  if !s.pw.released then s
  else if s.pw.coreLock then { s with time := addNs s.time 5, pw := { s.pw with phase := (s.pw.phase + 1) % 8 } }
  else { s with time := addNs s.time (40 - 5 * s.pw.phase), pw := { s.pw with phase := 0 } }

end Sys2Proof.Machine
end

