-- ==== Sys2Proof/Safety.lean ====
section
/-! DEFINITION. Sys2Proof/Safety.lean: what a safe run of the block is, and the words in which the statements speak: when a
thread issues a bundle, what a slot reads and writes, when a request of the host is served, when a timer has run out. -/

namespace Sys2Proof.Safety

open Sys2Proof.Machine

/-- A command leaves a next state with a property. -/
def Leads (c : Instr) (s : State) (p : State → Prop) : Prop := ∃ t, exec c s = .next t ∧ p t

/-! ## Sirax -/

/-- Thread `th`, in the state `t`, issues next the bundle `b` of the operations `ops`: the text is there (R154), the thread runs
and goes first on its engine (R205), a pair passes its checks (R230 step 3) and the budget is not spent (R191). -/
abbrev Bundle (s : State) (th : Nat) (t : Thread) (b : BitVec 128) (ops : List Op) : Prop :=
  s.th? th = some t ∧ t.gen = s.sx.gen ∧ s.ready th t = some b ∧ s.first th t ∧ decodeBundle b = ops ∧ pairCheck b ops = 0 ∧ t.budget ≠ 0

/-- The commands whose operations act inside their thread, each with the opcode it fires on; `bad` names words found
uncorrectable. -/
def insideRows (th : Nat) (bad : List BadWord) : List (Nat × Instr) :=
  [(0x000, .opNop ⟨th, bad⟩), (0x008, .opMove ⟨th, bad⟩), (0x010, .opAdd ⟨th, bad⟩), (0x011, .opSub ⟨th, bad⟩), (0x012, .opMul ⟨th, bad⟩), (0x013, .opDiv ⟨th, bad⟩),
   (0x014, .opNeg ⟨th, bad⟩), (0x018, .opAnd ⟨th, bad⟩), (0x019, .opOr ⟨th, bad⟩), (0x01A, .opXor ⟨th, bad⟩), (0x01B, .opAndn ⟨th, bad⟩), (0x01C, .opShl ⟨th, bad⟩),
   (0x01D, .opShr ⟨th, bad⟩), (0x01E, .opSar ⟨th, bad⟩), (0x020, .opCmp ⟨th, bad⟩), (0x021, .opTst ⟨th, bad⟩), (0x022, .opTtag ⟨th, bad⟩), (0x023, .opGtag ⟨th, bad⟩),
   (0x024, .opCvt ⟨th, bad⟩), (0x025, .opOffs ⟨th, bad⟩), (0x026, .opExts ⟨th, bad⟩), (0x027, .opRdcc ⟨th, bad⟩), (0x028, .opStat ⟨th, bad⟩), (0x030, .opBcc ⟨th, bad⟩),
   (0x031, .opBds ⟨th, bad⟩), (0x032, .opBal ⟨th, bad⟩), (0x210, .opSegaddr ⟨th, bad⟩), (0x211, .opDevh ⟨th, bad⟩)]

/-- The thread after a bundle that writes `ws` and branches or not: the results wait for their distances (R218), one bundle of
the budget is spent, and IC moves (R216, R253). -/
def issued (t : Thread) (b : BitVec 128) (ws : List (Loc × TWord × Nat)) (j : Option (Option Word)) : Thread :=
  ((t.keep b).settle.write ws).advance j

/-- What the slots of a bundle write, in slot order, and where the bundle branches. -/
def writes (outs : List SlotOut) : List (Loc × TWord × Nat) := outs.flatMap (·.ws)
def branches (outs : List SlotOut) : Option (Option Word) := firstSome (·.jump) outs

/-- The places that a data operation names, its destination first, once every operand check has passed (R201, R209, R234). -/
def slotPlaces (v : Env) (op : Op) : Chk (List Place) :=
  match op.info with
  | none => .error pcIllegal
  | some i =>
    match op.operands i with
    | none => .error pcReserved
    | some srcs =>
      let x := splitDst i srcs
      operandChecks v 8 ((match x.1 with
        | some d => [useDst d]
        | none => []) ++ srcUses v op.opc x.2)

/-- A slot whose static checks (R230 step 4) and operand checks pass, and the places of its operands. -/
abbrev Slot (s : State) (t : Thread) (op : Op) (ps : List Place) : Prop :=
  op.static t.delay t.rptAct none = 0 ∧ slotPlaces (s.env t) op = .ok ps

/-- A slot that writes the word `w` to its destination `p`, and CC if it sets it. -/
def sets (p : Place) (w : TWord) (cc : Option (BitVec 4)) : Chk SlotOut := .ok ⟨p.result w ++ ccResult cc, none, false⟩

/-- A slot that writes CC alone. -/
def setsCC (cc : BitVec 4) : Chk SlotOut := .ok ⟨ccResult (some cc), none, false⟩

/-- A branch slot whose checks pass: its operands. -/
abbrev BranchSlot (t : Thread) (op : Op) (opc : Nat) (srcs : List Src) : Prop :=
  op.opc = opc ∧ op.static t.delay t.rptAct none = 0 ∧ op.info.bind (fun i => op.operands i) = some srcs

/-- The branch operand names the byte offset `a`: an immediate displacement, or a frame word with tag INT (R244). -/
abbrev Target (v : Env) (x : Src) (a : Word) : Prop :=
  (∃ d, x = .imm false d ∧ a = v.ic + 16 * d) ∨ (∃ n, x = .frame n ∧ (v.fr n).tag = tagInt ∧ a = (v.fr n).pay)

/-- A bundle of one operation in long form only, with its operands, after the static checks. -/
abbrev LongOp (s : State) (th : Nat) (t : Thread) (b : BitVec 128) (op : Op) (opc : Nat) (srcs : List Src) : Prop :=
  Bundle s th t b [op] ∧ op.opc = opc ∧ op.static t.delay t.rptAct none = 0
    ∧ op.info.bind (fun i => op.operands i) = some srcs

/-- The thread after a bundle that leaves no result behind. -/
def stepped (t : Thread) : Thread := t.settle.advance none

/-- A load operation whose operands pass their checks: its destination, and the word or slot that it reads. -/
abbrev Loads (s : State) (th : Nat) (t : Thread) (b : BitVec 128) (op : Op) (opc size d : Nat) (m : Src) (g : Seg) (off : Nat) :
    Prop :=
  LongOp s th t b op opc [.frame d, m] ∧ operandChecks (s.env t) size [useDst (.frame d), ⟨m, false, true, false, anyTag⟩]
    = .ok [.frame d, .mem g off]

/-- A store operation whose operands pass their checks: the place it writes and the place of its value. -/
abbrev Stores (s : State) (th : Nat) (t : Thread) (b : BitVec 128) (op : Op) (opc size : Nat) (accepts : BitVec 4 → Bool) (m a : Src)
    (g : Seg) (off : Nat) (p : Place) : Prop :=
  LongOp s th t b op opc [m, a] ∧ operandChecks (s.env t) size [⟨m, false, false, true, anyTag⟩, useSrc a accepts]
    = .ok [.mem g off, p]

/-- The thread with one more buffered store, after the bundle. -/
def stored (t : Thread) (b : BitVec 128) (e : Store) : Thread := { t.keep b with sbuf := t.sbuf ++ [e] }.settle.advance none

/-- A step of a block-repeat run that can go: the run's operands, the places of its units and the values of the units read
(R256). -/
abbrev Steps (s : State) (th : Nat) (t : Thread) (b : BitVec 128) (op : Op) (opc : Nat) (srcs : List Src)
    (r : TWord × TWord × TWord) (ps : List Place) : Prop :=
  LongOp s th t b op opc srcs ∧ t.run (s.env t) op srcs = .ok r ∧ low32 r.2.2.pay ≠ 0
    ∧ chkMap (stepUnits opc) (fun u => unitPlace (s.segsOf t.stb) (if u.1 = 0 then r.1 else r.2.1) (op.modN % 2 = 1) u.2) = .ok ps

/-- A unit that is read now: its word, whose tag passes R201. -/
abbrev UnitRead (s : State) (t : Thread) (k : Nat) (p : Place) (raw : Bool) (w : TWord) : Prop :=
  s.unit t (s.env t) k p raw = .val w ∧ tagCheck anyTag w = .ok ()

/-- A unit as a step takes it: with RAW, its payload with tag BYTES. -/
def unitWord (raw : Bool) (w : TWord) : TWord := if raw then ⟨tagBytes, w.pay⟩ else w

/-- The thread once a step has written a word at a place: in the store buffer, or in its local window. -/
def stepWrote (t : Thread) (p : Place) (raw : Bool) (w : TWord) : Thread :=
  match stepStore p raw w with
  | some e => { t with sbuf := t.sbuf ++ [e] }
  | none => t.write (p.result w)

/-- A run that goes on: its registers move on by one unit, and the step takes one bundle of the budget. -/
def runsOn (t : Thread) (b : BitVec 128) (b0 b1 : TWord) (n : Nat) : Thread :=
  { t.settle with
    loads := t.loads.filter fun l => l.dst < 64, blk0 := b0, blk1 := b1, blk2 := countW (n - 1),
    budget := t.settle.budget - 1, since := t.settle.since + 1, cur := some b, spnOk := false }

/-- A run that ends: its registers are UNSET, and IC moves on. -/
def runEnds (t : Thread) (ws : List (Loc × TWord × Nat)) : Thread :=
  ({ t.settle with
    loads := t.loads.filter fun l => l.dst < 64, blk0 := TWord.unset, blk1 := TWord.unset, blk2 := TWord.unset,
    cur := none }.write ws).advance none

/-- What CMPB and SCNB leave when they end: the units left in the count word, and CC. -/
def runResult (n left : Nat) (cc : BitVec 4) : List (Loc × TWord × Nat) := (.frame n, countW left, 2) :: ccResult (some cc)

/-- The commands that issue a transfer command, each with its opcode. -/
def transferRows (th : Nat) : List (Nat × Instr) :=
  [(0x600, .opRead ⟨th, []⟩), (0x601, .opWrite ⟨th, []⟩), (0x602, .opControl ⟨th, []⟩), (0x603, .opSense ⟨th, []⟩), (0x604, .opNvme ⟨th, []⟩),
   (0x605, .opScsi ⟨th, []⟩), (0x606, .opPmem ⟨th, []⟩)]

/-- The device-table entry that a subchannel's path set names. -/
def devEntry (s : State) (sch : Nat) : Option DevEntry :=
  match AMap.get? s.sub.psets (s.ctxOf sch).pset with
  | some p => AMap.get? s.sub.devs p.dev
  | none => none

/-- The words of the transfer command `op` of a thread, and how many it reads after Fn (R159, R173, R266). -/
def wordCount (s : State) (t : Thread) (op : Op) (ps : Nat) : Nat :=
  wordsAfter (xopOf op.opc) (if op.opc = 0x602 then ((s.env t).fr ps).pay.toNat else 0)
    (((devEntry s t.sch).map (·.seq)).getD false) (!t.group.isEmpty)

/-- How many words after Fn the transfer command names, which must lie within F63 (R265). -/
def namedCount (t : Thread) (v : Env) (op : Op) (ps : Nat) : Nat :=
  wordsNamed (xopOf op.opc) (if op.opc = 0x602 then (v.fr ps).pay.toNat else 0) (!t.group.isEmpty)

def words (s : State) (t : Thread) (op : Op) (hs ps ns : Nat) : XWords := xWords op (s.env t) hs ps ns (wordCount s t op ps)

/-- The outcome of the checks of R161 on the transfer command of a thread, 0 when all pass. -/
def transferCheck (s : State) (t : Thread) (w : XWords) : Nat :=
  w.check (s.ctxOf t.sch).pset (devEntry s t.sch) t.group (s.segsOf t.stb)

/-- The transfer command whose condition holds (a continuation has none) and whose words lie within F0 to F63. -/
abbrev Transfers (s : State) (th : Nat) (t : Thread) (b : BitVec 128) (op : Op) (opc hs ps ns : Nat) : Prop :=
  LongOp s th t b op opc [.frame hs, .frame ps, .frame ns] ∧ ns + namedCount t (s.env t) op ps ≤ 63
    ∧ (t.group = [] → dsCond op.cond t.ds)

/-- The bundle holds the operation `op`, and every slot before it passes its checks. -/
abbrev FirstBad (s : State) (th : Nat) (t : Thread) (b : BitVec 128) (op : Op) : Prop :=
  ∃ good rest, Bundle s th t b (good ++ op :: rest) ∧ ∀ g ∈ good, ∃ o, s.slot t (s.env t) g = .ok o

/-! ## The host -/

/-- The function serves the host: normal mode, Memory Space Enable, D0, IDE as required, and a stream that is not discarded (R38,
R55, R56, R64). -/
abbrev Serves (s : State) : Prop := s.link.ep = .normal ∧ s.link.opens ∧ s.link.ide.discarding = false

/-- The position that a doorbell value names in a ring (R73). -/
def bellPos (size : Nat) (v : Word) : Nat := dbWrap v * size + dbIndex v

/-- The entry at the front of a queue can be presented: it has the kind, and nothing holds it back (R78, R98). -/
abbrev Fronts (s : State) (q kind : Nat) (r : SQ) (e : BitVec 512) : Prop := s.front q kind = some (r, e)

/-! ## Admin commands -/

/-- The admin entry `e` is in hand, holds the opcode, is not locked and keeps the reserved bits (R106, R109). -/
abbrev Admin (s : State) (opc : Nat) (e : BitVec 512) : Prop :=
  s.admEntry = some e ∧ aOpc e = opc ∧ s.admLocked opc = false ∧ aSound e

/-- The admin commands with their opcodes; the operands are what the reads of their buffers return. -/
def adminRows (buf : HostData) (cut : ListRun) : List (Nat × Instr) :=
  [(0x01, .createSq buf), (0x02, .createCq), (0x03, .deleteQueue), (0x04, .resetQueue), (0x05, .modifySq buf), (0x06, .pauseQueue),
   (0x07, .queryQueue), (0x10, .loadSegmentTable buf), (0x11, .deleteSegmentTable), (0x12, .configureSubchannel),
   (0x13, .querySubchannel), (0x20, .listDevices cut), (0x21, .createDevice), (0x22, .setPathSet buf), (0x23, .deletePathSet),
   (0x24, .deleteDevice), (0x30, .setLegacyFifo)]

/-- The timers that Obulo arms when it starts, with the free periods of those that it uses (log 54). -/
def startTimers (s : State) : AMap Time :=
  (List.range 64).filterMap fun n => (Config.supTimer s.fresh n).map fun d => (n, addNs s.time d)

/-! ## Every state that a run can reach -/

/-- What every step keeps: the memories are in their canonical form, and every bank of like things has its size (R12, R13, R302,
R318, R394, R453). -/
structure Inv (s : State) : Prop where
  scratch : AMap.wf s.sx.gs TWord.unset
  contexts : AMap.wf s.sub.ctx Ctx.zero
  quads : s.dev.quads.length = 32
  fifos : s.dma.fifos.length = 32
  clusters : s.pw.clusters.length = 16
  lines : s.tally.lines.length = 4
  boxes : s.mail.boxes.length = 38
  senders : s.mail.senders.length = 38

/-- The two always-on rails, whose loss is the end of power (R520). -/
def alwaysOnEvent (c : Instr) : Prop := ∃ r a, Rail.alwaysOn r ∧ (c = .railOutOfRange ⟨r, a⟩ ∨ c = .railReturn r)

end Sys2Proof.Safety
end

