-- ==== Sys2Proof/Certificates/Slice0/Obligations.lean ====
section
/-! DEFINITION. Sys2Proof/Certificates/Slice0/Obligations.lean: the statements for the provers. -/

open Sys2Proof Sys2Proof.Machine Sys2Proof.Safety


/-! ## The host link and the queues (02, 03) -/

/-- R69, R83, R85, R88, R90: pushes and tail doorbells. A whole push with room and the right phase is captured and announced, with
a full capture buffer it is left to the ring; a torn push and an invalid doorbell put their queue into ERROR at T; a push to a
queue that takes none, and a doorbell to a queue without doorbells, count.

R100, R101: a valid head doorbell moves the head and drains the held list; an invalid one puts the queue into ERROR.

R40: the 64 bytes of a queue's push area make a whole push, its last 8 bytes a doorbell write; a write of both areas is the push and
then the doorbell write. -/
def Obligations.PushesAndDoorbells : Prop :=
  (∀ (s : State) (q : Nat), Serves s →
     (∀ r e, s.pushQueue q = some r → 1 ≤ r.tailRoom → entryPhase e = ringPhase r.size r.t →
       (r.capture.length < 4 → exec (.wholePush q e) s
         = .next ((s.setSq q { r with
           capture := AMap.put r.capture r.t e, t := ringNext r.size r.t, bell := s.time }).pump q))
       ∧ (4 ≤ r.capture.length → exec (.wholePush q e) s = .next (((s.setSq q { r with
           t := ringNext r.size r.t, bell := s.time }).onQ fun x => { x with captureFallback := inc16 x.captureFallback }).pump q)))
     ∧ (∀ r e, s.pushQueue q = some r → (r.tailRoom = 0 → exec (.wholePush q e) s = .next (s.sqFails q 5 r.t))
       ∧ (1 ≤ r.tailRoom → entryPhase e ≠ ringPhase r.size r.t → exec (.wholePush q e) s = .next (s.sqFails q 6 r.t)))
     ∧ (∀ r be, s.pushQueue q = some r → be ≠ 0 → be ≠ BitVec.allOnes 64 →
         exec (.tornPush q be) s = .next (s.sqFails q 7 r.t))
     ∧ (∀ e, s.pushQueue q = none → exec (.wholePush q e) s = .next { s with q := { s.q with
         pushDiscard := inc16 s.q.pushDiscard } })
     ∧ (∀ r v, s.cq? q = none → s.bellQueue q = some r → dbReserved v = 0 → dbIndex v < r.size →
         ringDist r.size r.t (bellPos r.size v) ≤ r.tailRoom → q ≠ 0 →
         exec (.sqDoorbell q (BitVec.allOnes 8) v) s = .next ((s.setSq q { r with
           t := bellPos r.size v, past := r.past - ringDist r.size r.t (bellPos r.size v), ahead := true, bell := s.time }).pump q))
     ∧ (∀ r v, s.cq? q = none → s.bellQueue q = some r →
         (dbReserved v ≠ 0 ∨ r.size ≤ dbIndex v ∨ r.tailRoom < ringDist r.size r.t (bellPos r.size v)) →
         exec (.sqDoorbell q (BitVec.allOnes 8) v) s = .next (s.sqFails q 4 r.t))
     ∧ (∀ v, s.cq? q = none → s.bellQueue q = none → exec (.sqDoorbell q (BitVec.allOnes 8) v) s
         = .next { s with q := { s.q with dbDiscard := inc16 s.q.dbDiscard } }))
  ∧ (∀ (s u : State) (q : Nat) (r : CQ) (v : Word), Serves s → s.sq? q = none → s.cq? q = some r → r.st ≠ .error →
       (dbReserved v = 0 → dbIndex v < r.size → ringDist r.size r.head (bellPos r.size v) ≤ ringDist r.size r.head r.tail →
         u = ((s.setCq q { r with head := bellPos r.size v }).drainAll q).admSettle →
         exec (.cqDoorbell q (BitVec.allOnes 8) v) s
           = .next ((u.q.sqs.filter fun e => e.2.cqid = q).foldl (fun t e => t.pump e.1) u))
       ∧ ((dbReserved v ≠ 0 ∨ r.size ≤ dbIndex v ∨ ringDist r.size r.head r.tail < ringDist r.size r.head (bellPos r.size v)) →
         exec (.cqDoorbell q (BitVec.allOnes 8) v) s = .next (s.cqError q)))
  ∧ (∀ (s : State) (q : Nat) (d : List Byte), (d.length = 64 → s.bar2Parts ⟨128 * q, d, List.replicate 64 true⟩
         = [.wholePush q (BitVec.ofNat 512 (ofLe d))])
       ∧ (d.length = 8 → s.bar2Parts ⟨128 * q + 120, d, List.replicate 8 true⟩
         = [if (s.cq? q).isSome then .cqDoorbell q (BitVec.allOnes 8) (BitVec.ofNat 64 (ofLe d))
            else .sqDoorbell q (BitVec.allOnes 8) (BitVec.ofNat 64 (ofLe d))])
       ∧ (d.length = 128 → s.bar2Parts ⟨128 * q, d, List.replicate 128 true⟩
         = [.wholePush q (BitVec.ofNat 512 (ofLe (d.take 64))),
            if (s.cq? q).isSome then .cqDoorbell q (BitVec.allOnes 8) (BitVec.ofNat 64 (ofLe (d.drop 120)))
            else .sqDoorbell q (BitVec.allOnes 8) (BitVec.ofNat 64 (ofLe (d.drop 120)))]))

/-- R68: a ring is full by its indices and wrap bits alone.

R85: of a submission ring the same says that T may move no further; a move of T within its room adds to what the ring holds, which
never becomes more than the ring has entries. -/
def Obligations.RingFull : Prop :=
  (∀ (r : CQ), r.head < 2 * r.size → r.tail < 2 * r.size →
    (r.room = false ↔ r.head % r.size = r.tail % r.size ∧ r.head / r.size ≠ r.tail / r.size)
    ∧ (ringDist r.size r.head r.tail = 0 ↔ r.head % r.size = r.tail % r.size ∧ r.head / r.size = r.tail / r.size))
  ∧ ∀ (r : SQ), r.c < 2 * r.size → r.t < 2 * r.size →
    (r.tailRoom = 0 ↔ r.c % r.size = r.t % r.size ∧ r.c / r.size ≠ r.t / r.size)
    ∧ (ringDist r.size r.c r.t ≤ r.size → ∀ p, p < 2 * r.size → ringDist r.size r.t p ≤ r.tailRoom →
      ringDist r.size r.c p = ringDist r.size r.c r.t + ringDist r.size r.t p ∧ ringDist r.size r.c p ≤ r.size
      ∧ { r with t := p }.tailRoom = r.tailRoom - ringDist r.size r.t p)

/-- R14, R86: a read of ring memory, the block read or the read again of a stale slot, that ends with Unsupported Request, Completer
Abort, a completion timeout or poison, or whose data Armature brings uncorrectable, puts the queue into ERROR with cause
HOST-READ-ERROR (8), latched at C. -/
def Obligations.RingReadError : Prop :=
  ∀ (s : State) (q : Nat) (r : SQ) (st : CplStatus) (p : State → Prop), s.sq? q = some r → r.st ≠ .error →
    p = (fun t => ∃ u, t.sq? q = some u ∧ u.st = .error ∧ u.cause = 8 ∧ u.latched = r.c ∧ u.c = r.c ∧ u.taken = r.taken) →
    (∀ tag pos n slots b, AMap.get? s.link.reads tag = some (.ring q pos n) → tag ∈ r.reading → r.block = some b →
      st ≠ .ok ∨ slots.ecc = .bad →
      s.link.drops st = false → Leads (.ringFetchComplete tag st slots) s p ∧ (st = .timeout → Leads (.hostCompletionTimeout tag) s p))
    ∧ (∀ tag slot, st ≠ .ok ∨ slot.ecc = .bad → r.tries ≠ 0 → reached s.time r.staleDue → s.link.mayIssue → s.mayTake q r → s.tagFree tag →
      s.turn 2 (s.rereadKey q r) 3 0 r.cls (.reread q) → s.wins 1 (s.rereadKey q r) 3 0 →
      Leads (.phaseStaleReread q tag ⟨st, slot⟩) s p)

/-- R33, R81, R82, R84: the read of the aligned block at C in requests of at most 512 bytes and Max Read Request Size, and what its
slots do once the whole block is there: a slot of the right phase is taken, the first one of the wrong phase before T is read
again 250 ns later, and the 64th read without a match is an error. (Logs 64 and 65: the whole block, and the one slot of the
read again, are the model's choices.) -/
def Obligations.RingReads : Prop :=
  (∀ (s : State) (q tag n : Nat) (r : SQ) (b : Block), s.sq? q = some r → s.wantsFetch q r → s.granted (.ring q) →
    s.link.mayIssue → s.tagFree tag → s.poolFree 2 r.cls →
    b = r.block.getD ⟨r.c % r.size / 8 * 8, min 8 (r.size - r.c % r.size / 8 * 8), 0, []⟩ →
    n = min (b.n - b.asked) (min 512 s.link.mrrs / 64) →
    exec (.ringFetch q tag) s = .next (((((s.withdraw (.ring q)).setSq q { r with
      reading := r.reading ++ [tag], block := some { b with asked := b.asked + n } }).takeRead tag
        (.ring q (b.start + b.asked) n)).hostRead tag (r.base + BitVec.ofNat 64 (64 * (b.start + b.asked))) r.pasid
          (64 * n)).wantRing q))
  ∧ (∀ (s : State) (q tag pos n k : Nat) (r : SQ) (slots : List (BitVec 512)), AMap.get? s.link.reads tag = some (.ring q pos n) →
    s.sq? q = some r → r.reading = [tag] → r.block = some ⟨pos, n, k, []⟩ → slots.length = n → n ≠ 0 → pos ≤ r.c % r.size →
    s.link.noIssue.contains tag = false → s.link.ide.discarding = false →
    exec (.ringFetchComplete tag .ok ⟨slots, .sound⟩) s = .next ((((s.dropRead tag).setSq q { r with reading := [], block := none }).takeLoop
      (n + 5) q (slots.drop (r.c % r.size - pos))).wantRing q))
  ∧ (∀ (s : State) (q tag pos n : Nat) (r : SQ) (b : Block) (slots : List (BitVec 512)),
    AMap.get? s.link.reads tag = some (.ring q pos n) → s.sq? q = some r → tag ∈ r.reading → r.block = some b →
    slots.length < n → slots ≠ [] → (b.fill pos slots).got.length ≠ b.n → s.link.noIssue.contains tag = false →
    s.link.ide.discarding = false →
    exec (.ringFetchComplete tag .ok ⟨slots, .sound⟩) s = .next ((s.onLink fun l => { l with
      reads := AMap.put l.reads tag (.ring q (pos + slots.length) (n - slots.length)) }).setSq q { r with
        block := some (b.fill pos slots) }))
  ∧ (∀ (s u : State) (q tag : Nat) (r : SQ) (slot : BitVec 512), s.sq? q = some r → r.pasid = none → r.tries ≠ 0 →
    reached s.time r.staleDue → s.link.mayIssue → s.mayTake q r → s.tagFree tag → s.link.noIssue.contains tag = false →
    s.turn 2 (s.rereadKey q r) 3 0 r.cls (.reread q) → s.wins 1 (s.rereadKey q r) 3 0 →
    u = (((s.unwait 2 (.reread q)).takeRead tag (.ring q (r.c % r.size) 1)).hostRead tag
      (r.base + BitVec.ofNat 64 (64 * (r.c % r.size))) none 64).dropRead tag →
    exec (.phaseStaleReread q tag ⟨.ok, ⟨slot, .sound⟩⟩) s = .next ((u.takeLoop 6 q [slot]).wantRing q))
  ∧ (∀ (s : State) (q : Nat) (r : SQ) (e : BitVec 512) (l : List (BitVec 512)) (n : Nat), s.sq? q = some r → s.mayTake q r →
    AMap.get? r.capture r.c = none → r.remain ≠ 0 →
    (entryPhase e = ringPhase r.size r.c → s.takeLoop (n + 1) q (e :: l)
      = if (s.takeEntry q r e).2 then (s.takeEntry q r e).1.takeLoop n q l else (s.takeEntry q r e).1)
    ∧ (entryPhase e ≠ ringPhase r.size r.c → r.tries < 63 → s.takeLoop (n + 1) q (e :: l)
      = s.setSq q { r with tries := r.tries + 1, staleDue := addNs s.time 250 })
    ∧ (entryPhase e ≠ ringPhase r.size r.c → 63 ≤ r.tries → s.takeLoop (n + 1) q (e :: l) = s.sqError q 3 r.c))

/-- R93, R95: a submission queue that enters ERROR stores its cause and latches its position, its indices and what it has taken stay, and
QM_QEVT gets one event naming it; the other submission queues, the subchannels, the threads and the devices stay as they are. R101: a
completion queue for which nothing waits goes the same way, with cause 4, latched at its last valid head; no submission queue is touched.
(The ring request that leaves Meridian and the message on vector 3 are not among what the frame keeps.) -/
def Obligations.QueueErrors : Prop :=
  (∀ (s : State) (q : Nat) (r : CQ), s.cq? q = some r → r.st ≠ .error → s.q.qevt.length < 256 → (∀ e ∈ s.q.waiting, e.1 ≠ q) →
    (∃ u, (s.cqError q).cq? q = some u ∧ u.st = .error ∧ u.cause = 4 ∧ u.latched = r.head ∧ u.head = r.head ∧ u.tail = r.tail
      ∧ u.held = r.held ∧ u.base = r.base)
    ∧ (s.cqError q).q.qevt = s.q.qevt ++ [⟨q, true, 4, r.head % r.size, decide (r.head / r.size % 2 = 1)⟩]
    ∧ (s.cqError q).q.sqs = s.q.sqs ∧ (s.cqError q).sub = s.sub ∧ (s.cqError q).sx = s.sx ∧ (s.cqError q).dev = s.dev)
  ∧ ∀ (s : State) (q cause pos : Nat) (r : SQ), s.sq? q = some r → r.st ≠ .error → s.q.qevt.length < 256 →
    (∃ u, (s.sqError q cause pos).sq? q = some u ∧ u.st = .error ∧ u.cause = cause ∧ u.latched = pos ∧ u.t = r.t ∧ u.c = r.c
      ∧ u.taken = r.taken ∧ u.base = r.base)
    ∧ (s.sqError q cause pos).q.qevt = s.q.qevt ++ [⟨q, false, cause, pos % r.size, decide (pos / r.size % 2 = 1)⟩]
    ∧ (∀ k, k ≠ q → (s.sqError q cause pos).sq? k = s.sq? k)
    ∧ (s.sqError q cause pos).sub = s.sub ∧ (s.sqError q cause pos).sx = s.sx ∧ (s.sqError q cause pos).dev = s.dev

/-- R38, R39, R42, R104, R502, R503: register access. An aligned write of a writable register stores its field; one of another
size is discarded and counts; a read of an error counter returns it and clears the halves it reaches.

R95, R117: a read of 8 bytes of QM_QEVT or QM_LEG_FIFO returns and removes one entry; an empty one returns zeros or NOTVALID.

R504: a read through the supervisor's private map returns the same and clears nothing. (That a word that fails in the legacy FIFO is
removed all the same is the model's choice, log 71; how a private map is addressed is too, log 57.) -/
def Obligations.RegisterAccess : Prop :=
  (∀ (s : State), Serves s →
     (∀ v : Word, exec (.registerWrite 0 0x18 8 true v) s
       = .next { s with link := { s.link with almPage := v.extractLsb' 0 3 } })
     ∧ (∀ v : Word, s.q.admEnable = false → exec (.registerWrite 0 0x00400008 8 true v) s
       = .next { s with q := { s.q with admSqBase := v &&& 0xFFFFFFFFFFFFF000#64 } })
     ∧ (∀ bar off size v, bar = 0 ∨ bar = 4 → (size ≠ 4 ∧ size ≠ 8) → exec (.registerWrite bar off size true v) s
       = .next { s with link := { s.link with urSent := inc16 s.link.urSent, aer := { s.link.aer with ur := true } } })
     ∧ (exec (.registerReadClear 0 0x10 8 true) s = .next ({ s with link := { s.link with
         urSent := 0, cplErr := 0, cplTimeout := 0, poisonRx := 0 } }.emit (.readData 0 0x10 8
           (BitVec.ofNat 64 (pack4 s.link.urSent s.link.cplErr s.link.cplTimeout s.link.poisonRx)))))
     ∧ (exec (.registerReadClear 0 0x10 4 true) s = .next ({ s with link := { s.link with urSent := 0, cplErr := 0 } }.emit
         (.readData 0 0x10 4 (BitVec.ofNat 64 (pack4 s.link.urSent s.link.cplErr s.link.cplTimeout s.link.poisonRx % 2 ^ 32)))))
     ∧ (exec (.registerReadClear 0 0x02400000 8 true) s
       = .next (s.emit (.readData 0 0x02400000 8 (BitVec.ofNat 64 s.time.toNat)))))
  ∧ (∀ (s : State), s.pw.supUp = true →
       exec (.registerReadClear 6 0x10 8 true) s = .next (s.emit (.readData 6 0x10 8
           (BitVec.ofNat 64 (pack4 s.link.urSent s.link.cplErr s.link.cplTimeout s.link.poisonRx))))
       ∧ (∀ e rest, s.q.qevt = e :: rest → exec (.registerReadClear 6 0x00400020 8 true) s
           = .next (s.emit (.readData 6 0x00400020 8 (e.word s.q.qevtLost)))))
  ∧ (∀ (s : State), Serves s →
       (s.q.qevt = [] → exec (.qevtRead 8) s = .next (s.emit (.readData 0 0x00400020 8 0)))
       ∧ (∀ e rest, s.q.qevt = e :: rest → exec (.qevtRead 8) s
           = .next ({ s with q := { s.q with qevt := rest, qevtLost := false } }.emit
             (.readData 0 0x00400020 8 (e.word s.q.qevtLost))))
       ∧ (s.q.leg = [] → ∀ ecc, exec (.legFifoRead ⟨8, ecc⟩) s = .next (s.emit (.readData 0 0x00400040 8 0x8000000000000000#64)))
       ∧ (∀ e, s.q.leg = [e] → e.cls < 8 → (∀ c ∈ s.q.cqs, c.2.legacy = false) → (exec (.legFifoRead ⟨8, .sound⟩) s
           = .next ({ s with q := { s.q with leg := [] } }.emit (.readData 0 0x00400040 8 e.word)))
         ∧ exec (.legFifoRead ⟨8, .bad⟩) s = .next ((s.memError 6 0 0 e.sch).legTake)))

/-- R32, R50, R54, R64, R65: the enables of the function move their bits and raise interrupt 17; setting Bus Master Enable takes the host
read bound from the tag enables; a poisoned TLP and a correctable error are counted or logged; unmasking a pending vector sends
it, once HOST-WRITE is its own; a change of rate or width re-tests the schedule; a timed-out read without an owner is dropped and counted.
(The clause on Bus Master Enable takes the tag enables, PASID Enable and Max Payload Size from an operand: log 13, PRESUMED.) -/
def Obligations.FunctionControls : Prop :=
  ∀ (s : State), s.link.ep ≠ .held →
    (s.link.ide.discarding = false → exec .poisonedTlpReceived s = .next { s with link := { s.link with
      poisonRx := inc16 s.link.poisonRx, aer := { s.link.aer with poisoned := true } } })
    ∧ (exec .correctableLinkError s = .next { s with link := { s.link with aer := { s.link.aer with correctable := true } } })
    ∧ (s.link.bme = false → ∀ c, Leads (.busMasterEnableSet c) s fun t => t.link.bme = true ∧ t.link.rdLimit
        = (if c.tag14 then 8192 else if c.tag10 then 768 else 256) ∧ t.link.pasidEn = c.pasid ∧ t.link.mps = max 128 c.mps)
    ∧ (s.link.bme = true → exec .busMasterEnableCleared s
        = .next ({ s with link := { s.link with bme := false } }.irq 17))
    ∧ (s.link.mse = false → exec .memorySpaceEnableSet s = .next ({ s with link := { s.link with mse := true } }.irq 17))
    ∧ (s.link.mse = true → exec .memorySpaceEnableCleared s
        = .next ({ s with link := { s.link with mse := false } }.irq 17))
    ∧ (s.link.d3 = true → Leads .powerStateD0 s fun t => t.link.d3 = false)
    ∧ (∀ v (u : State), s.link.pba = [v] → v ≠ 6 → v ≠ 7 → v < 2048 → s.link.mayIssue → s.link.msixEn → s.link.fmask = false →
        s.link.ep ≠ .recovery → s.link.ide.discarding = false → s.link.mse → s.link.d3 = false →
        u = { s with link := { s.link with vecs := AMap.put s.link.vecs v { s.link.vec v with masked := false } } } →
        (u.winsAs 2 (u.vecKey v) 3 0 (.msix v) → exec (.msixUnmask (some v)) s = .next (u.sendMsix v))
        ∧ (u.winsAs 2 (u.vecKey v) 3 0 (.msix v) = false →
          exec (.msixUnmask (some v)) s = .next (u.request 2 (u.vecKey v) 3 0 (.msix v))))
    ∧ (∀ rate width flit, s.pw.hrefOk → 3 ≤ rate → rate ≤ 6 → width ∈ [1, 2, 4, 8, 16] → (s.link.rate ≠ rate ∨ s.link.width ≠ width) →
        Leads (.hostLinkRateChange rate width flit) s fun t => t.link.rate = rate ∧ t.link.width = width ∧ t.link.linkUp = true
          ∧ 1 ∈ t.md.retests ∧ 2 ∈ t.md.retests)
    ∧ (∀ tag q pos n r, AMap.get? s.link.reads tag = some (.ring q pos n) → s.sq? q = some r → tag ∉ r.reading →
        s.link.noIssue.contains tag = false → exec (.hostCompletionTimeout tag) s = .next ((s.dropRead tag).countCpl .timeout))

/-! ## Entries, subchannels and completions (03, 04) -/

/-- R77, R126, R127: what a presented START, RESUME, HALT or CLEAR does in each state of its subchannel, and its rejects: NOT-BOUND (1),
BUSY (2), DISABLED (3). A NOP completes on the paired queue (R80). -/
def Obligations.PresentedEntries : Prop :=
  ∀ (s : State) (q : Nat) (r : SQ) (e : BitVec 512) (c : Ctx), c = s.ctxOf (entrySch e) →
    (Fronts s q 0 r e → exec (.nopEntry q) s
      = .next (((s.shift q r).postComp r.cqid ⟨5, 0, entryCid e, 0, q, 0, 0, s.time, r.cls⟩).pump q))
    ∧ (Fronts s q 1 r e →
      (c.bound q → c.state = .idle → exec (.start q .sound) s = .next ((s.startAccepted q r e).pump q))
      ∧ (c.bound q = false → exec (.start q .sound) s = .next (((s.shift q r).rejectEntry q r e 1).pump q))
      ∧ (c.bound q → c.state = .disabled → exec (.start q .sound) s = .next (((s.shift q r).rejectEntry q r e 3).pump q))
      ∧ (c.bound q → c.state ≠ .disabled → c.state ≠ .idle →
        exec (.start q .sound) s = .next ((((s.shift q r).waited 0).rejectEntry q r e 2).pump q)))
    ∧ (Fronts s q 2 r e → c.bound q →
      (c.state = .suspended → exec (.resume q) s = .next ((((s.shift q r).modCtx (entrySch e) fun x =>
        { x.resumeTimer s.time with state := .waiting }).requeue (entrySch e)).pump q))
      ∧ (c.state = .startPending ∨ c.state = .active ∨ c.state = .waiting → exec (.resume q) s = .next ((((s.shift q r).modCtx (entrySch e) fun x =>
        { x with resreq := true }).progress (entrySch e)).pump q))
      ∧ (c.state = .idle ∨ c.state = .statusPending ∨ c.state = .haltPending ∨ c.state = .clearPending →
        exec (.resume q) s = .next (((s.shift q r).rejectEntry q r e 2).pump q))
      ∧ (c.state = .disabled → exec (.resume q) s = .next (((s.shift q r).rejectEntry q r e 3).pump q)))
    ∧ (Fronts s q 2 r e → c.bound q = false → exec (.resume q) s = .next (((s.shift q r).rejectEntry q r e 1).pump q))
    ∧ (Fronts s q 3 r e → c.samePasid r →
      (c.state = .startPending ∨ c.state = .suspended → exec (.halt q) s = .next ((((s.shift q r).modCtx (entrySch e) fun x =>
        { x with haltreq := true }).endAtOnce (entrySch e)).pump q))
      ∧ (c.state = .active ∨ c.state = .waiting → exec (.halt q) s = .next (((((s.shift q r).modCtx (entrySch e) fun x =>
        { x with haltreq := true, state := .haltPending }).dropStores (entrySch e)).undispatch (entrySch e)).pump q))
      ∧ (c.state = .idle ∨ c.state = .statusPending ∨ c.state = .haltPending ∨ c.state = .clearPending →
        exec (.halt q) s = .next (((s.shift q r).rejectEntry q r e 2).pump q))
      ∧ (c.state = .disabled → exec (.halt q) s = .next (((s.shift q r).rejectEntry q r e 3).pump q)))
    ∧ (Fronts s q 4 r e → c.samePasid r →
      (c.state = .startPending ∨ c.state = .suspended → exec (.clear q) s = .next ((((s.shift q r).modCtx (entrySch e) fun x =>
        { x.wipe with clrreq := true }).endAtOnce (entrySch e)).pump q))
      ∧ (c.state = .active ∨ c.state = .waiting ∨ c.state = .haltPending →
        exec (.clear q) s = .next (((if (s.shift q r).hasThread (entrySch e) then s.shift q r
          else (s.shift q r).modCtx (entrySch e) Ctx.wipe).cut (entrySch e)).pump q))
      ∧ (c.state = .idle ∨ c.state = .statusPending ∨ c.state = .clearPending →
        exec (.clear q) s = .next (((s.shift q r).rejectEntry q r e 2).pump q))
      ∧ (c.state = .disabled → exec (.clear q) s = .next (((s.shift q r).rejectEntry q r e 3).pump q)))
    ∧ (c.samePasid r = false →
        (Fronts s q 3 r e → exec (.halt q) s = .next (((s.shift q r).rejectEntry q r e 1).pump q))
        ∧ (Fronts s q 4 r e → exec (.clear q) s = .next (((s.shift q r).rejectEntry q r e 1).pump q)))

/-- R76, R126, R128, R143: an accepted START, in one step: START-PENDING with GEN one higher, the entry's PROG, PARM and CID, the budget
and class of its queue, every request bit 0, a dispatch request, one start in the Tally, and no other context changed. -/
def Obligations.StartAccepted : Prop :=
  ∀ (s : State) (q sch : Nat) (r : SQ) (e : BitVec 512) (t : State), sch = entrySch e → t = s.startAccepted q r e →
    s.tally.lines.length = 4 →
    (t.ctxOf sch).state = .startPending ∧ (t.ctxOf sch).gen = (s.ctxOf sch).gen + 1 ∧ (t.ctxOf sch).cid = entryCid e
    ∧ (t.ctxOf sch).cls = r.cls ∧ (t.ctxOf sch).ic = entryProg e ∧ (t.ctxOf sch).dreq = true ∧ (t.ctxOf sch).clrreq = false
    ∧ (t.ctxOf sch).f = [⟨tagCount, entryParm0 e⟩, ⟨tagInt, entryParm1 e⟩, ⟨tagInt, entryParm2 e⟩]
        ++ List.replicate 13 TWord.unset
    ∧ (t.ctxOf sch).budget = BitVec.ofNat 32 (s.md.sched.budget r.cls) ∧ (t.ctxOf sch).xout = 0 ∧ (t.ctxOf sch).cstat = 0
    ∧ (t.ctxOf sch).sqid = (s.ctxOf sch).sqid ∧ (t.ctxOf sch).pset = (s.ctxOf sch).pset
    ∧ (entryTmo e ≠ 0 → (t.ctxOf sch).tmoCur = entryTmo e) ∧ (entryTmo e = 0 → (t.ctxOf sch).tmoCur = (s.ctxOf sch).tmoDef)
    ∧ t.md.reqs.any (fun x => x.who = .dispatch sch)
    ∧ (t.tally.lines.getD 0 Line4.zero).issued
        = (s.tally.lines.getD 0 Line4.zero).issued + 1
    ∧ (∀ k, k ≠ sch → t.ctxOf k = s.ctxOf k) ∧ t.out = s.out ∧ t.link = s.link ∧ t.dev = s.dev ∧ t.sx = s.sx

/-- R78, R103, R133, R134, R188, R474: the fence opens when no program of the queue runs; a final status becomes pending when the program
has ended, after the stores that END held, which wait for HOST-WRITE; the aggregation timer announces what is counted. -/
def Obligations.FenceFinalAndAggregation : Prop :=
  (∀ (s : State) (q : Nat) (r : SQ) (e : BitVec 512) (l : List (BitVec 512)), s.sq? q = some r → r.taken = e :: l →
    entryFence e → (∀ p ∈ s.sub.prog, p.2.sq ≠ q) →
    exec (.fenceRelease q) s = .next (s.setSq q { r with fenceOk := true }))
  ∧ (∀ (s u v : State) (rel : Release), (s.endStores rel.of_ = true → s.canRelease rel.of_ (s.progOf rel.of_).stores) →
    v = (if s.endStores rel.of_ then ((s.releaseFaults rel.of_ (s.progOf rel.of_).stores rel).releaseStores rel.of_
      (s.progOf rel.of_).stores).modProg rel.of_ fun p => { p with stores := [] } else s) →
    u = (if (v.progOf rel.of_).ending then v.progress rel.of_ else v) → u.finalReady rel.of_ →
    exec (.finalStatusPending rel) s = .next (u.makeFinal rel.of_))
  ∧ (∀ (s : State) (rel : Release), s.endStores rel.of_ → s.canRelease rel.of_ (s.progOf rel.of_).stores = false →
    exec (.finalStatusPending rel) s = .next (s.storeWait rel.of_))
  ∧ (∀ (s : State) (q : Nat) (r : CQ) (due : Time), s.cq? q = some r → r.aggDue = some due → r.ien → s.aggTimer q due →
    exec (.aggregationTimerExpiry q) s = .next (((s.late due).setCq q { r with aggDue := none }).signal r.vector))
  ∧ (∀ (s : State) (sch : Nat), (s.ctxOf sch).state = .statusPending →
    ((s.ctxOf sch).disend = false → ((s.finalWritten sch).ctxOf sch).state = .idle)
    ∧ ((s.ctxOf sch).disend → (s.ctxOf sch).gen ≠ 0 → ((s.finalWritten sch).ctxOf sch).state = .disabled
      ∧ ((s.finalWritten sch).ctxOf sch).sqv = false ∧ ((s.finalWritten sch).ctxOf sch).stv = false))

/-- R70, R79, R97, R98, R99, R325: a completion is written at the tail of its ring while nothing is held, there is room and HOST-WRITE is
its own; else it joins the held list; while the link can carry no write, or HOST-WRITE is another's, it waits.

R99, R100: a drain goes on until the held list is empty or the ring is full, or what is left has asked for HOST-WRITE. -/
def Obligations.CompletionsAndHeldLists : Prop :=
  (∀ (s : State) (q : Nat) (r : CQ) (c : Comp), s.cq? q = some r → r.toLegacy s.q.legOn = false → (∀ e ∈ s.q.waiting, e.1 ≠ q) →
     (s.link.mayIssue → s.winsAs 2 (s.heldKey (.comp c)) 3 c.sch (.comp q) → r.st = .active → r.held = [] → r.room → r.pasid = none →
       r.ien = false →
       (s.postComp q c).out = s.out ++ [.cqe q (r.tail % r.size) (r.base + BitVec.ofNat 64 (32 * (r.tail % r.size))) none
         (cqeBits c (s.sqhd c.sqid) (ringPhase r.size r.tail))]
       ∧ ∃ u, (s.postComp q c).cq? q = some u ∧ u.tail = ringNext r.size r.tail ∧ u.held = [] ∧ u.unann = r.unann + 1)
     ∧ ((r.st ≠ .active ∨ r.held ≠ [] ∨ r.room = false) → s.postComp q c = s.hold q r (.comp c))
     ∧ (s.link.mayIssue = false ∨ s.winsAs 2 (s.heldKey (.comp c)) 3 c.sch (.comp q) = false → r.st = .active → r.held = [] → r.room →
       (s.postComp q c).q = { s.q with waiting := s.q.waiting ++ [(q, .comp c)] } ∧ (s.postComp q c).out = s.out
         ∧ (s.postComp q c).md.reqs.any (fun x => x.who = .comp q)))
  ∧ (∀ (s : State) (q : Nat) (r : CQ), s.cq? q = some r → r.st = .active → r.toLegacy s.q.legOn = false → s.link.mayIssue →
       ∃ u, (s.drainAll q).cq? q = some u ∧ (u.held = [] ∨ u.room = false ∨ (s.drainAll q).md.reqs.any fun x => x.who = .comp q))

/-! ## The admin queue (03, 04) -/

/-- R106, R109: the checks common to all admin commands: INVALID-OPCODE, PLINTH-LOCKED, INVALID-FIELD, in this order.

R104: ENABLE starts both queues of the admin pair at index 0 when both sizes are in range, and clearing it stops them. -/
def Obligations.AdminPairAndChecks : Prop :=
  (∀ (s : State) (e : BitVec 512) (buf : HostData) (cut : ListRun), s.admEntry = some e →
     (aKnown (aOpc e) = false → exec .adminUndefinedOpcode s = .next (s.admPost (entryCid e) 0x0001 0))
     ∧ ∀ row ∈ adminRows buf cut, aOpc e = row.1 →
       (s.admLocked row.1 → exec row.2 s = .next (s.admPost (entryCid e) 0x000A 0))
       ∧ (s.admLocked row.1 = false → aSound e = false → exec row.2 s = .next (s.admPost (entryCid e) 0x0002 0)))
  ∧ (∀ (s : State), Serves s →
       (∀ v : Word, v.getLsbD 0 → s.q.admEnable = false → s.sq? 0 = none → s.cq? 1 = none → 1 ≤ bits v.toNat 2 4 →
         bits v.toNat 2 4 ≤ 12 → 1 ≤ bits v.toNat 6 4 → bits v.toNat 6 4 ≤ 12 →
         Leads (.adminEnable v) s fun t => t.q.admEnable = true ∧ t.q.admReady = true
           ∧ t.sq? 0 = some (admSq (bits v.toNat 2 4) s.q.admSqBase []) ∧ t.cq? 1 = some (admCq (bits v.toNat 6 4) s.q.admCqBase [])
           ∧ t.sub = s.sub ∧ t.sx = s.sx ∧ t.out = s.out)
       ∧ (∀ v : Word, v.getLsbD 0 → s.q.admEnable = false → (bits v.toNat 2 4 = 0 ∨ 12 < bits v.toNat 6 4) → s.q.admReady = false →
         Leads (.adminEnable v) s fun t => t.q.admEnable = true ∧ t.q.admReady = false)
       ∧ (∀ v : Word, v.getLsbD 0 = false → s.q.admEnable → exec (.adminDisable v) s = .next s.admStop
         ∧ s.admStop.q.admEnable = false))

/-- R49, R110, R111: CREATE_CQ creates an ACTIVE queue with head and tail 0, and refuses a vector below 8;
QUERY_QUEUE reports; PAUSE_QUEUE pauses an ACTIVE queue; RESET_QUEUE makes a settled queue in ERROR ACTIVE again at its latched
index; DELETE_QUEUE removes a settled queue, one of classes 0 to 6 at the commit of its schedule (R345), or refuses it with the
number of its unconsumed entries. -/
def Obligations.QueueCommands : Prop :=
  ∀ (s : State) (e : BitVec 512) (q : Nat), q = aField e 1 0 18 → 1 < q →
    (Admin s 0x02 e → aField e 2 0 12 = 0 → aField e 1 18 1 = 0 →
      (aField e 1 20 1 = 1 → aField e 6 0 11 < 8 → exec .createCq s = .next (s.admPost (entryCid e) 0x0002 0))
      ∧ ((aField e 1 20 1 = 1 → 8 ≤ aField e 6 0 11) → 1 ≤ aField e 4 0 5 → aField e 4 0 5 ≤ 16 → s.sq? q = none →
        s.cq? q = none → exec .createCq s = .next ((s.setCq q { admCq (aField e 4 0 5) (BitVec.ofNat 64 (aField e 2 0 64)) []
          with pasid := none, legacy := decide (aField e 1 19 1 = 1), ien := decide (aField e 1 20 1 = 1),
               vector := aField e 6 0 11, aggCount := aField e 7 0 8, aggTime := aField e 7 8 16 }).admPost (entryCid e) 0 0)))
    ∧ (∀ r, Admin s 0x07 e → s.sq? q = some r → exec .queryQueue s = .next (s.admPost (entryCid e) 0 (sqResult r)))
    ∧ (∀ r, Admin s 0x06 e → s.sq? q = some r → r.st = .active → aField e 1 18 1 = 1 →
        exec .pauseQueue s = .next (((s.withdraw (.ring q)).setSq q { r with st := .paused }).admPost (entryCid e) 0 0))
    ∧ (∀ r, Admin s 0x04 e → s.sq? q = some r → r.st = .error → r.remain = 0 →
        exec .resetQueue s = .next ((s.setSq q { r with
          st := .active, cause := 0, latched := 0, t := r.latched, c := r.latched, past := 0, tries := 0, capture := [],
          reading := [], block := none, ahead := false }).admPost (entryCid e) 0 0))
    ∧ (∀ r, Admin s 0x03 e → s.sq? q = some r → r.settled → (r.unconsumed = 0 ∨ aField e 1 18 1 = 1) →
        (r.cls = 7 → exec .deleteQueue s = .next ((s.delSq q r).admPost (entryCid e) 0 0))
        ∧ (r.cls < 7 → exec .deleteQueue s = .next ((s.delSq q r).plan e .remove)))
    ∧ (∀ r, Admin s 0x03 e → s.sq? q = some r → r.settled → r.unconsumed ≠ 0 → aField e 1 18 1 = 0 →
        exec .deleteQueue s = .next (s.admPost (entryCid e) 7 (BitVec.ofNat 64 r.unconsumed)))

/-- R110, R111, R344, R345, R349: CREATE_SQ and MODIFY_SQ of class 7 take effect at once; of classes 0 to 6 a failed Maquette refuses them
and a passed one waits for MAQUETTE_COMMIT, which installs the queue, raises SCHED_GEN and completes the command. Of class 0 the text is
read between the two, for which the command may wait with its test passed. -/
def Obligations.QueueAdmission : Prop :=
  (∀ (s : State) (e : BitVec 512) (q : Nat), Admin s 0x01 e → q = aField e 1 0 18 → 1 < q → aField e 2 0 12 = 0 →
    classFields e (aField e 1 18 3) → aField e 1 18 3 ≠ 0 → aField e 1 22 1 = 0 → aField e 1 21 1 = 0 → 1 ≤ aField e 4 0 5 →
    aField e 4 0 5 ≤ 16 → s.sq? q = none → s.cq? q = none → aField e 6 0 18 ≠ 1 → (s.cq? (aField e 6 0 18)).isSome →
    ∀ text, (aField e 1 18 3 = 7 → exec (.createSq text) s = .next ((s.setSq q (newSq e s.time [])).admPost (entryCid e) 0 0))
    ∧ (aField e 1 18 3 ≠ 7 → (s.md.passed ∨ s.maquette (demandsOf s.q.sqs) none (newSq e s.time []).demand = none) →
      exec (.createSq text) s = .next (s.plan e (.create q (newSq e s.time []))))
    ∧ (∀ x, aField e 1 18 3 ≠ 7 → s.md.passed = false → s.maquette (demandsOf s.q.sqs) none (newSq e s.time []).demand = some x →
      exec (.createSq text) s = .next ({ s with md := { s.md with
        refused := inc16 s.md.refused, lastCode := x.code, lastKind := x.kind, lastIndex := x.index } }.admPost (entryCid e) 6
          x.result)))
  ∧ (∀ (s : State) (e : BitVec 512) (q kib stb : Nat) (text : HostData) (g : Seg) (rest : List Seg), Admin s 0x01 e → q = aField e 1 0 18 → 1 < q →
    stb = aField e 11 0 14 → s.segTab stb = some (g :: rest) → (g.pv = false ∨ s.link.pasidEn) → kib = aField e 11 16 16 → aField e 2 0 12 = 0 → classFields e 0 → aField e 1 18 3 = 0 → aField e 1 22 1 = 0 →
    aField e 1 21 1 = 1 → 1 ≤ aField e 4 0 5 → aField e 4 0 5 ≤ 16 → s.sq? q = none → s.cq? q = none → aField e 6 0 18 ≠ 1 →
    (s.cq? (aField e 6 0 18)).isSome → s.textOk stb kib → (s.q.sqs.filter fun x => x.2.push).length < 4096 →
    (s.md.passed ∨ s.maquette (demandsOf s.q.sqs) none (newSq e s.time []).demand = none) →
    (s.ownReady true 1 → text.ok → exec (.createSq text) s = .next ((s.readText stb kib text).1.plan e (.create q
      (newSq e s.time (fit (1024 * kib) text.data)))))
    ∧ (s.ownReady true 1 → text.ok = false → exec (.createSq text) s = .next ((s.readText stb kib text).1.admPost (entryCid e) 0xD 0))
    ∧ (s.ownReady true 1 = false → Leads (.createSq text) s fun t => t.md.passed = true ∧ t.q = s.q))
  ∧ (∀ (s : State) (e : BitVec 512) (q : Nat) (r : SQ), Admin s 0x05 e → q = aField e 1 0 18 → 1 < q → s.sq? q = some r →
    classFields e 7 → aField e 1 18 3 = 7 → r.cls = 7 →
    ∀ text, exec (.modifySq text) s = .next ((s.setSq q (r.params e 7 [])).admPost (entryCid e) 0 0))
  ∧ (∀ (s : State) (e : BitVec 512) (q cls : Nat) (r : SQ), Admin s 0x05 e → q = aField e 1 0 18 → 1 < q → s.sq? q = some r →
    cls = aField e 1 18 3 → classFields e cls → cls ≠ 0 → cls ≠ 7 ∨ r.cls ≠ 7 →
    ∀ text, ((s.md.passed ∨ cls = 7 ∨ s.maquette (demandsOf (AMap.del s.q.sqs q)) (some r.demand) (r.params e cls []).demand = none) →
      exec (.modifySq text) s = .next (s.plan e (.modify q (r.params e cls []))))
    ∧ (∀ x, cls ≠ 7 → s.md.passed = false →
      s.maquette (demandsOf (AMap.del s.q.sqs q)) (some r.demand) (r.params e cls []).demand = some x →
      exec (.modifySq text) s = .next ({ s with md := { s.md with
        refused := inc16 s.md.refused, lastCode := x.code, lastKind := x.kind, lastIndex := x.index } }.admPost (entryCid e) 6
          x.result)))
  ∧ (∀ (s u : State) (p : Plan) (q : Nat) (r v : SQ) (cid : BitVec 16), s.md.commit = some ⟨p, some cid⟩ → r.cls ≠ 0 →
    (p = .create q r ∧ v = r) ∨ (p = .modify q r ∧ ∃ o, s.sq? q = some o ∧ v = { o with
      cls := r.cls, deadline := r.deadline, rate := r.rate, burst := r.burst, cost := r.cost, textStb := r.textStb,
      textKib := r.textKib, text := r.text, vclock := if r.cls = 6 ∧ o.cls ≠ 6 then s.time else o.vclock }) →
    u = { s.setSq q v with md := { s.md with
      commit := none, gen := (s.md.gen + 1) % 2 ^ 24, commits := inc16 s.md.commits } }.recomputeAwake →
    exec .maquetteCommit s = .next ({ u with q := { u.q with admWait := none } }.admPost cid 0 0))

/-- R113, R137, R207, R208: LOAD_SEGMENT_TABLE stores a sound table and DELETE_SEGMENT_TABLE removes one that no context and no class 0 queue
names; CONFIGURE_SUBCHANNEL binds an IDLE or DISABLED subchannel and refuses an ACTIVE one; QUERY_SUBCHANNEL writes 256 bytes of
context; SET_LEGACY_FIFO turns the FIFO on while no queue routes to it. (Whether the buffer behind QUERY_SUBCHANNEL reads back upset is free,
log 67.) -/
def Obligations.SubchannelCommands : Prop :=
  ∀ (s : State) (e : BitVec 512),
    (∀ buf b u, Admin s 0x10 e → aBufLen e = 256 → aField e 1 14 1 = 0 → s.segTab (aField e 1 0 14) = none → s.ownReady true 1 →
      b = fit 256 buf.data → u = (s.supRead (aBuf e) none 256 buf).1 →
      (buf.ok → (readSegs b).any (·.pv) = false → segsOk b → exec (.loadSegmentTable buf) s = .next ({ u with sx := { u.sx with
        segTabs := AMap.put u.sx.segTabs (aField e 1 0 14) (readSegs b) } }.admPost (entryCid e) 0 0))
      ∧ (buf.ok = false → exec (.loadSegmentTable buf) s = .next (u.admPost (entryCid e) 0xD 0)))
    ∧ (∀ t, Admin s 0x11 e → s.segTab (aField e 1 0 14) = some t → (∀ x ∈ s.sub.ctx, x.2.names (aField e 1 0 14) = false) →
      (∀ x ∈ s.q.sqs, x.2.cls ≠ 0) → exec .deleteSegmentTable s = .next ({ s with sx := { s.sx with
        segTabs := AMap.del s.sx.segTabs (aField e 1 0 14) } }.admPost (entryCid e) 0 0))
    ∧ (∀ sch sq cq rs rc, Admin s 0x12 e → sch = aField e 1 0 20 → aField e 1 20 1 = 1 → sq = aField e 2 0 18 →
      cq = aField e 3 0 18 → sq ≠ 0 → cq ≠ 1 → s.sq? sq = some rs → s.cq? cq = some rc → rc.legacy = false →
      (s.segTab (aField e 4 0 14)).isSome → AMap.has s.sub.psets (aField e 5 0 16) →
      ((s.ctxOf sch).state = .idle ∨ (s.ctxOf sch).state = .disabled →
        exec .configureSubchannel s = .next ((s.setCtx sch { s.ctxOf sch with
          sqid := sq, cqid := cq, stb := aField e 4 0 14, pset := aField e 5 0 16, tmoDef := BitVec.ofNat 32 (aField e 6 0 32),
          sqv := true, cqv := true, stv := true, psv := true, kpasid := rs.pasid, disend := false,
          state := .idle }).admPost (entryCid e) 0 0))
      ∧ ((s.ctxOf sch).state = .active → exec .configureSubchannel s = .next (s.admPost (entryCid e) 9 0)))
    ∧ (Admin s 0x13 e → 256 ≤ aBufLen e → s.ownReady false 1 → exec .querySubchannel s
      = .next (({ s with fresh := s.fresh + 1 }.supWrite (aBuf e) 256 (s.ctxBytes (aField e 1 0 20))
          (eccOf (Config.bufferUpset s.fresh))).admPost (entryCid e) 0 0))
    ∧ (s.ctxBytes (aField e 1 0 20)).length = 256
    ∧ (Admin s 0x30 e → aField e 1 0 1 = 1 → (∀ c ∈ s.q.cqs, c.2.legacy = false) →
      exec .setLegacyFifo s = .next ({ s with q := { s.q with legOn := true } }.admPost (entryCid e) 0 0))

/-- R113, R145, R146, R371, R372: CREATE_DEVICE makes a device-table entry of a usable discovery record, DELETE_DEVICE removes one that no
path set names, SET_PATH_SET stores one to eight paths under a new generation, DELETE_PATH_SET removes one that no context names,
and LIST_DEVICES writes every record, and answers with their numbers. -/
def Obligations.DeviceCommands : Prop :=
  ∀ (s : State) (e : BitVec 512),
    (∀ dev id d, Admin s 0x21 e → dev = aField e 1 0 14 → id = aField e 2 0 64 → AMap.has s.sub.devs dev = false →
      AMap.get? s.dev.disc (id % 2 ^ 32) = some d → d.dgen.toNat = id / 2 ^ 32 → d.reason = 0 → d.dev = none →
      exec .createDevice s = .next ({ s with
        sub := { s.sub with devs := AMap.put s.sub.devs dev (d.entry (id % 2 ^ 32) id) },
        dev := { s.dev with disc := AMap.put s.dev.disc (id % 2 ^ 32) { d with dev := some dev } } }.admPost (entryCid e) 0 0))
    ∧ (∀ dev d, Admin s 0x24 e → dev = aField e 1 0 14 → AMap.get? s.sub.devs dev = some d →
      (∀ p ∈ s.sub.psets, p.2.dev ≠ dev) → exec .deleteDevice s = .next ({ s with
        sub := { s.sub with devs := AMap.del s.sub.devs dev },
        dev := { s.dev with disc := AMap.upd s.dev.disc d.disc fun r => { r with dev := none } } }.admPost (entryCid e) 0 0))
    ∧ (∀ p, Admin s 0x23 e → p = aField e 1 0 16 → AMap.has s.sub.psets p → (∀ x ∈ s.sub.ctx, x.2.psv = false ∨ x.2.pset ≠ p) →
      exec .deletePathSet s = .next ({ s with sub := { s.sub with psets := AMap.del s.sub.psets p } }.admPost (entryCid e) 0 0))
    ∧ (∀ p n dev b buf u, Admin s 0x22 e → p = aField e 1 0 16 → n = aField e 1 16 4 → dev = aField e 2 0 14 → 1 ≤ n → n ≤ 8 →
      aBufLen e = 8 * n → AMap.has s.sub.devs dev → s.ownReady true 1 → b = fit (8 * n) buf.data →
      u = (s.supRead (aBuf e) none (8 * n) buf).1 →
      (buf.ok → (List.range n).all (u.pathOk dev b) → ∀ ps : PathSet, ps = ⟨match AMap.get? s.sub.psets p with
          | some o => nextPgen o.gen
          | none => 1, dev, (List.range n).map (readPath b)⟩ →
        exec (.setPathSet buf) s = .next ((({ u with sub := { u.sub with
          psets := AMap.put u.sub.psets p ps } }.leavePaths p ps).wantAll).admPost (entryCid e) 0 0))
      ∧ (buf.ok = false → exec (.setPathSet buf) s = .next (u.admPost (entryCid e) 0xD 0)))
    ∧ (∀ g : BitVec 16, nextPgen g ≠ 0 ∧ nextPgen g ≠ g)
    ∧ (Admin s 0x20 e → 256 ≤ aBufLen e → s.ownReady false 1 → s.dev.disc.length ≤ aBufLen e / 256 →
      ∃ b, b = s.dev.disc.flatMap (fun r => r.2.bytes r.1) ∧ ∀ ecc, exec (.listDevices ⟨none, ecc⟩) s
        = .next ((s.supWrite (aBuf e) (256 * s.dev.disc.length) b ecc).admPost (entryCid e) 0
            (BitVec.ofNat 64 (s.dev.disc.length + (s.dev.disc.length + s.dev.unlisted) * 2 ^ 32))))

/-! ## Exchanges, aborts, timeouts (04, 05, 11, 12) -/

/-- R378, R393, R147, R365: the next piece of a program leaves on the chosen path once its quad's egress is granted, the device has
room and a SAS port has a connection for it: the exchange stands in the table with the piece, the path and its block range, and the
device command goes out, or the first request of a PMEM read (R170), which is all of one up to 512 bytes; a link that rests wakes (R386).
While the device has no room the exchange waits (R16), and goes with the next grant; one whose path its set no longer holds, or that is
not USABLE, gives its place up. (The queued exchange is the model's reading of R16, log 23.)

R409: while the device is POSITION-LOST, a piece of another command than REWIND, LOCATE or UNLOAD is not sent, and ends. -/
def Obligations.ExchangeSend : Prop :=
  (∀ (s : State) (sch idx x i pi kind : Nat) (c : Cmd) (p : Piece) (pd : PathDesc) (os : List Out), AMap.wf s.sub.ctx Ctx.zero →
    s.nextSend sch = some (c, i, p) → s.barred sch c = false → s.queuedOf sch = none → s.nextPath sch = some (pi, pd) →
    x = 4096 * pd.quad + idx → s.connReady (s.devOf sch) pd →
    s.md.reqs.any (fun r => r.who = .exch sch && r.res = 3 + pd.quad && r.granted) → idx < 4096 → AMap.has s.dev.exch x = false →
    s.poolFree (5 + pd.quad) (s.clsOf sch) → (s.ctxOf sch).xout ≠ 0 → kind = s.devKind (s.devOf sch) →
    os = (if (s.portOf pd.quad pd.port).rests s.time then [Out.linkWake pd.quad pd.port] else [])
      ++ (if kind = 3 then if c.toMem then [Out.pmemRead x (s.targetOf (s.devOf sch) pd) p.blk (min 512 p.len)] else []
        else [Out.devCmd x (s.targetOf (s.devOf sch) pd) (s.cmdBytes (s.devOf sch) idx c p)
          (paramBytes kind (s.blkOf (s.devOf sch)) c p) (kind = 2) p.st.again]) →
    (s.slotTurn (s.newExch sch c i p pi pd) → Leads (.exchangeSend sch idx) s fun t =>
      (∃ n, AMap.get? t.dev.exch x = some { s.newExch sch c i p pi pd with st := .sent, sentOff := n }
        ∧ (kind ≠ 3 ∨ c.toMem = false → n = 0))
      ∧ (∃ l, t.out = s.out ++ os ++ l ∧ (kind ≠ 3 ∨ c.toMem = false ∨ p.len ≤ 512 → l = [])) ∧ t.granted (.exch sch) = false ∧ (t.ctxOf sch).xout = (s.ctxOf sch).xout ∧ (∀ k, k ≠ sch → t.ctxOf k = s.ctxOf k)
      ∧ t.q = s.q ∧ t.sx = s.sx ∧ t.link = s.link)
    ∧ (s.slotTurn (s.newExch sch c i p pi pd) = false → Leads (.exchangeSend sch idx) s fun t =>
      AMap.get? t.dev.exch x = some (s.newExch sch c i p pi pd) ∧ t.out = s.out ∧ t.granted (.exch sch) = false
      ∧ (∀ k, k ≠ sch → t.ctxOf k = s.ctxOf k) ∧ t.q = s.q ∧ t.sx = s.sx ∧ t.link = s.link))
  ∧ (∀ (s : State) (sch idx x i : Nat) (c : Cmd) (p : Piece) (e : Exch), s.nextSend sch = some (c, i, p) →
    s.barred sch c = false → s.queuedOf sch = some (x, e) → s.pathNow e = none ∨ s.usable e.dev e.pathDesc = false →
    exec (.exchangeSend sch idx) s = .next (((s.dropExch x).withdraw (.exch sch)).wantSend sch))
  ∧ (∀ (s : State) (sch idx x i pi : Nat) (c : Cmd) (p : Piece) (e : Exch), s.nextSend sch = some (c, i, p) →
    s.barred sch c = false → s.queuedOf sch = some (x, e) → s.pathNow e = some pi → s.usable e.dev e.pathDesc → s.granted (.exch sch) →
    (s.connReady e.dev e.pathDesc → s.slotTurn e →
      exec (.exchangeSend sch idx) s = .next (s.sendExch x sch c i p pi e.pathDesc))
    ∧ (s.connReady e.dev e.pathDesc → s.slotTurn e = false → exec (.exchangeSend sch idx) s = .next (s.withdraw (.exch sch)))
    ∧ (s.connReady e.dev e.pathDesc = false →
      exec (.exchangeSend sch idx) s = .next ((s.withdraw (.exch sch)).wantSend sch)))
  ∧ (∀ (s : State) (sch idx i : Nat) (c : Cmd) (p : Piece), s.nextSend sch = some (c, i, p) → (s.seqOf (s.devOf sch)).lost →
    (c.op ≠ .control ∨ c.code ∉ [3, 7, 8]) → exec (.exchangeSend sch idx) s = .next (s.refuseSend sch c.no i))

/-- R126, R183, R184, R366, R392: evidence, answers and abort answers of an exchange. The completion of an NVMe Abort command makes room
for another, and the command's own completion answers the abort.

R184: the device status of some answers: GOOD, SHORT and LONG by the bytes moved, CHECK CONDITION by its sense key, and NVMe
status codes. -/
def Obligations.ExchangeAnswers : Prop :=
  (∀ (s : State) (x : Nat) (e : Exch), AMap.get? s.dev.exch x = some e →
     (e.st = .sent → exec (.exchangeReachedDevice x) s = .next ((s.modExch x fun e => { e with st := .reached }).wantSend e.sch))
     ∧ (∀ a ecc, e.st = .lost → exec (.exchangeEnd x a ecc) s = .next (s.dropExch x))
     ∧ (∀ a c p, e.st = .reached → s.framesWait x e = false → s.pieceOf x = some (c, p) → keptSense a p.len = [] →
         (a.st = .pmemDone → s.writesLeft x e = false) → exec (.exchangeEnd x a .sound) s = .next ((((s.seqEnd e.dev c (answerStatus a p.len) a.pos).answered x (answerStatus a p.len)
           (min a.moved p.len))).wantAll))
     ∧ (∀ a, e.st = .aborting → s.framesWait x e = false → exec (.exchangeEnd x a .sound) s = .next (s.abortDone x a.pos))
     ∧ ((∀ a ∈ s.dev.aborts, a.x ≠ x) → e.kind ≠ 1 → e.st = .aborting → exec (.abortAnswered x) s
         = .next ({ s with fresh := s.fresh + 1 }.abortDone x (Config.readPosition s.fresh)))
     ∧ (∀ a, s.dev.aborts = [a] → a.x = x → exec (.abortAnswered x) s
         = .next ({ s with dev := { s.dev with aborts := [] } }.nextAbort a))
     ∧ (∀ due, e.abortDue = some due → e.st = .aborting → s.quadTimer e.quad due → e.kind = 1 →
         ((s.ctxOf e.sch).clrreq = false ∨ s.pieceOf x = none) → exec (.exchangeAbortTimeout x) s
           = .next ((((s.late due).abortDone x none).escalate x e).wantAll))
     ∧ (∀ due u, e.escDue = some due → s.quadTimer e.quad due → u = (s.late due).modExch x (fun f => { f with escDue := none }) →
         ((s.portOf e.quad e.port).expander → exec (.escalationHardReset x) s = .next (u.emit (.phyReset e.quad e.port e.ctrl)))
         ∧ ((s.portOf e.quad e.port).expander = false → exec (.escalationHardReset x) s
           = .next (((u.emit (.linkReset e.quad e.port)).linkLost e.quad e.port 1).signal 4)))
     ∧ (e.kind = 3 → e.st = .reached →
         exec (.pmemReadCompletionTimeout x) s = .next ((s.linkLost e.quad e.port 1).signal 4)))
  ∧ (∀ (moved len : Nat) (sense : List Byte) (pos : Option Nat),
       (moved = len → answerStatus ⟨.scsi 0 0 0 false false false, moved, false, sense, pos⟩ len = 0x01)
       ∧ (moved < len → answerStatus ⟨.scsi 0 0 0 false false false, moved, false, sense, pos⟩ len = 0x02)
       ∧ answerStatus ⟨.scsi 0 0 0 false false false, moved, true, sense, pos⟩ len = 0x03
       ∧ (moved = len → answerStatus ⟨.nvme 0 0 false, moved, false, sense, pos⟩ len = 0x01)
       ∧ (∀ asc fm eom ili more, answerStatus ⟨.scsi 2 2 asc fm eom ili, moved, more, sense, pos⟩ len = 0x35)
       ∧ (∀ fm eom ili more, answerStatus ⟨.scsi 2 3 0x11 fm eom ili, moved, more, sense, pos⟩ len = 0x17)
       ∧ (∀ dnr more, answerStatus ⟨.nvme 2 0x81 dnr, moved, more, sense, pos⟩ len = 0x17)
       ∧ (∀ more, answerStatus ⟨.pmemRefused, moved, more, sense, pos⟩ len = 0x76))

/-- R359, R400, R407: a fatal error or lost presence takes a port down with its exchanges; a fatal controller
status resets the controller, sets it up again and redrives its exchanges; a first transport failure aborts and sends the exchange
again, a second one takes the path down; a ghost that is proved gone is removed. -/
def Obligations.PathFaults : Prop :=
  ∀ (s : State),
    (∀ quad port, (s.portOf quad port).st = 2 → isPcie (s.quadOf quad).cfg.mode →
      exec (.pathFault quad port .errFatal) s = .next ((s.linkLost quad port 1).signal 4)
      ∧ exec (.pathFault quad port .presenceLost) s = .next ((s.linkLost quad port 0).signal 4))
    ∧ (∀ quad port, (s.portOf quad port).st = 2 → exec (.pathFault quad port .dlDown) s = .next ((s.linkLost quad port 1).signal 4))
    ∧ (∀ quad port ctrl u, (s.portOf quad port).st = 2 → isPcie (s.quadOf quad).cfg.mode →
      (s.portOf quad port).ctrls.any (fun c => c.id = ctrl) →
      u = (((((s.event (32 + quad) 5 5 quad port 0 0).portPathsDown quad port (some ctrl)).modPort quad port fun p =>
        { p with rerun := true }).emit (.ctrlReset quad port ctrl)).forgetAborts (·.at_ quad port ctrl)).initCtrl quad port ctrl →
      exec (.controllerFatal quad ⟨port, ctrl⟩) s = .next (u.redriveAll quad port
        (u.exchWhere fun e => e.quad = quad && e.port = port && e.ctrl = ctrl && e.kind = 1) .fatal))
    ∧ (∀ x e c p, AMap.get? s.dev.exch x = some e → s.pieceOf x = some (c, p) → e.st = .reached → s.failedLately e c = false →
      s.devSeq e.dev = false → exec (.transportFailure x) s
        = .next ((((s.noteFail e).abortExch x).unsend x (some e.path) false).wantAll))
    ∧ (∀ x e c p, AMap.get? s.dev.exch x = some e → s.pieceOf x = some (c, p) → e.st = .reached → s.failedLately e c →
      exec (.transportFailure x) s = .next (s.devPathDown e))
    ∧ (∀ g h due pos, AMap.get? s.dev.ghosts g = some h → h.due = some due → s.quadTimer h.quad due →
      exec (.ghostDeath g false pos) s = .next ((s.late due).ghostGone g h pos))
    ∧ (∀ g h pos, AMap.get? s.dev.ghosts g = some h → h.due = none → h.abortDue = none →
      exec (.ghostDeath g true pos) s = .next (s.ghostGone g h pos) ∧ exec (.ghostDeath g false pos) s = .next s)

/-- R143, R144, R365, R480: subchannel timers and idle connections, each only once device time has reached its due time, and of several due
at one time the one of the lowest number first.

R143: arming a timer with `n` ns makes it expire exactly `n` ns later: whole spans of 2^46 ns in ELAPS, the rest in EXPIRY; and
suspending it keeps the time left. -/
def Obligations.TimersOfPrograms : Prop :=
  (∀ (s u : State) (sch : Nat), u = s.late (s.ctxOf sch).expiry →
     ((s.ctxOf sch).armed → s.subTimer sch (s.ctxOf sch).expiry → (s.ctxOf sch).elaps = 0 →
       ((s.ctxOf sch).state ≠ .startPending → exec (.subchannelTimeout sch) s = .next ({ (u.modCtx sch fun c => { c with
           tmout := true }) with sub := { (u.modCtx sch fun c => { c with tmout := true }).sub with
             timeouts := inc16 s.sub.timeouts } }.cut sch))
       ∧ ((s.ctxOf sch).state = .startPending → exec (.subchannelTimeout sch) s = .next ({ (u.modCtx sch fun c => { c with
           tmout := true }) with sub := { (u.modCtx sch fun c => { c with tmout := true }).sub with
             timeouts := inc16 s.sub.timeouts } }.endAtOnce sch)))
     ∧ ((s.ctxOf sch).armed → s.subTimer sch (s.ctxOf sch).expiry → (s.ctxOf sch).elaps ≠ 0 →
       exec (.timeoutSpan sch) s = .next (u.modCtx sch fun c => { c with elaps := c.elaps - 1, expiry := addNs c.expiry spanNs }))
     ∧ (reached s.time (s.ctxOf sch).expiry = false ∨ (∃ e ∈ s.sub.ctx, e.1 < sch ∧ e.2.armed ∧ e.2.expiry = (s.ctxOf sch).expiry) →
       exec (.subchannelTimeout sch) s = .next s ∧ exec (.timeoutSpan sch) s = .next s)
     ∧ (∀ quad phy target due, (s.quadOf quad).conns = [⟨phy, target, false, some due⟩] → s.quadTimer quad due →
       exec (.connectionIdleClose quad phy) s = .next (((s.late due).modQuad quad fun q => { q with
         conns := q.conns.filter fun c => c.phy ≠ phy }).emit (.closeConn quad phy))))
  ∧ (∀ (c : Ctx) (now : Time) (n : Nat), n < 2 ^ 62 → c.tmoCur ≠ 0 →
       (c.arm now n).elaps.toNat * 2 ^ 46 + ((c.arm now n).expiry - now).toNat = n
       ∧ reached now (c.arm now n).expiry = decide (n % 2 ^ 46 = 0)
       ∧ (∀ d, d < 2 ^ 46 → reached (addNs now d) (c.arm now n).expiry = decide (n % 2 ^ 46 ≤ d))
       ∧ ((c.arm now n).pauseTimer now).resumeTimer now = c.arm now n
       ∧ (∀ later : Time, ((c.arm now n).pauseTimer now).resumeTimer later = c.arm later n))

/-! ## Data movement (09) -/

/-- R33, R291, R297, R299, R300, R534: the DMA engines. A parked descriptor with work takes a channel when its turn has come, and else
waits; the write engine makes one request on each grant; a write that has been accepted frees its segment and marks its bytes
done; a read request fills its piece, by each of its completions that has come in order, and a failed one ends the program's data; a request keeps within 4 KiB, its maximum and,
up to the next boundary, 64 bytes. (The order of channels and of the read engine rests on log 44.) -/
def Obligations.DmaEngines : Prop :=
  (∀ (s : State) (d n rix : Nat) (x : Desc), AMap.get? s.dma.descs d = some x → x.chan = false → s.hasWork d x →
    n = (if x.rd then 3 else 4) → rix = (if x.rd then 4 else 5) →
    (s.turn n (s.progKey x.sch) rix x.sch (s.clsOf x.sch) (.chan d) → exec (.dmaChannelGrant d) s
      = .next (((s.unwait n (.chan d)).takeChan d x.rd).wantDma d))
    ∧ (s.turn n (s.progKey x.sch) rix x.sch (s.clsOf x.sch) (.chan d) = false → exec (.dmaChannelGrant d) s
      = .next (s.await n (s.progKey x.sch) rix x.sch (s.clsOf x.sch) (.chan d))))
  ∧ (∀ (s : State) (d piece n : Nat) (x : Desc) (q : DmaPiece) (h : HeldSeg) (r : WriteReq), AMap.get? s.dma.descs d = some x →
    x.nextWrite = some q → s.nextReq x q = some (n, h, r) → x.rd = false → x.chan → q.idx = piece →
    (r.e.host && !r.e.skip → s.granted (.write d) ∧ s.link.mayIssue ∧ s.refusesWrite r.e.pasid = false) → h.poison = 0 →
    exec (.dmaWriteIssue d piece ⟨0, 0, [], 0⟩) s = .next ((((((s.modSeg n fun g => { g with poison := g.poison ||| 0 }).writeOut r
      (slice h.data (r.a % 512) r.n) false x.badWords).withdraw (.write d)).modDesc d fun y => { y with
        poison := y.poison || false, badWords := x.badWords, pieces := y.pieces.map fun p => if p = q then { p with
          asked := p.asked + r.n, issued := decide (sumBy (fun g => g.2 - g.1) (maskSpans h.mask) ≤ p.asked + r.n) } else p })).onward d))
  ∧ (∀ (s u : State) (d piece n : Nat) (x : Desc) (q : DmaPiece) (h : HeldSeg), AMap.get? s.dma.descs d = some x → x.rd = false →
    (x.pieces.find? fun p => p.issued && p.idx = piece) = some q →
    u = s.modDesc d (fun y => { y with pieces := y.pieces.erase q }) →
    u.segOf (.xfer x.sch x.cmd q.pc q.x) piece = some n → AMap.get? u.dma.segs n = some h →
    exec (.dmaWriteVisible d piece) s = .next ((((maskSpans h.mask).foldl (fun t g =>
      t.descMoved d (512 * piece + g.1) (512 * piece + g.2)) u).releaseSeg n (.xfer x.sch x.cmd q.pc q.x)).onward d))
  ∧ (∀ (s u v : State) (d tag seg o n : Nat) (x : Desc) (f : Fill) (c : Cmd) (p : Piece) (e : Extent)
      (rest : List Nat), AMap.get? s.dma.descs d = some x → s.nextFill x = some f → s.cmd? x.sch x.cmd = some c →
    extAt c.ext f.a = some (e, o) → c.pieces[f.pc]? = some p → x.rd → x.chan → p.large = false →
    s.segFor (exchQuad f.x) x.sch x.cmd f.pc f.x f.k false (.seg d f.k) [seg] = some (u, seg, rest) →
    (e.host → s.granted (.read d) → s.link.mayIssue → s.tagFree tag → s.poolFree 2 (s.clsOf x.sch) →
      n = reqLen (e.addr.toNat + o) (min (f.b - f.a) (e.len - o)) s.link.mrrs →
      v = (u.modDesc d fun y => y.ask f.k f.pc f.x n).flowSync (exchQuad f.x) →
      exec (.dmaReadIssue d f.k tag ⟨seg, [], [], 0⟩) s = .next ((((v.withdraw (.read d)).takeRead tag (.dma d f.k f.a n)).hostRead tag
        (BitVec.ofNat 64 (e.addr.toNat + o)) e.pasid n).onward d))
    ∧ (e.host = false → n = min (f.b - f.a) (e.len - o) →
      v = (u.modDesc d fun y => y.ask f.k f.pc f.x n).flowSync (exchQuad f.x) →
      (∀ b ∈ v.gsFetch (e.addr.toNat + o) n, b.2 = false) →
      exec (.dmaReadIssue d f.k tag ⟨seg, [], [], 0⟩) s = .next ((v.filled d f.pc f.x f.k f.a
        ((v.gsFetch (e.addr.toNat + o) n).map (·.1)) 0).onward d)))
  ∧ (∀ (s : State) (tag d k a n : Nat) (x : Desc) (c : Cmd) (q : DmaPiece) (data : List Byte),
    AMap.get? s.link.reads tag = some (.dma d k a n) → AMap.get? s.dma.descs d = some x → s.cmd? x.sch x.cmd = some c →
    s.link.noIssue.contains tag = false → s.link.ide.discarding = false →
    (x.pieces.find? fun q => q.idx = k && decide (c.pieceAt a = q.pc)) = some q →
    (data ≠ [] → data.length < n → exec (.dmaReadCompletion tag .ok ⟨data, .sound⟩) s
      = .next (((s.onLink fun l => { l with reads := AMap.put l.reads tag (.dma d k (a + data.length) (n - data.length)) }).filled
          d q.pc q.x k a (fit data.length data) 0).onward d))
    ∧ exec (.dmaReadCompletion tag .ur ⟨data, .sound⟩) s
      = .next ((((s.dropRead tag).countCpl .ur).fillFailed d a .ur).onward d)
    ∧ (data = [] ∨ n ≤ data.length → exec (.dmaReadCompletion tag .ok ⟨data, .sound⟩) s
        = .next (((s.dropRead tag).filled d q.pc q.x k a (fit n data) 0).onward d)
      ∧ exec (.dmaReadCompletion tag .poison ⟨data, .sound⟩) s
        = .next (((((s.dropRead tag).countCpl .poison).filled d q.pc q.x k a (fit n data) (wordsOf k a (a + n))).fillFailed d a
            .poison).onward d)
      ∧ exec (.dmaReadCompletion tag .ok ⟨data, .bad⟩) s
        = .next ((((s.dropRead tag).memError 3 0 0 x.sch).filled d q.pc q.x k a (fit n data) (wordsOf k a (a + n))).onward d)))
  ∧ (∀ (s : State) (d : Nat) (x : Desc) (f : Fill) (p : Piece) (segs : List Nat), AMap.get? s.dma.descs d = some x →
    s.nextFill x = some f → ((s.cmd? x.sch x.cmd).bind fun c => c.pieces[f.pc]?) = some p → x.rd →
    s.segOf (.xfer x.sch x.cmd f.pc f.x) f.k = none →
    (∀ u, s.allocAll (exchQuad f.x) x.sch x.cmd f.pc f.x (.seg d f.k) (if p.large then p.all else [f.k]) segs = some u →
      exec (.segmentAllocate d f.k segs) s = .next (u.flowSync (exchQuad f.x)))
    ∧ (s.allocAll (exchQuad f.x) x.sch x.cmd f.pc f.x (.seg d f.k) (if p.large then p.all else [f.k]) segs = none →
      exec (.segmentAllocate d f.k segs) s = .next ((s.segWait (exchQuad f.x) x.sch (.seg d f.k)).flowSync (exchQuad f.x))))
  ∧ (∀ addr left max : Nat, reqLen addr left max ≤ left ∧ addr % 4096 + reqLen addr left max ≤ 4096
    ∧ (addr % 64 = 0 → reqLen addr left max ≤ max) ∧ (addr % 64 ≠ 0 → addr % 64 + reqLen addr left max ≤ 64)
    ∧ (0 < left → 0 < max → 0 < reqLen addr left max))

/-- R290, R292: an allocated segment is HELD by its owner, a released one is free again; a free of a free one, and one that names
another owner, is refused and counted, and the Tally's BUFFER line fails.

R304, R309, R311: the two banks of a FIFO: what is written and read counts, and no bank exceeds its 128 words. The stop state begins
when OCC reaches HIGH, counts once, and ends at LOW. -/
def Obligations.SegmentsAndFifoBanks : Prop :=
  (∀ (s : State) (n : Nat) (h : HeldSeg) (o : SegOwner), AMap.sorted s.dma.segs → s.segFree n → o ≠ h.owner →
    AMap.get? (s.allocSeg n h).dma.segs n = some h
    ∧ ((s.allocSeg n h).releaseSeg n h.owner).dma.segs = s.dma.segs
    ∧ (∀ k, k ≠ n → AMap.get? (s.allocSeg n h).dma.segs k = AMap.get? s.dma.segs k)
    ∧ ((s.allocSeg n h).releaseSeg n o).dma.segs = (s.allocSeg n h).dma.segs
    ∧ ((s.allocSeg n h).releaseSeg n o).dma.freeRefused = inc16 s.dma.freeRefused
    ∧ (s.releaseSeg n o).dma.segs = s.dma.segs ∧ (s.releaseSeg n o).dma.freeRefused = inc16 s.dma.freeRefused
    ∧ (s.tally.lines.length = 4 → ((s.releaseSeg n o).tally.lines.getD 2 Line4.zero).mism = true))
  ∧ (∀ (b : Banks) (n : Nat), b.wr ≤ 128 → b.left ≤ 128 →
    (n ≤ b.room → (b.push n).occ = b.occ + n ∧ (b.push n).wr ≤ 128 ∧ (b.push n).left ≤ 128)
    ∧ (n ≤ b.occ → (b.pop n).occ = b.occ - n ∧ (b.pop n).wr ≤ 128 ∧ (b.pop n).left ≤ 128)
    ∧ (b.left = 0 → b.wr ≠ 0 → b.handOver.bank = !b.bank ∧ b.handOver.left = b.wr ∧ b.handOver.wr = 0))
  ∧ (∀ (f : Fifo), f.low < f.high →
    (f.stop = false → f.high ≤ f.occ → f.flow.stop = true ∧ f.flow.stops = inc16 f.stops ∧ f.flow.occ = f.occ)
    ∧ (f.stop = false → f.occ < f.high → f.flow = f)
    ∧ (f.stop = true → f.low < f.occ → f.flow = f)
    ∧ (f.stop = true → f.occ ≤ f.low → f.flow.stop = false ∧ f.flow.stops = f.stops))

/-- R306 to R310, R313, R314, R324: the frame commands. A frame from the lanes (frameReceive) enters the receive FIFO as its words, a
truncated one marked OVERRUN, one without room not at all. The frame mover (frameMove) takes the oldest frame: it discards one that
is not GOOD or carries no data that its exchange takes, and writes the payload of another into the segments of its exchange; a
HEAD word of bad parity loses the frame. The lane transmitter (frameTransmit) sends the oldest frame of the transmit FIFO once it is
granted EGRESS, or ends it with the link's invalidation; an uncorrectable word of the buffer or on Armature aborts its exchange instead. A write of the watermarks (fifoWatermarkWrite) takes effect when they are in order. -/
def Obligations.FrameFifos : Prop :=
  (∀ (s : State) (quad : Nat) (fr : Frame) (room fstat : Nat), room = (s.fifoOf quad).rxB.room →
     fstat = (if fr.crcBad then 1 else if fr.cut then 2 else 0) →
     (s.portUp quad fr.port → fr.bytes.length ≤ 1152 → frameWords fr.bytes.length ≤ room →
       exec (.frameReceive quad fr) s = .next ((s.touchConn (4096 * quad + fr.idx)).onFifo quad fun f => { f with
         rxB := f.rxB.push (frameWords fr.bytes.length),
         rx := f.rx ++ [⟨fr, packFrame fr.bytes fstat fr.port s.time, fstat, s.time⟩] }))
     ∧ (s.portUp quad fr.port → fr.bytes.length ≤ 1152 → room = 0 →
       exec (.frameReceive quad fr) s = .next ((s.touchConn (4096 * quad + fr.idx)).overrun (4096 * quad + fr.idx)))
     ∧ (s.portUp quad fr.port → fr.bytes.length ≤ 1152 → 0 < room → room < frameWords fr.bytes.length →
       exec (.frameReceive quad fr) s = .next (((s.touchConn (4096 * quad + fr.idx)).onFifo quad fun f => { f with
         rxB := f.rxB.push room,
         rx := f.rx ++ [⟨fr, (packFrame fr.bytes 3 fr.port s.time).take room, 3, s.time⟩] }).overrun (4096 * quad + fr.idx)))
     ∧ (s.portUp quad fr.port = false → exec (.frameReceive quad fr) s = .next s))
  ∧ (∀ (s u : State) (quad x : Nat) (r : RxFrame) (rest : List RxFrame) (segs : List Nat), (s.fifoOf quad).rx = r :: rest →
     x = 4096 * quad + r.fr.idx →
     u = (s.popFrame quad r).onDma (fun d => { d with fifoParity := sat 16 (d.fifoParity + 0) }) →
     (r.fstat ≠ 0 → exec (.frameMove quad ⟨[], [], 0⟩ segs) s = .next u)
     ∧ (u.livePiece x = none → exec (.frameMove quad ⟨[], [], 0⟩ segs) s = .next u)
     ∧ (r.words ≠ [] → exec (.frameMove quad ⟨[0], [], 0⟩ segs) s
         = .next (((s.popFrame quad r).onDma fun d => { d with fifoParity := sat 16 (d.fifoParity + 1) }).overrun x))
     ∧ (∀ e c p off bs, r.fstat = 0 → u.livePiece x = some (e, c, p) → off = p.off + r.fr.off →
       bs = (r.bytes.drop r.fr.hdr).take (p.off + p.len - off) →
       (c.toMem = false ∨ bs = [] ∨ e.port ≠ r.fr.port → exec (.frameMove quad ⟨[], [], 0⟩ segs) s = .next u)
       ∧ (c.toMem → bs ≠ [] → e.port = r.fr.port →
         (∀ g t, u.segOf (.xfer e.sch e.cmd e.pc x) (off / 512) = some g → off % 512 + bs.length ≤ 512 →
           t = u.modSeg g (fun h => h.fill (off % 512) bs 0) →
           exec (.frameMove quad ⟨[], [], 0⟩ segs) s = .next ((if ((AMap.get? t.dma.segs g).map fun h => decide (h.mask
             &&& maskOf ((p.part (off / 512)).1 - 512 * (off / 512)) ((p.part (off / 512)).2 - (p.part (off / 512)).1)
             = maskOf ((p.part (off / 512)).1 - 512 * (off / 512)) ((p.part (off / 512)).2 - (p.part (off / 512)).1))).getD false
             then t.pieceReady e.sch e.cmd e.pc x (off / 512) else t).flowSync quad))
         ∧ (∀ t, State.deliver (bs.length / 512 + 2) u quad e.sch e.cmd e.pc x c p off bs [] (.frame quad) segs = some t →
           exec (.frameMove quad ⟨[], [], 0⟩ segs) s = .next (t.flowSync quad))
         ∧ (State.deliver (bs.length / 512 + 2) u quad e.sch e.cmd e.pc x c p off bs [] (.frame quad) segs = none →
           exec (.frameMove quad ⟨[], [], 0⟩ segs) s = .next ((s.segWait quad e.sch (.frame quad)).flowSync quad)))))
  ∧ (∀ (s : State) (quad : Nat) (bad : BadFifo) (segs : List Nat), (s.fifoOf quad).rx = [] →
     exec (.frameMove quad bad segs) s = .next s)
  ∧ (∀ (s u : State) (quad : Nat), u = s.offerNext quad → u.md.frozen (3 + quad) = false →
     ((u.fifoOf quad).tx = [] → ∀ parityBad fault, exec (.frameTransmit quad parityBad fault) s = .next u)
     ∧ (∀ r rest v x, (u.fifoOf quad).tx = r :: rest → x = 4096 * quad + r.fr.idx →
       v = u.modFifo quad (fun f => { f with tx := rest, txB := f.txB.pop r.words.length }) →
       (v.livePiece x = none → ∀ parityBad fault, exec (.frameTransmit quad parityBad fault) s = .next v)
       ∧ (∀ e c p, v.livePiece x = some (e, c, p) → u.frameReady quad x →
         exec (.frameTransmit quad false .sound) s
           = .next ((v.sendPayload x e p r.fr.off r.fr.bytes).touchConn x)
         ∧ exec (.frameTransmit quad true .sound) s = .next ((((v.onDma fun d => { d with
             fifoParity := inc16 d.fifoParity }).txFault quad).emit (.frame quad r.fr.port r.fr.bytes true)).transport x)
         ∧ ∀ parityBad, exec (.frameTransmit quad parityBad .buffer) s = .next (v.bufferFault e x (p.off + r.fr.off))
           ∧ exec (.frameTransmit quad parityBad .fabric) s = .next (v.fabricFault e x))
       ∧ (u.frameReady quad x = false → ∀ parityBad fault, exec (.frameTransmit quad parityBad fault) s = .next u)))
  ∧ (∀ (s : State) (quad : Nat) (val : Word) (half : Option Bool), Serves s → half ≠ some true →
     (bits val.toNat 9 9 + 16 ≤ bits val.toNat 0 9 → bits val.toNat 0 9 ≤ 240 → exec (.fifoWatermarkWrite quad half val) s
       = .next (s.modFifo quad fun f => { f with high := bits val.toNat 0 9, low := bits val.toNat 9 9 }))
     ∧ (bits val.toNat 0 9 < bits val.toNat 9 9 + 16 ∨ 240 < bits val.toNat 0 9 → exec (.fifoWatermarkWrite quad half val) s = .next s)
     ∧ exec (.fifoWatermarkWrite quad (some true) val) s = .next s)

/-- R316, R318, R319: the global scratchpad keeps its canonical form, a word reads as it was written, other words stay, and the set
and clear views change the masked bits alone. -/
def Obligations.GlobalScratchpad : Prop :=
  ∀ (s : State) (a : Nat) (w : TWord), AMap.wf s.sx.gs TWord.unset →
    AMap.wf (s.gsWrite a w).sx.gs TWord.unset
    ∧ (s.gsWrite a w).gsRead a = w
    ∧ (∀ b, b ≠ a → (s.gsWrite a w).gsRead b = s.gsRead b)
    ∧ (∀ old : Word, ∀ mask : Word, viewWord (intW old) true mask = intW (old ||| mask)
        ∧ viewWord (intW old) false mask = intW (old &&& ~~~mask)
        ∧ viewWord ⟨tagPoison, old⟩ true mask = ⟨tagPoison, old⟩ ∧ viewWord TWord.unset true mask = intW mask)
    ∧ (∀ th t, AMap.get? s.sx.threads th = some t → t.resv = some a →
        ∃ u, AMap.get? (s.gsWrite a w).sx.threads th = some u ∧ u = { t with resv := none })

/-- R14, R358, R289, R315, R325: a device reads its PRP pages and the output bytes of its own exchange, and writes into it; a request outside
the windows, a write to the PRP pages and a read of those that its port does not own are refused with Unsupported Request. An answer goes
once EGRESS is its own, and one that finds a word of the buffer or on Armature uncorrectable gives the exchange up. A link that rests
wakes for the request (R386). -/
def Obligations.DeviceWindows : Prop :=
  ∀ (s u : State) (quad port : Nat) (r : DevMemReq), s.portUp quad port → isPcie (s.quadOf quad).cfg.mode → u = s.usePort quad port →
    (r.write = false ∨ r.len ≤ 512) →
    (devWin r.addr.toNat r.len = .outside → exec (.deviceMemoryRequest quad port r) s
      = .next (u.devRefuse quad port r.addr none))
    ∧ (∀ i x off e, devWin r.addr.toNat r.len = .prp i off → x = 4096 * quad + i → AMap.get? u.dev.exch x = some e →
      (r.write = false → e.port = port → e.kind = 1 → off + r.len ≤ 4096 → exec (.deviceMemoryRequest quad port r) s
        = .next (u.emit (.devMem quad port r.addr (prpBytes (x % 4096) off r.len))))
      ∧ (r.write ∨ e.port ≠ port ∨ e.kind ≠ 1 → exec (.deviceMemoryRequest quad port r) s
        = .next (u.devRefuse quad port r.addr (some x))))
    ∧ (∀ i x off e c p, devWin r.addr.toNat r.len = .aperture i off → x = 4096 * quad + i → u.livePiece x = some (e, c, p) →
      e.port = port → off + r.len ≤ p.len → c.op ≠ .control →
      (∀ (q : DevRead) (v w : State), q = ⟨x, port, r.addr, off, r.len, r.fault, false⟩ →
        v = u.onDma (fun d => { d with devReads := d.devReads ++ [q] }) →
        w = (v.onDma fun d => { d with devReads := d.devReads.erase q }).withdraw (.answer x) → c.toMem = false → r.write = false →
        (∀ bs, u.readOut e x p (p.off + off) r.len = some (bs, false) →
          v.winsAs (3 + exchQuad x) (v.progKey e.sch) (32 + exchQuad x) e.sch (.answer x) →
          (r.fault = .sound → exec (.deviceMemoryRequest quad port r) s = .next (w.emit (.devMem quad port r.addr bs)))
          ∧ (r.fault = .buffer → exec (.deviceMemoryRequest quad port r) s = .next (w.bufferFault e x (p.off + off)))
          ∧ (r.fault = .fabric → exec (.deviceMemoryRequest quad port r) s = .next (w.fabricFault e x)))
        ∧ (∀ bs, u.readOut e x p (p.off + off) r.len = some bs →
          v.winsAs (3 + exchQuad x) (v.progKey e.sch) (32 + exchQuad x) e.sch (.answer x) = false →
          Leads (.deviceMemoryRequest quad port r) s fun t => t.out = u.out ∧ t.md.reqs.any (fun k => k.who = .answer x)
            ∧ t.dma.devReads.length = u.dma.devReads.length + 1)
        ∧ (u.readOut e x p (p.off + off) r.len = none → exec (.deviceMemoryRequest quad port r) s = .next v))
      ∧ (∀ t, c.toMem → r.write → r.bad = [] → r.fixed = 0 → State.deliver (r.len / 512 + 2) u quad e.sch e.cmd e.pc x c p (p.off + off) r.data [] (.dev x)
          r.segs = some t → exec (.deviceMemoryRequest quad port r) s = .next ((t.unwait 37 (.dev x)).flowSync quad)))
    ∧ (u.devRefuse quad port r.addr none).out = u.out ++ [.devUr quad port r.addr]

/-! ## Sirax: bundles of control operations (06, 07) -/

/-- R215, R218, R230, R247: a bundle whose slots pass their checks and hold no END issues: every result waits for its distance,
BUDGET falls by one and IC moves; the state outside the thread stays. One clause for each operation that acts inside its thread
(in a pair, either slot may hold it) and one for customer instructions. A bundle with a failing slot executes neither slot and
ends the program with the first failing slot's check.

R14, R196: a frame word that the bundle reads and that is found uncorrectable is delivered with tag POISON, and the memory-error
source of the supervisor is raised; one that it does not read changes nothing. -/
def Obligations.BundlesIssue : Prop :=
  ∀ (s : State) (th : Nat) (t : Thread) (b : BitVec 128) (ops : List Op), Bundle s th t b ops →
    (∀ row ∈ insideRows th [], ops.any (opIs row.1) →
      (∀ outs, chkMap ops (s.slot t (s.env t)) = .ok outs → outs.any (·.fin) = false →
        exec row.2 s = .next ((s.setTh th (issued t b (writes outs) (branches outs))).noteIssue th (s.routine t b)))
      ∧ (∀ code, chkMap ops (s.slot t (s.env t)) = .error code → exec row.2 s = .next ((s.programCheck th t code).noteIssue th (s.routine t b))))
    ∧ (ops.any Op.customer → ∀ outs, chkMap ops (s.slot t (s.env t)) = .ok outs → outs.any (·.fin) = false →
        exec (.customerInstruction ⟨th, []⟩) s = .next ((s.setTh th (issued t b (writes outs) (branches outs))).noteIssue th (s.routine t b)))
    ∧ (∀ bad, .corrected ∉ bad → (∀ w ∈ bad, w ∉ ops.flatMap (s.readsOf t)) → ∀ row ∈ insideRows th bad, ∀ row' ∈ insideRows th [], row.1 = row'.1 →
        exec row.2 s = exec row'.2 s)
    ∧ (∀ n, BadWord.frame n ∈ ops.flatMap (s.readsOf t) → ∀ row ∈ insideRows th [.frame n], ops.any (opIs row.1) →
        exec row.2 s = .next (((s.memError 4 0 0 t.sch).issue th { t.settle with f := modAt t.settle.f n spoilWord } b).noteIssue th (s.routine t b)))

/-- R202, R236, R238: the arithmetic of INT words, whatever the modes of the operands. V of ADD, SUB, MUL and NEG says that the
true signed result does not fit; C of ADD is the carry and C of SUB the borrow; DIV rounds towards zero, or gives the remainder
under MOD[0], and a zero divisor gives 0 with V.

R202, R238: the arithmetic of COUNT words keeps 32 bits; C is the carry out of bit 31 or the borrow into it, V says that the
true result lies outside 32 bits. An address moves by an INT modulo 2^48 within its segment, and V says that it wrapped.

R239: logic on two words of one tag, INT or BYTES, and the shifts, whose C is the last bit shifted out. -/
def Obligations.ArithmeticAndLogic : Prop :=
  (∀ (s : State) (t : Thread) (op : Op) (p pa pb : Place) (x y : Word), Slot s t op [p, pa, pb] →
     (s.env t).at_ pa = intW x → (s.env t).at_ pb = intW y →
     (op.opc = 0x010 → s.slot t (s.env t) op = sets p (intW (x + y))
       (some (mkCC (x + y).msb (x + y = 0) (2 ^ 64 ≤ x.toNat + y.toNat) ((x + y).toInt ≠ x.toInt + y.toInt))))
     ∧ (op.opc = 0x011 → s.slot t (s.env t) op = sets p (intW (x - y))
       (some (mkCC (x - y).msb (x - y = 0) (x.toNat < y.toNat) ((x - y).toInt ≠ x.toInt - y.toInt))))
     ∧ (op.opc = 0x012 → s.slot t (s.env t) op = sets p (intW (x * y))
       (some (mkCC (x * y).msb (x * y = 0) false ((x * y).toInt ≠ x.toInt * y.toInt))))
     ∧ (op.opc = 0x013 → op.modN % 2 = 0 → y ≠ 0 → s.slot t (s.env t) op = sets p (intW (x.sdiv y))
       (some (mkCC (x.sdiv y).msb (x.sdiv y = 0) false (x = BitVec.intMin 64 && y = -1))))
     ∧ (op.opc = 0x013 → op.modN % 2 = 1 → y ≠ 0 → s.slot t (s.env t) op = sets p (intW (x.srem y))
       (some (mkCC (x.srem y).msb (x.srem y = 0) false (x = BitVec.intMin 64 && y = -1))))
     ∧ (op.opc = 0x013 → y = 0 → s.slot t (s.env t) op = sets p (intW 0) (some (mkCC false true false true))))
  ∧ (∀ (s : State) (t : Thread) (op : Op) (p pa pb : Place), Slot s t op [p, pa, pb] →
       (∀ m n : BitVec 32, (s.env t).at_ pa = ⟨tagCount, m.setWidth 64⟩ → (s.env t).at_ pb = ⟨tagCount, n.setWidth 64⟩ →
         (op.opc = 0x010 → s.slot t (s.env t) op = sets p ⟨tagCount, (m + n).setWidth 64⟩
           (some (mkCC false (m + n = 0) (2 ^ 32 ≤ m.toNat + n.toNat) (2 ^ 32 ≤ m.toNat + n.toNat))))
         ∧ (op.opc = 0x011 → s.slot t (s.env t) op = sets p ⟨tagCount, (m - n).setWidth 64⟩
           (some (mkCC false (m - n = 0) (m.toNat < n.toNat) (m.toNat < n.toNat))))
         ∧ (op.opc = 0x012 → s.slot t (s.env t) op = sets p ⟨tagCount, (m * n).setWidth 64⟩
           (some (mkCC false (m * n = 0) false (2 ^ 32 ≤ m.toNat * n.toNat))))
         ∧ (op.opc = 0x013 → op.modN % 2 = 0 → s.slot t (s.env t) op = sets p ⟨tagCount, (m / n).setWidth 64⟩
           (some (mkCC false (m / n = 0) false (n = 0)))))
       ∧ (∀ (k : BitVec 4) (a y : Word), isAddr k → (s.env t).at_ pa = ⟨k, a⟩ → (s.env t).at_ pb = intW y → op.opc = 0x010 →
         ∃ w cc, s.slot t (s.env t) op = sets p w (some cc) ∧ w.tag = k
           ∧ bits w.pay.toNat 48 3 = bits a.toNat 48 3
           ∧ ((w.pay.toNat % 2 ^ 48 : Nat) : Int) = (((a.toNat % 2 ^ 48 : Nat) : Int) + y.toInt) % 2 ^ 48
           ∧ (ccV cc ↔ ((w.pay.toNat % 2 ^ 48 : Nat) : Int) ≠ ((a.toNat % 2 ^ 48 : Nat) : Int) + y.toInt) ∧ ccC cc = false))
  ∧ (∀ (s : State) (t : Thread) (op : Op) (p pa pb : Place) (k : BitVec 4) (x y : Word), Slot s t op [p, pa, pb] →
       (s.env t).at_ pa = ⟨k, x⟩ →
       (k = tagInt ∨ k = tagBytes → (s.env t).at_ pb = ⟨k, y⟩ →
         (op.opc = 0x018 → s.slot t (s.env t) op = sets p ⟨k, x &&& y⟩ (some (mkCC (x &&& y).msb (x &&& y = 0) false false)))
         ∧ (op.opc = 0x019 → s.slot t (s.env t) op = sets p ⟨k, x ||| y⟩ (some (mkCC (x ||| y).msb (x ||| y = 0) false false)))
         ∧ (op.opc = 0x01A → s.slot t (s.env t) op = sets p ⟨k, x ^^^ y⟩ (some (mkCC (x ^^^ y).msb (x ^^^ y = 0) false false)))
         ∧ (op.opc = 0x01B → s.slot t (s.env t) op
             = sets p ⟨k, x &&& ~~~y⟩ (some (mkCC (x &&& ~~~y).msb (x &&& ~~~y = 0) false false))))
       ∧ (k = tagInt ∨ k = tagBytes → ∀ (j : BitVec 4) (n : Nat), j = tagInt ∨ j = tagCount → (s.env t).at_ pb = ⟨j, y⟩ →
           y.toNat % 64 = n →
         (op.opc = 0x01C → s.slot t (s.env t) op
             = sets p ⟨k, x <<< n⟩ (some (mkCC (x <<< n).msb (x <<< n = 0) (n ≠ 0 && x.getLsbD (64 - n)) false)))
         ∧ (op.opc = 0x01D → s.slot t (s.env t) op
             = sets p ⟨k, x >>> n⟩ (some (mkCC (x >>> n).msb (x >>> n = 0) (n ≠ 0 && x.getLsbD (n - 1)) false)))
         ∧ (op.opc = 0x01E → k = tagInt → s.slot t (s.env t) op
             = sets p ⟨k, x.sshiftRight n⟩
               (some (mkCC (x.sshiftRight n).msb (x.sshiftRight n = 0) (n ≠ 0 && x.getLsbD (n - 1)) false)))))

/-- R237, R238, R240, R241: the operations of one source, and the two comparisons that write CC alone.

R242: SEGADDR builds an address in segment `a` at offset `b`, one past the end included, or raises SEGMENT-LIMIT. -/
def Obligations.MoveCompareTagsAndAddresses : Prop :=
  (∀ (s : State) (t : Thread) (op : Op) (p pa pb : Place) (w y : TWord),
     (Slot s t op [p, pa] → (s.env t).at_ pa = w →
       (op.opc = 0x008 → s.slot t (s.env t) op = sets p w none)
       ∧ (op.opc = 0x014 → w.tag = tagInt → s.slot t (s.env t) op = sets p (intW (-w.pay))
           (some (mkCC (-w.pay).msb (w.pay = 0) (w.pay ≠ 0) (w.pay = BitVec.intMin 64))))
       ∧ (op.opc = 0x023 → s.slot t (s.env t) op = sets p (intW (w.tag.setWidth 64)) (some (mkCC false (w.tag = 0) false false)))
       ∧ (op.opc = 0x024 → w.tag = tagBytes → op.modN % 16 = 1 →
           s.slot t (s.env t) op = sets p (intW w.pay) (some (mkCC w.pay.msb (w.pay = 0) false false)))
       ∧ (op.opc = 0x024 → w.tag = tagInt → op.modN % 16 = 2 →
           s.slot t (s.env t) op = sets p ⟨tagCount, (w.pay.setWidth 32).setWidth 64⟩
             (some (mkCC false (w.pay.setWidth 32 = 0) false (w.pay.toInt < 0 || 2 ^ 32 ≤ w.pay.toInt))))
       ∧ (op.opc = 0x025 → isAddr w.tag → s.slot t (s.env t) op = sets p (intW ((w.pay.setWidth 48).setWidth 64))
           (some (mkCC false (w.pay.setWidth 48 = 0) false false)))
       ∧ (op.opc = 0x026 → w.tag = tagStatus → op.modN % 4 = 3 →
           s.slot t (s.env t) op = sets p ⟨tagCount, w.pay >>> 32⟩ (some (mkCC false (w.pay >>> 32 = 0) false false))))
     ∧ (Slot s t op [pa, pb] → (s.env t).at_ pa = w → (s.env t).at_ pb = y →
       (op.opc = 0x020 → w.tag = tagInt → y.tag = tagInt → s.slot t (s.env t) op
           = setsCC (mkCC (w.pay - y.pay).msb (w.pay = y.pay) (w.pay.toNat < y.pay.toNat)
               ((w.pay - y.pay).toInt ≠ w.pay.toInt - y.pay.toInt)))
       ∧ (op.opc = 0x022 → s.slot t (s.env t) op = setsCC (mkCC false (w.tag.toNat = y.pay.toNat) false false)))
     ∧ (Slot s t op [pa] → (s.env t).at_ pa = w → op.opc = 0x021 → w.tag = tagInt →
         s.slot t (s.env t) op = setsCC (mkCC w.pay.msb (w.pay = 0) false false))
     ∧ (Slot s t op [p] →
       (op.opc = 0x027 → s.slot t (s.env t) op = sets p (intW (t.seen.cc.setWidth 64)) none)
       ∧ (op.opc = 0x028 → s.slot t (s.env t) op = sets p ⟨tagStatus, t.stat0⟩ none)
       ∧ (op.opc = 0x211 → ∀ x, AMap.get? s.sub.psets (s.ctxOf t.sch).pset = some x → s.slot t (s.env t) op
            = sets p ⟨tagHandle, BitVec.ofNat 64 ((s.ctxOf t.sch).pset + x.dev * 2 ^ 16)⟩ none))
     ∧ (Slot s t op [] → op.opc = 0x000 → s.slot t (s.env t) op = .ok ⟨[], none, false⟩))
  ∧ (∀ (s : State) (t : Thread) (op : Op) (p pa pb : Place) (a b : Word), Slot s t op [p, pa, pb] → op.opc = 0x210 →
       (s.env t).at_ pa = intW a →
       ((s.env t).at_ pb = intW b ∨ (b.toNat < 2 ^ 32 ∧ (s.env t).at_ pb = ⟨tagCount, b⟩)) →
       (a.toNat ≤ 7 → 0 ≤ b.toInt → b.toNat ≤ ((s.segsOf t.stb).getD a.toNat Seg.none).limit.toNat → b.toNat < 2 ^ 48 →
         ((s.segsOf t.stb).getD a.toNat Seg.none).limit ≠ 0 →
         s.slot t (s.env t) op = sets p ⟨if ((s.segsOf t.stb).getD a.toNat Seg.none).type = 1 then tagHaddr else tagSaddr,
           a <<< 48 ||| b⟩ none)
       ∧ (7 < a.toNat ∨ b.toInt < 0 ∨ ((s.segsOf t.stb).getD a.toNat Seg.none).limit = 0
           ∨ ((s.segsOf t.stb).getD a.toNat Seg.none).limit.toNat < b.toNat ∨ 2 ^ 48 ≤ b.toNat →
         s.slot t (s.env t) op = .error pcLimit))

/-- R185, R244, R245, R246: BCC branches on CC, BDS on DS, BAL always, leaving IC + 32 in its destination; none of them writes
CC.

R216, R245: the sixteen conditions on CC, and the delay bundle: a branch moves IC by one bundle and holds its target until
the delay bundle has issued; a branch not taken falls through. -/
def Obligations.Branches : Prop :=
  (∀ (s : State) (t : Thread) (op : Op) (x : Src) (a : Word), Target (s.env t) x a →
     (BranchSlot t op 0x030 [x] → s.slot t (s.env t) op
       = .ok ⟨[], some (if ccCond (op.modN % 16) t.seen.cc then some a else none), false⟩)
     ∧ (BranchSlot t op 0x031 [x] → s.slot t (s.env t) op
       = .ok ⟨[], some (if dsCond (if op.long then op.cond else op.modN % 16) t.ds then some a else none), false⟩)
     ∧ (∀ n, BranchSlot t op 0x032 [.frame n, x] → s.slot t (s.env t) op
       = .ok ⟨[(.frame n, intW (t.ic + 32), 2)], some (some a), false⟩))
  ∧ ((∀ n z c v : Bool, (List.range 16).map (fun k => ccCond k (mkCC n z c v))
         = [z, !z, n, !n, c, !c, v, !v, !z && n = v, n = v, n ≠ v, z || n ≠ v, !c && !z, c || z, true, false])
     ∧ ∀ (t : Thread) (b : BitVec 128) (ws : List (Loc × TWord × Nat)), t.rptAct = false →
         (∀ j, t.delay = false → (issued t b ws (some j)).ic = t.ic + 16 ∧ (issued t b ws (some j)).delay = true
           ∧ (issued t b ws (some j)).pbr = j)
         ∧ (t.delay = false → (issued t b ws none).ic = t.ic + 16 ∧ (issued t b ws none).delay = false)
         ∧ (t.delay = true → (issued t b ws none).ic = t.pbr.getD (t.ic + 16) ∧ (issued t b ws none).delay = false
           ∧ (issued t b ws none).pbr = none))

/-- R218: a frame word written in bundle k reads as before in bundle k + 1 and as written in bundle k + 2. -/
def Obligations.FrameWordDistance : Prop :=
  ∀ (t : Thread) (b b' : BitVec 128) (n : Nat) (w : TWord) (j j' : Option (Option Word)), t.rptAct = false → t.inBlock = false →
    n < t.f.length → (∀ p ∈ t.pend, p.loc ≠ .frame n) →
    (issued t b [(.frame n, w, 2)] j).seen.f.getD n TWord.unset = t.f.getD n TWord.unset
    ∧ (issued (issued t b [(.frame n, w, 2)] j) b' [] j').seen.f.getD n TWord.unset = w
    ∧ (∀ m, m ≠ n → t.pend = [] →
        (issued (issued t b [(.frame n, w, 2)] j) b' [] j').seen.f.getD m TWord.unset = t.f.getD m TWord.unset)

/-! ## Sirax: memory, repetition, commit points, transfer commands (05, 06, 07) -/

/-- R248, R249, R261: a load that meets no buffered store, with fewer than 16 loads of its kind outstanding. A global load
reads the bank at once and delivers the word at WAITG; LRS sets the reservation; a host load asks for 16 or 8 bytes. A load
that meets a plain store of its own thread takes the stored word (R223).

R223, R248, R249: a store goes into the store buffer of its thread and takes effect nowhere else. -/
def Obligations.LoadsAndBufferedStores : Prop :=
  (∀ (s : State) (th : Nat) (t : Thread) (b : BitVec 128) (op : Op) (d : Nat) (m : Src) (g : Seg) (off : Nat),
     ((t.outstanding false).length < 16 →
       (∀ w, globalMeet t.sbuf (g.word off) = .none → w = loadedWord (s.gsRead (g.word off)) →
         (Loads s th t b op 0x204 8 d m g off → exec (.opLdg ⟨th, []⟩) s = .next ((s.setTh th { stepped t with
           loads := (stepped t).loads ++ [⟨t.nextId, false, d, g.word off, none, false, some w, false⟩] }).noteIssue th (s.routine t b)))
         ∧ (Loads s th t b op 0x241 8 d m g off → exec (.opLrs ⟨th, []⟩) s = .next ((s.setTh th { stepped t with
           resv := some (g.word off),
           loads := (stepped t).loads ++ [⟨t.nextId, false, d, g.word off, none, false, some w, false⟩] }).noteIssue th (s.routine t b))))
       ∧ (∀ w, globalMeet t.sbuf (g.word off) = .value w → Loads s th t b op 0x204 8 d m g off →
           exec (.opLdg ⟨th, []⟩) s = .next ((s.setTh th { stepped t with
             loads := (stepped t).loads ++ [⟨t.nextId, false, d, g.word off, none, false, some w, false⟩] }).noteIssue th (s.routine t b))))
     ∧ ((t.outstanding true).length < 16 → s.canRead th t.sch →
       (hostMeet t.sbuf (g.host off) g.who false = .none → Loads s th t b op 0x200 16 d m g off →
         exec (.opLdh ⟨th, []⟩) s
           = .next ((s.issueLoad th (stepped t) ⟨t.nextId, true, d, g.host off, g.who, false, none, false⟩).noteIssue th (s.routine t b)))
       ∧ (hostMeet t.sbuf (g.host off) g.who true = .none → Loads s th t b op 0x201 8 d m g off →
         exec (.opLdhr ⟨th, []⟩) s
           = .next ((s.issueLoad th (stepped t) ⟨t.nextId, true, d, g.host off, g.who, true, none, false⟩).noteIssue th (s.routine t b)))))
  ∧ (∀ (s : State) (th : Nat) (t : Thread) (b : BitVec 128) (op : Op) (m a : Src) (g : Seg) (off : Nat) (p : Place),
       t.sbuf.length < 32 →
       (Stores s th t b op 0x202 16 anyTag m a g off p → exec (.opSth ⟨th, []⟩) s
         = .next ((s.setTh th (stored t b ⟨.hostSlot, g.host off, g.who, (s.env t).at_ p⟩)).noteIssue th (s.routine t b)))
       ∧ (Stores s th t b op 0x203 8 isPlainTag m a g off p → exec (.opSthr ⟨th, []⟩) s
         = .next ((s.setTh th (stored t b ⟨.hostRaw, g.host off, g.who, (s.env t).at_ p⟩)).noteIssue th (s.routine t b)))
       ∧ (Stores s th t b op 0x205 8 anyTag m a g off p → exec (.opStg ⟨th, []⟩) s
         = .next ((s.setTh th (stored t b ⟨g.kind, g.word off, none, (s.env t).at_ p⟩)).noteIssue th (s.routine t b))))

/-- R217, R253: RPT with a count: the next bundle issues that many times; a count of 0 passes over it; a non-interruptible count
above 256 raises REPEAT-ILLEGAL.

R255, R256, R258: one step of a block-repeat run whose units can be read and whose store finds room: MOVB moves a unit, FILB
writes the value, CMPB goes on while the units are equal, SCNB while they do not match. (That a CMPB whose bytes are all equal ends with Z
alone is the model's reading, log 37.) -/
def Obligations.RepeatedOperations : Prop :=
  (∀ (s : State) (th : Nat) (t : Thread) (b : BitVec 128) (op : Op) (a : Src) (p : Place) (n : BitVec 32),
     LongOp s th t b op 0x220 [a] → operandChecks (s.env t) 8 [useSrc a (· = tagCount)] = .ok [p] →
     (s.env t).at_ p = ⟨tagCount, n.setWidth 64⟩ →
     (n = 0 → exec (.opRpt ⟨th, []⟩) s = .next ((s.setTh th { stepped t with ic := t.ic + 32 }).noteIssue th (s.routine t b)))
     ∧ (n ≠ 0 → (n.toNat ≤ 256 ∨ op.modN % 2 = 1) → exec (.opRpt ⟨th, []⟩) s = .next ((s.setTh th { stepped t with
         rptAct := true, rptI := decide (op.modN % 2 = 1), rptRem := n.toNat, rptIdx := 0 }).noteIssue th (s.routine t b)))
     ∧ (256 < n.toNat → op.modN % 2 = 0 → exec (.opRpt ⟨th, []⟩) s = .next ((s.programCheck th t pcRepeat).noteIssue th (s.routine t b))))
  ∧ (∀ (s : State) (th : Nat) (t : Thread) (b : BitVec 128) (op : Op) (x y z : Src) (b0 b1 c : TWord) (raw : Bool) (n : Nat),
       raw = decide (op.modN % 2 = 1) → n = low32 c.pay → t.sbuf.length < 32 →
       (∀ p q w, Steps s th t b op 0x230 [x, y, z] (b0, b1, c) [p, q] → UnitRead s t 0 p raw w →
         (n ≠ 1 → exec (.opMovb ⟨th, []⟩) s = .next ((s.setTh th
           (runsOn (stepWrote t q raw (unitWord raw w)) b (stepAddr b0 raw) (stepAddr b1 raw) n)).noteIssue th (s.routine t b)))
         ∧ (n = 1 → exec (.opMovb ⟨th, []⟩) s = .next ((s.setTh th (runEnds (stepWrote t q raw (unitWord raw w)) [])).noteIssue th (s.routine t b))))
       ∧ (∀ q, Steps s th t b op 0x233 [x, y, z] (b0, b1, c) [q] →
         (n ≠ 1 → exec (.opFilb ⟨th, []⟩) s = .next ((s.setTh th
           (runsOn (stepWrote t q raw (unitWord raw b0)) b b0 (stepAddr b1 raw) n)).noteIssue th (s.routine t b)))
         ∧ (n = 1 → exec (.opFilb ⟨th, []⟩) s = .next ((s.setTh th (runEnds (stepWrote t q raw (unitWord raw b0)) [])).noteIssue th (s.routine t b))))
       ∧ (∀ k p q w u, z = .frame k → Steps s th t b op 0x231 [x, y, z] (b0, b1, c) [p, q] → UnitRead s t 1 p raw w →
         UnitRead s t 0 q raw u →
         (unitWord raw w = unitWord raw u → n ≠ 1 → exec (.opCmpb ⟨th, []⟩) s = .next ((s.setTh th
           (runsOn t b (stepAddr b0 raw) (stepAddr b1 raw) n)).noteIssue th (s.routine t b)))
         ∧ (unitWord raw w = unitWord raw u → n = 1 → exec (.opCmpb ⟨th, []⟩) s = .next ((s.setTh th
           (runEnds t (runResult k 0 (mkCC false true false false)))).noteIssue th (s.routine t b)))
         ∧ (unitWord raw w ≠ unitWord raw u → exec (.opCmpb ⟨th, []⟩) s = .next ((s.setTh th
           (runEnds t (runResult k n (ccUnits (unitWord raw w) (unitWord raw u))))).noteIssue th (s.routine t b))))
       ∧ (∀ k p w (hit : Prop), z = .frame k → Steps s th t b op 0x232 [x, y, z] (b0, b1, c) [p] → UnitRead s t 1 p raw w →
         (hit ↔ (if raw then w.pay = b0.pay else w = b0)) → op.modN % 4 < 2 →
         (¬hit → n ≠ 1 → exec (.opScnb ⟨th, []⟩) s = .next ((s.setTh th (runsOn t b b0 (stepAddr b1 raw) n)).noteIssue th (s.routine t b)))
         ∧ (¬hit → n = 1 → exec (.opScnb ⟨th, []⟩) s = .next ((s.setTh th (runEnds t (runResult k 0 0))).noteIssue th (s.routine t b)))
         ∧ (hit → exec (.opScnb ⟨th, []⟩) s = .next ((s.setTh th (runEnds t (runResult k n (mkCC false true false false)))).noteIssue th (s.routine t b)))))

/-- R224, R226, R252: COMMIT, WAITH and WAITG release the store buffer and write the checkpoint record; WAITH and WAITG first make
the loads of their kind visible. After a commit point the buffer is empty and the valid record holds the thread as it
stands. A COMMIT whose stores to the host may not leave yet waits and asks for HOST-WRITE (R325).

R188, R247: END, whatever its slot, releases the thread with its stores held; the program stands ended. -/
def Obligations.CommitPointsAndEnd : Prop :=
  (∀ (s : State) (th : Nat) (t : Thread) (b : BitVec 128) (op : Op), s.canRelease t.sch t.sbuf = false →
     LongOp s th t b op 0x250 [] → exec (.opCommit ⟨th, []⟩) s = .next (s.storeWait t.sch))
  ∧ (∀ (s : State) (th : Nat) (t : Thread) (b : BitVec 128) (op : Op), s.canRelease t.sch t.sbuf →
     (LongOp s th t b op 0x250 [] → exec (.opCommit ⟨th, []⟩) s = .next ((s.commit th (stepped t)).noteIssue th (s.routine t b)))
     ∧ (LongOp s th t b op 0x251 [] → t.returned true → t.failed true = false →
         exec (.opWaith ⟨th, []⟩) s = .next ((s.commit th ((t.settle.deliver true).advance none)).noteIssue th (s.routine t b)))
     ∧ (LongOp s th t b op 0x252 [] → t.returned false → t.failed false = false →
         exec (.opWaitg ⟨th, []⟩) s = .next ((s.commit th ((t.settle.deliver false).advance none)).noteIssue th (s.routine t b)))
     ∧ ∀ u : Thread, (u.sbuf.all fun e => !(e.kind.toHost && s.refusesWrite e.pasid)) → ∃ v, (s.commit th u).th? th = some v ∧ v.sbuf = [] ∧ v.since = 0 ∧ v.ic = u.ic ∧ v.f = u.f
         ∧ (AMap.get? (s.commit th u).sx.ckpt th).bind CkPair.rec_ = some ⟨{ u with sbuf := [], since := 0 }, u.sbuf, .none, true⟩)
  ∧ (∀ (s : State) (th : Nat) (t : Thread) (b : BitVec 128) (ops : List Op) (outs : List SlotOut), Bundle s th t b ops →
       ops.any (opIs 0x001) → chkMap ops (s.slot t (s.env t)) = .ok outs → outs.any (·.fin) →
       exec (.opEnd ⟨th, []⟩) s = .next ((((s.release th (issued t b (writes outs) (branches outs)) .fin).modProg t.sch
         fun p => { p with ending := true, stores := (issued t b (writes outs) (branches outs)).sbuf }).progress t.sch).noteIssue th (s.routine t b)))

/-- R260, R262, R263: TAS leaves bit 0 of the lock word set and delivers the old payload, Z saying that the bit was 0; it leaves a
POISON word as it is. SCS writes only under a reservation on its word, says so in Z, and ends the reservation. -/
def Obligations.Atomics : Prop :=
  (∀ v : Word, tasWord TWord.unset = (intW 1, intW 0, mkCC false true false false)
    ∧ (∀ k, k ≠ tagUnset → k ≠ tagPoison → tasWord ⟨k, v⟩ = (intW (v ||| 1), intW v, mkCC false (!v.getLsbD 0) false false))
    ∧ tasWord ⟨tagPoison, v⟩ = (⟨tagPoison, v⟩, ⟨tagPoison, v⟩, 0))
  ∧ ∀ (s c : State) (th : Nat) (t u : Thread) (b : BitVec 128) (op : Op) (m : Src) (g : Seg) (off : Nat),
    s.canRelease t.sch t.sbuf →
    (∀ d r, LongOp s th t b op 0x240 [.frame d, m] →
      operandChecks (s.env t) 8 [useDst (.frame d), ⟨m, false, true, true, anyTag⟩] = .ok [.frame d, .mem g off] →
      c = s.commitFor th (stepped t) (.tas (g.word off)) → r = tasWord (c.gsRead (g.word off)) →
      (c.gsWrite (g.word off) r.1).th? th = some u →
      exec (.opTas ⟨th, []⟩) s = .next (((c.gsWrite (g.word off) r.1).effectDone th { u with
        pend := u.pend ++ [⟨.frame d, r.2.1, t.issue + 2⟩, ⟨.cc, ⟨tagUnset, r.2.2.setWidth 64⟩, t.issue + 2⟩] }).noteIssue th (s.routine t b)))
    ∧ (∀ a p, LongOp s th t b op 0x242 [m, a] →
      operandChecks (s.env t) 8 [⟨m, false, false, true, anyTag⟩, useSrc a anyTag] = .ok [.mem g off, p] →
      c = s.commitFor th (stepped t) (.scs (g.word off)) → c.th? th = some u →
      (u.resv = some (g.word off) → ∀ v, (c.gsWrite (g.word off) ((s.env t).at_ p)).th? th = some v →
        exec (.opScs ⟨th, []⟩) s = .next (((c.gsWrite (g.word off) ((s.env t).at_ p)).effectDone th { v with
          resv := none, pend := v.pend ++ [⟨.cc, ⟨tagUnset, 4⟩, t.issue + 2⟩] }).noteIssue th (s.routine t b)))
      ∧ (u.resv ≠ some (g.word off) →
        exec (.opScs ⟨th, []⟩) s = .next ((c.effectDone th { u with
          resv := none, pend := u.pend ++ [⟨.cc, ⟨tagUnset, 0⟩, t.issue + 2⟩] }).noteIssue th (s.routine t b))))
    ∧ (AMap.get? (s.effectDone th u).sx.ckpt th).bind CkPair.rec_
      = ((AMap.get? s.sx.ckpt th).bind CkPair.rec_).map fun k => { k with th := u, done := true }

/-- R157, R159, R160, R161, R173, R174, R224: the transfer commands, one clause set for each of the seven. A command whose condition on
DS fails is passed over. One that passes its checks joins its data-chained group, or issues with it; with SPN it first
suspends the program. A failing check is raised. The scrub of an issue sets F16 to F63 to UNSET and empties the local window.

R129: with SPN and a RESUME held, the command takes the RESUME and goes on at once.

(That the checks come before the suspension, and that the control code is p's payload whatever its tag, are the model's choices,
log 64.) -/
def Obligations.TransferCommands : Prop :=
  ∀ (s : State) (th : Nat) (t : Thread) (b : BitVec 128) (op : Op) (hs ps ns : Nat) (w : XWords) (after : List TWord),
    ∀ row ∈ transferRows th, w = words s t op hs ps ns →
    after = (if t.group.isEmpty then w.after else [⟨tagInt, (t.group.headD (w.elem (s.segsOf t.stb))).blk⟩]) →
    (LongOp s th t b op row.1 [.frame hs, .frame ps, .frame ns] → ns + namedCount t (s.env t) op ps ≤ 63 → t.group = [] →
      dsCond op.cond t.ds = false → exec row.2 s = .next ((s.setTh th (stepped t)).noteIssue th (s.routine t b)))
    ∧ (LongOp s th t b op row.1 [.frame hs, .frame ps, .frame ns] → 63 < ns + namedCount t (s.env t) op ps →
      exec row.2 s = .next ((s.programCheck th t pcLimit).noteIssue th (s.routine t b)))
    ∧ (Transfers s th t b op row.1 hs ps ns → transferCheck s t w ≠ 0 →
      exec row.2 s = .next ((s.programCheck th t (transferCheck s t w)).noteIssue th (s.routine t b)))
    ∧ (Transfers s th t b op row.1 hs ps ns → transferCheck s t w = 0 → (w.spn = false ∨ t.spnOk) →
      (w.chd → exec row.2 s = .next ((s.setTh th { stepped t with group := t.group ++ [w.elem (s.segsOf t.stb)] }).noteIssue th (s.routine t b)))
      ∧ (w.chd = false → s.canRelease t.sch t.sbuf → (w.op = .sense → s.winsStore t.sch) →
        (∀ rix, s.turn 37 (s.progKey t.sch) rix t.sch (s.clsOf t.sch) (.own t.sch)) →
        ∃ u, s.issueX th t w (w.elem (s.segsOf t.stb)) after = some u ∧ exec row.2 s = .next (u.noteIssue th (s.routine t b)))
      ∧ (w.chd = false → s.canRelease t.sch t.sbuf = false → exec row.2 s = .next (s.storeWait t.sch)))
    ∧ (Transfers s th t b op row.1 hs ps ns → transferCheck s t w = 0 → w.spn → t.spnOk = false →
      (s.ctxOf t.sch).resreq = false → s.canRelease t.sch t.sbuf → exec row.2 s = .next ((s.suspend th t).noteIssue th (s.routine t b)))
    ∧ (∀ r, Transfers s th t b op row.1 hs ps ns → transferCheck s t w = 0 → w.spn → t.spnOk = false →
      (s.ctxOf t.sch).resreq → r = s.modCtx t.sch (fun c => { c with resreq := false }) →
      (w.chd → exec row.2 s = .next ((r.setTh th { stepped t with group := t.group ++ [w.elem (s.segsOf t.stb)] }).noteIssue th (s.routine t b)))
      ∧ (w.chd = false → r.canRelease t.sch t.sbuf → (w.op = .sense → r.winsStore t.sch) →
        (∀ rix, r.turn 37 (r.progKey t.sch) rix t.sch (r.clsOf t.sch) (.own t.sch)) →
        ∃ u, r.issueX th { t with spnOk := true } w (w.elem (s.segsOf t.stb)) after = some u
          ∧ exec row.2 s = .next (u.noteIssue th (s.routine t b))))
    ∧ (16 ≤ t.f.length → (stepped t).scrub.win = [] ∧ ∀ i, 16 ≤ i → (stepped t).scrub.f.getD i TWord.unset = TWord.unset)

/-- R189, R213, R229: an opcode that no rule defines raises ILLEGAL-OPCODE, a privileged one PRIVILEGED-OP.

R189, R222, R228: a program check ends the program: the context takes PCHK, the program-check bit of CSTAT, and IC, CC and
F0 to F15 as the failing bundle saw them; the thread is gone with its stores, and no other context changes. -/
def Obligations.ProgramChecks : Prop :=
  (∀ (s : State) (th : Nat) (t : Thread) (b : BitVec 128) (op : Op), FirstBad s th t b op →
     (op.info = none → op.customer = false → op.privileged = false →
       exec (.undefinedOpcode th) s = .next ((s.programCheck th t 0x01).noteIssue th (s.routine t b)))
     ∧ (op.privileged → exec (.privilegedOpcode th) s = .next ((s.programCheck th t 0x0E).noteIssue th (s.routine t b))))
  ∧ (∀ (s : State) (th : Nat) (t : Thread) (code : Nat), 0 < code → code < 16 → AMap.sorted s.sx.threads → s.th? th = some t →
       (s.ctxOf t.sch).clrreq = false →
       (s.programCheck th t code).th? th = none
       ∧ ((s.programCheck th t code).ctxOf t.sch).pchk = BitVec.ofNat 8 code
       ∧ ((s.programCheck th t code).ctxOf t.sch).ic = t.seen.ic
       ∧ ((s.programCheck th t code).ctxOf t.sch).cc = t.seen.cc
       ∧ ((s.programCheck th t code).ctxOf t.sch).f = t.seen.f.take 16
       ∧ ((s.programCheck th t code).progOf t.sch).ending = true
       ∧ (s.programCheck th t code).sx.gs = s.sx.gs
       ∧ ∀ k, k ≠ t.sch → (s.programCheck th t code).ctxOf k = s.ctxOf k)

/-! ## Threads: dispatch, text, loads, stops, restores (05, 06, 12) -/

/-- R126, R205, R226: a granted program of a START-PENDING or WAITING subchannel takes a free thread of an engine that is up: it
becomes ACTIVE with DREQ 0, its request leaves Meridian, the thread starts from the context, and a checkpoint record holds
it. No other context changes, nor does host memory see anything.

R228, R401, R227: a thread stops at a stop point when its program must end; a COMMIT is added after 256 bundles outside a
delay bundle; a thread stopped by an engine fault goes on at the spare engine from its checkpoint record, without its
reservation and its buffered stores, and its loads are issued again. -/
def Obligations.ThreadsStartStopAndRestore : Prop :=
  (∀ (s : State) (sch th : Nat), s.leastGranted sch →
     ((s.ctxOf sch).state = .startPending ∨ (s.ctxOf sch).state = .waiting) → s.poolFree 1 (s.ctxOf sch).cls →
     s.threadFree th (s.ctxOf sch).cls → s.sx.stopped.any (fun e => e.2.sch = sch) = false →
     Leads (.dispatch sch th .sound) s fun t =>
       (t.ctxOf sch).state = .active ∧ (t.ctxOf sch).dreq = false ∧ t.granted (.dispatch sch) = false
       ∧ (∃ u, t.th? th = some u ∧ u.sch = sch ∧ u.ic = (s.ctxOf sch).ic ∧ u.budget = (s.ctxOf sch).budget ∧ u.sbuf = []
         ∧ u.f = (s.ctxOf sch).f ++ List.replicate 48 TWord.unset
         ∧ (AMap.get? t.sx.ckpt th).bind CkPair.rec_ = some ⟨u, [], .none, true⟩)
       ∧ (∀ k, k ≠ sch → t.ctxOf k = s.ctxOf k) ∧ t.out = s.out ∧ t.sx.gs = s.sx.gs ∧ t.q = s.q ∧ t.dev = s.dev)
  ∧ ((∀ (s : State) (th : Nat) (t : Thread), s.th? th = some t → s.stopping t.sch → t.stopPoint → s.engineUp th →
       exec (.threadStop th) s = .next (s.stopThread th t))
     ∧ (∀ (s : State) (th : Nat) (t : Thread), s.th? th = some t → 256 ≤ t.since → t.delay = false → s.engineUp th →
       s.canRelease t.sch t.sbuf → ∀ bad fixed, exec (.autoCommit ⟨th, bad, fixed⟩) s
         = .next ((s.releaseFaults t.sch t.sbuf ⟨th, bad, fixed⟩).commit th t))
     ∧ (∀ (s : State) (th th' : Nat) (t : Thread) (l : Load), AMap.wf s.sub.ctx Ctx.zero →
       AMap.get? s.sx.stopped th = some t → s.mayRestore th th' t → (t.loads = [] ∨ (t.loads = [l] ∧ l.host = false ∧ l.dst < 64)) →
       Leads (.threadRestore th th' ⟨.sound, []⟩) s fun u =>
         u.th? th' = some { t with
           resv := none, sbuf := [], lines := [], loads := t.loads.map fun l => { l with got := some (loadedWord (s.gsRead l.addr)) } }
         ∧ (AMap.get? u.sx.ckpt th').bind CkPair.rec_ = some ⟨{ t with resv := none, sbuf := [], lines := [] }, [], .none, true⟩
         ∧ (u.ctxOf t.sch).dreq = false ∧ u.sx.gs = s.sx.gs ∧ u.out = s.out ∧ u.link = s.link))

/-- R153, R154: a thread that can run, with no bundle at IC and a sound IC, reads its 64-byte line on a free tag; an unsound IC ends its
program, whether the line is there or not; a successful completion adds the line to its buffer.

R65, R198, R251: a completion gives an outstanding host load its word, POISON when the completion was poisoned; any other
failure marks the load, which ends the program at its WAITH. -/
def Obligations.TextAndHostLoads : Prop :=
  ((∀ (s : State) (th tag : Nat) (t : Thread), s.th? th = some t → s.runs th t →
     (s.bundle th t = none → fetchCheck (s.segsOf t.stb) t.ic = 0 → s.tagFree tag → s.readTurn th t.sch (.text th) →
       s.link.reads.any (fun e => e.2 = .text th (lineAddr (s.segsOf t.stb) t.ic)) = false →
       exec (.textLineFetch th tag) s
         = .next (((s.unwait 2 (.text th)).takeRead tag (.text th (lineAddr (s.segsOf t.stb) t.ic))).hostRead tag
             (BitVec.ofNat 64 (64 * lineAddr (s.segsOf t.stb) t.ic)) ((s.segsOf t.stb).getD 0 Seg.none).who 64))
     ∧ (t.cur = none → fetchCheck (s.segsOf t.stb) t.ic ≠ 0 →
       exec (.textLineFetch th tag) s = .next (s.programCheck th t (fetchCheck (s.segsOf t.stb) t.ic))))
   ∧ (∀ (s : State) (th tag a : Nat) (t : Thread) (line : BitVec 512), AMap.get? s.link.reads tag = some (.text th a) →
     s.th? th = some t → s.link.noIssue.contains tag = false → s.link.ide.discarding = false →
     exec (.textLineArrival tag .ok ⟨line, .sound⟩) s
       = .next (((s.dropRead tag).nowReady th).setTh th { t with lines := t.lines ++ [⟨a, line⟩] })
     ∧ exec (.textLineArrival tag .ok ⟨line, .bad⟩) s
       = .next ((((s.dropRead tag).memError 3 0 0 t.sch).poisoned t.sch).endThread th t)))
  ∧ (∀ (s : State) (th tag id : Nat) (t : Thread) (l : Load) (data : BitVec 128), AMap.get? s.link.reads tag = some (.load th id) →
       s.th? th = some t → t.loads.find? (fun x => x.id = id) = some l → s.link.noIssue.contains tag = false →
       s.link.ide.discarding = false →
       exec (.hostLoadReturn tag .ok ⟨data, .sound⟩) s
         = .next (((s.dropRead tag).nowReady th).setTh th { t with loads := t.loads.map fun x =>
             if x.id = id then { x with got := some (hostWord x.raw false data) } else x })
       ∧ exec (.hostLoadReturn tag .poison ⟨data, .sound⟩) s
         = .next (((((s.dropRead tag).countCpl .poison).poisoned t.sch).nowReady th).setTh th { t with
           loads := t.loads.map fun x => if x.id = id then { x with got := some ⟨tagPoison, data.extractLsb' 0 64⟩ } else x })
       ∧ exec (.hostLoadReturn tag .ok ⟨data, .bad⟩) s
         = .next ((((s.dropRead tag).memError 3 0 0 t.sch).nowReady th).setTh th { t with
           loads := t.loads.map fun x => if x.id = id then { x with got := some ⟨tagPoison, data.extractLsb' 0 64⟩ } else x })
       ∧ exec (.hostLoadReturn tag .ur ⟨data, .sound⟩) s
         = .next ((((s.dropRead tag).countCpl .ur).nowReady th).setTh th { t with
           loads := t.loads.map fun x => if x.id = id then { x with fail := true } else x })
       ∧ hostWord true false data = ⟨tagBytes, data.extractLsb' 0 64⟩
       ∧ (data.extractLsb' 64 4 = tagInt → hostWord false false data = intW (data.extractLsb' 0 64)))

/-! ## Resets of the function, keys of the link, and the responders (02, 13) -/

/-- R60, R62, R64, R67, R136, R496: a function level reset destroys queues, programs, threads, tables and exchanges, keeps GEN, the
link, its keys and sessions, and ends with its FRS message; each exchange in the hands of a device is aborted, and a controller or
logical unit that does not answer in 50 ms is reset (R367); D3hot does the same but keeps configuration space and the
admin pair; a hot reset, link disable or DL_Down is a warm reset of cause 3 that holds for 1 ms. (Which aborts stay unanswered is free,
log 73, and that D3hot keeps the MSI-X table is the model's choice, log 55.) -/
def Obligations.FunctionAndLinkResets : Prop :=
  ∀ (s : State), s.link.ep ≠ .held →
    (Leads .flr s fun t => t.link.bme = false ∧ t.link.mse = false ∧ t.link.d3 = false ∧ t.link.vecs = [] ∧ t.link.ep = s.link.ep
      ∧ t.link.rate = s.link.rate ∧ t.link.ide = s.link.ide ∧ t.link.sessions = s.link.sessions ∧ t.q.sqs = [] ∧ t.q.cqs = []
      ∧ t.sub.prog = [] ∧ t.sub.devs = [] ∧ t.sub.psets = [] ∧ t.sx.threads = [] ∧ t.sx.segTabs = [] ∧ t.sx.gs = []
      ∧ t.dev.exch = [] ∧ t.md.reqs = [] ∧ t.pw.flrs = inc16 s.pw.flrs ∧ t.time = s.time
      ∧ (AMap.wf s.sub.ctx Ctx.zero → ∀ sch, t.ctxOf sch = { Ctx.zero with gen := (s.ctxOf sch).gen })
      ∧ (∀ x ∈ s.dev.exch, (x.2.abortToSend → Out.devAbort x.1 ∈ t.out)
        ∧ (x.2.owesAbort → Config.abortUnanswered s.fresh x.1 → ∃ y ∈ s.dev.exch, x.2.sameSlots y.2
          ∧ (y.2.kind = 1 → Out.ctrlReset y.2.quad y.2.port y.2.ctrl ∈ t.out)
          ∧ (y.2.kind ≠ 1 → Out.lunReset y.2.quad y.2.port y.2.ctrl (((AMap.get? s.sub.devs y.2.dev).map (·.lunid)).getD 0) ∈ t.out)))
      ∧ ∃ o, t.out = s.out ++ o ++ [.frs])
    ∧ (s.link.d3 = false → Leads .d3hotEntry s fun t => t.link.d3 = true ∧ t.link.bme = s.link.bme ∧ t.link.vecs = s.link.vecs
      ∧ (∀ e ∈ t.q.sqs, e.1 = 0) ∧ (∀ e ∈ t.q.cqs, e.1 = 1) ∧ t.q.admEnable = s.q.admEnable ∧ t.sub.prog = []
      ∧ t.sx.threads = [] ∧ t.dev.exch = [] ∧ t.time = s.time)
    ∧ (s.pw.released → s.pw.trip = false → s.pw.held = false → Leads .linkResetEvent s fun t => t.link = Link.reset
      ∧ t.q = Queues.reset ∧ t.sub = Subch.reset ∧ t.sx = Sirax.reset ∧ t.dev.exch = [] ∧ t.pw.warm = inc16 s.pw.warm
      ∧ t.pw.last = 3 ∧ t.pw.bootDue = true ∧ t.pw.holdDue = some (addNs s.time 1000000) ∧ t.pl.alm = s.pl.alm
      ∧ t.time = s.time)

/-- R54, R56: KEY_PROG stores a key that takes effect with KEY_SET_GO, each answered in its session (that the stream keeps its state when
the key was active, and that a K-bit switch goes for both directions of its sub-stream, are the model's choices, log 64); the stream is
Secure exactly
while every sub-stream has an active key in both directions; a check failure makes it Insecure and discards its TLPs. -/
def Obligations.LinkIde : Prop :=
  ∀ (s : State),
    (∀ id sub tx k1 key x, s.secureSession id = some x → Leads (.keyProg id sub tx k1 key) s fun t =>
      t.link.ide = { s.link.ide with
        keys := (s.link.ide.keys.filter fun k => !k.named sub tx k1) ++ [⟨sub, tx, k1, key, false⟩] }
      ∧ t.out = s.out ++ [.spdm x.tr 0x7E (Config.spdmBody s.fresh 0x7E)])
    ∧ (∀ id sub tx k1 x, s.secureSession id = some x → exec (.keySetGo id sub tx k1) s
      = .next (({ s with link := { s.link with ide := { s.link.ide with
          keys := s.link.ide.keys.map fun (k : IdeKey) => if k.named sub tx k1 then { k with active := true } else k } } }.ideState).spdmSay
            x.tr 0x7E))
    ∧ (∀ id sub tx k1 x, s.secureSession id = some x → exec (.keySetStop id sub tx k1) s
      = .next (({ s with link := { s.link with ide := { s.link.ide with
          keys := s.link.ide.keys.map fun (k : IdeKey) => if k.named sub tx k1 then { k with active := false } else k } } }.ideState).spdmSay
            x.tr 0x7E))
    ∧ (s.link.ide.complete → s.link.bme = false → s.ideState.link.ide.secure = true ∧ s.ideState.link.ide.discarding = false)
    ∧ (s.link.ide.complete = false → s.ideState.link.ide.secure = false)
    ∧ (∀ sub k1, s.link.ide.secure → s.link.ide.keys.any (fun k => k.sub = sub && k.k1 = k1 && k.active) →
      exec (.keySetSwitch sub k1) s = .next { s with link := { s.link with ide := { s.link.ide with
        setK1 := (s.link.ide.setK1.filter fun e => e.1 ≠ sub) ++ [(sub, k1)] } } })
    ∧ (s.link.ide.secure → Leads .ideCheckFailure s fun t => t.link.ide.secure = false ∧ t.link.ide.discarding = true
      ∧ t.link.aer.ide = true ∧ (∀ k ∈ t.link.ide.keys, k.active = false) ∧ t.link.mayIssue = false ∧ t.q = s.q
      ∧ t.sub = s.sub ∧ t.sx = s.sx ∧ t.dev = s.dev ∧ t.out = s.out
      ∧ (s.pl.alm.queue.length < 256 → t.pl.alm.queue.length = s.pl.alm.queue.length + 1))

/-- R51, R52, R53, R418, R444: the SPDM, DOE and MCTP responders once Plinth runs. Each transport keeps its own connection, at version
1.3 with the algorithms of R52; a request out of order is answered with ERROR. (The model's choices, log 12: what a response carries
beside, and that a DOE object leaves 16,368 bytes for a part of a chain.) -/
def Obligations.Responders : Prop :=
  ∀ (s : State) (tr : Transport), s.spdmUp →
    (Leads (.spdmGetVersion tr) s fun t => t.conn tr = ⟨true, false, false⟩
      ∧ t.out = s.out ++ [.spdmVersion tr 1 3, .spdm tr 0x04 (Config.spdmBody s.fresh 0x04)] ∧ ∀ o, o ≠ tr → t.conn o = s.conn o)
    ∧ ((s.conn tr).version → Leads (.spdmGetCapabilities tr) s fun t => t.conn tr = { s.conn tr with caps := true }
      ∧ t.out = s.out ++ [.spdm tr 0x61 (Config.spdmBody s.fresh 0x61)])
    ∧ ((s.conn tr).version = false → exec (.spdmGetCapabilities tr) s = .next ((s.heard tr).emit (.spdm tr 0x7F [0x04, 0])))
    ∧ ((s.conn tr).caps → Leads (.spdmNegotiateAlgorithms tr) s fun t => t.conn tr = { s.conn tr with algs := true }
      ∧ t.out = s.out ++ [.spdmAlgs tr [.ecdsaP384, .sha384, .ecdheSecp384r1, .aes256Gcm],
          .spdm tr 0x63 (Config.spdmBody s.fresh 0x63)])
    ∧ ((s.conn tr).algs → s.certChain 1 = none → exec (.spdmGetDigests tr) s = .next ((s.heard tr).emit
        (.spdm tr 0x01 (1#8 :: digestBytes (Config.sha384 Config.chain0)))))
    ∧ (∀ slot off len c, (s.conn tr).algs → s.certChain slot = some c →
      exec (.spdmGetCertificate tr slot off len) s = .next ((s.heard tr).emit (.spdm tr 0x02 (slice c off
        (if tr = .doe then min len 16368 else len)))))
    ∧ (∀ slot nonce c, (s.conn tr).algs → s.certChain slot = some c → Leads (.spdmChallenge tr slot nonce) s fun t =>
      t.out = s.out ++ [.spdm tr 0x03 (digestBytes (Config.sha384 c)
        ++ fit 96 (Config.sign s.fresh (digestBytes (Config.sha384 c) ++ leBytes 32 nonce.toNat)))] ∧ t.fresh = s.fresh + 1)
    ∧ (∀ index nonce d, (s.conn tr).algs → index ≠ 0x40 → s.measurement index = some d →
      exec (.spdmGetMeasurements tr index nonce) s = .next ((s.heard tr).emit (.spdm tr 0x60 (digestBytes d))))
    ∧ (∀ nonce, (s.conn tr).algs → Leads (.spdmGetMeasurements tr 0x40 nonce) s fun t => t.out = s.out ++ [.spdm tr 0x60
        (s.quoteBody (leBytes 32 nonce.toNat)
          ++ fit 96 (Config.sign s.fresh (asciiQuote ++ s.quoteBody (leBytes 32 nonce.toNat))))])
    ∧ (∀ id, (s.conn tr).algs → s.link.sessions.any (fun x => x.id = id) = false → s.link.sessions.length < 4 →
      Leads (.spdmKeyExchange tr id) s fun t => t.link.sessions = s.link.sessions ++ [⟨id, tr, false, 0⟩]
        ∧ t.out = s.out ++ [.spdm tr 0x64 (Config.spdmBody s.fresh 0x64)])
    ∧ (∀ id, (s.conn tr).algs → 4 ≤ s.link.sessions.length →
      Leads (.spdmKeyExchange tr id) s fun t => t.link = s.link)
    ∧ (∀ id, s.session tr id false → Leads (.spdmFinish tr id) s fun t =>
      t.link.sessions = s.link.sessions.map (fun x => if x.id = id then { x with finished := true } else x)
        ∧ t.out = s.out ++ [.spdm tr 0x65 (Config.spdmBody s.fresh 0x65)])
    ∧ (∀ id, s.session tr id true → Leads (.spdmHeartbeat tr id) s fun t => t.link = s.link
        ∧ t.out = s.out ++ [.spdm tr 0x68 (Config.spdmBody s.fresh 0x68)])
    ∧ (∀ id, s.session tr id true → Leads (.spdmKeyUpdate tr id) s fun t =>
      t.link.sessions = s.link.sessions.map (fun x => if x.id = id then { x with updates := x.updates + 1 } else x)
        ∧ t.out = s.out ++ [.spdm tr 0x69 (Config.spdmBody s.fresh 0x69)])
    ∧ (∀ id, s.session tr id true → Leads (.spdmEndSession tr id) s fun t =>
      t.link.sessions = s.link.sessions.filter (fun x => x.id ≠ id)
        ∧ t.out = s.out ++ [.spdm tr 0x6C (Config.spdmBody s.fresh 0x6C)])
    ∧ (∀ code, exec (.spdmUnsupportedRequest tr code) s = .next ((s.heard tr).emit (.spdm tr 0x7F [0x07, code])))
    ∧ (exec (.doeDiscovery 1) s = .next ((s.heard .doe).emit (.doe [0x01, 0x00, 0x01, 0x02])))
    ∧ (∀ e, Leads (.mctpControlMessage (some e)) s fun t => t.link.eid = e ∧ t.out = s.out ++ [.mctp (Config.mctpBody s.fresh)])

/-! ## Meridian (10) -/

/-- R329, R330, R331, R334, R335, R346, R479: a grant goes to the waiting request with the smallest key: no other waiting request that can
be served ranks before it while all keys lie within half the range of the 48-bit difference. A resource other than ENGINE has one
holder at a time; a frozen one grants nothing. A completion, message or answer to a device goes out with its grant; the supervisor's and
the threads' writes take their turn in a row of their own. The freeze is drained once no frozen
resource is held; a program over its cost turns class 7; a re-test runs once; the deadline watch only counts. -/
def Obligations.MeridianEvents : Prop :=
  ∀ (s : State),
    (∀ res r, s.nextGrant res = some r → exec (.meridianGrant res) s = .next (({ s with md := { s.md with
        reqs := s.md.reqs.map fun q => if q = r then { q with granted := true } else q } } : State).serve r.who)
      ∧ r ∈ s.md.reqs ∧ r.res = res ∧ r.granted = false ∧ s.md.frozen res = false
      ∧ ∀ base : Time, (∀ q ∈ s.md.reqs, (q.dl - base).toNat < 2 ^ 47) →
        ∀ q ∈ s.md.reqs, q.res = res → q.granted = false → s.servable q → q.less r = false)
    ∧ (∀ res q, q ∈ s.md.reqs → q.res = res → q.granted = false → s.servable q → s.md.frozen res = false → res ≠ 1 →
      (∀ x ∈ s.md.reqs, x.res = res → x.who.selfServed = false) →
      (res = 0 ∨ ∀ x ∈ s.md.reqs, x.res = res → x.granted = false) → ∃ r, s.nextGrant res = some r)
    ∧ (∀ res x, x ∈ s.md.reqs → x.res = res → x.granted → res ≠ 0 → exec (.meridianGrant res) s = .next s)
    ∧ (∀ res, s.md.frozen res → exec (.meridianGrant res) s = .next s)
    ∧ (∀ sch, AMap.has s.sub.prog sch → (s.progOf sch).demoted = false → s.clsOf sch < 7 →
      (s.progOf sch).cost * 8 < s.issued sch * 5 → exec (.costOverrun sch) s
        = .next { s.modProg sch (fun p => { p with demoted := true }) with md := { s.md with overrun := inc16 s.md.overrun } })
    ∧ (∀ sch, s.issued sch * 5 ≤ (s.progOf sch).cost * 8 → exec (.costOverrun sch) s = .next s)
    ∧ (s.md.drained = false → s.md.holding = false → exec .freezeDrained s
      = .next ({ s with md := { s.md with drained := true } }.irq 10))
    ∧ (∀ change, change ∈ s.md.retests → s.md.commit = none → s.md.passed = false → exec (.capacityRetest change) s
      = .next ({ s with md := { s.md with retests := s.md.retests.erase change } }.retest change))
    ∧ (∀ change u, u = { s with md := { s.md with retests := s.md.retests.erase change } } →
      (s.testCapacity s.md.sched s.demands = none → s.md.degraded = false →
        (u.retest change).md.degraded = false ∧ (u.retest change).out = s.out)
      ∧ (∀ x, s.testCapacity s.md.sched s.demands = some x → (u.retest change).md.degraded = true
        ∧ (u.retest change).md.failKind = x.kind ∧ (u.retest change).md.failIndex = x.index))
    ∧ (∀ sch, (s.ctxOf sch).cls ≤ 5 → s.dispatchQueue.contains sch → (s.progOf sch).missed = false →
      reached s.time (s.ctxOf sch).deadline → exec (.deadlineWatchExpiry sch) s
        = .next { s.modProg sch (fun p => { p with missed := true }) with pw := { s.pw with
            dlMiss := inc16 s.pw.dlMiss,
            maxLag := max s.pw.maxLag (min 0xFFFF ((s.time - (s.ctxOf sch).deadline).toNat / 100)) } })

/-! ## Ports, lanes, sideband and discovery (11) -/

/-- R382 to R385: presence, power and sideband of a port. Power follows 10 ms of presence, the release of PERST_N follows the power
delay, training follows that and is tried again every second; a removed device loses its power 10 ms later, and a switch whose
read shows another level raises its fault; SGPIO frames go out every 10 ms and management polls every second. -/
def Obligations.PortPowerAndSideband : Prop :=
  ∀ (s : State) (quad port : Nat),
    (s.hasPort quad port → (s.portOf quad port).present = false → (s.portOf quad port).debounce = none →
      exec (.presenceAssert quad port) s
        = .next (s.modPort quad port fun p => { p with debounce := some (addNs s.time 10000000) }))
    ∧ (∀ due i2c, (s.portOf quad port).debounce = some due → s.quadTimer quad due →
      (s.pw.sbLow = false → Leads (.presenceDebounced quad port true i2c) s fun t => (t.portOf quad port).present = true
        ∧ (t.portOf quad port).debounce = none ∧ (t.portOf quad port).pwren = true ∧ (t.portOf quad port).rerun = true
        ∧ (t.portOf quad port).powerDue = some (addNs s.time (1000 * (s.quadOf quad).cfg.pwrDelay))
        ∧ (i2c ∨ (s.quadOf quad).i2cF.getLsbD port → s.pw.extest = false → t.out = s.out ++ [.pin quad port 0 true]))
      ∧ (port < 4 → (s.portOf quad port).st ≠ 2 → Leads (.presenceDebounced quad port false i2c) s fun t => (t.portOf quad port).pwren = false
        ∧ (t.quadOf quad).pwrenF.getLsbD port = true ∧ (t.portOf quad port).powerDue = none))
    ∧ (∀ due, (s.portOf quad port).powerDue = some due → s.quadTimer quad due → isPcie (s.quadOf quad).cfg.mode → s.refOk quad →
      Leads (.powerDelayExpiry quad port true) s fun t => (t.portOf quad port).perst = false ∧ (t.portOf quad port).st = 1
        ∧ (t.portOf quad port).powerDue = none ∧ (t.portOf quad port).retryDue = some (addNs s.time 1000000000)
        ∧ (s.pw.extest = false → t.out = s.out ++ [.pin quad port 1 true, .train quad port ((s.quadOf quad).cfg.flags.getLsbD 1)]))
    ∧ (∀ i2c, s.hasPort quad port → (s.portOf quad port).present = false → exec (.presenceDeassert quad ⟨port, i2c⟩) s
        = .next (s.modPort quad port fun p => { p with debounce := none }))
    ∧ (∀ i2c, s.hasPort quad port → (s.portOf quad port).present → (s.portOf quad port).st ≠ 2 →
      (∀ g ∈ s.dev.ghosts, g.2.quad ≠ quad ∨ g.2.port ≠ port) → Leads (.presenceDeassert quad ⟨port, i2c⟩) s fun t =>
        (t.portOf quad port).present = false ∧ (t.portOf quad port).st = 0 ∧ (t.portOf quad port).powerDue = none
        ∧ (t.portOf quad port).offDue = some (addNs s.time 10000000) ∧ (t.portOf quad port).rerun = true)
    ∧ (∀ due, (s.portOf quad port).offDue = some due → s.quadTimer quad due →
      (Leads (.pwrenOffDelayExpiry quad ⟨port, true⟩) s fun t => (t.portOf quad port).pwren = false
        ∧ (t.portOf quad port).offDue = none ∧ (s.pw.extest = false → t.out = s.out ++ [.pin quad port 0 false]))
      ∧ (port < 4 → (s.portOf quad port).st ≠ 2 → Leads (.pwrenOffDelayExpiry quad ⟨port, false⟩) s fun t =>
        (t.portOf quad port).pwren = false ∧ (t.quadOf quad).pwrenF.getLsbD port = true))
    ∧ (∀ due, (s.portOf quad port).retryDue = some due → s.quadTimer quad due →
      ((s.portOf quad port).st = 1 ∨ (s.portOf quad port).st = 3) →
      (s.portOf quad port).pwren → s.refOk quad → port < 4 → Leads (.nolinkRetry quad port) s fun t =>
        (t.quadOf quad).nolinkF.getLsbD port = true ∧ (t.portOf quad port).st = 1
        ∧ (t.portOf quad port).retryDue = some (addNs s.time 1000000000)
        ∧ ((s.quadOf quad).nolinkF.getLsbD port → isPcie (s.quadOf quad).cfg.mode →
          t.out = s.out ++ [.train quad port ((s.quadOf quad).cfg.flags.getLsbD 1)]))
    ∧ (∀ due, (s.quadOf quad).sgpioDue = some due → s.quadTimer quad due → (s.quadOf quad).cfg.flags.getLsbD 3 →
      (s.quadOf quad).sgpioF = false →
      (s.pw.sbLow = false → Leads (.sgpioFrame quad true) s fun t => (t.quadOf quad).sgpioDue = some (addNs s.time 10000000)
        ∧ t.out = s.out ++ [.sgpio quad (s.sgpioBits quad)])
      ∧ (Leads (.sgpioFrame quad false) s fun t => (t.quadOf quad).sgpioDue = none ∧ (t.quadOf quad).sgpioF = true))
    ∧ (∀ due resp, (s.portOf quad port).pollDue = some due → s.quadTimer quad due → (s.portOf quad port).pwren →
      (s.portOf quad port).i2cOpen = false → Leads (.mgmtPoll quad port (some resp)) s fun t =>
        (t.portOf quad port).mgmt = (resp.setWidth 25 ||| 0x1000000#25)
        ∧ (t.portOf quad port).pollDue = some (addNs s.time 1000000000) ∧ t.out = s.out ++ [.i2c quad port])
    ∧ (∀ due, reached s.time due = false → (s.portOf quad port).debounce = some due → (s.portOf quad port).offDue = some due →
      exec (.presenceDebounced quad port true true) s = .next s ∧ exec (.pwrenOffDelayExpiry quad ⟨port, true⟩) s = .next s)

/-- R356, R359, R361, R368, R379, R380, R386: a link that trains to the highest rate that its ends share brings its port up on the lanes
that it takes, with low power as LPM has it, and marks it for a discovery run; a frame wakes a link that has rested; a lane fault sets its
code and raises the quad's interrupt, and a reversed order is corrected on a root port of more than one lane; error and event messages of
devices count, write an event or ask for a run. -/
def Obligations.PortLinksAndLanes : Prop :=
  ∀ (s : State) (quad port : Nat),
    (∀ rate lanes use, (s.portOf quad port).st = 1 → s.refOk quad → rateOk (s.quadOf quad).cfg rate.reached →
      use = linkLanes (s.quadOf quad).cfg.mode port lanes → use.1 ≠ [] → rate.reached = (s.quadOf quad).cfg.shared rate.partner →
      Leads (.portLinkUp quad port rate lanes) s fun t => (t.portOf quad port).st = 2 ∧ (t.portOf quad port).rate = rate.reached
        ∧ (t.portOf quad port).width = use.1.length ∧ (t.portOf quad port).rerun = true ∧ (t.portOf quad port).retryDue = none
        ∧ (t.portOf quad port).pm = (s.quadOf quad).cfg.flags.getLsbD 5 ∧ (t.portOf quad port).used = s.time
        ∧ (isPcie (s.quadOf quad).cfg.mode → t.out = s.out ++ [.linkPower quad port ((s.quadOf quad).cfg.flags.getLsbD 5)
          (!(s.quadOf quad).cfg.flags.getLsbD 5), .timeoutRange quad port]) ∧ t.dev.exch = s.dev.exch)
    ∧ (s.portUp quad port → (s.portOf quad port).pm → reached s.time (addNs (s.portOf quad port).used 100000) →
      (s.usePort quad port).out = s.out ++ [.linkWake quad port] ∧ ((s.usePort quad port).portOf quad port).used = s.time)
    ∧ (∀ lane, portOfLane (s.quadOf quad).cfg.mode lane = some port →
      (exec (.laneFault quad lane .polarity) s = .next ((s.modQuad quad fun q => { q with
        lanes := modAt q.lanes lane fun l => { l with polinv := true } }).irq (64 + quad)))
      ∧ (isPcie (s.quadOf quad).cfg.mode → 1 < (modeLanes (s.quadOf quad).cfg.mode port).length →
        exec (.laneFault quad lane .reversed) s = .next ((s.modQuad quad fun q => { q with
          lanes := modAt q.lanes lane fun l => { l with rev := true } }).irq (64 + quad)))
      ∧ (isSas (s.quadOf quad).cfg.mode → exec (.laneFault quad lane .reversed) s = .next s)
      ∧ (exec (.laneFault quad lane .rate) s = .next ((((s.modQuad quad fun q => { q with
        lanes := modAt q.lanes lane fun l => { l with code := 3 } }).irq (64 + quad)).capacity (3 + quad)).signal 4))
      ∧ ((s.portOf quad port).st ≠ 2 → exec (.laneFault quad lane .short) s = .next (((((s.modQuad quad fun q => { q with
        lanes := modAt q.lanes lane fun l => { l with code := 1, inuse := false, off := false } }).irq (64 + quad)).modQuad quad fun q =>
          { q with conns := q.conns.filter fun c => c.phy ≠ lane }).event (32 + quad) 5 8 quad port 1 0).signal 4)))
    ∧ (s.rootUp quad port →
      exec (.errCorMessage quad port) s = .next (s.modQuad quad fun q => { q with corMsg := inc16 q.corMsg })
      ∧ exec (.errNonfatalMessage quad port) s = .next ((s.event (32 + quad) 5 4 quad port 0 0).emit (.aerClear quad port))
      ∧ ((s.portOf quad port).ctrls ≠ [] → exec (.nvmeAsyncEvent quad port) s
        = .next ((s.modPort quad port fun p => { p with rerun := true }).irq (64 + quad))))
    ∧ (s.portUp quad port → isSas (s.quadOf quad).cfg.mode → exec (.sasBroadcastChange quad port) s
        = .next ((s.modPort quad port fun p => { p with rerun := true }).irq (64 + quad)))

/-- R368 to R374, R383, R387: a discovery run marks its port, hands one record to the Almanac for each identity read, and at its
end lists what it found, raising DGEN exactly when the list changed, unless a QRESET has ended it; a quad reset waits for the
grants of its egress, then empties the FIFOs and connections of the quad; a retry clears exactly the sideband faults whose test now passes. -/
def Obligations.DiscoveryAndQuadResets : Prop :=
  ∀ (s : State) (quad port : Nat),
    (∀ ids, s.pw.supUp → s.hasPort quad port → (s.portOf quad port).rerun → (s.portOf quad port).running = false →
      (s.quadOf quad).resetReq = false → Leads (.discoveryRunStart quad port ids) s fun t =>
        (t.portOf quad port).running = true ∧ (t.portOf quad port).rerun = false ∧ t.dev.disc = s.dev.disc
        ∧ t.pl.alm.queue.length + t.pl.alm.hold.length = s.pl.alm.queue.length + s.pl.alm.hold.length + (if (s.portOf quad port).st = 2 then ids.length else 0))
    ∧ (∀ found, s.pw.supUp → (s.portOf quad port).running → (s.quadOf quad).resetReq = false → s.idsWaiting quad port = false →
      Leads (.discoveryRunEnd quad port found) s fun t => (t.portOf quad port).running = false
        ∧ (t.portOf quad port).devs = (if (s.portOf quad port).st = 2 then
            (found.filter fun f => f.what.fits (s.quadOf quad).cfg.mode).length else 0)
        ∧ t.dev.dgen = (if t.dev.disc = s.dev.disc then s.dev.dgen else s.dev.dgen + 1)
        ∧ (∀ f, found = [f] → f.what.fits (s.quadOf quad).cfg.mode → (s.portOf quad port).st = 2 → s.dev.disc = [] → f.uid ≠ 0 →
          t.dev.disc = [(0, s.findRec quad port f (blankRec (s.dev.dgen + 1)) [f.path quad port (s.quadOf quad).cfg
            (s.portOf quad port).ids])]))
    ∧ (∀ found, (s.quadOf quad).resetReq → exec (.discoveryRunEnd quad port found) s = .next s)
    ∧ (Serves s → quad < 32 → (s.quadOf quad).cfg.mode ≠ 0 → exec (.qreset quad) s
        = .next (s.modQuad quad fun q => { q with resetReq := true }))
    ∧ (∀ bad, s.pw.supUp → (s.quadOf quad).resetReq →
      (s.md.reqs.any (fun r => r.res = 3 + quad && r.granted) → exec (.quadReset ⟨quad, bad⟩) s = .next { s with md := { s.md with
        frzEgr := s.md.frzEgr ||| (1#32 <<< quad), drained := false } })
      ∧ (s.md.reqs.any (fun r => r.res = 3 + quad && r.granted) = false → Leads (.quadReset ⟨quad, bad⟩) s fun t =>
        (t.quadOf quad).resetReq = false ∧ (t.quadOf quad).conns = [] ∧ (t.fifoOf quad).rx = [] ∧ (t.fifoOf quad).tx = []
        ∧ t.md.frzEgr.getLsbD quad = false ∧ t.time = s.time))
    ∧ (∀ still : BitVec 17, Serves s → quad < 32 → Leads (.sbretry quad still) s fun t => ∀ p, p < 4 →
      (t.quadOf quad).i2cF.getLsbD p = ((s.quadOf quad).i2cF.getLsbD p && still.getLsbD (8 + p))
      ∧ (t.quadOf quad).nolinkF.getLsbD p = ((s.quadOf quad).nolinkF.getLsbD p && still.getLsbD (12 + p))
      ∧ (t.quadOf quad).pwrenF.getLsbD p = ((s.quadOf quad).pwrenF.getLsbD p && still.getLsbD p)
      ∧ (t.quadOf quad).perstF.getLsbD p = ((s.quadOf quad).perstF.getLsbD p && still.getLsbD (4 + p)))

/-! ## The Tally and recovery (12) -/

/-- R396, R397, R415: a check counts and marks exactly the line that fails; an audit ends with its outcome, and units without a live
owner count as returned; a snapshot holds the twelve counts. A single-bit error that a read of the counters finds adds 1 to CE (R400);
whether it finds one is free (log 8). -/
def Obligations.TallyChecks : Prop :=
  ∀ (s : State),
    (s.pw.hrefOk → (∀ l, l < 4 → s.lineDiff l = 0) → exec .tallyCheck s
      = .next { s.tallyRead with tally := { s.tallyRead.tally with checks := s.tally.checks + 1 } })
    ∧ (s.tallyRead.tally = { s.tally with ce := if Config.tallyUpset s.fresh then sat 32 (s.tally.ce + 1) else s.tally.ce })
    ∧ (∀ l, s.pw.hrefOk → l < 4 → s.tally.lines.length = 4 → (s.lineOf l).mism = false → s.lineDiff l ≠ 0 →
      (∀ k, k < 4 → k ≠ l → s.lineDiff k = 0) → Leads .tallyCheck s fun t => (t.lineOf l).mism = true
        ∧ (t.lineOf l).diff = (s.lineDiff l).setWidth 48 ∧ (t.lineOf l).fails = inc16 (s.lineOf l).fails
        ∧ t.tally.audits = s.tally.audits ++ [l] ∧ t.tally.checks = s.tally.checks + 1
        ∧ (∀ k, k ≠ l → t.lineOf k = s.lineOf k) ∧ t.sub = s.sub ∧ t.sx = s.sx ∧ t.dev = s.dev)
    ∧ (∀ l, s.pw.hrefOk → l < 4 → s.tally.lines.length = 4 → (s.lineOf l).mism → s.lineDiff l ≠ 0 →
      (∀ k, k < 4 → k ≠ l → s.lineDiff k = 0) → Leads .tallyCheck s fun t => (t.lineOf l).diff = (s.lineOf l).diff
        ∧ (t.lineOf l).fails = inc16 (s.lineOf l).fails ∧ t.tally.audits = s.tally.audits ∧ t.out = s.out ∧ t.pl = s.pl)
    ∧ (∀ l, l ∈ s.tally.audits → s.pw.supUp → Leads (.tallyAudit l) s fun t => t.tally.lastAudit = (s.tallyRead.auditLine l).2
      ∧ t.tally.audits = s.tally.audits.erase l)
    ∧ (∀ l, l ≠ 2 → l ∈ s.tally.audits → s.pw.supUp → l < s.tally.lines.length → (s.lineOf l).skew ≠ 0 →
      (s.lineOf l).issued - (s.lineOf l).returned = BitVec.ofNat 64 (s.walk l) → Leads (.tallyAudit l) s fun t =>
        t.tally.lastAudit = 2 ∧ (t.lineOf l).skew = 0)
    ∧ (∀ l, l = 1 ∨ l = 3 → l ∈ s.tally.audits → s.pw.supUp → s.tally.lines.length = 4 → (s.lineOf l).skew = 0 →
      0 < ((s.lineOf l).issued - (s.lineOf l).returned - BitVec.ofNat 64 (s.walk l)).toInt → Leads (.tallyAudit l) s fun t =>
        t.tally.lastAudit = 1 ∧ (t.lineOf l).issued - (t.lineOf l).returned = BitVec.ofNat 64 (s.walk l))
    ∧ (Serves s → Leads .tallySnap s fun t => t.tally.snapValid = true ∧ t.tally.snap = (List.range 4).flatMap (fun l =>
        [(s.lineOf l).issued, (s.lineOf l).returned, s.heldOf l]) ∧ t.tally.lines = s.tally.lines)

/-- R400, R402 to R404: an engine fault moves its threads to the spare or, with the spare in use, fences the cluster; a cluster fault
fences it; its first reset returns it to service when its memory test passes, and a reset whose test fails leaves it fenced; a
compare error and the restarts of the supervisor and of Plinth leave programs, threads and exchanges as they are. An engine hangs
when it has issued nothing for 4,000 ns though a thread of it has been ready for as long and could issue; without the host reference there
is no compare error (R22). (The timers that Obulo arms when it starts again are the model's choice, log 54; since when a thread counts as
ready is its reading, log 49.) -/
def Obligations.Recoveries : Prop :=
  ∀ (s : State) (k e : Nat), AMap.sorted s.sx.threads → k < 16 →
    (∀ c, c = .engineFault k e ∨ c = .engineHang k e → s.engineLive k e →
      (c = .engineHang k e → (s.sx.threads.any fun x => thCluster x.1 = k && thEngine x.1 = e && s.readyLong x.1 && s.couldIssue x.1 x.2)
        ∧ (AMap.get? s.sx.lastIssue (k * 9 + e)).all fun t => reached s.time (addNs t 4000)) →
      (s.tally.spareUsed.getLsbD k = false → Leads c s fun t => k * 9 + e ∈ t.tally.failed
        ∧ t.tally.spareUsed.getLsbD k = true ∧ t.tally.engRestore = inc16 s.tally.engRestore
        ∧ (∀ x ∈ t.sx.threads, x ∈ s.sx.threads ∧ ¬(thCluster x.1 = k ∧ thEngine x.1 = e)) ∧ t.dev.exch = s.dev.exch)
      ∧ (s.tally.spareUsed.getLsbD k → Leads c s fun t => t.tally.fenced.getLsbD k = true
        ∧ t.tally.cluFence = inc16 s.tally.cluFence))
    ∧ (s.tally.fenced.getLsbD k = false → (s.cluOf k).st = .run → Leads (.clusterFault k) s fun t =>
      t.tally.fenced.getLsbD k = true ∧ t.tally.cluFence = inc16 s.tally.cluFence ∧ (t.cluOf k).st = .sleep
      ∧ (∀ x ∈ t.sx.threads, x ∈ s.sx.threads ∧ thCluster x.1 ≠ k) ∧ t.dev.exch = s.dev.exch)
    ∧ (s.tally.fenced.getLsbD k → s.sx.stopped.any (fun x => thCluster x.1 = k) = false → s.pw.supUp →
      (s.tally.fencedBefore.getLsbD k = false → Leads (.clusterReset k true) s fun t =>
        t.tally.fenced.getLsbD k = false ∧ t.tally.fencedBefore.getLsbD k = true)
      ∧ (Leads (.clusterReset k false) s fun t => t.tally.fenced = s.tally.fenced))
    ∧ (∀ block, (s.pw.hrefOk → exec (.controlCompareError block) s = .next ((s.irq 8).recovery 1 5 block 0 0))
      ∧ (s.pw.hrefOk = false → exec (.controlCompareError block) s = .next s)
      ∧ ((s.irq 8).recovery 1 5 block 0 0).sub = s.sub ∧ ((s.irq 8).recovery 1 5 block 0 0).sx = s.sx
      ∧ ((s.irq 8).recovery 1 5 block 0 0).dev = s.dev ∧ ((s.irq 8).recovery 1 5 block 0 0).dma = s.dma)
    ∧ (s.pw.supUp → Leads .supervisorLockstepMismatch s fun t => t.tally.supRestart = inc16 s.tally.supRestart
      ∧ t.pw.timers = startTimers s ∧ t.pw.wdogDue = none ∧ t.sub = s.sub ∧ t.sx = s.sx ∧ t.q.sqs = s.q.sqs ∧ t.dev.exch = s.dev.exch
      ∧ t.time = s.time)
    ∧ (s.pl.started → Leads .plinthLockstepMismatch s fun t => t.link.sessions = [] ∧ t.pl.req = none ∧ t.pl.job = none
      ∧ t.sx.load = none ∧ t.pl.alm.slots = s.pl.alm.slots ∧ t.pl.bootno = s.pl.bootno ∧ t.link.ide = s.link.ide
      ∧ t.sub = s.sub ∧ t.q.sqs = s.q.sqs ∧ t.dev = s.dev)

/-! ## Plinth, the Almanac and the boot (08, 13) -/

/-- R441 to R448: the host's requests to Plinth. Each takes the word from the channel and answers on the reverse channel; a lock, a
signature, a nonce or a block that fails is answered with its status, and so is a read that has waited for 10 s; a decode load that passes
its checks waits for its bank, 100 ms at most. (That LOCKED comes before the host read, that a read waits its 10 s for Meridian too, and
that an IMG_LEN above 16 MiB is a BAD-FIELD are the model's reading, log 52; whether a draw for a nonce fails its health test, which raises
source 13, is free, log 8.) -/
def Obligations.PlinthRequests : Prop :=
  (∀ (s u : State) (w : Word) (op : Nat) (due : Time), s.plnWaits = some w → s.ownReady true 0 = false →
    s.pl.readDue = some (op, due) → reached s.time due →
    u = { s.mbServe .hostPln with pl := { (s.mbServe .hostPln).pl with readDue := none } } →
    (reqOp w = 0x01 → s.pl.extLock = false → ∀ d, exec (.extend d) s = .next ((u.withdraw (.own 0)).reply w 0x06 0))
    ∧ (reqOp w = 0x03 → ∀ d, exec (.quote d) s = .next ((u.withdraw (.own 0)).reply w 0x06 0))
    ∧ (reqOp w = 0x10 → ∀ d, exec (.getNonce d) s = .next ((u.withdraw (.own 0)).reply w 0x06 0)))
  ∧ ∀ (s t u : State) (w : Word), s.plnWaits = some w → s.ownReady true 0 → t = s.mbServe .hostPln →
    u = { t with pl := { t.pl with readDue := none } } →
    (reqOp w = 0x01 → s.pl.extLock → ∀ d, exec (.extend d) s = .next (u.reply w 0x04 0))
    ∧ (∀ d y b v, reqOp w = 0x01 → s.pl.extLock = false → u.blockRead w d = (y, some b) → rd b 0 1 < 16 → rd b 56 1 ≤ 96 →
      blockOk b [(0, 1), (4, 4), (8, 48), (56, 1), (64, 96)] →
      v = (y.record 5 (0x100 + rd b 0 1) (leBytes 4 (rd b 0 1) ++ leBytes 4 (rd b 4 4) ++ fit 48 (slice b 8 48)
        ++ leBytes 1 (rd b 56 1) ++ fit 96 (slice b 64 96)) 153).flushAlm →
      exec (.extend d) s = .next ((v.signal 5).reply w 0 (v.pl.alm.next - 1)))
    ∧ (∀ v, reqOp w = 0x02 → reqAddr w = 0 →
      v = ({ t with pl := { t.pl with extLock := true } }.plRecord 6 []).flushAlm →
      exec .extendLock s = .next (v.reply w 0 (v.pl.alm.next - 1)))
    ∧ (∀ d y b v q, reqOp w = 0x03 → u.blockRead w d = (y, some b) → blockOk b [(0, 32)] → q = y.makeQuote (slice b 0 32) →
      v = { q.1 with pl := { q.1.pl with quotes := q.1.pl.quotes + 1, quote := q.2 } } →
      exec (.quote d) s = .next (((v.blockWrite w q.2).signal 5).reply w 0 v.pl.quotes))
    ∧ (∀ d y b z, reqOp w = 0x10 → u.blockRead w d = (y, some b) → blockOk b [] →
      z = (if Config.rngFails y.fresh then ({ y with fresh := y.fresh + 1 } : State).irqPl 13 else { y with fresh := y.fresh + 1 }) →
      exec (.getNonce d) s = .next (({ z with pl := { z.pl with nonce := some (Config.random y.fresh) } }.blockWrite w
          (leBytes 32 (Config.random y.fresh).toNat)).reply w 0 0))
    ∧ (knownOp (reqOp w) = false → exec .plinthBadOp s = .next (t.reply w 0x01 0))
    ∧ (∀ d y, u.blockRead w d = (y, none) → (reqOp w = 0x01 → s.pl.extLock = false → exec (.extend d) s = .next (y.reply w 0x06 0))
      ∧ (reqOp w = 0x03 → exec (.quote d) s = .next (y.reply w 0x06 0))
      ∧ (reqOp w = 0x10 → exec (.getNonce d) s = .next (y.reply w 0x06 0))
      ∧ (reqOp w = 0x11 → s.pl.job = none → s.pl.tamperLock = false → s.updateKey.isSome → ∀ i,
        exec (.flashUpdate d i) s = .next (y.reply w 0x06 0)))
    ∧ (∀ data, data.length = 2048 → (u.blockRead w ⟨.ok, [], .sound, data⟩).2 = some data
      ∧ (∀ d : HostData, d.ok = false → (u.blockRead w d).2 = none)
      ∧ ∀ v, v = (u.blockRead w ⟨.ok, [], .sound, data⟩).1 → v.link = u.link ∧ v.pl = u.pl ∧ v.q = u.q ∧ v.sub = u.sub
        ∧ v.sx = u.sx ∧ v.dev = u.dev
        ∧ ∀ o ∈ v.out, o ∈ u.out ∨ ∃ tag a n, o = .hostRead tag a none u.link.relaxed n ∧ n ≤ 512)
    ∧ (reqOp w = 0x11 → s.pl.job.isSome → ∀ b i, exec (.flashUpdate b i) s = .next (u.reply w 0x05 0))
    ∧ (∀ i1 y b i2 d key n target v, reqOp w = 0x11 → s.pl.job = none → s.pl.tamperLock = false → s.updateKey = some key →
      u.blockRead w i1 = (y, some b) → target = rd b 0 1 → target ≤ 1 → rd b 8 8 % 4096 = 0 → rd b 16 4 ≤ 16777216 →
      blockOk b [(0, 1), (8, 8), (16, 4), (32, 96)] →
      s.pl.nonce = some n →
      { y with pl := { y.pl with nonce := none } }.ownRead 0 (BitVec.ofNat 64 (rd b 8 8)) none (rd b 16 4) i2 = (v, some d) →
      (v.updRefuse key n target (slice b 32 96) d = none → exec (.flashUpdate i1 i2) s
        = .next (((v.flashBegin target d).flashRecord 0 target 0 (imgVersion d) (imgDigest d)).reply w 0 0))
      ∧ (∀ st x, v.updRefuse key n target (slice b 32 96) d = some (st, x) → exec (.flashUpdate i1 i2) s
        = .next (v.reply w st x)))
    ∧ (∀ i1 y b i2 v d, reqOp w = 0x20 → s.link.ep ≠ .recovery → s.sx.fixed = false → s.pl.tamperLock = false →
      u.blockRead w i1 = (y, some b) → rd b 8 8 % 64 = 0 → blockOk b [(8, 8), (16, 4), (32, 96), (128, 96)] →
      y.ownRead 0 (BitVec.ofNat 64 (rd b 8 8)) none (rd b 16 4) i2 = (v, some d) →
      (v.decodeSigned d (slice b 32 96) (slice b 128 96) → decodeOk d → exec (.decodeLoad i1 i2) s
        = .next { v with sx := { v.sx with load := some ⟨readEntries d, d, addNs s.time 100000000⟩ },
                         pl := { v.pl with req := some w } })
      ∧ (v.decodeSigned d (slice b 32 96) (slice b 128 96) = false → exec (.decodeLoad i1 i2) s
        = .next ((v.decodeRefuse 3 d).reply w 3 0))
      ∧ (v.decodeSigned d (slice b 32 96) (slice b 128 96) → decodeOk d = false → exec (.decodeLoad i1 i2) s
        = .next ((v.decodeRefuse 0xD d).reply w 0xD 0)))
    ∧ ((s.box .hostPln).full → (u.box .hostPln).full = false ∧ (u.box .hostPln).owed = true)

/-- R280 to R282, R417, R447, R449: what Plinth does later or without a request: the end of a flash write, the switch or the timeout of a
decode load, refused accesses and tamper edges. -/
def Obligations.PlinthEvents : Prop :=
  ∀ (s : State),
    (∀ j, s.pl.job = some j → Leads (.flashUpdateEnd true) s fun t => t.pl.job = none ∧ t.pl.updState = 5 ∧ t.pl.updResult = 0
      ∧ t.pl.updProgress = j.kib ∧ (j.target = false → t.pl.aValid = true) ∧ (j.target → t.pl.bValid = true))
    ∧ (∀ j, s.pl.job = some j → Leads (.flashUpdateEnd false) s fun t => t.pl.job = none ∧ t.pl.updState = 6
      ∧ t.pl.updResult = 0xA ∧ t.pl.aValid = s.pl.aValid ∧ t.pl.bValid = s.pl.bValid)
    ∧ (∀ l w, s.sx.load = some l → s.pl.req = some w → (s.box .plnHost).full = false →
      (s.bankRetired → Leads .generationSwitch s fun t => t.sx.bank = !s.sx.bank ∧ t.sx.gen = s.sx.gen + 1 ∧ t.sx.retiring = true
        ∧ t.sx.load = none ∧ t.sx.loads = inc16 s.sx.loads ∧ (if t.sx.bank then t.sx.bank1 else t.sx.bank0) = l.entries
        ∧ (if t.sx.bank then t.sx.bank0 else t.sx.bank1) = (if s.sx.bank then s.sx.bank1 else s.sx.bank0)
        ∧ t.pl.req = none ∧ t.sx.threads = s.sx.threads)
      ∧ (s.bankRetired = false → reached s.time l.due → Leads .decodeRetireTimeout s fun t => t.sx.load = none
        ∧ t.sx.refused = inc16 s.sx.refused ∧ t.sx.bank = s.sx.bank ∧ t.sx.gen = s.sx.gen ∧ t.pl.req = none)
      ∧ (s.bankRetired = false → exec .generationSwitch s = .next s))
    ∧ (∀ n addr u, n ≠ 0 → n ≠ 7 → s.pl.started →
      u = ({ s with pl := { s.pl with violation := inc16 s.pl.violation } }.event 0 8 2 n 0 addr.toNat 0).irqPl 12 →
      exec (.plinthAccessRefused n true addr) s = .next u
      ∧ exec (.plinthAccessRefused n false addr) s = .next (u.emit (.accessRead n 0)))
    ∧ (s.pl.tamperLow = false → s.pw.aon → Leads .tamperAssert s fun t => t.pl.tamper = true ∧ t.pl.tamperLow = true
      ∧ t.pl.tamperEdges = inc16 s.pl.tamperEdges
      ∧ (s.tamperAction = 0 → t.pl.tamperLock = s.pl.tamperLock ∧ t.link = s.link)
      ∧ (s.tamperAction ≠ 0 → t.pl.tamperLock = true ∧ t.link.sessions = [] ∧ t.link.ide.keys = [] ∧ t.pl.job = none))
    ∧ (s.pl.tamperLow → Leads .tamperRelease s fun t => t.pl.tamperLow = false ∧ t.pl.tamper = s.pl.tamper
      ∧ t.pl.tamperEdges = inc16 s.pl.tamperEdges)

/-- R429, R430, R439, R440, R473, R525: the boot takes the first copy that passes its checks, or recovery mode, after the flash devices are
opened and read; a faulty I2C segment alone adds a message to what it puts out; a record takes the slot of its sequence number, chained to
the one before it, and the vectors that announce it are signalled then. (That the boot is one command, and begins with the host reference
there, is the model's reading, log 53.) -/
def Obligations.BootAndAlmanac : Prop :=
  ∀ (s : State),
    (s.bootReady → ∀ da db a b (start : BootTest) (o : State), a = flashCopy start.flash0 da → b = flashCopy start.flash1 db →
      o = (s.emits (flashOpen start.flash0 false ++ flashOpen start.flash1 true)).flashRead false start.flash0 →
      (imgCheck a = 0 → Leads (.boot da db start) s fun t => t.link.ep = .normal ∧ t.link.ready = true ∧ t.pl.mode = 0
        ∧ t.pl.aValid = true ∧ t.pw.supUp = true ∧ t.pw.bootDue = false ∧ t.sx.gen = 1 ∧ t.md.gen = 0
        ∧ (start.i2cBad = 0 → t.out = o.out ++ [.drs]) ∧ t.time = s.time)
      ∧ (imgCheck a ≠ 0 → imgCheck b = 0 → Leads (.boot da db start) s fun t => t.link.ep = .normal ∧ t.pl.mode = 1
        ∧ t.pl.aCode = imgCheck a ∧ t.pl.bValid = true ∧ t.pw.supUp = true
        ∧ (start.i2cBad = 0 → t.out = (o.flashRead true start.flash1).out ++ [.drs]))
      ∧ (imgCheck a ≠ 0 → imgCheck b ≠ 0 → Leads (.boot da db start) s fun t => t.link.ep = .recovery ∧ t.pl.mode = 2
        ∧ t.pl.img = none ∧ t.pl.bCode = imgCheck b ∧ t.out = (o.flashRead true start.flash1).out ++ [.drs]))
    ∧ (s.bootReady = false → ∀ a b start, exec (.boot a b start) s = .next s)
    ∧ (∀ r rest, s.pl.started → s.pw.released → s.pl.alm.queue = r :: rest → (rest ++ s.pl.alm.hold.take 1).length ≠ 128 →
      s.pl.alm.next ≠ 4095 → exec .almanacWrite s = .next (r.vecs.foldl (fun t v => t.signalNow v) { s with pl := { s.pl with
        alm := Almanac.write { s.pl.alm with queue := rest ++ s.pl.alm.hold.take 1, hold := s.pl.alm.hold.drop 1 }
          s.time s.pl.bootno r } }))
    ∧ (∀ (a : Almanac) (now : Time) (bootno : Nat) (r : AlmReq), ∃ x,
      AMap.get? (a.write now bootno r).slots (almSlot a.next) = some x ∧ x.seq = a.next ∧ x.time = now ∧ x.type = r.type
      ∧ x.source = r.source ∧ x.payload = r.payload
      ∧ x.chain = Config.sha384 (digestBytes (if a.next = 0 then 0 else a.head) ++ x.head ++ fit 180 x.payload)
      ∧ (a.write now bootno r).head = x.chain ∧ (a.write now bootno r).next = a.next + 1
      ∧ (a.next < 4096 → (a.write now bootno r).pinnedEnd = x.chain ∧ (a.write now bootno r).tailAnchor = x.chain)
      ∧ (4096 ≤ a.next → (a.write now bootno r).pinnedEnd = a.pinnedEnd)
      ∧ ∀ k, k ≠ almSlot a.next → AMap.get? (a.write now bootno r).slots k = AMap.get? a.slots k)

/-! ## Mailboxes and interrupt controllers (14) -/

/-- R455, R457 to R462: a send into an empty channel stores the word and rings its bit; one into a full channel leaves
the word and marks an overrun; a receive of 8 bytes empties the channel and tells its sender; 4 bytes take nothing; doorbell
bits clear by writing 1 and masks are written, in the registers of the host, the supervisor, Plinth and the clusters alike; the
events of a sender clear by writing 1; Obulo answers every word of the host that it takes, a PING with a PONG, and sends the host its
notices alone, in their order. (How the registers inside the 6128 lie is the model's reading, log 31.) -/
def Obligations.Mailboxes : Prop :=
  ∀ (s : State), s.mail.boxes.length = 38 → s.mail.senders.length = 38 →
    (∀ ch bit w, bit < 32 →
      (chOfHost ch → Serves s → exec (.mailboxSend ch bit 8 w) s = .next (s.mbSend ch bit w)
        ∧ exec (.mailboxSend ch bit 4 w) s = .next s)
      ∧ (chOfHost ch = false → s.senderUp ch → exec (.mailboxSend ch bit 4 w) s = .next s
        ∧ (ch ≠ .supHost → exec (.mailboxSend ch bit 8 w) s = .next (s.mbSend ch bit w))
        ∧ (ch = .supHost → soundNotice bit w → exec (.mailboxSend ch bit 8 w) s
          = .next (s.notice (noticeType w) (bits w.toNat 32 32)))
        ∧ (ch = .supHost → soundNotice bit w = false → exec (.mailboxSend ch bit 8 w) s = .next s))
      ∧ ((s.box ch).full = false → ((s.mbSend ch bit w).box ch).word = w ∧ ((s.mbSend ch bit w).box ch).full = true
        ∧ ((s.mbSend ch bit w).box ch).bit = bit)
      ∧ ((s.box ch).full → (s.mbSend ch bit w).box ch = s.box ch ∧ ((s.mbSend ch bit w).sender ch).overrun = true))
    ∧ (∀ ch, ((s.mbTake ch).box ch).full = false ∧ ((s.mbTake ch).box ch).word = (s.box ch).word
      ∧ ((s.mbTake ch).sender ch).empty = true
      ∧ (((s.mbTake ch).box ch).owed ↔ (s.box ch).owed ∨ ch = .hostPln ∨ ch = .supPln))
    ∧ (∀ ch, ch ≠ .supHost → ch ≠ .plnHost → s.receiverUp ch →
      ((s.box ch).full = false → exec (.mailboxReceive ch 8) s = .next (s.emit (.mbRead ch 0)))
      ∧ ((s.box ch).full → ch ≠ .hostSup → exec (.mailboxReceive ch 8) s
        = .next (((s.mbTake ch).emit (.mbRead ch (s.box ch).word)).pumpNotices))
      ∧ ((s.box ch).full → ch = .hostSup → exec (.mailboxReceive ch 8) s = .next ((s.emit (.mbRead ch (s.box ch).word)).obuloTakes))
      ∧ exec (.mailboxReceive ch 4) s = .next (s.emit (.mbRead ch 0)))
    ∧ (∀ bit w, (s.box .plnHost).full = false → ((s.mbSend .plnHost bit w).box .hostPln).owed = false)
    ∧ (∀ bit w, (s.box .plnSup).full = false → ((s.mbSend .plnSup bit w).box .supPln).owed = false)
    ∧ (Serves s → exec (.mailboxReceive .supHost 4) s = .next (s.emit (.readData 0 0x01C00100 4 0))
      ∧ exec (.mailboxReceive .plnHost 4) s = .next (s.emit (.readData 0 0x01C01100 4 0)))
    ∧ (Serves s → (s.box .supHost).full → exec (.mailboxReceive .supHost 8) s
      = .next (((s.mbTake .supHost).emit (.readData 0 0x01C00100 8 (s.box .supHost).word)).pumpNotices))
    ∧ (Serves s → (s.box .plnHost).full = false → exec (.mailboxReceive .plnHost 8) s
      = .next (s.emit (.readData 0 0x01C01100 8 0)))
    ∧ (∀ ch, ch ≠ .supHost → ch ≠ .plnHost → s.receiverUp ch → ∀ half v,
      (∀ inst n, bellSource ch = some (inst, n) → exec (.mailboxStatusWrite (.inner ch) false half v) s
        = .next ((s.modBell ch fun b => b.write half (atHalf half v)).relatch inst))
      ∧ (bellSource ch = none → exec (.mailboxStatusWrite (.inner ch) false half v) s
        = .next (s.modBell ch fun b => b.write half (atHalf half v))))
    ∧ (∀ ch, chOfHost ch = false → s.senderUp ch → ∀ v : Word, Leads (.mailboxStatusWrite (.inner ch) true none v) s fun t =>
      (t.sender ch).empty = ((s.sender ch).empty && !v.getLsbD 1)
        ∧ (t.sender ch).aborted = ((s.sender ch).aborted && !v.getLsbD 2)
        ∧ (t.sender ch).overrun = ((s.sender ch).overrun && !v.getLsbD 3) ∧ t.mail.boxes = s.mail.boxes)
    ∧ (∀ v : Word, Serves s → Leads (.mailboxStatusWrite (.host false) false none v) s fun t =>
      t.mail.sup.bell.db = (s.mail.sup.bell.db &&& ~~~(v.extractLsb' 0 32)) ∧ t.mail.sup.bell.mask = v.extractLsb' 32 32
        ∧ t.mail.pln = s.mail.pln ∧ t.mail.boxes = s.mail.boxes)
    ∧ (∀ v : Word, Serves s → Leads (.mailboxStatusWrite (.host true) true none v) s fun t =>
      t.mail.pln.ieEmpty = v.getLsbD 4 ∧ t.mail.pln.ieAborted = v.getLsbD 5 ∧ t.mail.pln.bell = s.mail.pln.bell
        ∧ ((t.sender .hostPln).empty = ((s.sender .hostPln).empty && !v.getLsbD 1)))
    ∧ ((s.box .hostSup).full → s.pw.supUp → bits (s.box .hostSup).word.toNat 0 32 = 1 → exec .ping s
      = .next ((s.mbServe .hostSup).notice 3 (bits (s.box .hostSup).word.toNat 32 32)))
    ∧ ((s.box .hostSup).full → s.pw.supUp → bits (s.box .hostSup).word.toNat 0 32 ≠ 1 → exec .ping s
      = .next ((s.mbServe .hostSup).notice 4 (bits (s.box .hostSup).word.toNat 0 32)))

/-- R466 to R469: the interrupt controllers. An acknowledgement takes the candidate of the highest priority, ties to the lower
source, pushes RUN and clears its pending bit; an end of interrupt pops RUN; set and clear writes touch the named bits alone; a
read of the counters by the owner clears them. -/
def Obligations.InterruptControllers : Prop :=
  (∀ (ic : Ic) (i : Nat), ic.best = some i → ic.candidate i ∧ i < 256
    ∧ ∀ j, j < 256 → ic.candidate j → ic.prioOf j ≤ ic.prioOf i ∧ (ic.prioOf j = ic.prioOf i → i ≤ j))
  ∧ (∀ (ic : Ic), ic.best = none → ∀ j, j < 256 → ic.candidate j = false)
  ∧ ∀ (s : State) (inst : IcInst), s.icUp inst →
    (∀ i, (s.icOf inst).best = some i → Leads (.icAck inst true) s fun t => (t.icOf inst).run = (s.icOf inst).prioOf i
      ∧ (t.icOf inst).stack = (s.icOf inst).run :: (s.icOf inst).stack
      ∧ (t.icOf inst).pend = (((s.icOf inst).pend &&& ~~~(1#256 <<< i)) ||| s.lines inst)
      ∧ t.out = s.out ++ [.icRead (BitVec.ofNat 64 (i + (s.icOf inst).prioOf i * 512))])
    ∧ ((s.icOf inst).best = none → Leads (.icAck inst true) s fun t => (t.icOf inst).run = (s.icOf inst).run
      ∧ (t.icOf inst).stack = (s.icOf inst).stack ∧ t.out = s.out ++ [.icRead 0x1FF])
    ∧ exec (.icAck inst false) s = .next (s.emit (.icRead (s.icOf inst).ackWord))
    ∧ (∀ r rest, (s.icOf inst).stack = r :: rest → Leads (.icEoi inst) s fun t => (t.icOf inst).run = r
      ∧ (t.icOf inst).stack = rest ∧ (t.icOf inst).pend = (s.icOf inst).pend)
    ∧ ((s.icOf inst).stack = [] → Leads (.icEoi inst) s fun t => t.icOf inst = { s.icOf inst with under := true })
    ∧ (∀ i val, Leads (.icPendSet inst i val) s fun t =>
      t.icOf inst = { s.icOf inst with pend := (s.icOf inst).pend ||| icBits inst i val })
    ∧ (∀ i val, Leads (.icPendClr inst i val) s fun t =>
      t.icOf inst = { s.icOf inst with pend := ((s.icOf inst).pend &&& ~~~(icBits inst i val)) ||| s.lines inst })
    ∧ (∀ i val, Leads (.icMaskSet inst i val) s fun t =>
      t.icOf inst = { s.icOf inst with mask := (s.icOf inst).mask ||| icBits inst i val })
    ∧ (∀ i val, Leads (.icMaskClr inst i val) s fun t =>
      t.icOf inst = { s.icOf inst with mask := (s.icOf inst).mask &&& ~~~(icBits inst i val) })
    ∧ (∀ i owner, i < 32 → (s.icOf inst).cnt.length = 256 → Leads (.icCntRead inst i owner) s fun t =>
      (∀ j, j < 256 → (t.icOf inst).cnt.getD j 0 = (if owner && icPer inst * i ≤ j && j < icPer inst * i + icPer inst then 0
        else (s.icOf inst).cnt.getD j 0)) ∧ t.out.length = s.out.length + 1)

/-! ## Nightwatch, power, clocks and pins (15, 17) -/

/-- R479, R481 to R489, R498, R518: supervisor timers, the watchdog, the rest and wake of clusters, the awake set and the core supply.
A cluster rests in NAP inside the awake set and outside it in the deepest state that fits before the next entry of the timer
wheel; a wake is done in RUN, with what SLEEP loses made again, and not before the supply has the target that the monitors call for;
MAXSTATE 0 reads as 1; the supply moves by 5 mV within 0.700 V to 0.800 V. (When a supervisor timer falls due is free, log 54.) -/
def Obligations.Nightwatch : Prop :=
  ∀ (s : State) (k : Nat),
    (s.pw.supUp →
      (∀ n due, n < 64 → AMap.get? s.pw.timers n = some due → s.supTimer n due → exec (.supervisorTimerExpiry n) s
        = .next ({ s with fresh := s.fresh + 1, pw := { s.pw with
            timers := (match Config.supTimer s.fresh n with
              | none => AMap.del s.pw.timers n
              | some d => AMap.put s.pw.timers n (addNs s.time d))
            maxLag := max s.pw.maxLag (min 0xFFFF ((s.time - due).toNat / 100)) } }.irq (128 + n)))
      ∧ exec .watchdogWrite s = .next { s with pw := { s.pw with wdogDue := some (addNs s.time 4000000) } }
      ∧ (∀ due, s.pw.wdogDue = some due → reached s.time due → Leads .watchdogExpiry s fun t => t.pw.wdog = inc16 s.pw.wdog
        ∧ t.pw.wdogDue = none ∧ t.pw.timers = startTimers s ∧ t.sub = s.sub ∧ t.sx = s.sx
        ∧ (s.dma.sRd = none → s.dma.sWr = none → t.tally = s.tally))
      ∧ (∀ due, s.pw.wdogDue = some due → reached s.time due = false → exec .watchdogExpiry s = .next s))
    ∧ (k < s.pw.clusters.length → s.cluIdle k → (s.cluOf k).waking = false → s.tally.fenced.getLsbD k = false → s.pw.supUp →
      ((s.cluOf k).awake → (s.cluOf k).st = .run → Leads (.clusterIdle k) s fun t => (t.cluOf k).st = .nap)
      ∧ ((s.cluOf k).awake → (s.cluOf k).st ≠ .run → exec (.clusterIdle k) s = .next s)
      ∧ ((s.cluOf k).awake = false → (s.cluOf k).st = .run → Leads (.clusterIdle k) s fun t =>
        (t.cluOf k).st = restState s.nextWheel s.pw.maxState))
    ∧ (∀ m, restState none m = (if 3 ≤ m then .sleep else if m = 2 then .doze else .nap)
      ∧ (∀ n, restState (some n) m = .sleep ↔ 3 ≤ m ∧ 140000 ≤ n) ∧ (∀ n, restState (some n) m = .run ↔ n < 50))
    ∧ (s.noThreadFree → s.pw.supUp → s.wakeNext = some k → s.dispatchQueue ≠ [] →
      countBelow 16 (fun i => (s.cluOf i).waking && !(s.cluOf i).awake) = 0 → k < s.pw.clusters.length →
      Leads (.clusterWake k) s fun t => (t.cluOf k).waking = true ∧ t.pw.demandWakes = inc16 s.pw.demandWakes)
    ∧ ((s.cluOf k).waking → s.pw.raising = false → Leads (.clusterWakeDone k) s fun t => (t.cluOf k).st = .run ∧ (t.cluOf k).waking = false
      ∧ ((s.cluOf k).st = .sleep → (t.cluOf k).table = true ∧ (t.cluOf k).pad = true ∧ (t.cluOf k).cache = [])
      ∧ ((s.cluOf k).st = .doze → (t.cluOf k).table = (s.cluOf k).table ∧ (t.cluOf k).pad = (s.cluOf k).pad
        ∧ (t.cluOf k).cache = (s.cluOf k).cache))
    ∧ (s.pw.raising → exec (.clusterWakeDone k) s = .next s)
    ∧ (∀ v : Word, Serves s → Leads (.maxstateWrite v) s fun t => t.pw.maxState = max 1 (v.toNat % 4)
      ∧ t.pw.awakeN = s.nAwake ∧ t.pw.timers = s.pw.timers)
    ∧ (s.pw.released → s.pw.vcoreTry = none → reached s.time s.pw.vcoreDue →
      (s.pw.vcore + 5 ≤ 800 → 700 ≤ s.pw.vcore + 5 → Leads (.vcoreStep true true) s fun t => t.pw.vcore = s.pw.vcore + 5
        ∧ t.pw.vcoreTry = none ∧ t.pw.vcoreDue = addNs s.time 10000 ∧ t.out = s.out ++ [.avs (s.pw.vcore + 5)])
      ∧ (705 ≤ s.pw.vcore → s.pw.vcore ≤ 805 → Leads (.vcoreStep false false) s fun t => t.pw.vcore = s.pw.vcore
        ∧ t.pw.vcoreTry = some (s.pw.vcore - 5))
      ∧ (s.pw.vcore = 800 → exec (.vcoreStep true true) s = .next s))
    ∧ (∀ mv, s.pw.vcoreTry = some mv → reached s.time s.pw.vcoreDue → Leads (.avsRetry true) s fun t => t.pw.vcore = mv
      ∧ t.pw.vcoreTry = none ∧ t.out = s.out ++ [.avs mv])

/-- R478, R491 to R496, R520, R527, R531: power-on, the release, warm resets and their causes, references, rails, the crystal, the
thermal trip and JTAG. A warm reset resets the link, the queues, the subchannels, Sirax, the data engines, Meridian, the exchanges, the
mailboxes and the interrupt controllers; the Almanac, device time, the tamper latch, the clock fallback and what the Tally knows of the
clusters fenced since power-on (R404) survive it, and it counts and names its cause. (That VSB33 above its range, or with no quad
configured, is row 1, and how the boundary register shifts, are the model's reading, log 56; so is the value of IDCODE.) -/
def Obligations.PowerClocksAndResets : Prop :=
  ∀ (s : State),
    (∀ c last, (c = .perstNWarmReset ∧ last = 2 ∧ s.pw.perstLow = false) ∨ (c = .hostReferenceLoss ∧ last = 4 ∧ s.pw.hrefOk)
        ∨ (c = .pwrokFall ∧ last = 5 ∧ s.pw.pwrok)
        ∨ (∃ r, ∃ above : Bool, c = .railOutOfRange ⟨r, above⟩ ∧ last = 5 ∧ r ≠ .vaon ∧ r ≠ .vioAon ∧ r ∉ s.pw.railsBad
          ∧ (r = .vsb33 → above ∨ ∀ q ∈ s.dev.quads, q.cfg.mode = 0)) →
      s.pw.released → s.pw.trip = false → s.pw.held = false → Leads c s fun t => t.pw.held = true ∧ t.pw.bootDue = true
        ∧ t.pw.last = last ∧ t.pw.warm = inc16 s.pw.warm ∧ t.link = Link.reset ∧ t.q = Queues.reset ∧ t.sub = Subch.reset
        ∧ t.sx = Sirax.reset ∧ t.tally = { Tally.reset with fencedBefore := s.tally.fencedBefore } ∧ t.dev.exch = []
        ∧ t.dma = Dma.reset ∧ t.md = Meridian.reset ∧ t.mail = Mail.reset ∧ t.ic = Ic.reset ∧ t.icPl = Ic.reset
        ∧ t.pl.alm = s.pl.alm ∧ t.pl.tamper = s.pl.tamper ∧ t.pw.fallback = s.pw.fallback ∧ t.time = s.time)
    ∧ (s.pw.railsBad = [] → s.pw.sbLow = false → (∃ q ∈ s.dev.quads, q.cfg.mode ≠ 0) → exec (.railOutOfRange ⟨.vsb33, false⟩) s
      = .next { s with pw := { s.pw with sbLow := true } }.sidebandLost)
    ∧ (s.pw.perstLow → Leads .perstNDeassert s fun t => t.pw.perstLow = false
      ∧ t.pw.held = (s.pw.held && { s.pw with perstLow := false }.cause))
    ∧ (s.pw.hrefOk = false → Leads .hostReferenceReturn s fun t => t.pw.hrefOk = true
      ∧ t.pw.held = (s.pw.held && { s.pw with hrefOk := true }.cause))
    ∧ (s.pw.pwrok = false → s.pw.aon → s.pw.released = false → s.pw.xtalOk → s.pw.railsBad = [] → s.pw.sbLow = false →
      s.pw.trip = false → Leads .pwrokRise s fun t =>
      t.pw.released = true ∧ t.pw.bootDue = true ∧ t.pw.last = 1 ∧ t.time = 0)
    ∧ (∀ r, s.pw.railsBad = [r] → r ≠ .vaon → r ≠ .vioAon → s.pw.released → Leads (.railReturn r) s fun t => t.pw.railsBad = []
      ∧ t.time = s.time)
    ∧ (s.pw.aon = false → s.pw.railsBad = [] → Leads .powerOn s fun t => t.pw.aon = true ∧ t.pw.xtalOk = true
      ∧ t.pw.released = false ∧ t.link = Link.reset ∧ t.q = Queues.reset ∧ t.pl = Plinth.reset ∧ t.out = s.out)
    ∧ (s.pw.trip = false → s.pw.aon → Leads .thermalTrip s fun t => t.pw.trip = true ∧ t.pw.held = true ∧ t.link = Link.reset
      ∧ t.q = Queues.reset ∧ ∃ o, t.out = s.out ++ o ++ [.thermtrip])
    ∧ (∀ half, s.prefOk half → (∀ q p, (s.portOf q p).st ≠ 1 ∧ (s.portOf q p).st ≠ 2) → Leads (.portReferenceLoss half) s fun t =>
      t.prefOk half = false ∧ (∀ q, q ∈ halfQuads half → t.pw.qlock.getLsbD q = false) ∧ t.dev = s.dev)
    ∧ (∀ half, s.prefOk half = false → Leads (.portReferenceReturn half) s fun t => t.prefOk half = true
      ∧ ∀ q, q ∈ halfQuads half → (t.pw.qlock.getLsbD q ↔ (s.quadOf q).cfg.mode ≠ 0))
    ∧ (s.pw.xtalOk → s.pw.released → Leads .crystalLoss s fun t => t.pw.xtalOk = false ∧ t.pw.fallback = true ∧ t.time = s.time
      ∧ t.sub = s.sub)
    ∧ (s.pw.xtalOk = false → s.pw.aon → s.pw.released → Leads .crystalReturn s fun t => t.pw.xtalOk = true ∧ t.pw.fallback = false
      ∧ t.time = s.time)
    ∧ (∀ u : State, u = { s with pw := { s.pw with jtag := .idcode } } →
      exec (.jtagInstruction .idcode) s = .next ((if s.pw.perstLow then u.handBack else u).emit (.jtagData 0x1612856B 32))
      ∧ exec .testLogicReset s = .next u.handBack ∧ u.handBack.pw = { u.pw with extest := false }
      ∧ (s.pw.extest = false → u.handBack.out = s.out))
    ∧ (∀ i, exec (.jtagInstruction (.other i)) s = exec (.jtagInstruction .bypass) s)
    ∧ (∀ c, s.pw.perstLow = false → exec (.jtagInstruction (.extest c)) s = exec (.jtagInstruction .bypass) s)
    ∧ (∀ c, s.pw.perstLow → exec (.jtagInstruction (.extest c)) s = .next { s with
      pw := { s.pw with jtag := .extest c, cells := c, extest := true },
      out := s.out ++ [.boundaryShift s.pw.cells] ++ [.boundaryDrive c] })

/-! ## The whole machine -/

/-- A step with a command at the front of the queue runs that command on the state with the rest of the queue. -/
def Obligations.StepRunsFrontCommand : Prop :=
  ∀ (c : Instr) (s : State), step { s with pending := c :: s.pending } = exec c s

/-- The model's choice (logs 2 and 9): on an empty queue the least time that device time can show passes once power-on release has been
made, and changes nothing else (R24, R476): 5 ns with the core domain running, of whose steps eight make a period of the crystal, and with
the core stopped what is left of such a period (R477); no word spells a command. -/
def Obligations.IdleStepAndWords : Prop :=
  (∀ s : State, s.pending = [] → (s.pw.released → s.pw.coreLock → step s = .next { s with
      time := addNs s.time 5, pw := { s.pw with phase := (s.pw.phase + 1) % 8 } })
    ∧ (s.pw.released → s.pw.coreLock = false → step s = .next { s with
      time := addNs s.time (40 - 5 * s.pw.phase), pw := { s.pw with phase := 0 } })
    ∧ (s.pw.released = false → step s = .next s))
  ∧ (∀ nbits w : Nat, decodeTableWord nbits w = none)
  ∧ ∀ (s : State) (nbits w : Nat), s.withFetchWord nbits w = s

/-- Every command of the table completes in every state, and takes nothing from the queue of the commands that wait. -/
def Obligations.EveryCommandCompletes : Prop :=
  ∀ (c : Instr) (s : State), ∃ t, exec c s = .next t ∧ t.pending = s.pending

/-- R24: once released, no command but the loss of an always-on rail restarts or changes device time, whatever it resets. -/
def Obligations.DeviceTimeRunsOn : Prop :=
  ∀ (c : Instr) (s t : State), s.pw.released → s.pw.aon → ¬alwaysOnEvent c → exec c s = .next t → t.time = s.time

/-- The invariant holds right after reset. -/
def Obligations.ResetKeepsInvariant : Prop := Inv State.reset

/-- Every step keeps the invariant: the global scratchpad and the contexts stay in canonical form, and every bank keeps its size. -/
def Obligations.StepKeepsInvariant : Prop := ∀ s t : State, Inv s → step s = .next t → Inv t
end

