-- ==== Sys2Proof/Laws/Maps.lean ====
section
/-! SUPPORT. Sys2Proof/Laws/Maps.lean: the sparse maps of the state: what a read finds after a write or a removal, and that both
keep the canonical form. -/

namespace Sys2Proof.Machine

variable {α : Type}

/-- Every key is above a bound. -/
def AMap.above (n : Nat) (m : AMap α) : Prop := ∀ e ∈ m, n < e.1

theorem AMap.sorted_cons (j : Nat) (v : α) (m : AMap α) :
    AMap.sorted ((j, v) :: m) = true ↔ AMap.above j m ∧ AMap.sorted m = true := by
  induction m generalizing j v with
  | nil => simp [AMap.sorted, AMap.above]
  | cons e m ih =>
    obtain ⟨k, w⟩ := e
    simp only [AMap.sorted, Bool.and_eq_true, decide_eq_true_eq, ih]
    constructor
    · rintro ⟨h, a, s⟩
      refine ⟨fun e he => ?_, a, s⟩
      rcases List.mem_cons.1 he with rfl | he
      · exact h
      · exact Nat.lt_trans h (a e he)
    · rintro ⟨a, b, s⟩
      exact ⟨a _ List.mem_cons_self, b, s⟩

@[simp] theorem AMap.get?_nil (k : Nat) : AMap.get? ([] : AMap α) k = none := rfl

theorem AMap.get?_above {m : AMap α} {n k : Nat} (h : AMap.above n m) (hk : k ≤ n) : AMap.get? m k = none := by
  induction m with
  | nil => rfl
  | cons e m ih =>
    obtain ⟨j, v⟩ := e
    have hj : n < j := h _ List.mem_cons_self
    have hne : j ≠ k := by omega
    simp only [AMap.get?, hne, if_false]
    exact ih fun e he => h e (List.mem_cons_of_mem _ he)

/-- A read at the key just stored finds the value. -/
@[simp] theorem AMap.get?_put_same (m : AMap α) (k : Nat) (v : α) : AMap.get? (AMap.put m k v) k = some v := by
  induction m with
  | nil => simp [AMap.put, AMap.get?]
  | cons e m ih =>
    obtain ⟨j, w⟩ := e
    simp only [AMap.put]
    split
    · simp [AMap.get?]
    · split
      · simp [AMap.get?]
      · rename_i h
        have : j ≠ k := fun h' => h h'.symm
        simp [AMap.get?, this, ih]

/-- A read at another key is as before. -/
theorem AMap.get?_put_other (m : AMap α) {k n : Nat} (v : α) (h : n ≠ k) : AMap.get? (AMap.put m k v) n = AMap.get? m n := by
  induction m with
  | nil => simp [AMap.put, AMap.get?, Ne.symm h]
  | cons e m ih =>
    obtain ⟨j, w⟩ := e
    simp only [AMap.put]
    split
    · simp [AMap.get?, Ne.symm h]
    · split
      · rename_i _ hk
        subst hk
        simp [AMap.get?, Ne.symm h]
      · simp only [AMap.get?, ih]

theorem AMap.above_put {m : AMap α} {j k : Nat} (v : α) (h : AMap.above j m) (hk : j < k) : AMap.above j (AMap.put m k v) := by
  induction m with
  | nil => intro e he; simp only [AMap.put, List.mem_singleton] at he; subst he; exact hk
  | cons e m ih =>
    obtain ⟨i, w⟩ := e
    have hm : AMap.above j m := fun e he => h e (List.mem_cons_of_mem _ he)
    intro x hx
    simp only [AMap.put] at hx
    split at hx
    · rcases List.mem_cons.1 hx with rfl | hx
      · exact hk
      · exact h x hx
    · split at hx
      · rcases List.mem_cons.1 hx with rfl | hx
        · exact hk
        · exact hm x hx
      · rcases List.mem_cons.1 hx with rfl | hx
        · exact h _ List.mem_cons_self
        · exact ih hm x hx

theorem AMap.sorted_put {m : AMap α} (k : Nat) (v : α) (h : AMap.sorted m = true) : AMap.sorted (AMap.put m k v) = true := by
  induction m with
  | nil => rfl
  | cons e m ih =>
    obtain ⟨j, w⟩ := e
    have hs := (AMap.sorted_cons j w m).1 h
    simp only [AMap.put]
    split
    · rename_i hlt
      refine (AMap.sorted_cons _ _ _).2 ⟨fun e he => ?_, h⟩
      rcases List.mem_cons.1 he with rfl | he
      · exact hlt
      · exact Nat.lt_trans hlt (hs.1 e he)
    · split
      · rename_i _ heq
        subst heq
        exact (AMap.sorted_cons _ _ _).2 hs
      · rename_i h1 h2
        exact (AMap.sorted_cons _ _ _).2 ⟨AMap.above_put v hs.1 (by omega), ih hs.2⟩

theorem AMap.mem_del {m : AMap α} {k : Nat} {e : Nat × α} (h : e ∈ AMap.del m k) : e ∈ m := by
  induction m with
  | nil => exact h
  | cons x m ih =>
    obtain ⟨j, w⟩ := x
    simp only [AMap.del] at h
    split at h
    · exact List.mem_cons_of_mem _ h
    · rcases List.mem_cons.1 h with rfl | h
      · exact List.mem_cons_self
      · exact List.mem_cons_of_mem _ (ih h)

theorem AMap.sorted_del {m : AMap α} (k : Nat) (h : AMap.sorted m = true) : AMap.sorted (AMap.del m k) = true := by
  induction m with
  | nil => rfl
  | cons x m ih =>
    obtain ⟨j, w⟩ := x
    have hs := (AMap.sorted_cons j w m).1 h
    simp only [AMap.del]
    split
    · exact hs.2
    · exact (AMap.sorted_cons _ _ _).2 ⟨fun e he => hs.1 e (AMap.mem_del he), ih hs.2⟩

/-- A removed key reads as absent. -/
theorem AMap.get?_del_same {m : AMap α} (k : Nat) (h : AMap.sorted m = true) : AMap.get? (AMap.del m k) k = none := by
  induction m with
  | nil => rfl
  | cons x m ih =>
    obtain ⟨j, w⟩ := x
    have hs := (AMap.sorted_cons j w m).1 h
    simp only [AMap.del]
    split
    · rename_i hj
      subst hj
      exact AMap.get?_above hs.1 (Nat.le_refl _)
    · rename_i hj
      simp only [AMap.get?, hj, if_false]
      exact ih hs.2

theorem AMap.get?_del_other (m : AMap α) {k n : Nat} (h : n ≠ k) : AMap.get? (AMap.del m k) n = AMap.get? m n := by
  induction m with
  | nil => rfl
  | cons x m ih =>
    obtain ⟨j, w⟩ := x
    simp only [AMap.del]
    split
    · rename_i hj
      subst hj
      simp [AMap.get?, Ne.symm h]
    · simp only [AMap.get?, ih]

theorem AMap.upd_eq (m : AMap α) (k : Nat) (f : α → α) :
    AMap.upd m k f = m ∨ ∃ v, AMap.get? m k = some v ∧ AMap.upd m k f = AMap.put m k (f v) := by
  unfold AMap.upd
  split
  · exact .inl rfl
  · exact .inr ⟨_, ‹_›, rfl⟩

theorem AMap.mem_put {m : AMap α} {k : Nat} {v : α} {e : Nat × α} (h : e ∈ AMap.put m k v) : e = (k, v) ∨ e ∈ m := by
  induction m with
  | nil => exact .inl (List.mem_singleton.1 h)
  | cons x m ih =>
    obtain ⟨j, w⟩ := x
    simp only [AMap.put] at h
    split at h
    · rcases List.mem_cons.1 h with rfl | h
      · exact .inl rfl
      · exact .inr h
    · split at h
      · rcases List.mem_cons.1 h with rfl | h
        · exact .inl rfl
        · exact .inr (List.mem_cons_of_mem _ h)
      · rcases List.mem_cons.1 h with rfl | h
        · exact .inr List.mem_cons_self
        · rcases ih h with h | h
          · exact .inl h
          · exact .inr (List.mem_cons_of_mem _ h)

section
variable [DecidableEq α]

theorem AMap.wf_iff (m : AMap α) (d : α) : AMap.wf m d = true ↔ AMap.sorted m = true ∧ ∀ e ∈ m, e.2 ≠ d := by
  simp [AMap.wf, List.all_eq_true]

/-- A store keeps the canonical form, whatever it stores. -/
theorem AMap.wf_store {m : AMap α} {d : α} (k : Nat) (v : α) (h : AMap.wf m d = true) : AMap.wf (AMap.store m k v d) d = true := by
  rw [AMap.wf_iff] at h ⊢
  unfold AMap.store
  split
  · exact ⟨AMap.sorted_del k h.1, fun e he => h.2 e (AMap.mem_del he)⟩
  · rename_i hv
    refine ⟨AMap.sorted_put k v h.1, fun e he => ?_⟩
    rcases AMap.mem_put he with rfl | he
    · exact hv
    · exact h.2 e he

/-- A read after a store to the same key gives the value stored. -/
theorem AMap.getD_store_same {m : AMap α} (k : Nat) (v d : α) (h : AMap.sorted m = true) :
    AMap.getD (AMap.store m k v d) k d = v := by
  unfold AMap.getD AMap.store
  split
  · rename_i hv
    rw [AMap.get?_del_same k h, hv]; rfl
  · rw [AMap.get?_put_same]; rfl

/-- A read at another key is as before. -/
theorem AMap.getD_store_other (m : AMap α) {k n : Nat} (v d : α) (h : n ≠ k) :
    AMap.getD (AMap.store m k v d) n d = AMap.getD m n d := by
  unfold AMap.getD AMap.store
  split
  · rw [AMap.get?_del_other m h]
  · rw [AMap.get?_put_other m v h]

end

/-! ## Lists of a fixed length -/

@[simp] theorem modAt_length (l : List α) (k : Nat) (f : α → α) : (modAt l k f).length = l.length := by
  induction l generalizing k with
  | nil => rfl
  | cons a l ih => cases k <;> simp [modAt, ih]

theorem modAt_getD_same (l : List α) (k : Nat) (f : α → α) (d : α) (h : k < l.length) :
    (modAt l k f).getD k d = f (l.getD k d) := by
  induction l generalizing k with
  | nil => exact absurd h (Nat.not_lt_zero _)
  | cons a l ih =>
    cases k with
    | zero => rfl
    | succ k => exact ih k (Nat.lt_of_succ_lt_succ h)

theorem modAt_getD_other (l : List α) {k n : Nat} (f : α → α) (d : α) (h : n ≠ k) : (modAt l k f).getD n d = l.getD n d := by
  induction l generalizing k n with
  | nil => rfl
  | cons a l ih =>
    cases k with
    | zero => cases n with
      | zero => exact absurd rfl h
      | succ n => rfl
    | succ k => cases n with
      | zero => rfl
      | succ n => exact ih (by omega)

end Sys2Proof.Machine
end

