-- ==== Sys2Proof/Laws/State.lean ====
section
/-! SUPPORT. Sys2Proof/Laws/State.lean: what each update of one block of the state leaves in each field. -/

namespace Sys2Proof.Machine

@[simp] theorem State.onLink_time (s : State) (f : Link → Link) : (s.onLink f).time = s.time := rfl
@[simp] theorem State.onLink_link (s : State) (f : Link → Link) : (s.onLink f).link = f s.link := rfl
@[simp] theorem State.onLink_q (s : State) (f : Link → Link) : (s.onLink f).q = s.q := rfl
@[simp] theorem State.onLink_sub (s : State) (f : Link → Link) : (s.onLink f).sub = s.sub := rfl
@[simp] theorem State.onLink_sx (s : State) (f : Link → Link) : (s.onLink f).sx = s.sx := rfl
@[simp] theorem State.onLink_dma (s : State) (f : Link → Link) : (s.onLink f).dma = s.dma := rfl
@[simp] theorem State.onLink_md (s : State) (f : Link → Link) : (s.onLink f).md = s.md := rfl
@[simp] theorem State.onLink_dev (s : State) (f : Link → Link) : (s.onLink f).dev = s.dev := rfl
@[simp] theorem State.onLink_tally (s : State) (f : Link → Link) : (s.onLink f).tally = s.tally := rfl
@[simp] theorem State.onLink_pl (s : State) (f : Link → Link) : (s.onLink f).pl = s.pl := rfl
@[simp] theorem State.onLink_mail (s : State) (f : Link → Link) : (s.onLink f).mail = s.mail := rfl
@[simp] theorem State.onLink_ic (s : State) (f : Link → Link) : (s.onLink f).ic = s.ic := rfl
@[simp] theorem State.onLink_icPl (s : State) (f : Link → Link) : (s.onLink f).icPl = s.icPl := rfl
@[simp] theorem State.onLink_pw (s : State) (f : Link → Link) : (s.onLink f).pw = s.pw := rfl
@[simp] theorem State.onLink_fresh (s : State) (f : Link → Link) : (s.onLink f).fresh = s.fresh := rfl
@[simp] theorem State.onLink_out (s : State) (f : Link → Link) : (s.onLink f).out = s.out := rfl
@[simp] theorem State.onLink_pending (s : State) (f : Link → Link) : (s.onLink f).pending = s.pending := rfl

@[simp] theorem State.onQ_time (s : State) (f : Queues → Queues) : (s.onQ f).time = s.time := rfl
@[simp] theorem State.onQ_link (s : State) (f : Queues → Queues) : (s.onQ f).link = s.link := rfl
@[simp] theorem State.onQ_q (s : State) (f : Queues → Queues) : (s.onQ f).q = f s.q := rfl
@[simp] theorem State.onQ_sub (s : State) (f : Queues → Queues) : (s.onQ f).sub = s.sub := rfl
@[simp] theorem State.onQ_sx (s : State) (f : Queues → Queues) : (s.onQ f).sx = s.sx := rfl
@[simp] theorem State.onQ_dma (s : State) (f : Queues → Queues) : (s.onQ f).dma = s.dma := rfl
@[simp] theorem State.onQ_md (s : State) (f : Queues → Queues) : (s.onQ f).md = s.md := rfl
@[simp] theorem State.onQ_dev (s : State) (f : Queues → Queues) : (s.onQ f).dev = s.dev := rfl
@[simp] theorem State.onQ_tally (s : State) (f : Queues → Queues) : (s.onQ f).tally = s.tally := rfl
@[simp] theorem State.onQ_pl (s : State) (f : Queues → Queues) : (s.onQ f).pl = s.pl := rfl
@[simp] theorem State.onQ_mail (s : State) (f : Queues → Queues) : (s.onQ f).mail = s.mail := rfl
@[simp] theorem State.onQ_ic (s : State) (f : Queues → Queues) : (s.onQ f).ic = s.ic := rfl
@[simp] theorem State.onQ_icPl (s : State) (f : Queues → Queues) : (s.onQ f).icPl = s.icPl := rfl
@[simp] theorem State.onQ_pw (s : State) (f : Queues → Queues) : (s.onQ f).pw = s.pw := rfl
@[simp] theorem State.onQ_fresh (s : State) (f : Queues → Queues) : (s.onQ f).fresh = s.fresh := rfl
@[simp] theorem State.onQ_out (s : State) (f : Queues → Queues) : (s.onQ f).out = s.out := rfl
@[simp] theorem State.onQ_pending (s : State) (f : Queues → Queues) : (s.onQ f).pending = s.pending := rfl

@[simp] theorem State.onSub_time (s : State) (f : Subch → Subch) : (s.onSub f).time = s.time := rfl
@[simp] theorem State.onSub_link (s : State) (f : Subch → Subch) : (s.onSub f).link = s.link := rfl
@[simp] theorem State.onSub_q (s : State) (f : Subch → Subch) : (s.onSub f).q = s.q := rfl
@[simp] theorem State.onSub_sub (s : State) (f : Subch → Subch) : (s.onSub f).sub = f s.sub := rfl
@[simp] theorem State.onSub_sx (s : State) (f : Subch → Subch) : (s.onSub f).sx = s.sx := rfl
@[simp] theorem State.onSub_dma (s : State) (f : Subch → Subch) : (s.onSub f).dma = s.dma := rfl
@[simp] theorem State.onSub_md (s : State) (f : Subch → Subch) : (s.onSub f).md = s.md := rfl
@[simp] theorem State.onSub_dev (s : State) (f : Subch → Subch) : (s.onSub f).dev = s.dev := rfl
@[simp] theorem State.onSub_tally (s : State) (f : Subch → Subch) : (s.onSub f).tally = s.tally := rfl
@[simp] theorem State.onSub_pl (s : State) (f : Subch → Subch) : (s.onSub f).pl = s.pl := rfl
@[simp] theorem State.onSub_mail (s : State) (f : Subch → Subch) : (s.onSub f).mail = s.mail := rfl
@[simp] theorem State.onSub_ic (s : State) (f : Subch → Subch) : (s.onSub f).ic = s.ic := rfl
@[simp] theorem State.onSub_icPl (s : State) (f : Subch → Subch) : (s.onSub f).icPl = s.icPl := rfl
@[simp] theorem State.onSub_pw (s : State) (f : Subch → Subch) : (s.onSub f).pw = s.pw := rfl
@[simp] theorem State.onSub_fresh (s : State) (f : Subch → Subch) : (s.onSub f).fresh = s.fresh := rfl
@[simp] theorem State.onSub_out (s : State) (f : Subch → Subch) : (s.onSub f).out = s.out := rfl
@[simp] theorem State.onSub_pending (s : State) (f : Subch → Subch) : (s.onSub f).pending = s.pending := rfl

@[simp] theorem State.onSx_time (s : State) (f : Sirax → Sirax) : (s.onSx f).time = s.time := rfl
@[simp] theorem State.onSx_link (s : State) (f : Sirax → Sirax) : (s.onSx f).link = s.link := rfl
@[simp] theorem State.onSx_q (s : State) (f : Sirax → Sirax) : (s.onSx f).q = s.q := rfl
@[simp] theorem State.onSx_sub (s : State) (f : Sirax → Sirax) : (s.onSx f).sub = s.sub := rfl
@[simp] theorem State.onSx_sx (s : State) (f : Sirax → Sirax) : (s.onSx f).sx = f s.sx := rfl
@[simp] theorem State.onSx_dma (s : State) (f : Sirax → Sirax) : (s.onSx f).dma = s.dma := rfl
@[simp] theorem State.onSx_md (s : State) (f : Sirax → Sirax) : (s.onSx f).md = s.md := rfl
@[simp] theorem State.onSx_dev (s : State) (f : Sirax → Sirax) : (s.onSx f).dev = s.dev := rfl
@[simp] theorem State.onSx_tally (s : State) (f : Sirax → Sirax) : (s.onSx f).tally = s.tally := rfl
@[simp] theorem State.onSx_pl (s : State) (f : Sirax → Sirax) : (s.onSx f).pl = s.pl := rfl
@[simp] theorem State.onSx_mail (s : State) (f : Sirax → Sirax) : (s.onSx f).mail = s.mail := rfl
@[simp] theorem State.onSx_ic (s : State) (f : Sirax → Sirax) : (s.onSx f).ic = s.ic := rfl
@[simp] theorem State.onSx_icPl (s : State) (f : Sirax → Sirax) : (s.onSx f).icPl = s.icPl := rfl
@[simp] theorem State.onSx_pw (s : State) (f : Sirax → Sirax) : (s.onSx f).pw = s.pw := rfl
@[simp] theorem State.onSx_fresh (s : State) (f : Sirax → Sirax) : (s.onSx f).fresh = s.fresh := rfl
@[simp] theorem State.onSx_out (s : State) (f : Sirax → Sirax) : (s.onSx f).out = s.out := rfl
@[simp] theorem State.onSx_pending (s : State) (f : Sirax → Sirax) : (s.onSx f).pending = s.pending := rfl

@[simp] theorem State.onDma_time (s : State) (f : Dma → Dma) : (s.onDma f).time = s.time := rfl
@[simp] theorem State.onDma_link (s : State) (f : Dma → Dma) : (s.onDma f).link = s.link := rfl
@[simp] theorem State.onDma_q (s : State) (f : Dma → Dma) : (s.onDma f).q = s.q := rfl
@[simp] theorem State.onDma_sub (s : State) (f : Dma → Dma) : (s.onDma f).sub = s.sub := rfl
@[simp] theorem State.onDma_sx (s : State) (f : Dma → Dma) : (s.onDma f).sx = s.sx := rfl
@[simp] theorem State.onDma_dma (s : State) (f : Dma → Dma) : (s.onDma f).dma = f s.dma := rfl
@[simp] theorem State.onDma_md (s : State) (f : Dma → Dma) : (s.onDma f).md = s.md := rfl
@[simp] theorem State.onDma_dev (s : State) (f : Dma → Dma) : (s.onDma f).dev = s.dev := rfl
@[simp] theorem State.onDma_tally (s : State) (f : Dma → Dma) : (s.onDma f).tally = s.tally := rfl
@[simp] theorem State.onDma_pl (s : State) (f : Dma → Dma) : (s.onDma f).pl = s.pl := rfl
@[simp] theorem State.onDma_mail (s : State) (f : Dma → Dma) : (s.onDma f).mail = s.mail := rfl
@[simp] theorem State.onDma_ic (s : State) (f : Dma → Dma) : (s.onDma f).ic = s.ic := rfl
@[simp] theorem State.onDma_icPl (s : State) (f : Dma → Dma) : (s.onDma f).icPl = s.icPl := rfl
@[simp] theorem State.onDma_pw (s : State) (f : Dma → Dma) : (s.onDma f).pw = s.pw := rfl
@[simp] theorem State.onDma_fresh (s : State) (f : Dma → Dma) : (s.onDma f).fresh = s.fresh := rfl
@[simp] theorem State.onDma_out (s : State) (f : Dma → Dma) : (s.onDma f).out = s.out := rfl
@[simp] theorem State.onDma_pending (s : State) (f : Dma → Dma) : (s.onDma f).pending = s.pending := rfl

@[simp] theorem State.onMd_time (s : State) (f : Meridian → Meridian) : (s.onMd f).time = s.time := rfl
@[simp] theorem State.onMd_link (s : State) (f : Meridian → Meridian) : (s.onMd f).link = s.link := rfl
@[simp] theorem State.onMd_q (s : State) (f : Meridian → Meridian) : (s.onMd f).q = s.q := rfl
@[simp] theorem State.onMd_sub (s : State) (f : Meridian → Meridian) : (s.onMd f).sub = s.sub := rfl
@[simp] theorem State.onMd_sx (s : State) (f : Meridian → Meridian) : (s.onMd f).sx = s.sx := rfl
@[simp] theorem State.onMd_dma (s : State) (f : Meridian → Meridian) : (s.onMd f).dma = s.dma := rfl
@[simp] theorem State.onMd_md (s : State) (f : Meridian → Meridian) : (s.onMd f).md = f s.md := rfl
@[simp] theorem State.onMd_dev (s : State) (f : Meridian → Meridian) : (s.onMd f).dev = s.dev := rfl
@[simp] theorem State.onMd_tally (s : State) (f : Meridian → Meridian) : (s.onMd f).tally = s.tally := rfl
@[simp] theorem State.onMd_pl (s : State) (f : Meridian → Meridian) : (s.onMd f).pl = s.pl := rfl
@[simp] theorem State.onMd_mail (s : State) (f : Meridian → Meridian) : (s.onMd f).mail = s.mail := rfl
@[simp] theorem State.onMd_ic (s : State) (f : Meridian → Meridian) : (s.onMd f).ic = s.ic := rfl
@[simp] theorem State.onMd_icPl (s : State) (f : Meridian → Meridian) : (s.onMd f).icPl = s.icPl := rfl
@[simp] theorem State.onMd_pw (s : State) (f : Meridian → Meridian) : (s.onMd f).pw = s.pw := rfl
@[simp] theorem State.onMd_fresh (s : State) (f : Meridian → Meridian) : (s.onMd f).fresh = s.fresh := rfl
@[simp] theorem State.onMd_out (s : State) (f : Meridian → Meridian) : (s.onMd f).out = s.out := rfl
@[simp] theorem State.onMd_pending (s : State) (f : Meridian → Meridian) : (s.onMd f).pending = s.pending := rfl

@[simp] theorem State.onDev_time (s : State) (f : Devices → Devices) : (s.onDev f).time = s.time := rfl
@[simp] theorem State.onDev_link (s : State) (f : Devices → Devices) : (s.onDev f).link = s.link := rfl
@[simp] theorem State.onDev_q (s : State) (f : Devices → Devices) : (s.onDev f).q = s.q := rfl
@[simp] theorem State.onDev_sub (s : State) (f : Devices → Devices) : (s.onDev f).sub = s.sub := rfl
@[simp] theorem State.onDev_sx (s : State) (f : Devices → Devices) : (s.onDev f).sx = s.sx := rfl
@[simp] theorem State.onDev_dma (s : State) (f : Devices → Devices) : (s.onDev f).dma = s.dma := rfl
@[simp] theorem State.onDev_md (s : State) (f : Devices → Devices) : (s.onDev f).md = s.md := rfl
@[simp] theorem State.onDev_dev (s : State) (f : Devices → Devices) : (s.onDev f).dev = f s.dev := rfl
@[simp] theorem State.onDev_tally (s : State) (f : Devices → Devices) : (s.onDev f).tally = s.tally := rfl
@[simp] theorem State.onDev_pl (s : State) (f : Devices → Devices) : (s.onDev f).pl = s.pl := rfl
@[simp] theorem State.onDev_mail (s : State) (f : Devices → Devices) : (s.onDev f).mail = s.mail := rfl
@[simp] theorem State.onDev_ic (s : State) (f : Devices → Devices) : (s.onDev f).ic = s.ic := rfl
@[simp] theorem State.onDev_icPl (s : State) (f : Devices → Devices) : (s.onDev f).icPl = s.icPl := rfl
@[simp] theorem State.onDev_pw (s : State) (f : Devices → Devices) : (s.onDev f).pw = s.pw := rfl
@[simp] theorem State.onDev_fresh (s : State) (f : Devices → Devices) : (s.onDev f).fresh = s.fresh := rfl
@[simp] theorem State.onDev_out (s : State) (f : Devices → Devices) : (s.onDev f).out = s.out := rfl
@[simp] theorem State.onDev_pending (s : State) (f : Devices → Devices) : (s.onDev f).pending = s.pending := rfl

@[simp] theorem State.onTally_time (s : State) (f : Tally → Tally) : (s.onTally f).time = s.time := rfl
@[simp] theorem State.onTally_link (s : State) (f : Tally → Tally) : (s.onTally f).link = s.link := rfl
@[simp] theorem State.onTally_q (s : State) (f : Tally → Tally) : (s.onTally f).q = s.q := rfl
@[simp] theorem State.onTally_sub (s : State) (f : Tally → Tally) : (s.onTally f).sub = s.sub := rfl
@[simp] theorem State.onTally_sx (s : State) (f : Tally → Tally) : (s.onTally f).sx = s.sx := rfl
@[simp] theorem State.onTally_dma (s : State) (f : Tally → Tally) : (s.onTally f).dma = s.dma := rfl
@[simp] theorem State.onTally_md (s : State) (f : Tally → Tally) : (s.onTally f).md = s.md := rfl
@[simp] theorem State.onTally_dev (s : State) (f : Tally → Tally) : (s.onTally f).dev = s.dev := rfl
@[simp] theorem State.onTally_tally (s : State) (f : Tally → Tally) : (s.onTally f).tally = f s.tally := rfl
@[simp] theorem State.onTally_pl (s : State) (f : Tally → Tally) : (s.onTally f).pl = s.pl := rfl
@[simp] theorem State.onTally_mail (s : State) (f : Tally → Tally) : (s.onTally f).mail = s.mail := rfl
@[simp] theorem State.onTally_ic (s : State) (f : Tally → Tally) : (s.onTally f).ic = s.ic := rfl
@[simp] theorem State.onTally_icPl (s : State) (f : Tally → Tally) : (s.onTally f).icPl = s.icPl := rfl
@[simp] theorem State.onTally_pw (s : State) (f : Tally → Tally) : (s.onTally f).pw = s.pw := rfl
@[simp] theorem State.onTally_fresh (s : State) (f : Tally → Tally) : (s.onTally f).fresh = s.fresh := rfl
@[simp] theorem State.onTally_out (s : State) (f : Tally → Tally) : (s.onTally f).out = s.out := rfl
@[simp] theorem State.onTally_pending (s : State) (f : Tally → Tally) : (s.onTally f).pending = s.pending := rfl

@[simp] theorem State.onPl_time (s : State) (f : Plinth → Plinth) : (s.onPl f).time = s.time := rfl
@[simp] theorem State.onPl_link (s : State) (f : Plinth → Plinth) : (s.onPl f).link = s.link := rfl
@[simp] theorem State.onPl_q (s : State) (f : Plinth → Plinth) : (s.onPl f).q = s.q := rfl
@[simp] theorem State.onPl_sub (s : State) (f : Plinth → Plinth) : (s.onPl f).sub = s.sub := rfl
@[simp] theorem State.onPl_sx (s : State) (f : Plinth → Plinth) : (s.onPl f).sx = s.sx := rfl
@[simp] theorem State.onPl_dma (s : State) (f : Plinth → Plinth) : (s.onPl f).dma = s.dma := rfl
@[simp] theorem State.onPl_md (s : State) (f : Plinth → Plinth) : (s.onPl f).md = s.md := rfl
@[simp] theorem State.onPl_dev (s : State) (f : Plinth → Plinth) : (s.onPl f).dev = s.dev := rfl
@[simp] theorem State.onPl_tally (s : State) (f : Plinth → Plinth) : (s.onPl f).tally = s.tally := rfl
@[simp] theorem State.onPl_pl (s : State) (f : Plinth → Plinth) : (s.onPl f).pl = f s.pl := rfl
@[simp] theorem State.onPl_mail (s : State) (f : Plinth → Plinth) : (s.onPl f).mail = s.mail := rfl
@[simp] theorem State.onPl_ic (s : State) (f : Plinth → Plinth) : (s.onPl f).ic = s.ic := rfl
@[simp] theorem State.onPl_icPl (s : State) (f : Plinth → Plinth) : (s.onPl f).icPl = s.icPl := rfl
@[simp] theorem State.onPl_pw (s : State) (f : Plinth → Plinth) : (s.onPl f).pw = s.pw := rfl
@[simp] theorem State.onPl_fresh (s : State) (f : Plinth → Plinth) : (s.onPl f).fresh = s.fresh := rfl
@[simp] theorem State.onPl_out (s : State) (f : Plinth → Plinth) : (s.onPl f).out = s.out := rfl
@[simp] theorem State.onPl_pending (s : State) (f : Plinth → Plinth) : (s.onPl f).pending = s.pending := rfl

@[simp] theorem State.onMail_time (s : State) (f : Mail → Mail) : (s.onMail f).time = s.time := rfl
@[simp] theorem State.onMail_link (s : State) (f : Mail → Mail) : (s.onMail f).link = s.link := rfl
@[simp] theorem State.onMail_q (s : State) (f : Mail → Mail) : (s.onMail f).q = s.q := rfl
@[simp] theorem State.onMail_sub (s : State) (f : Mail → Mail) : (s.onMail f).sub = s.sub := rfl
@[simp] theorem State.onMail_sx (s : State) (f : Mail → Mail) : (s.onMail f).sx = s.sx := rfl
@[simp] theorem State.onMail_dma (s : State) (f : Mail → Mail) : (s.onMail f).dma = s.dma := rfl
@[simp] theorem State.onMail_md (s : State) (f : Mail → Mail) : (s.onMail f).md = s.md := rfl
@[simp] theorem State.onMail_dev (s : State) (f : Mail → Mail) : (s.onMail f).dev = s.dev := rfl
@[simp] theorem State.onMail_tally (s : State) (f : Mail → Mail) : (s.onMail f).tally = s.tally := rfl
@[simp] theorem State.onMail_pl (s : State) (f : Mail → Mail) : (s.onMail f).pl = s.pl := rfl
@[simp] theorem State.onMail_mail (s : State) (f : Mail → Mail) : (s.onMail f).mail = f s.mail := rfl
@[simp] theorem State.onMail_ic (s : State) (f : Mail → Mail) : (s.onMail f).ic = s.ic := rfl
@[simp] theorem State.onMail_icPl (s : State) (f : Mail → Mail) : (s.onMail f).icPl = s.icPl := rfl
@[simp] theorem State.onMail_pw (s : State) (f : Mail → Mail) : (s.onMail f).pw = s.pw := rfl
@[simp] theorem State.onMail_fresh (s : State) (f : Mail → Mail) : (s.onMail f).fresh = s.fresh := rfl
@[simp] theorem State.onMail_out (s : State) (f : Mail → Mail) : (s.onMail f).out = s.out := rfl
@[simp] theorem State.onMail_pending (s : State) (f : Mail → Mail) : (s.onMail f).pending = s.pending := rfl

@[simp] theorem State.onIc_time (s : State) (f : Ic → Ic) : (s.onIc f).time = s.time := rfl
@[simp] theorem State.onIc_link (s : State) (f : Ic → Ic) : (s.onIc f).link = s.link := rfl
@[simp] theorem State.onIc_q (s : State) (f : Ic → Ic) : (s.onIc f).q = s.q := rfl
@[simp] theorem State.onIc_sub (s : State) (f : Ic → Ic) : (s.onIc f).sub = s.sub := rfl
@[simp] theorem State.onIc_sx (s : State) (f : Ic → Ic) : (s.onIc f).sx = s.sx := rfl
@[simp] theorem State.onIc_dma (s : State) (f : Ic → Ic) : (s.onIc f).dma = s.dma := rfl
@[simp] theorem State.onIc_md (s : State) (f : Ic → Ic) : (s.onIc f).md = s.md := rfl
@[simp] theorem State.onIc_dev (s : State) (f : Ic → Ic) : (s.onIc f).dev = s.dev := rfl
@[simp] theorem State.onIc_tally (s : State) (f : Ic → Ic) : (s.onIc f).tally = s.tally := rfl
@[simp] theorem State.onIc_pl (s : State) (f : Ic → Ic) : (s.onIc f).pl = s.pl := rfl
@[simp] theorem State.onIc_mail (s : State) (f : Ic → Ic) : (s.onIc f).mail = s.mail := rfl
@[simp] theorem State.onIc_ic (s : State) (f : Ic → Ic) : (s.onIc f).ic = f s.ic := rfl
@[simp] theorem State.onIc_icPl (s : State) (f : Ic → Ic) : (s.onIc f).icPl = s.icPl := rfl
@[simp] theorem State.onIc_pw (s : State) (f : Ic → Ic) : (s.onIc f).pw = s.pw := rfl
@[simp] theorem State.onIc_fresh (s : State) (f : Ic → Ic) : (s.onIc f).fresh = s.fresh := rfl
@[simp] theorem State.onIc_out (s : State) (f : Ic → Ic) : (s.onIc f).out = s.out := rfl
@[simp] theorem State.onIc_pending (s : State) (f : Ic → Ic) : (s.onIc f).pending = s.pending := rfl

@[simp] theorem State.onIcPl_time (s : State) (f : Ic → Ic) : (s.onIcPl f).time = s.time := rfl
@[simp] theorem State.onIcPl_link (s : State) (f : Ic → Ic) : (s.onIcPl f).link = s.link := rfl
@[simp] theorem State.onIcPl_q (s : State) (f : Ic → Ic) : (s.onIcPl f).q = s.q := rfl
@[simp] theorem State.onIcPl_sub (s : State) (f : Ic → Ic) : (s.onIcPl f).sub = s.sub := rfl
@[simp] theorem State.onIcPl_sx (s : State) (f : Ic → Ic) : (s.onIcPl f).sx = s.sx := rfl
@[simp] theorem State.onIcPl_dma (s : State) (f : Ic → Ic) : (s.onIcPl f).dma = s.dma := rfl
@[simp] theorem State.onIcPl_md (s : State) (f : Ic → Ic) : (s.onIcPl f).md = s.md := rfl
@[simp] theorem State.onIcPl_dev (s : State) (f : Ic → Ic) : (s.onIcPl f).dev = s.dev := rfl
@[simp] theorem State.onIcPl_tally (s : State) (f : Ic → Ic) : (s.onIcPl f).tally = s.tally := rfl
@[simp] theorem State.onIcPl_pl (s : State) (f : Ic → Ic) : (s.onIcPl f).pl = s.pl := rfl
@[simp] theorem State.onIcPl_mail (s : State) (f : Ic → Ic) : (s.onIcPl f).mail = s.mail := rfl
@[simp] theorem State.onIcPl_ic (s : State) (f : Ic → Ic) : (s.onIcPl f).ic = s.ic := rfl
@[simp] theorem State.onIcPl_icPl (s : State) (f : Ic → Ic) : (s.onIcPl f).icPl = f s.icPl := rfl
@[simp] theorem State.onIcPl_pw (s : State) (f : Ic → Ic) : (s.onIcPl f).pw = s.pw := rfl
@[simp] theorem State.onIcPl_fresh (s : State) (f : Ic → Ic) : (s.onIcPl f).fresh = s.fresh := rfl
@[simp] theorem State.onIcPl_out (s : State) (f : Ic → Ic) : (s.onIcPl f).out = s.out := rfl
@[simp] theorem State.onIcPl_pending (s : State) (f : Ic → Ic) : (s.onIcPl f).pending = s.pending := rfl

@[simp] theorem State.onPw_time (s : State) (f : Power → Power) : (s.onPw f).time = s.time := rfl
@[simp] theorem State.onPw_link (s : State) (f : Power → Power) : (s.onPw f).link = s.link := rfl
@[simp] theorem State.onPw_q (s : State) (f : Power → Power) : (s.onPw f).q = s.q := rfl
@[simp] theorem State.onPw_sub (s : State) (f : Power → Power) : (s.onPw f).sub = s.sub := rfl
@[simp] theorem State.onPw_sx (s : State) (f : Power → Power) : (s.onPw f).sx = s.sx := rfl
@[simp] theorem State.onPw_dma (s : State) (f : Power → Power) : (s.onPw f).dma = s.dma := rfl
@[simp] theorem State.onPw_md (s : State) (f : Power → Power) : (s.onPw f).md = s.md := rfl
@[simp] theorem State.onPw_dev (s : State) (f : Power → Power) : (s.onPw f).dev = s.dev := rfl
@[simp] theorem State.onPw_tally (s : State) (f : Power → Power) : (s.onPw f).tally = s.tally := rfl
@[simp] theorem State.onPw_pl (s : State) (f : Power → Power) : (s.onPw f).pl = s.pl := rfl
@[simp] theorem State.onPw_mail (s : State) (f : Power → Power) : (s.onPw f).mail = s.mail := rfl
@[simp] theorem State.onPw_ic (s : State) (f : Power → Power) : (s.onPw f).ic = s.ic := rfl
@[simp] theorem State.onPw_icPl (s : State) (f : Power → Power) : (s.onPw f).icPl = s.icPl := rfl
@[simp] theorem State.onPw_pw (s : State) (f : Power → Power) : (s.onPw f).pw = f s.pw := rfl
@[simp] theorem State.onPw_fresh (s : State) (f : Power → Power) : (s.onPw f).fresh = s.fresh := rfl
@[simp] theorem State.onPw_out (s : State) (f : Power → Power) : (s.onPw f).out = s.out := rfl
@[simp] theorem State.onPw_pending (s : State) (f : Power → Power) : (s.onPw f).pending = s.pending := rfl

@[simp] theorem State.emit_time (s : State) (o : Out) : (s.emit o).time = s.time := rfl
@[simp] theorem State.emit_link (s : State) (o : Out) : (s.emit o).link = s.link := rfl
@[simp] theorem State.emit_q (s : State) (o : Out) : (s.emit o).q = s.q := rfl
@[simp] theorem State.emit_sub (s : State) (o : Out) : (s.emit o).sub = s.sub := rfl
@[simp] theorem State.emit_sx (s : State) (o : Out) : (s.emit o).sx = s.sx := rfl
@[simp] theorem State.emit_dma (s : State) (o : Out) : (s.emit o).dma = s.dma := rfl
@[simp] theorem State.emit_md (s : State) (o : Out) : (s.emit o).md = s.md := rfl
@[simp] theorem State.emit_dev (s : State) (o : Out) : (s.emit o).dev = s.dev := rfl
@[simp] theorem State.emit_tally (s : State) (o : Out) : (s.emit o).tally = s.tally := rfl
@[simp] theorem State.emit_pl (s : State) (o : Out) : (s.emit o).pl = s.pl := rfl
@[simp] theorem State.emit_mail (s : State) (o : Out) : (s.emit o).mail = s.mail := rfl
@[simp] theorem State.emit_ic (s : State) (o : Out) : (s.emit o).ic = s.ic := rfl
@[simp] theorem State.emit_icPl (s : State) (o : Out) : (s.emit o).icPl = s.icPl := rfl
@[simp] theorem State.emit_pw (s : State) (o : Out) : (s.emit o).pw = s.pw := rfl
@[simp] theorem State.emit_fresh (s : State) (o : Out) : (s.emit o).fresh = s.fresh := rfl
@[simp] theorem State.emit_out (s : State) (o : Out) : (s.emit o).out = s.out ++ [o] := rfl
@[simp] theorem State.emit_pending (s : State) (o : Out) : (s.emit o).pending = s.pending := rfl

@[simp] theorem State.emits_time (s : State) (o : List Out) : (s.emits o).time = s.time := rfl
@[simp] theorem State.emits_link (s : State) (o : List Out) : (s.emits o).link = s.link := rfl
@[simp] theorem State.emits_q (s : State) (o : List Out) : (s.emits o).q = s.q := rfl
@[simp] theorem State.emits_sub (s : State) (o : List Out) : (s.emits o).sub = s.sub := rfl
@[simp] theorem State.emits_sx (s : State) (o : List Out) : (s.emits o).sx = s.sx := rfl
@[simp] theorem State.emits_dma (s : State) (o : List Out) : (s.emits o).dma = s.dma := rfl
@[simp] theorem State.emits_md (s : State) (o : List Out) : (s.emits o).md = s.md := rfl
@[simp] theorem State.emits_dev (s : State) (o : List Out) : (s.emits o).dev = s.dev := rfl
@[simp] theorem State.emits_tally (s : State) (o : List Out) : (s.emits o).tally = s.tally := rfl
@[simp] theorem State.emits_pl (s : State) (o : List Out) : (s.emits o).pl = s.pl := rfl
@[simp] theorem State.emits_mail (s : State) (o : List Out) : (s.emits o).mail = s.mail := rfl
@[simp] theorem State.emits_ic (s : State) (o : List Out) : (s.emits o).ic = s.ic := rfl
@[simp] theorem State.emits_icPl (s : State) (o : List Out) : (s.emits o).icPl = s.icPl := rfl
@[simp] theorem State.emits_pw (s : State) (o : List Out) : (s.emits o).pw = s.pw := rfl
@[simp] theorem State.emits_fresh (s : State) (o : List Out) : (s.emits o).fresh = s.fresh := rfl
@[simp] theorem State.emits_out (s : State) (o : List Out) : (s.emits o).out = s.out ++ o := rfl
@[simp] theorem State.emits_pending (s : State) (o : List Out) : (s.emits o).pending = s.pending := rfl

end Sys2Proof.Machine
end

