-- ==== Sys2Proof/Laws/FramesShared.lean ====
section
/-! SUPPORT. Sys2Proof/Laws/FramesShared.lean: which blocks of the state each operation leaves as they are: the operations that
      many commands share: records, interrupts, bounds, requests to Meridian, completions, units of the pools, the life of a
      program.
Of a block that it does change, a lemma says that the map or the list lengths named in the invariant stay. -/

namespace Sys2Proof.Machine

set_option linter.all false

/-! ## Ops -/

theorem foldl_keeps {α β : Type} (g : State → β) (f : State → α → State) (h : ∀ t a, g (f t a) = g t) (l : List α) (s : State) :
    g (l.foldl f s) = g s := by
  induction l generalizing s with
  | nil => rfl
  | cons a l ih => exact (ih _).trans (h s a)

theorem iter_keeps {β : Type} (g : State → β) (f : State → State) (h : ∀ t, g (f t) = g t) (n : Nat) (s : State) :
    g (State.iter n f s) = g s := by
  induction n generalizing s with
  | zero => rfl
  | succ n ih => exact (ih _).trans (h s)
@[simp] theorem State.emit_frame (s : State) (o : Out) :
    (s.emit o).time = s.time ∧ (s.emit o).link = s.link ∧ (s.emit o).q = s.q ∧ (s.emit o).sub = s.sub ∧
    (s.emit o).sx = s.sx ∧ (s.emit o).dma = s.dma ∧ (s.emit o).md = s.md ∧ (s.emit o).dev = s.dev ∧
    (s.emit o).tally = s.tally ∧ (s.emit o).pl = s.pl ∧ (s.emit o).mail = s.mail ∧ (s.emit o).ic = s.ic ∧
    (s.emit o).icPl = s.icPl ∧ (s.emit o).pw = s.pw ∧ (s.emit o).fresh = s.fresh ∧ (s.emit o).pending = s.pending := by
  simp [State.emit]

@[simp] theorem State.emits_frame (s : State) (os : List Out) :
    (s.emits os).time = s.time ∧ (s.emits os).link = s.link ∧ (s.emits os).q = s.q ∧ (s.emits os).sub = s.sub ∧
    (s.emits os).sx = s.sx ∧ (s.emits os).dma = s.dma ∧ (s.emits os).md = s.md ∧ (s.emits os).dev = s.dev ∧
    (s.emits os).tally = s.tally ∧ (s.emits os).pl = s.pl ∧ (s.emits os).mail = s.mail ∧ (s.emits os).ic = s.ic ∧
    (s.emits os).icPl = s.icPl ∧ (s.emits os).pw = s.pw ∧ (s.emits os).fresh = s.fresh ∧ (s.emits os).pending = s.pending := by
  simp [State.emits]

@[simp] theorem State.record_frame (s : State) (type source : Nat) (payload : List Byte) (len : Nat) :
    (s.record type source payload len).time = s.time ∧ (s.record type source payload len).sx = s.sx ∧
    (s.record type source payload len).dma = s.dma ∧ (s.record type source payload len).dev = s.dev ∧
    (s.record type source payload len).mail = s.mail ∧ (s.record type source payload len).icPl = s.icPl ∧
    (s.record type source payload len).pw = s.pw ∧ (s.record type source payload len).fresh = s.fresh ∧
    (s.record type source payload len).pending = s.pending := by
  unfold State.record; try dsimp only
  (repeat' split) <;> simp

@[simp] theorem State.event_frame (s : State) (source block code a0 a1 a2 a3 : Nat) :
    (s.event source block code a0 a1 a2 a3).time = s.time ∧ (s.event source block code a0 a1 a2 a3).sx = s.sx ∧
    (s.event source block code a0 a1 a2 a3).dma = s.dma ∧ (s.event source block code a0 a1 a2 a3).dev = s.dev ∧
    (s.event source block code a0 a1 a2 a3).mail = s.mail ∧ (s.event source block code a0 a1 a2 a3).icPl = s.icPl ∧
    (s.event source block code a0 a1 a2 a3).pw = s.pw ∧ (s.event source block code a0 a1 a2 a3).fresh = s.fresh ∧
    (s.event source block code a0 a1 a2 a3).pending = s.pending := by
  simp [State.event]

@[simp] theorem State.irq_frame (s : State) (src : Nat) :
    (s.irq src).time = s.time ∧ (s.irq src).link = s.link ∧ (s.irq src).q = s.q ∧ (s.irq src).sub = s.sub ∧
    (s.irq src).sx = s.sx ∧ (s.irq src).dma = s.dma ∧ (s.irq src).md = s.md ∧ (s.irq src).dev = s.dev ∧
    (s.irq src).tally = s.tally ∧ (s.irq src).pl = s.pl ∧ (s.irq src).mail = s.mail ∧ (s.irq src).icPl = s.icPl ∧
    (s.irq src).pw = s.pw ∧ (s.irq src).fresh = s.fresh ∧ (s.irq src).out = s.out ∧ (s.irq src).pending = s.pending := by
  simp [State.irq]

@[simp] theorem State.irqPl_frame (s : State) (src : Nat) :
    (s.irqPl src).time = s.time ∧ (s.irqPl src).link = s.link ∧ (s.irqPl src).q = s.q ∧ (s.irqPl src).sub = s.sub ∧
    (s.irqPl src).sx = s.sx ∧ (s.irqPl src).dma = s.dma ∧ (s.irqPl src).md = s.md ∧ (s.irqPl src).dev = s.dev ∧
    (s.irqPl src).tally = s.tally ∧ (s.irqPl src).pl = s.pl ∧ (s.irqPl src).mail = s.mail ∧ (s.irqPl src).ic = s.ic ∧
    (s.irqPl src).pw = s.pw ∧ (s.irqPl src).fresh = s.fresh ∧ (s.irqPl src).out = s.out ∧ (s.irqPl src).pending = s.pending := by
  simp [State.irqPl]

@[simp] theorem State.corrected_frame (s : State) (n : Nat) :
    (s.corrected n).time = s.time ∧ (s.corrected n).link = s.link ∧ (s.corrected n).q = s.q ∧ (s.corrected n).sub = s.sub ∧
    (s.corrected n).sx = s.sx ∧ (s.corrected n).dma = s.dma ∧ (s.corrected n).md = s.md ∧ (s.corrected n).dev = s.dev ∧
    (s.corrected n).pl = s.pl ∧ (s.corrected n).mail = s.mail ∧ (s.corrected n).ic = s.ic ∧ (s.corrected n).icPl = s.icPl ∧
    (s.corrected n).pw = s.pw ∧ (s.corrected n).fresh = s.fresh ∧ (s.corrected n).out = s.out ∧
    (s.corrected n).pending = s.pending := by
  unfold State.corrected; try dsimp only
  (repeat' split) <;> simp

@[simp] theorem State.eccFix_frame (s : State) (e : Ecc) :
    (s.eccFix e).time = s.time ∧ (s.eccFix e).link = s.link ∧ (s.eccFix e).q = s.q ∧ (s.eccFix e).sub = s.sub ∧
    (s.eccFix e).sx = s.sx ∧ (s.eccFix e).dma = s.dma ∧ (s.eccFix e).md = s.md ∧ (s.eccFix e).dev = s.dev ∧
    (s.eccFix e).pl = s.pl ∧ (s.eccFix e).mail = s.mail ∧ (s.eccFix e).ic = s.ic ∧ (s.eccFix e).icPl = s.icPl ∧
    (s.eccFix e).pw = s.pw ∧ (s.eccFix e).fresh = s.fresh ∧ (s.eccFix e).out = s.out ∧ (s.eccFix e).pending = s.pending := by
  unfold State.eccFix; try dsimp only
  (repeat' split) <;> simp

@[simp] theorem State.urSent_frame (s : State) :
    (s.urSent).time = s.time ∧ (s.urSent).q = s.q ∧ (s.urSent).sub = s.sub ∧ (s.urSent).sx = s.sx ∧ (s.urSent).dma = s.dma ∧
    (s.urSent).md = s.md ∧ (s.urSent).dev = s.dev ∧ (s.urSent).tally = s.tally ∧ (s.urSent).pl = s.pl ∧
    (s.urSent).mail = s.mail ∧ (s.urSent).ic = s.ic ∧ (s.urSent).icPl = s.icPl ∧ (s.urSent).pw = s.pw ∧
    (s.urSent).fresh = s.fresh ∧ (s.urSent).out = s.out ∧ (s.urSent).pending = s.pending := by
  simp [State.urSent]

@[simp] theorem State.late_frame (s : State) (due : Time) :
    (s.late due).time = s.time ∧ (s.late due).link = s.link ∧ (s.late due).q = s.q ∧ (s.late due).sub = s.sub ∧
    (s.late due).sx = s.sx ∧ (s.late due).dma = s.dma ∧ (s.late due).md = s.md ∧ (s.late due).dev = s.dev ∧
    (s.late due).tally = s.tally ∧ (s.late due).pl = s.pl ∧ (s.late due).mail = s.mail ∧ (s.late due).ic = s.ic ∧
    (s.late due).icPl = s.icPl ∧ (s.late due).fresh = s.fresh ∧ (s.late due).out = s.out ∧ (s.late due).pending = s.pending := by
  simp [State.late]

@[simp] theorem State.setCtx_frame (s : State) (sch : Nat) (c : Ctx) :
    (s.setCtx sch c).time = s.time ∧ (s.setCtx sch c).link = s.link ∧ (s.setCtx sch c).q = s.q ∧ (s.setCtx sch c).sx = s.sx ∧
    (s.setCtx sch c).dma = s.dma ∧ (s.setCtx sch c).md = s.md ∧ (s.setCtx sch c).dev = s.dev ∧
    (s.setCtx sch c).tally = s.tally ∧ (s.setCtx sch c).pl = s.pl ∧ (s.setCtx sch c).mail = s.mail ∧
    (s.setCtx sch c).ic = s.ic ∧ (s.setCtx sch c).icPl = s.icPl ∧ (s.setCtx sch c).pw = s.pw ∧
    (s.setCtx sch c).fresh = s.fresh ∧ (s.setCtx sch c).out = s.out ∧ (s.setCtx sch c).pending = s.pending := by
  simp [State.setCtx]

@[simp] theorem State.modCtx_frame (s : State) (sch : Nat) (f : Ctx → Ctx) :
    (s.modCtx sch f).time = s.time ∧ (s.modCtx sch f).link = s.link ∧ (s.modCtx sch f).q = s.q ∧ (s.modCtx sch f).sx = s.sx ∧
    (s.modCtx sch f).dma = s.dma ∧ (s.modCtx sch f).md = s.md ∧ (s.modCtx sch f).dev = s.dev ∧
    (s.modCtx sch f).tally = s.tally ∧ (s.modCtx sch f).pl = s.pl ∧ (s.modCtx sch f).mail = s.mail ∧
    (s.modCtx sch f).ic = s.ic ∧ (s.modCtx sch f).icPl = s.icPl ∧ (s.modCtx sch f).pw = s.pw ∧
    (s.modCtx sch f).fresh = s.fresh ∧ (s.modCtx sch f).out = s.out ∧ (s.modCtx sch f).pending = s.pending := by
  simp [State.modCtx]

@[simp] theorem State.setProg_frame (s : State) (sch : Nat) (p : Prog) :
    (s.setProg sch p).time = s.time ∧ (s.setProg sch p).link = s.link ∧ (s.setProg sch p).q = s.q ∧
    (s.setProg sch p).sx = s.sx ∧ (s.setProg sch p).dma = s.dma ∧ (s.setProg sch p).md = s.md ∧
    (s.setProg sch p).dev = s.dev ∧ (s.setProg sch p).tally = s.tally ∧ (s.setProg sch p).pl = s.pl ∧
    (s.setProg sch p).mail = s.mail ∧ (s.setProg sch p).ic = s.ic ∧ (s.setProg sch p).icPl = s.icPl ∧
    (s.setProg sch p).pw = s.pw ∧ (s.setProg sch p).fresh = s.fresh ∧ (s.setProg sch p).out = s.out ∧
    (s.setProg sch p).pending = s.pending := by
  simp [State.setProg]

@[simp] theorem State.modProg_frame (s : State) (sch : Nat) (f : Prog → Prog) :
    (s.modProg sch f).time = s.time ∧ (s.modProg sch f).link = s.link ∧ (s.modProg sch f).q = s.q ∧
    (s.modProg sch f).sx = s.sx ∧ (s.modProg sch f).dma = s.dma ∧ (s.modProg sch f).md = s.md ∧
    (s.modProg sch f).dev = s.dev ∧ (s.modProg sch f).tally = s.tally ∧ (s.modProg sch f).pl = s.pl ∧
    (s.modProg sch f).mail = s.mail ∧ (s.modProg sch f).ic = s.ic ∧ (s.modProg sch f).icPl = s.icPl ∧
    (s.modProg sch f).pw = s.pw ∧ (s.modProg sch f).fresh = s.fresh ∧ (s.modProg sch f).out = s.out ∧
    (s.modProg sch f).pending = s.pending := by
  simp [State.modProg]

@[simp] theorem State.delProg_frame (s : State) (sch : Nat) :
    (s.delProg sch).time = s.time ∧ (s.delProg sch).link = s.link ∧ (s.delProg sch).q = s.q ∧ (s.delProg sch).sx = s.sx ∧
    (s.delProg sch).dma = s.dma ∧ (s.delProg sch).md = s.md ∧ (s.delProg sch).dev = s.dev ∧ (s.delProg sch).tally = s.tally ∧
    (s.delProg sch).pl = s.pl ∧ (s.delProg sch).mail = s.mail ∧ (s.delProg sch).ic = s.ic ∧ (s.delProg sch).icPl = s.icPl ∧
    (s.delProg sch).pw = s.pw ∧ (s.delProg sch).fresh = s.fresh ∧ (s.delProg sch).out = s.out ∧
    (s.delProg sch).pending = s.pending := by
  simp [State.delProg]

@[simp] theorem State.setSq_frame (s : State) (q : Nat) (r : SQ) :
    (s.setSq q r).time = s.time ∧ (s.setSq q r).link = s.link ∧ (s.setSq q r).sub = s.sub ∧ (s.setSq q r).sx = s.sx ∧
    (s.setSq q r).dma = s.dma ∧ (s.setSq q r).md = s.md ∧ (s.setSq q r).dev = s.dev ∧ (s.setSq q r).tally = s.tally ∧
    (s.setSq q r).pl = s.pl ∧ (s.setSq q r).mail = s.mail ∧ (s.setSq q r).ic = s.ic ∧ (s.setSq q r).icPl = s.icPl ∧
    (s.setSq q r).pw = s.pw ∧ (s.setSq q r).fresh = s.fresh ∧ (s.setSq q r).out = s.out ∧ (s.setSq q r).pending = s.pending := by
  simp [State.setSq]

@[simp] theorem State.setCq_frame (s : State) (q : Nat) (r : CQ) :
    (s.setCq q r).time = s.time ∧ (s.setCq q r).link = s.link ∧ (s.setCq q r).sub = s.sub ∧ (s.setCq q r).sx = s.sx ∧
    (s.setCq q r).dma = s.dma ∧ (s.setCq q r).md = s.md ∧ (s.setCq q r).dev = s.dev ∧ (s.setCq q r).tally = s.tally ∧
    (s.setCq q r).pl = s.pl ∧ (s.setCq q r).mail = s.mail ∧ (s.setCq q r).ic = s.ic ∧ (s.setCq q r).icPl = s.icPl ∧
    (s.setCq q r).pw = s.pw ∧ (s.setCq q r).fresh = s.fresh ∧ (s.setCq q r).out = s.out ∧ (s.setCq q r).pending = s.pending := by
  simp [State.setCq]

@[simp] theorem State.setTh_frame (s : State) (th : Nat) (t : Thread) :
    (s.setTh th t).time = s.time ∧ (s.setTh th t).link = s.link ∧ (s.setTh th t).q = s.q ∧ (s.setTh th t).sub = s.sub ∧
    (s.setTh th t).dma = s.dma ∧ (s.setTh th t).md = s.md ∧ (s.setTh th t).dev = s.dev ∧ (s.setTh th t).tally = s.tally ∧
    (s.setTh th t).pl = s.pl ∧ (s.setTh th t).mail = s.mail ∧ (s.setTh th t).ic = s.ic ∧ (s.setTh th t).icPl = s.icPl ∧
    (s.setTh th t).pw = s.pw ∧ (s.setTh th t).fresh = s.fresh ∧ (s.setTh th t).out = s.out ∧
    (s.setTh th t).pending = s.pending := by
  simp [State.setTh]

@[simp] theorem State.delTh_frame (s : State) (th : Nat) :
    (s.delTh th).time = s.time ∧ (s.delTh th).link = s.link ∧ (s.delTh th).q = s.q ∧ (s.delTh th).sub = s.sub ∧
    (s.delTh th).dma = s.dma ∧ (s.delTh th).md = s.md ∧ (s.delTh th).dev = s.dev ∧ (s.delTh th).tally = s.tally ∧
    (s.delTh th).pl = s.pl ∧ (s.delTh th).mail = s.mail ∧ (s.delTh th).ic = s.ic ∧ (s.delTh th).icPl = s.icPl ∧
    (s.delTh th).pw = s.pw ∧ (s.delTh th).fresh = s.fresh ∧ (s.delTh th).out = s.out ∧ (s.delTh th).pending = s.pending := by
  simp [State.delTh]

@[simp] theorem State.modQuad_frame (s : State) (q : Nat) (f : Quad → Quad) :
    (s.modQuad q f).time = s.time ∧ (s.modQuad q f).link = s.link ∧ (s.modQuad q f).q = s.q ∧ (s.modQuad q f).sub = s.sub ∧
    (s.modQuad q f).sx = s.sx ∧ (s.modQuad q f).dma = s.dma ∧ (s.modQuad q f).md = s.md ∧ (s.modQuad q f).tally = s.tally ∧
    (s.modQuad q f).pl = s.pl ∧ (s.modQuad q f).mail = s.mail ∧ (s.modQuad q f).ic = s.ic ∧ (s.modQuad q f).icPl = s.icPl ∧
    (s.modQuad q f).pw = s.pw ∧ (s.modQuad q f).fresh = s.fresh ∧ (s.modQuad q f).out = s.out ∧
    (s.modQuad q f).pending = s.pending := by
  simp [State.modQuad]

@[simp] theorem State.modPort_frame (s : State) (q p : Nat) (f : Port → Port) :
    (s.modPort q p f).time = s.time ∧ (s.modPort q p f).link = s.link ∧ (s.modPort q p f).q = s.q ∧
    (s.modPort q p f).sub = s.sub ∧ (s.modPort q p f).sx = s.sx ∧ (s.modPort q p f).dma = s.dma ∧
    (s.modPort q p f).md = s.md ∧ (s.modPort q p f).tally = s.tally ∧ (s.modPort q p f).pl = s.pl ∧
    (s.modPort q p f).mail = s.mail ∧ (s.modPort q p f).ic = s.ic ∧ (s.modPort q p f).icPl = s.icPl ∧
    (s.modPort q p f).pw = s.pw ∧ (s.modPort q p f).fresh = s.fresh ∧ (s.modPort q p f).out = s.out ∧
    (s.modPort q p f).pending = s.pending := by
  simp [State.modPort]

@[simp] theorem State.modFifo_frame (s : State) (q : Nat) (f : Fifo → Fifo) :
    (s.modFifo q f).time = s.time ∧ (s.modFifo q f).link = s.link ∧ (s.modFifo q f).q = s.q ∧ (s.modFifo q f).sub = s.sub ∧
    (s.modFifo q f).sx = s.sx ∧ (s.modFifo q f).md = s.md ∧ (s.modFifo q f).dev = s.dev ∧ (s.modFifo q f).tally = s.tally ∧
    (s.modFifo q f).pl = s.pl ∧ (s.modFifo q f).mail = s.mail ∧ (s.modFifo q f).ic = s.ic ∧ (s.modFifo q f).icPl = s.icPl ∧
    (s.modFifo q f).pw = s.pw ∧ (s.modFifo q f).fresh = s.fresh ∧ (s.modFifo q f).out = s.out ∧
    (s.modFifo q f).pending = s.pending := by
  simp [State.modFifo]

@[simp] theorem State.tallyIssue_frame (s : State) (line n : Nat) :
    (s.tallyIssue line n).time = s.time ∧ (s.tallyIssue line n).link = s.link ∧ (s.tallyIssue line n).q = s.q ∧
    (s.tallyIssue line n).sub = s.sub ∧ (s.tallyIssue line n).sx = s.sx ∧ (s.tallyIssue line n).dma = s.dma ∧
    (s.tallyIssue line n).md = s.md ∧ (s.tallyIssue line n).dev = s.dev ∧ (s.tallyIssue line n).pl = s.pl ∧
    (s.tallyIssue line n).mail = s.mail ∧ (s.tallyIssue line n).ic = s.ic ∧ (s.tallyIssue line n).icPl = s.icPl ∧
    (s.tallyIssue line n).pw = s.pw ∧ (s.tallyIssue line n).fresh = s.fresh ∧ (s.tallyIssue line n).out = s.out ∧
    (s.tallyIssue line n).pending = s.pending := by
  simp [State.tallyIssue]

@[simp] theorem State.tallyReturn_frame (s : State) (line n : Nat) :
    (s.tallyReturn line n).time = s.time ∧ (s.tallyReturn line n).link = s.link ∧ (s.tallyReturn line n).q = s.q ∧
    (s.tallyReturn line n).sub = s.sub ∧ (s.tallyReturn line n).sx = s.sx ∧ (s.tallyReturn line n).dma = s.dma ∧
    (s.tallyReturn line n).md = s.md ∧ (s.tallyReturn line n).dev = s.dev ∧ (s.tallyReturn line n).pl = s.pl ∧
    (s.tallyReturn line n).mail = s.mail ∧ (s.tallyReturn line n).ic = s.ic ∧ (s.tallyReturn line n).icPl = s.icPl ∧
    (s.tallyReturn line n).pw = s.pw ∧ (s.tallyReturn line n).fresh = s.fresh ∧ (s.tallyReturn line n).out = s.out ∧
    (s.tallyReturn line n).pending = s.pending := by
  simp [State.tallyReturn]

@[simp] theorem State.mark_frame (s : State) (n : Nat) :
    (s.mark n).time = s.time ∧ (s.mark n).link = s.link ∧ (s.mark n).q = s.q ∧ (s.mark n).sub = s.sub ∧
    (s.mark n).sx = s.sx ∧ (s.mark n).dma = s.dma ∧ (s.mark n).md = s.md ∧ (s.mark n).dev = s.dev ∧ (s.mark n).pl = s.pl ∧
    (s.mark n).mail = s.mail ∧ (s.mark n).ic = s.ic ∧ (s.mark n).icPl = s.icPl ∧ (s.mark n).pw = s.pw ∧
    (s.mark n).fresh = s.fresh ∧ (s.mark n).out = s.out ∧ (s.mark n).pending = s.pending := by
  unfold State.mark; try dsimp only
  (repeat' split) <;> simp

@[simp] theorem State.waited_frame (s : State) (n : Nat) :
    (s.waited n).time = s.time ∧ (s.waited n).link = s.link ∧ (s.waited n).q = s.q ∧ (s.waited n).sub = s.sub ∧
    (s.waited n).sx = s.sx ∧ (s.waited n).dma = s.dma ∧ (s.waited n).md = s.md ∧ (s.waited n).dev = s.dev ∧
    (s.waited n).pl = s.pl ∧ (s.waited n).mail = s.mail ∧ (s.waited n).ic = s.ic ∧ (s.waited n).icPl = s.icPl ∧
    (s.waited n).pw = s.pw ∧ (s.waited n).fresh = s.fresh ∧ (s.waited n).out = s.out ∧ (s.waited n).pending = s.pending := by
  simp [State.waited]

/-! ## Sched -/

@[simp] theorem State.modClu_frame (s : State) (k : Nat) (f : Cluster → Cluster) :
    (s.modClu k f).time = s.time ∧ (s.modClu k f).link = s.link ∧ (s.modClu k f).q = s.q ∧ (s.modClu k f).sub = s.sub ∧
    (s.modClu k f).sx = s.sx ∧ (s.modClu k f).dma = s.dma ∧ (s.modClu k f).md = s.md ∧ (s.modClu k f).dev = s.dev ∧
    (s.modClu k f).tally = s.tally ∧ (s.modClu k f).pl = s.pl ∧ (s.modClu k f).mail = s.mail ∧ (s.modClu k f).ic = s.ic ∧
    (s.modClu k f).icPl = s.icPl ∧ (s.modClu k f).fresh = s.fresh ∧ (s.modClu k f).out = s.out ∧
    (s.modClu k f).pending = s.pending := by
  simp [State.modClu]

@[simp] theorem State.cacheText_frame (s : State) (q : Nat) :
    (s.cacheText q).time = s.time ∧ (s.cacheText q).link = s.link ∧ (s.cacheText q).q = s.q ∧ (s.cacheText q).sub = s.sub ∧
    (s.cacheText q).sx = s.sx ∧ (s.cacheText q).dma = s.dma ∧ (s.cacheText q).md = s.md ∧ (s.cacheText q).dev = s.dev ∧
    (s.cacheText q).tally = s.tally ∧ (s.cacheText q).pl = s.pl ∧ (s.cacheText q).mail = s.mail ∧ (s.cacheText q).ic = s.ic ∧
    (s.cacheText q).icPl = s.icPl ∧ (s.cacheText q).fresh = s.fresh ∧ (s.cacheText q).out = s.out ∧
    (s.cacheText q).pending = s.pending := by
  unfold State.cacheText; try dsimp only
  (repeat' split) <;> simp

@[simp] theorem State.request_frame (s : State) (res : Nat) (key : Bool × Time) (rix sch : Nat) (who : ReqWho) :
    (s.request res key rix sch who).time = s.time ∧ (s.request res key rix sch who).link = s.link ∧
    (s.request res key rix sch who).q = s.q ∧ (s.request res key rix sch who).sub = s.sub ∧
    (s.request res key rix sch who).sx = s.sx ∧ (s.request res key rix sch who).dma = s.dma ∧
    (s.request res key rix sch who).dev = s.dev ∧ (s.request res key rix sch who).tally = s.tally ∧
    (s.request res key rix sch who).pl = s.pl ∧ (s.request res key rix sch who).mail = s.mail ∧
    (s.request res key rix sch who).ic = s.ic ∧ (s.request res key rix sch who).icPl = s.icPl ∧
    (s.request res key rix sch who).pw = s.pw ∧ (s.request res key rix sch who).fresh = s.fresh ∧
    (s.request res key rix sch who).out = s.out ∧ (s.request res key rix sch who).pending = s.pending := by
  unfold State.request; try dsimp only
  (repeat' split) <;> simp

@[simp] theorem State.withdraw_frame (s : State) (who : ReqWho) :
    (s.withdraw who).time = s.time ∧ (s.withdraw who).link = s.link ∧ (s.withdraw who).q = s.q ∧
    (s.withdraw who).sub = s.sub ∧ (s.withdraw who).sx = s.sx ∧ (s.withdraw who).dma = s.dma ∧ (s.withdraw who).dev = s.dev ∧
    (s.withdraw who).tally = s.tally ∧ (s.withdraw who).pl = s.pl ∧ (s.withdraw who).mail = s.mail ∧
    (s.withdraw who).ic = s.ic ∧ (s.withdraw who).icPl = s.icPl ∧ (s.withdraw who).pw = s.pw ∧
    (s.withdraw who).fresh = s.fresh ∧ (s.withdraw who).out = s.out ∧ (s.withdraw who).pending = s.pending := by
  simp [State.withdraw]

@[simp] theorem State.freezeDrained_frame (s : State) :
    (s.freezeDrained).time = s.time ∧ (s.freezeDrained).link = s.link ∧ (s.freezeDrained).q = s.q ∧
    (s.freezeDrained).sub = s.sub ∧ (s.freezeDrained).sx = s.sx ∧ (s.freezeDrained).dma = s.dma ∧
    (s.freezeDrained).dev = s.dev ∧ (s.freezeDrained).tally = s.tally ∧ (s.freezeDrained).pl = s.pl ∧
    (s.freezeDrained).mail = s.mail ∧ (s.freezeDrained).icPl = s.icPl ∧ (s.freezeDrained).pw = s.pw ∧
    (s.freezeDrained).fresh = s.fresh ∧ (s.freezeDrained).out = s.out ∧ (s.freezeDrained).pending = s.pending := by
  unfold State.freezeDrained; try dsimp only
  (repeat' split) <;> simp

@[simp] theorem State.sendMsix_frame (s : State) (v : Nat) :
    (s.sendMsix v).time = s.time ∧ (s.sendMsix v).sub = s.sub ∧ (s.sendMsix v).sx = s.sx ∧ (s.sendMsix v).dma = s.dma ∧
    (s.sendMsix v).dev = s.dev ∧ (s.sendMsix v).tally = s.tally ∧ (s.sendMsix v).pl = s.pl ∧ (s.sendMsix v).mail = s.mail ∧
    (s.sendMsix v).ic = s.ic ∧ (s.sendMsix v).icPl = s.icPl ∧ (s.sendMsix v).pw = s.pw ∧ (s.sendMsix v).fresh = s.fresh ∧
    (s.sendMsix v).pending = s.pending := by
  unfold State.sendMsix; try dsimp only
  (repeat' split) <;> simp

@[simp] theorem State.message_frame (s : State) (v : Nat) :
    (s.message v).time = s.time ∧ (s.message v).sub = s.sub ∧ (s.message v).sx = s.sx ∧ (s.message v).dma = s.dma ∧
    (s.message v).dev = s.dev ∧ (s.message v).tally = s.tally ∧ (s.message v).pl = s.pl ∧ (s.message v).mail = s.mail ∧
    (s.message v).ic = s.ic ∧ (s.message v).icPl = s.icPl ∧ (s.message v).pw = s.pw ∧ (s.message v).fresh = s.fresh ∧
    (s.message v).pending = s.pending := by
  unfold State.message; try dsimp only
  (repeat' split) <;> simp

@[simp] theorem State.signalNow_frame (s : State) (v : Nat) :
    (s.signalNow v).time = s.time ∧ (s.signalNow v).sx = s.sx ∧ (s.signalNow v).dma = s.dma ∧ (s.signalNow v).dev = s.dev ∧
    (s.signalNow v).mail = s.mail ∧ (s.signalNow v).icPl = s.icPl ∧ (s.signalNow v).pw = s.pw ∧
    (s.signalNow v).fresh = s.fresh ∧ (s.signalNow v).pending = s.pending := by
  unfold State.signalNow; try dsimp only
  (repeat' split) <;> simp

@[simp] theorem State.signal_frame (s : State) (v : Nat) :
    (s.signal v).time = s.time ∧ (s.signal v).sx = s.sx ∧ (s.signal v).dma = s.dma ∧ (s.signal v).dev = s.dev ∧
    (s.signal v).mail = s.mail ∧ (s.signal v).icPl = s.icPl ∧ (s.signal v).pw = s.pw ∧ (s.signal v).fresh = s.fresh ∧
    (s.signal v).pending = s.pending := by
  unfold State.signal; try dsimp only
  (repeat' split) <;> simp

@[simp] theorem State.recovery_frame (s : State) (source code a0 a1 a2 : Nat) :
    (s.recovery source code a0 a1 a2).time = s.time ∧ (s.recovery source code a0 a1 a2).sx = s.sx ∧
    (s.recovery source code a0 a1 a2).dma = s.dma ∧ (s.recovery source code a0 a1 a2).dev = s.dev ∧
    (s.recovery source code a0 a1 a2).mail = s.mail ∧ (s.recovery source code a0 a1 a2).icPl = s.icPl ∧
    (s.recovery source code a0 a1 a2).pw = s.pw ∧ (s.recovery source code a0 a1 a2).fresh = s.fresh ∧
    (s.recovery source code a0 a1 a2).pending = s.pending := by
  simp [State.recovery]

@[simp] theorem State.requeueAt_frame (s : State) (sch : Nat) (base : Time) :
    (s.requeueAt sch base).time = s.time ∧ (s.requeueAt sch base).link = s.link ∧ (s.requeueAt sch base).q = s.q ∧
    (s.requeueAt sch base).sx = s.sx ∧ (s.requeueAt sch base).dma = s.dma ∧ (s.requeueAt sch base).dev = s.dev ∧
    (s.requeueAt sch base).pl = s.pl ∧ (s.requeueAt sch base).mail = s.mail ∧ (s.requeueAt sch base).ic = s.ic ∧
    (s.requeueAt sch base).icPl = s.icPl ∧ (s.requeueAt sch base).pw = s.pw ∧ (s.requeueAt sch base).fresh = s.fresh ∧
    (s.requeueAt sch base).out = s.out ∧ (s.requeueAt sch base).pending = s.pending := by
  unfold State.requeueAt; try dsimp only
  (repeat' split) <;> simp

@[simp] theorem State.requeue_frame (s : State) (sch : Nat) :
    (s.requeue sch).time = s.time ∧ (s.requeue sch).link = s.link ∧ (s.requeue sch).q = s.q ∧ (s.requeue sch).sx = s.sx ∧
    (s.requeue sch).dma = s.dma ∧ (s.requeue sch).dev = s.dev ∧ (s.requeue sch).pl = s.pl ∧ (s.requeue sch).mail = s.mail ∧
    (s.requeue sch).ic = s.ic ∧ (s.requeue sch).icPl = s.icPl ∧ (s.requeue sch).pw = s.pw ∧ (s.requeue sch).fresh = s.fresh ∧
    (s.requeue sch).out = s.out ∧ (s.requeue sch).pending = s.pending := by
  simp [State.requeue]

@[simp] theorem State.unwait_frame (s : State) (n : Nat) (who : WaitWho) :
    (s.unwait n who).time = s.time ∧ (s.unwait n who).link = s.link ∧ (s.unwait n who).q = s.q ∧
    (s.unwait n who).sub = s.sub ∧ (s.unwait n who).sx = s.sx ∧ (s.unwait n who).dma = s.dma ∧ (s.unwait n who).dev = s.dev ∧
    (s.unwait n who).tally = s.tally ∧ (s.unwait n who).pl = s.pl ∧ (s.unwait n who).mail = s.mail ∧
    (s.unwait n who).ic = s.ic ∧ (s.unwait n who).icPl = s.icPl ∧ (s.unwait n who).pw = s.pw ∧
    (s.unwait n who).fresh = s.fresh ∧ (s.unwait n who).out = s.out ∧ (s.unwait n who).pending = s.pending := by
  simp [State.unwait]

@[simp] theorem State.await_frame (s : State) (n : Nat) (key : Bool × Time) (rix sch cls : Nat) (who : WaitWho) :
    (s.await n key rix sch cls who).time = s.time ∧ (s.await n key rix sch cls who).link = s.link ∧
    (s.await n key rix sch cls who).q = s.q ∧ (s.await n key rix sch cls who).sub = s.sub ∧
    (s.await n key rix sch cls who).sx = s.sx ∧ (s.await n key rix sch cls who).dma = s.dma ∧
    (s.await n key rix sch cls who).dev = s.dev ∧ (s.await n key rix sch cls who).pl = s.pl ∧
    (s.await n key rix sch cls who).mail = s.mail ∧ (s.await n key rix sch cls who).ic = s.ic ∧
    (s.await n key rix sch cls who).icPl = s.icPl ∧ (s.await n key rix sch cls who).pw = s.pw ∧
    (s.await n key rix sch cls who).fresh = s.fresh ∧ (s.await n key rix sch cls who).out = s.out ∧
    (s.await n key rix sch cls who).pending = s.pending := by
  unfold State.await; try dsimp only
  (repeat' split) <;> simp

@[simp] theorem State.retest_frame (s : State) (change : Nat) :
    (s.retest change).time = s.time ∧ (s.retest change).sx = s.sx ∧ (s.retest change).dma = s.dma ∧
    (s.retest change).dev = s.dev ∧ (s.retest change).mail = s.mail ∧ (s.retest change).icPl = s.icPl ∧
    (s.retest change).pw = s.pw ∧ (s.retest change).fresh = s.fresh ∧ (s.retest change).pending = s.pending := by
  unfold State.retest; try dsimp only
  (repeat' split) <;> simp

@[simp] theorem State.capacity_frame (s : State) (change : Nat) :
    (s.capacity change).time = s.time ∧ (s.capacity change).link = s.link ∧ (s.capacity change).q = s.q ∧
    (s.capacity change).sub = s.sub ∧ (s.capacity change).sx = s.sx ∧ (s.capacity change).dma = s.dma ∧
    (s.capacity change).dev = s.dev ∧ (s.capacity change).tally = s.tally ∧ (s.capacity change).pl = s.pl ∧
    (s.capacity change).mail = s.mail ∧ (s.capacity change).icPl = s.icPl ∧ (s.capacity change).pw = s.pw ∧
    (s.capacity change).fresh = s.fresh ∧ (s.capacity change).out = s.out ∧ (s.capacity change).pending = s.pending := by
  unfold State.capacity; try dsimp only
  (repeat' split) <;> simp

@[simp] theorem State.commitBoot_frame (s : State) (body : Option (List Byte)) :
    (s.commitBoot body).time = s.time ∧ (s.commitBoot body).sx = s.sx ∧ (s.commitBoot body).dma = s.dma ∧
    (s.commitBoot body).dev = s.dev ∧ (s.commitBoot body).mail = s.mail ∧ (s.commitBoot body).icPl = s.icPl ∧
    (s.commitBoot body).pw = s.pw ∧ (s.commitBoot body).fresh = s.fresh ∧ (s.commitBoot body).pending = s.pending := by
  unfold State.commitBoot; try dsimp only
  (repeat' split) <;> simp

/-! ## Complete -/

@[simp] theorem State.queueEvent_frame (s : State) (q : Nat) (full : Bool) (cause index : Nat) (wrap : Bool) :
    (s.queueEvent q full cause index wrap).time = s.time ∧ (s.queueEvent q full cause index wrap).sx = s.sx ∧
    (s.queueEvent q full cause index wrap).dma = s.dma ∧ (s.queueEvent q full cause index wrap).dev = s.dev ∧
    (s.queueEvent q full cause index wrap).mail = s.mail ∧ (s.queueEvent q full cause index wrap).icPl = s.icPl ∧
    (s.queueEvent q full cause index wrap).pw = s.pw ∧ (s.queueEvent q full cause index wrap).fresh = s.fresh ∧
    (s.queueEvent q full cause index wrap).pending = s.pending := by
  unfold State.queueEvent; try dsimp only
  (repeat' split) <;> simp

@[simp] theorem State.wantComp_frame (s : State) (q : Nat) :
    (s.wantComp q).time = s.time ∧ (s.wantComp q).link = s.link ∧ (s.wantComp q).q = s.q ∧ (s.wantComp q).sub = s.sub ∧
    (s.wantComp q).sx = s.sx ∧ (s.wantComp q).dma = s.dma ∧ (s.wantComp q).dev = s.dev ∧ (s.wantComp q).tally = s.tally ∧
    (s.wantComp q).pl = s.pl ∧ (s.wantComp q).mail = s.mail ∧ (s.wantComp q).ic = s.ic ∧ (s.wantComp q).icPl = s.icPl ∧
    (s.wantComp q).pw = s.pw ∧ (s.wantComp q).fresh = s.fresh ∧ (s.wantComp q).out = s.out ∧
    (s.wantComp q).pending = s.pending := by
  unfold State.wantComp; try dsimp only
  (repeat' split) <;> simp

@[simp] theorem State.announceAt_frame (s : State) (q : Nat) :
    (s.announceAt q).time = s.time ∧ (s.announceAt q).sx = s.sx ∧ (s.announceAt q).dma = s.dma ∧
    (s.announceAt q).dev = s.dev ∧ (s.announceAt q).mail = s.mail ∧ (s.announceAt q).icPl = s.icPl ∧
    (s.announceAt q).pw = s.pw ∧ (s.announceAt q).fresh = s.fresh ∧ (s.announceAt q).pending = s.pending := by
  unfold State.announceAt; try dsimp only
  (repeat' split) <;> simp

@[simp] theorem State.writeComp_frame (s : State) (q : Nat) (r : CQ) (c : Comp) :
    (s.writeComp q r c).time = s.time ∧ (s.writeComp q r c).sx = s.sx ∧ (s.writeComp q r c).dma = s.dma ∧
    (s.writeComp q r c).dev = s.dev ∧ (s.writeComp q r c).mail = s.mail ∧ (s.writeComp q r c).icPl = s.icPl ∧
    (s.writeComp q r c).pw = s.pw ∧ (s.writeComp q r c).pending = s.pending := by
  unfold State.writeComp; try dsimp only
  (repeat' split) <;> simp

@[simp] theorem State.ringFullEvent_frame (s : State) (q : Nat) :
    (s.ringFullEvent q).time = s.time ∧ (s.ringFullEvent q).sx = s.sx ∧ (s.ringFullEvent q).dma = s.dma ∧
    (s.ringFullEvent q).dev = s.dev ∧ (s.ringFullEvent q).mail = s.mail ∧ (s.ringFullEvent q).icPl = s.icPl ∧
    (s.ringFullEvent q).pw = s.pw ∧ (s.ringFullEvent q).fresh = s.fresh ∧ (s.ringFullEvent q).pending = s.pending := by
  unfold State.ringFullEvent; try dsimp only
  (repeat' split) <;> simp

@[simp] theorem State.hold_frame (s : State) (q : Nat) (r : CQ) (h : Held) :
    (s.hold q r h).time = s.time ∧ (s.hold q r h).sx = s.sx ∧ (s.hold q r h).dma = s.dma ∧ (s.hold q r h).dev = s.dev ∧
    (s.hold q r h).mail = s.mail ∧ (s.hold q r h).icPl = s.icPl ∧ (s.hold q r h).pw = s.pw ∧ (s.hold q r h).fresh = s.fresh ∧
    (s.hold q r h).pending = s.pending := by
  unfold State.hold; try dsimp only
  (repeat' split) <;> simp

@[simp] theorem State.finalWritten_frame (s : State) (sch : Nat) :
    (s.finalWritten sch).time = s.time ∧ (s.finalWritten sch).link = s.link ∧ (s.finalWritten sch).q = s.q ∧
    (s.finalWritten sch).sx = s.sx ∧ (s.finalWritten sch).dma = s.dma ∧ (s.finalWritten sch).md = s.md ∧
    (s.finalWritten sch).dev = s.dev ∧ (s.finalWritten sch).pl = s.pl ∧ (s.finalWritten sch).mail = s.mail ∧
    (s.finalWritten sch).ic = s.ic ∧ (s.finalWritten sch).icPl = s.icPl ∧ (s.finalWritten sch).pw = s.pw ∧
    (s.finalWritten sch).fresh = s.fresh ∧ (s.finalWritten sch).out = s.out ∧ (s.finalWritten sch).pending = s.pending := by
  unfold State.finalWritten; try dsimp only
  (repeat' split) <;> simp

@[simp] theorem State.writeSub_frame (s : State) (q : Nat) (r : CQ) (sch : Nat) :
    (s.writeSub q r sch).1.time = s.time ∧ (s.writeSub q r sch).1.sx = s.sx ∧ (s.writeSub q r sch).1.dma = s.dma ∧
    (s.writeSub q r sch).1.dev = s.dev ∧ (s.writeSub q r sch).1.mail = s.mail ∧ (s.writeSub q r sch).1.icPl = s.icPl ∧
    (s.writeSub q r sch).1.pw = s.pw ∧ (s.writeSub q r sch).1.pending = s.pending := by
  unfold State.writeSub; try dsimp only
  (repeat' split) <;> simp

@[simp] theorem State.drain_frame (n : Nat) (s : State) (q : Nat) :
    (s.drain n q).time = s.time ∧ (s.drain n q).sx = s.sx ∧ (s.drain n q).dma = s.dma ∧ (s.drain n q).dev = s.dev ∧
    (s.drain n q).mail = s.mail ∧ (s.drain n q).icPl = s.icPl ∧ (s.drain n q).pending = s.pending := by
  induction n generalizing s q with
  | zero => simp [State.drain]
  | succ n ih =>
    unfold State.drain; try dsimp only
    (repeat' split) <;> simp [ih]

@[simp] theorem State.drainAll_frame (s : State) (q : Nat) :
    (s.drainAll q).time = s.time ∧ (s.drainAll q).sx = s.sx ∧ (s.drainAll q).dma = s.dma ∧ (s.drainAll q).dev = s.dev ∧
    (s.drainAll q).mail = s.mail ∧ (s.drainAll q).icPl = s.icPl ∧ (s.drainAll q).pending = s.pending := by
  unfold State.drainAll; try dsimp only
  (repeat' split) <;> simp

@[simp] theorem State.parkComps_frame (s : State) (q : Nat) (l : List Held) :
    (s.parkComps q l).time = s.time ∧ (s.parkComps q l).link = s.link ∧ (s.parkComps q l).sub = s.sub ∧
    (s.parkComps q l).sx = s.sx ∧ (s.parkComps q l).dma = s.dma ∧ (s.parkComps q l).dev = s.dev ∧
    (s.parkComps q l).tally = s.tally ∧ (s.parkComps q l).pl = s.pl ∧ (s.parkComps q l).mail = s.mail ∧
    (s.parkComps q l).ic = s.ic ∧ (s.parkComps q l).icPl = s.icPl ∧ (s.parkComps q l).pw = s.pw ∧
    (s.parkComps q l).fresh = s.fresh ∧ (s.parkComps q l).out = s.out ∧ (s.parkComps q l).pending = s.pending := by
  simp [State.parkComps]

@[simp] theorem State.sendOne_frame (n : Nat) (s : State) (q : Nat) (h : Held) :
    (s.sendOne n q h).1.time = s.time ∧ (s.sendOne n q h).1.sx = s.sx ∧ (s.sendOne n q h).1.dma = s.dma ∧
    (s.sendOne n q h).1.dev = s.dev ∧ (s.sendOne n q h).1.mail = s.mail ∧ (s.sendOne n q h).1.icPl = s.icPl ∧
    (s.sendOne n q h).1.pw = s.pw ∧ (s.sendOne n q h).1.pending = s.pending := by
  induction n generalizing s q h with
  | zero => simp [State.sendOne]
  | succ n ih =>
    unfold State.sendOne; try dsimp only
    (repeat' split) <;> simp [ih]

@[simp] theorem State.sendAll_frame (l : List Held) (s : State) (q : Nat) :
    (s.sendAll l q).time = s.time ∧ (s.sendAll l q).sx = s.sx ∧ (s.sendAll l q).dma = s.dma ∧ (s.sendAll l q).dev = s.dev ∧
    (s.sendAll l q).mail = s.mail ∧ (s.sendAll l q).icPl = s.icPl ∧ (s.sendAll l q).pw = s.pw ∧
    (s.sendAll l q).pending = s.pending := by
  induction l generalizing s q with
  | nil => simp [State.sendAll]
  | cons a l ih =>
    unfold State.sendAll; try dsimp only
    (repeat' split) <;> simp [ih]

@[simp] theorem State.sendHeld_frame (s : State) (q : Nat) (h : Held) :
    (s.sendHeld q h).time = s.time ∧ (s.sendHeld q h).sx = s.sx ∧ (s.sendHeld q h).dma = s.dma ∧
    (s.sendHeld q h).dev = s.dev ∧ (s.sendHeld q h).mail = s.mail ∧ (s.sendHeld q h).icPl = s.icPl ∧
    (s.sendHeld q h).pw = s.pw ∧ (s.sendHeld q h).pending = s.pending := by
  unfold State.sendHeld; try dsimp only
  (repeat' split) <;> simp

@[simp] theorem State.postComp_frame (s : State) (q : Nat) (c : Comp) :
    (s.postComp q c).time = s.time ∧ (s.postComp q c).sx = s.sx ∧ (s.postComp q c).dma = s.dma ∧
    (s.postComp q c).dev = s.dev ∧ (s.postComp q c).mail = s.mail ∧ (s.postComp q c).icPl = s.icPl ∧
    (s.postComp q c).pw = s.pw ∧ (s.postComp q c).pending = s.pending := by
  unfold State.postComp; try dsimp only
  (repeat' split) <;> simp

@[simp] theorem State.postSub_frame (s : State) (sch : Nat) :
    (s.postSub sch).time = s.time ∧ (s.postSub sch).sx = s.sx ∧ (s.postSub sch).dma = s.dma ∧ (s.postSub sch).dev = s.dev ∧
    (s.postSub sch).mail = s.mail ∧ (s.postSub sch).icPl = s.icPl ∧ (s.postSub sch).pw = s.pw ∧
    (s.postSub sch).pending = s.pending := by
  unfold State.postSub; try dsimp only
  (repeat' split) <;> simp

@[simp] theorem State.unpark_frame (s : State) (q : Nat) :
    (s.unpark q).time = s.time ∧ (s.unpark q).sx = s.sx ∧ (s.unpark q).dma = s.dma ∧ (s.unpark q).dev = s.dev ∧
    (s.unpark q).mail = s.mail ∧ (s.unpark q).icPl = s.icPl ∧ (s.unpark q).pw = s.pw ∧ (s.unpark q).pending = s.pending := by
  unfold State.unpark; try dsimp only
  (repeat' split) <;> simp

@[simp] theorem State.sendComps_frame (s : State) (q : Nat) :
    (s.sendComps q).time = s.time ∧ (s.sendComps q).sx = s.sx ∧ (s.sendComps q).dma = s.dma ∧ (s.sendComps q).dev = s.dev ∧
    (s.sendComps q).mail = s.mail ∧ (s.sendComps q).icPl = s.icPl ∧ (s.sendComps q).pending = s.pending := by
  simp [State.sendComps]

@[simp] theorem State.sendFirst_frame (s : State) (q : Nat) :
    (s.sendFirst q).time = s.time ∧ (s.sendFirst q).sx = s.sx ∧ (s.sendFirst q).dma = s.dma ∧ (s.sendFirst q).dev = s.dev ∧
    (s.sendFirst q).mail = s.mail ∧ (s.sendFirst q).icPl = s.icPl ∧ (s.sendFirst q).pending = s.pending := by
  unfold State.sendFirst; try dsimp only
  (repeat' split) <;> simp

@[simp] theorem State.fillLegacy_frame (n : Nat) (s : State) :
    (s.fillLegacy n).time = s.time ∧ (s.fillLegacy n).sx = s.sx ∧ (s.fillLegacy n).dma = s.dma ∧
    (s.fillLegacy n).dev = s.dev ∧ (s.fillLegacy n).mail = s.mail ∧ (s.fillLegacy n).icPl = s.icPl ∧
    (s.fillLegacy n).pending = s.pending := by
  induction n generalizing s with
  | zero => simp [State.fillLegacy]
  | succ n ih =>
    unfold State.fillLegacy; try dsimp only
    (repeat' split) <;> simp [ih]

@[simp] theorem State.drainLegacy_frame (s : State) :
    (s.drainLegacy).time = s.time ∧ (s.drainLegacy).sx = s.sx ∧ (s.drainLegacy).dma = s.dma ∧ (s.drainLegacy).dev = s.dev ∧
    (s.drainLegacy).mail = s.mail ∧ (s.drainLegacy).icPl = s.icPl ∧ (s.drainLegacy).pending = s.pending := by
  unfold State.drainLegacy; try dsimp only
  (repeat' split) <;> simp

@[simp] theorem State.postWaiting_frame (s : State) :
    (s.postWaiting).time = s.time ∧ (s.postWaiting).sx = s.sx ∧ (s.postWaiting).dma = s.dma ∧ (s.postWaiting).dev = s.dev ∧
    (s.postWaiting).mail = s.mail ∧ (s.postWaiting).icPl = s.icPl ∧ (s.postWaiting).pending = s.pending := by
  unfold State.postWaiting; try dsimp only
  (repeat' split) <;> simp [foldl_keeps State.time, foldl_keeps State.sx, foldl_keeps State.dma, foldl_keeps State.dev,
      foldl_keeps State.mail, foldl_keeps State.icPl, foldl_keeps State.pending, apply_ite State.time, apply_ite State.sx,
      apply_ite State.dma, apply_ite State.dev, apply_ite State.mail, apply_ite State.icPl, apply_ite State.pending]

@[simp] theorem State.sendPending_frame (s : State) :
    (s.sendPending).time = s.time ∧ (s.sendPending).sub = s.sub ∧ (s.sendPending).sx = s.sx ∧ (s.sendPending).dma = s.dma ∧
    (s.sendPending).dev = s.dev ∧ (s.sendPending).tally = s.tally ∧ (s.sendPending).pl = s.pl ∧
    (s.sendPending).mail = s.mail ∧ (s.sendPending).ic = s.ic ∧ (s.sendPending).icPl = s.icPl ∧ (s.sendPending).pw = s.pw ∧
    (s.sendPending).fresh = s.fresh ∧ (s.sendPending).pending = s.pending := by
  unfold State.sendPending; try dsimp only
  (repeat' split) <;> simp [foldl_keeps State.time, foldl_keeps State.sub, foldl_keeps State.sx, foldl_keeps State.dma,
      foldl_keeps State.dev, foldl_keeps State.tally, foldl_keeps State.pl, foldl_keeps State.mail, foldl_keeps State.ic,
      foldl_keeps State.icPl, foldl_keeps State.pw, foldl_keeps State.fresh, foldl_keeps State.pending, apply_ite State.time,
      apply_ite State.sub, apply_ite State.sx, apply_ite State.dma, apply_ite State.dev, apply_ite State.tally, apply_ite
      State.pl, apply_ite State.mail, apply_ite State.ic, apply_ite State.icPl, apply_ite State.pw, apply_ite State.fresh,
      apply_ite State.pending]

@[simp] theorem State.admSettle_frame (s : State) :
    (s.admSettle).time = s.time ∧ (s.admSettle).link = s.link ∧ (s.admSettle).sub = s.sub ∧ (s.admSettle).sx = s.sx ∧
    (s.admSettle).dma = s.dma ∧ (s.admSettle).md = s.md ∧ (s.admSettle).dev = s.dev ∧ (s.admSettle).tally = s.tally ∧
    (s.admSettle).pl = s.pl ∧ (s.admSettle).mail = s.mail ∧ (s.admSettle).ic = s.ic ∧ (s.admSettle).icPl = s.icPl ∧
    (s.admSettle).pw = s.pw ∧ (s.admSettle).fresh = s.fresh ∧ (s.admSettle).out = s.out ∧ (s.admSettle).pending = s.pending := by
  unfold State.admSettle; try dsimp only
  (repeat' split) <;> simp

@[simp] theorem State.linkResumes_frame (s : State) :
    (s.linkResumes).time = s.time ∧ (s.linkResumes).sx = s.sx ∧ (s.linkResumes).dma = s.dma ∧ (s.linkResumes).dev = s.dev ∧
    (s.linkResumes).mail = s.mail ∧ (s.linkResumes).icPl = s.icPl ∧ (s.linkResumes).pending = s.pending := by
  simp [State.linkResumes]

@[simp] theorem State.reject_frame (s : State) (cq : Nat) (reason : Nat) (cid : BitVec 16) (sch sqid cls : Nat) :
    (s.reject cq reason cid sch sqid cls).time = s.time ∧ (s.reject cq reason cid sch sqid cls).sx = s.sx ∧
    (s.reject cq reason cid sch sqid cls).dma = s.dma ∧ (s.reject cq reason cid sch sqid cls).dev = s.dev ∧
    (s.reject cq reason cid sch sqid cls).mail = s.mail ∧ (s.reject cq reason cid sch sqid cls).icPl = s.icPl ∧
    (s.reject cq reason cid sch sqid cls).pw = s.pw ∧ (s.reject cq reason cid sch sqid cls).pending = s.pending := by
  unfold State.reject; try dsimp only
  (repeat' split) <;> simp

/-! ## Units -/

@[simp] theorem State.nowReady_frame (s : State) (th : Nat) :
    (s.nowReady th).time = s.time ∧ (s.nowReady th).link = s.link ∧ (s.nowReady th).q = s.q ∧ (s.nowReady th).sub = s.sub ∧
    (s.nowReady th).dma = s.dma ∧ (s.nowReady th).md = s.md ∧ (s.nowReady th).dev = s.dev ∧ (s.nowReady th).tally = s.tally ∧
    (s.nowReady th).pl = s.pl ∧ (s.nowReady th).mail = s.mail ∧ (s.nowReady th).ic = s.ic ∧ (s.nowReady th).icPl = s.icPl ∧
    (s.nowReady th).pw = s.pw ∧ (s.nowReady th).fresh = s.fresh ∧ (s.nowReady th).out = s.out ∧
    (s.nowReady th).pending = s.pending := by
  simp [State.nowReady]

@[simp] theorem State.takeThread_frame (s : State) (th : Nat) (t : Thread) :
    (s.takeThread th t).time = s.time ∧ (s.takeThread th t).link = s.link ∧ (s.takeThread th t).q = s.q ∧
    (s.takeThread th t).sub = s.sub ∧ (s.takeThread th t).dma = s.dma ∧ (s.takeThread th t).md = s.md ∧
    (s.takeThread th t).dev = s.dev ∧ (s.takeThread th t).pl = s.pl ∧ (s.takeThread th t).mail = s.mail ∧
    (s.takeThread th t).ic = s.ic ∧ (s.takeThread th t).icPl = s.icPl ∧ (s.takeThread th t).fresh = s.fresh ∧
    (s.takeThread th t).out = s.out ∧ (s.takeThread th t).pending = s.pending := by
  unfold State.takeThread; try dsimp only
  (repeat' split) <;> simp

@[simp] theorem State.orphans_frame (s : State) (th : Nat) :
    (s.orphans th).time = s.time ∧ (s.orphans th).q = s.q ∧ (s.orphans th).sub = s.sub ∧ (s.orphans th).sx = s.sx ∧
    (s.orphans th).dma = s.dma ∧ (s.orphans th).md = s.md ∧ (s.orphans th).dev = s.dev ∧ (s.orphans th).tally = s.tally ∧
    (s.orphans th).pl = s.pl ∧ (s.orphans th).mail = s.mail ∧ (s.orphans th).ic = s.ic ∧ (s.orphans th).icPl = s.icPl ∧
    (s.orphans th).pw = s.pw ∧ (s.orphans th).fresh = s.fresh ∧ (s.orphans th).out = s.out ∧
    (s.orphans th).pending = s.pending := by
  simp [State.orphans]

@[simp] theorem State.dropThread_frame (s : State) (th : Nat) :
    (s.dropThread th).time = s.time ∧ (s.dropThread th).q = s.q ∧ (s.dropThread th).sub = s.sub ∧
    (s.dropThread th).dma = s.dma ∧ (s.dropThread th).dev = s.dev ∧ (s.dropThread th).pl = s.pl ∧
    (s.dropThread th).mail = s.mail ∧ (s.dropThread th).ic = s.ic ∧ (s.dropThread th).icPl = s.icPl ∧
    (s.dropThread th).pw = s.pw ∧ (s.dropThread th).fresh = s.fresh ∧ (s.dropThread th).out = s.out ∧
    (s.dropThread th).pending = s.pending := by
  unfold State.dropThread; try dsimp only
  (repeat' split) <;> simp

@[simp] theorem State.orphanDma_frame (s : State) (d : Nat) (ks : List Nat) :
    (s.orphanDma d ks).time = s.time ∧ (s.orphanDma d ks).q = s.q ∧ (s.orphanDma d ks).sub = s.sub ∧
    (s.orphanDma d ks).sx = s.sx ∧ (s.orphanDma d ks).dma = s.dma ∧ (s.orphanDma d ks).md = s.md ∧
    (s.orphanDma d ks).dev = s.dev ∧ (s.orphanDma d ks).tally = s.tally ∧ (s.orphanDma d ks).pl = s.pl ∧
    (s.orphanDma d ks).pw = s.pw ∧ (s.orphanDma d ks).fresh = s.fresh ∧ (s.orphanDma d ks).out = s.out ∧
    (s.orphanDma d ks).pending = s.pending := by
  unfold State.orphanDma; try dsimp only
  (repeat' split) <;> simp

@[simp] theorem State.takeRead_frame (s : State) (tag : Nat) (u : ReadUnit) :
    (s.takeRead tag u).time = s.time ∧ (s.takeRead tag u).q = s.q ∧ (s.takeRead tag u).sub = s.sub ∧
    (s.takeRead tag u).sx = s.sx ∧ (s.takeRead tag u).dma = s.dma ∧ (s.takeRead tag u).md = s.md ∧
    (s.takeRead tag u).dev = s.dev ∧ (s.takeRead tag u).pl = s.pl ∧ (s.takeRead tag u).mail = s.mail ∧
    (s.takeRead tag u).ic = s.ic ∧ (s.takeRead tag u).icPl = s.icPl ∧ (s.takeRead tag u).pw = s.pw ∧
    (s.takeRead tag u).fresh = s.fresh ∧ (s.takeRead tag u).out = s.out ∧ (s.takeRead tag u).pending = s.pending := by
  simp [State.takeRead]

@[simp] theorem State.dropRead_frame (s : State) (tag : Nat) :
    (s.dropRead tag).time = s.time ∧ (s.dropRead tag).q = s.q ∧ (s.dropRead tag).sub = s.sub ∧ (s.dropRead tag).sx = s.sx ∧
    (s.dropRead tag).dma = s.dma ∧ (s.dropRead tag).md = s.md ∧ (s.dropRead tag).dev = s.dev ∧ (s.dropRead tag).pl = s.pl ∧
    (s.dropRead tag).mail = s.mail ∧ (s.dropRead tag).ic = s.ic ∧ (s.dropRead tag).icPl = s.icPl ∧
    (s.dropRead tag).pw = s.pw ∧ (s.dropRead tag).fresh = s.fresh ∧ (s.dropRead tag).out = s.out ∧
    (s.dropRead tag).pending = s.pending := by
  unfold State.dropRead; try dsimp only
  (repeat' split) <;> simp

@[simp] theorem State.countCpl_frame (s : State) (st : CplStatus) :
    (s.countCpl st).time = s.time ∧ (s.countCpl st).q = s.q ∧ (s.countCpl st).sub = s.sub ∧ (s.countCpl st).sx = s.sx ∧
    (s.countCpl st).dma = s.dma ∧ (s.countCpl st).md = s.md ∧ (s.countCpl st).dev = s.dev ∧ (s.countCpl st).tally = s.tally ∧
    (s.countCpl st).pl = s.pl ∧ (s.countCpl st).mail = s.mail ∧ (s.countCpl st).ic = s.ic ∧ (s.countCpl st).icPl = s.icPl ∧
    (s.countCpl st).pw = s.pw ∧ (s.countCpl st).fresh = s.fresh ∧ (s.countCpl st).out = s.out ∧
    (s.countCpl st).pending = s.pending := by
  unfold State.countCpl; try dsimp only
  (repeat' split) <;> simp

@[simp] theorem State.hostRead_frame (s : State) (tag : Nat) (addr : Word) (pasid : Option (BitVec 20)) (len : Nat) :
    (s.hostRead tag addr pasid len).time = s.time ∧ (s.hostRead tag addr pasid len).q = s.q ∧
    (s.hostRead tag addr pasid len).sub = s.sub ∧ (s.hostRead tag addr pasid len).sx = s.sx ∧
    (s.hostRead tag addr pasid len).dma = s.dma ∧ (s.hostRead tag addr pasid len).md = s.md ∧
    (s.hostRead tag addr pasid len).dev = s.dev ∧ (s.hostRead tag addr pasid len).tally = s.tally ∧
    (s.hostRead tag addr pasid len).pl = s.pl ∧ (s.hostRead tag addr pasid len).mail = s.mail ∧
    (s.hostRead tag addr pasid len).ic = s.ic ∧ (s.hostRead tag addr pasid len).icPl = s.icPl ∧
    (s.hostRead tag addr pasid len).pw = s.pw ∧ (s.hostRead tag addr pasid len).fresh = s.fresh ∧
    (s.hostRead tag addr pasid len).pending = s.pending := by
  unfold State.hostRead; try dsimp only
  (repeat' split) <;> simp

@[simp] theorem State.hostWrite_frame (s : State) (addr : Word) (pasid : Option (BitVec 20)) (poisoned : Bool) (data : List
      Byte) :
    (s.hostWrite addr pasid poisoned data).time = s.time ∧ (s.hostWrite addr pasid poisoned data).q = s.q ∧
    (s.hostWrite addr pasid poisoned data).sx = s.sx ∧ (s.hostWrite addr pasid poisoned data).dma = s.dma ∧
    (s.hostWrite addr pasid poisoned data).md = s.md ∧ (s.hostWrite addr pasid poisoned data).dev = s.dev ∧
    (s.hostWrite addr pasid poisoned data).tally = s.tally ∧ (s.hostWrite addr pasid poisoned data).pl = s.pl ∧
    (s.hostWrite addr pasid poisoned data).mail = s.mail ∧ (s.hostWrite addr pasid poisoned data).ic = s.ic ∧
    (s.hostWrite addr pasid poisoned data).icPl = s.icPl ∧ (s.hostWrite addr pasid poisoned data).pw = s.pw ∧
    (s.hostWrite addr pasid poisoned data).fresh = s.fresh ∧ (s.hostWrite addr pasid poisoned data).pending = s.pending := by
  unfold State.hostWrite; try dsimp only
  (repeat' split) <;> simp

@[simp] theorem State.hostWrites_frame (n : Nat) (s : State) (addr : Word) (pasid : Option (BitVec 20)) (poisoned : Bool) (data
      : List Byte) :
    (s.hostWrites n addr pasid poisoned data).time = s.time ∧ (s.hostWrites n addr pasid poisoned data).q = s.q ∧
    (s.hostWrites n addr pasid poisoned data).sx = s.sx ∧ (s.hostWrites n addr pasid poisoned data).dma = s.dma ∧
    (s.hostWrites n addr pasid poisoned data).md = s.md ∧ (s.hostWrites n addr pasid poisoned data).dev = s.dev ∧
    (s.hostWrites n addr pasid poisoned data).tally = s.tally ∧ (s.hostWrites n addr pasid poisoned data).pl = s.pl ∧
    (s.hostWrites n addr pasid poisoned data).mail = s.mail ∧ (s.hostWrites n addr pasid poisoned data).ic = s.ic ∧
    (s.hostWrites n addr pasid poisoned data).icPl = s.icPl ∧ (s.hostWrites n addr pasid poisoned data).pw = s.pw ∧
    (s.hostWrites n addr pasid poisoned data).fresh = s.fresh ∧
    (s.hostWrites n addr pasid poisoned data).pending = s.pending := by
  induction n generalizing s addr pasid poisoned data with
  | zero => simp [State.hostWrites]
  | succ n ih =>
    unfold State.hostWrites; try dsimp only
    (repeat' split) <;> simp [ih]

@[simp] theorem State.modDesc_frame (s : State) (d : Nat) (f : Desc → Desc) :
    (s.modDesc d f).time = s.time ∧ (s.modDesc d f).link = s.link ∧ (s.modDesc d f).q = s.q ∧ (s.modDesc d f).sub = s.sub ∧
    (s.modDesc d f).sx = s.sx ∧ (s.modDesc d f).md = s.md ∧ (s.modDesc d f).dev = s.dev ∧ (s.modDesc d f).tally = s.tally ∧
    (s.modDesc d f).pl = s.pl ∧ (s.modDesc d f).mail = s.mail ∧ (s.modDesc d f).ic = s.ic ∧ (s.modDesc d f).icPl = s.icPl ∧
    (s.modDesc d f).pw = s.pw ∧ (s.modDesc d f).fresh = s.fresh ∧ (s.modDesc d f).out = s.out ∧
    (s.modDesc d f).pending = s.pending := by
  simp [State.modDesc]

@[simp] theorem State.takeChan_frame (s : State) (d : Nat) (rd : Bool) :
    (s.takeChan d rd).time = s.time ∧ (s.takeChan d rd).link = s.link ∧ (s.takeChan d rd).q = s.q ∧
    (s.takeChan d rd).sub = s.sub ∧ (s.takeChan d rd).sx = s.sx ∧ (s.takeChan d rd).md = s.md ∧
    (s.takeChan d rd).dev = s.dev ∧ (s.takeChan d rd).pl = s.pl ∧ (s.takeChan d rd).mail = s.mail ∧
    (s.takeChan d rd).ic = s.ic ∧ (s.takeChan d rd).icPl = s.icPl ∧ (s.takeChan d rd).pw = s.pw ∧
    (s.takeChan d rd).fresh = s.fresh ∧ (s.takeChan d rd).out = s.out ∧ (s.takeChan d rd).pending = s.pending := by
  unfold State.takeChan; try dsimp only
  (repeat' split) <;> simp

@[simp] theorem State.dropChan_frame (s : State) (d : Nat) :
    (s.dropChan d).time = s.time ∧ (s.dropChan d).link = s.link ∧ (s.dropChan d).q = s.q ∧ (s.dropChan d).sub = s.sub ∧
    (s.dropChan d).sx = s.sx ∧ (s.dropChan d).md = s.md ∧ (s.dropChan d).dev = s.dev ∧ (s.dropChan d).pl = s.pl ∧
    (s.dropChan d).mail = s.mail ∧ (s.dropChan d).ic = s.ic ∧ (s.dropChan d).icPl = s.icPl ∧ (s.dropChan d).pw = s.pw ∧
    (s.dropChan d).fresh = s.fresh ∧ (s.dropChan d).out = s.out ∧ (s.dropChan d).pending = s.pending := by
  unfold State.dropChan; try dsimp only
  (repeat' split) <;> simp

@[simp] theorem State.allocSeg_frame (s : State) (n : Nat) (h : HeldSeg) :
    (s.allocSeg n h).time = s.time ∧ (s.allocSeg n h).link = s.link ∧ (s.allocSeg n h).q = s.q ∧
    (s.allocSeg n h).sub = s.sub ∧ (s.allocSeg n h).sx = s.sx ∧ (s.allocSeg n h).md = s.md ∧ (s.allocSeg n h).dev = s.dev ∧
    (s.allocSeg n h).pl = s.pl ∧ (s.allocSeg n h).mail = s.mail ∧ (s.allocSeg n h).ic = s.ic ∧
    (s.allocSeg n h).icPl = s.icPl ∧ (s.allocSeg n h).pw = s.pw ∧ (s.allocSeg n h).fresh = s.fresh ∧
    (s.allocSeg n h).out = s.out ∧ (s.allocSeg n h).pending = s.pending := by
  simp [State.allocSeg]

@[simp] theorem State.mismatch_frame (s : State) (line : Nat) (diff : Word) :
    (s.mismatch line diff).time = s.time ∧ (s.mismatch line diff).sx = s.sx ∧ (s.mismatch line diff).dma = s.dma ∧
    (s.mismatch line diff).dev = s.dev ∧ (s.mismatch line diff).mail = s.mail ∧ (s.mismatch line diff).icPl = s.icPl ∧
    (s.mismatch line diff).pw = s.pw ∧ (s.mismatch line diff).fresh = s.fresh ∧ (s.mismatch line diff).pending = s.pending := by
  unfold State.mismatch; try dsimp only
  (repeat' split) <;> simp

@[simp] theorem State.releaseSeg_frame (s : State) (n : Nat) (o : SegOwner) :
    (s.releaseSeg n o).time = s.time ∧ (s.releaseSeg n o).sx = s.sx ∧ (s.releaseSeg n o).dev = s.dev ∧
    (s.releaseSeg n o).mail = s.mail ∧ (s.releaseSeg n o).icPl = s.icPl ∧ (s.releaseSeg n o).pw = s.pw ∧
    (s.releaseSeg n o).fresh = s.fresh ∧ (s.releaseSeg n o).pending = s.pending := by
  unfold State.releaseSeg; try dsimp only
  (repeat' split) <;> simp

@[simp] theorem State.releaseSegs_frame (s : State) (p : HeldSeg → Bool) :
    (s.releaseSegs p).time = s.time ∧ (s.releaseSegs p).sx = s.sx ∧ (s.releaseSegs p).dev = s.dev ∧
    (s.releaseSegs p).mail = s.mail ∧ (s.releaseSegs p).icPl = s.icPl ∧ (s.releaseSegs p).pw = s.pw ∧
    (s.releaseSegs p).fresh = s.fresh ∧ (s.releaseSegs p).pending = s.pending := by
  unfold State.releaseSegs; try dsimp only
  (repeat' split) <;> simp [foldl_keeps State.time, foldl_keeps State.sx, foldl_keeps State.dev, foldl_keeps State.mail,
      foldl_keeps State.icPl, foldl_keeps State.pw, foldl_keeps State.fresh, foldl_keeps State.pending, apply_ite State.time,
      apply_ite State.sx, apply_ite State.dev, apply_ite State.mail, apply_ite State.icPl, apply_ite State.pw, apply_ite
      State.fresh, apply_ite State.pending]

@[simp] theorem State.modExch_frame (s : State) (x : Nat) (f : Exch → Exch) :
    (s.modExch x f).time = s.time ∧ (s.modExch x f).link = s.link ∧ (s.modExch x f).q = s.q ∧ (s.modExch x f).sub = s.sub ∧
    (s.modExch x f).sx = s.sx ∧ (s.modExch x f).dma = s.dma ∧ (s.modExch x f).md = s.md ∧ (s.modExch x f).tally = s.tally ∧
    (s.modExch x f).pl = s.pl ∧ (s.modExch x f).mail = s.mail ∧ (s.modExch x f).ic = s.ic ∧ (s.modExch x f).icPl = s.icPl ∧
    (s.modExch x f).pw = s.pw ∧ (s.modExch x f).fresh = s.fresh ∧ (s.modExch x f).out = s.out ∧
    (s.modExch x f).pending = s.pending := by
  simp [State.modExch]

@[simp] theorem State.takeExch_frame (s : State) (x : Nat) (e : Exch) :
    (s.takeExch x e).time = s.time ∧ (s.takeExch x e).link = s.link ∧ (s.takeExch x e).q = s.q ∧
    (s.takeExch x e).sub = s.sub ∧ (s.takeExch x e).sx = s.sx ∧ (s.takeExch x e).dma = s.dma ∧ (s.takeExch x e).md = s.md ∧
    (s.takeExch x e).pl = s.pl ∧ (s.takeExch x e).mail = s.mail ∧ (s.takeExch x e).ic = s.ic ∧
    (s.takeExch x e).icPl = s.icPl ∧ (s.takeExch x e).pw = s.pw ∧ (s.takeExch x e).fresh = s.fresh ∧
    (s.takeExch x e).out = s.out ∧ (s.takeExch x e).pending = s.pending := by
  simp [State.takeExch]

@[simp] theorem State.creditSync_frame (s : State) (quad : Nat) :
    (s.creditSync quad).time = s.time ∧ (s.creditSync quad).link = s.link ∧ (s.creditSync quad).q = s.q ∧
    (s.creditSync quad).sub = s.sub ∧ (s.creditSync quad).sx = s.sx ∧ (s.creditSync quad).md = s.md ∧
    (s.creditSync quad).dev = s.dev ∧ (s.creditSync quad).tally = s.tally ∧ (s.creditSync quad).pl = s.pl ∧
    (s.creditSync quad).mail = s.mail ∧ (s.creditSync quad).ic = s.ic ∧ (s.creditSync quad).icPl = s.icPl ∧
    (s.creditSync quad).pw = s.pw ∧ (s.creditSync quad).fresh = s.fresh ∧ (s.creditSync quad).pending = s.pending := by
  unfold State.creditSync; try dsimp only
  (repeat' split) <;> simp

@[simp] theorem State.flowSync_frame (s : State) (quad : Nat) :
    (s.flowSync quad).time = s.time ∧ (s.flowSync quad).link = s.link ∧ (s.flowSync quad).q = s.q ∧
    (s.flowSync quad).sub = s.sub ∧ (s.flowSync quad).sx = s.sx ∧ (s.flowSync quad).md = s.md ∧
    (s.flowSync quad).dev = s.dev ∧ (s.flowSync quad).tally = s.tally ∧ (s.flowSync quad).pl = s.pl ∧
    (s.flowSync quad).mail = s.mail ∧ (s.flowSync quad).ic = s.ic ∧ (s.flowSync quad).icPl = s.icPl ∧
    (s.flowSync quad).pw = s.pw ∧ (s.flowSync quad).fresh = s.fresh ∧ (s.flowSync quad).pending = s.pending := by
  unfold State.flowSync; try dsimp only
  (repeat' split) <;> simp

@[simp] theorem State.flowSyncAll_frame (s : State) :
    (s.flowSyncAll).time = s.time ∧ (s.flowSyncAll).link = s.link ∧ (s.flowSyncAll).q = s.q ∧ (s.flowSyncAll).sub = s.sub ∧
    (s.flowSyncAll).sx = s.sx ∧ (s.flowSyncAll).md = s.md ∧ (s.flowSyncAll).dev = s.dev ∧ (s.flowSyncAll).tally = s.tally ∧
    (s.flowSyncAll).pl = s.pl ∧ (s.flowSyncAll).mail = s.mail ∧ (s.flowSyncAll).ic = s.ic ∧ (s.flowSyncAll).icPl = s.icPl ∧
    (s.flowSyncAll).pw = s.pw ∧ (s.flowSyncAll).fresh = s.fresh ∧ (s.flowSyncAll).pending = s.pending := by
  unfold State.flowSyncAll; try dsimp only
  (repeat' split) <;> simp [foldl_keeps State.time, foldl_keeps State.link, foldl_keeps State.q, foldl_keeps State.sub,
      foldl_keeps State.sx, foldl_keeps State.md, foldl_keeps State.dev, foldl_keeps State.tally, foldl_keeps State.pl,
      foldl_keeps State.mail, foldl_keeps State.ic, foldl_keeps State.icPl, foldl_keeps State.pw, foldl_keeps State.fresh,
      foldl_keeps State.pending, apply_ite State.time, apply_ite State.link, apply_ite State.q, apply_ite State.sub, apply_ite
      State.sx, apply_ite State.md, apply_ite State.dev, apply_ite State.tally, apply_ite State.pl, apply_ite State.mail,
      apply_ite State.ic, apply_ite State.icPl, apply_ite State.pw, apply_ite State.fresh, apply_ite State.pending]

@[simp] theorem State.segWait_frame (s : State) (quad sch : Nat) (who : WaitWho) :
    (s.segWait quad sch who).time = s.time ∧ (s.segWait quad sch who).link = s.link ∧ (s.segWait quad sch who).q = s.q ∧
    (s.segWait quad sch who).sub = s.sub ∧ (s.segWait quad sch who).sx = s.sx ∧ (s.segWait quad sch who).dev = s.dev ∧
    (s.segWait quad sch who).pl = s.pl ∧ (s.segWait quad sch who).mail = s.mail ∧ (s.segWait quad sch who).ic = s.ic ∧
    (s.segWait quad sch who).icPl = s.icPl ∧ (s.segWait quad sch who).pw = s.pw ∧ (s.segWait quad sch who).fresh = s.fresh ∧
    (s.segWait quad sch who).pending = s.pending := by
  simp [State.segWait]

@[simp] theorem State.segGot_frame (s : State) (quad : Nat) (who : WaitWho) :
    (s.segGot quad who).time = s.time ∧ (s.segGot quad who).link = s.link ∧ (s.segGot quad who).q = s.q ∧
    (s.segGot quad who).sub = s.sub ∧ (s.segGot quad who).sx = s.sx ∧ (s.segGot quad who).dev = s.dev ∧
    (s.segGot quad who).tally = s.tally ∧ (s.segGot quad who).pl = s.pl ∧ (s.segGot quad who).mail = s.mail ∧
    (s.segGot quad who).ic = s.ic ∧ (s.segGot quad who).icPl = s.icPl ∧ (s.segGot quad who).pw = s.pw ∧
    (s.segGot quad who).fresh = s.fresh ∧ (s.segGot quad who).pending = s.pending := by
  simp [State.segGot]

@[simp] theorem State.segLeave_frame (s : State) (p : WaitWho → Bool) :
    (s.segLeave p).time = s.time ∧ (s.segLeave p).link = s.link ∧ (s.segLeave p).q = s.q ∧ (s.segLeave p).sub = s.sub ∧
    (s.segLeave p).sx = s.sx ∧ (s.segLeave p).dev = s.dev ∧ (s.segLeave p).tally = s.tally ∧ (s.segLeave p).pl = s.pl ∧
    (s.segLeave p).mail = s.mail ∧ (s.segLeave p).ic = s.ic ∧ (s.segLeave p).icPl = s.icPl ∧ (s.segLeave p).pw = s.pw ∧
    (s.segLeave p).fresh = s.fresh ∧ (s.segLeave p).pending = s.pending := by
  unfold State.segLeave; try dsimp only
  (repeat' split) <;> simp [foldl_keeps State.time, foldl_keeps State.link, foldl_keeps State.q, foldl_keeps State.sub,
      foldl_keeps State.sx, foldl_keeps State.dev, foldl_keeps State.tally, foldl_keeps State.pl, foldl_keeps State.mail,
      foldl_keeps State.ic, foldl_keeps State.icPl, foldl_keeps State.pw, foldl_keeps State.fresh, foldl_keeps State.pending,
      apply_ite State.time, apply_ite State.link, apply_ite State.q, apply_ite State.sub, apply_ite State.sx, apply_ite
      State.dev, apply_ite State.tally, apply_ite State.pl, apply_ite State.mail, apply_ite State.ic, apply_ite State.icPl,
      apply_ite State.pw, apply_ite State.fresh, apply_ite State.pending]

@[simp] theorem State.sendAbort_frame (s : State) (x : Nat) (e : Exch) :
    (s.sendAbort x e).time = s.time ∧ (s.sendAbort x e).link = s.link ∧ (s.sendAbort x e).q = s.q ∧
    (s.sendAbort x e).sub = s.sub ∧ (s.sendAbort x e).sx = s.sx ∧ (s.sendAbort x e).dma = s.dma ∧
    (s.sendAbort x e).md = s.md ∧ (s.sendAbort x e).tally = s.tally ∧ (s.sendAbort x e).pl = s.pl ∧
    (s.sendAbort x e).mail = s.mail ∧ (s.sendAbort x e).ic = s.ic ∧ (s.sendAbort x e).icPl = s.icPl ∧
    (s.sendAbort x e).pw = s.pw ∧ (s.sendAbort x e).fresh = s.fresh ∧ (s.sendAbort x e).pending = s.pending := by
  unfold State.sendAbort; try dsimp only
  (repeat' split) <;> simp

@[simp] theorem State.nextAbort_frame (s : State) (a : AbortCmd) :
    (s.nextAbort a).time = s.time ∧ (s.nextAbort a).link = s.link ∧ (s.nextAbort a).q = s.q ∧ (s.nextAbort a).sub = s.sub ∧
    (s.nextAbort a).sx = s.sx ∧ (s.nextAbort a).dma = s.dma ∧ (s.nextAbort a).md = s.md ∧ (s.nextAbort a).tally = s.tally ∧
    (s.nextAbort a).pl = s.pl ∧ (s.nextAbort a).mail = s.mail ∧ (s.nextAbort a).ic = s.ic ∧ (s.nextAbort a).icPl = s.icPl ∧
    (s.nextAbort a).pw = s.pw ∧ (s.nextAbort a).fresh = s.fresh ∧ (s.nextAbort a).pending = s.pending := by
  unfold State.nextAbort; try dsimp only
  (repeat' split) <;> simp

@[simp] theorem State.forgetAborts_frame (s : State) (p : AbortCmd → Bool) :
    (s.forgetAborts p).time = s.time ∧ (s.forgetAborts p).link = s.link ∧ (s.forgetAborts p).q = s.q ∧
    (s.forgetAborts p).sub = s.sub ∧ (s.forgetAborts p).sx = s.sx ∧ (s.forgetAborts p).dma = s.dma ∧
    (s.forgetAborts p).md = s.md ∧ (s.forgetAborts p).tally = s.tally ∧ (s.forgetAborts p).pl = s.pl ∧
    (s.forgetAborts p).mail = s.mail ∧ (s.forgetAborts p).ic = s.ic ∧ (s.forgetAborts p).icPl = s.icPl ∧
    (s.forgetAborts p).pw = s.pw ∧ (s.forgetAborts p).fresh = s.fresh ∧ (s.forgetAborts p).out = s.out ∧
    (s.forgetAborts p).pending = s.pending := by
  simp [State.forgetAborts]

@[simp] theorem State.quitExch_frame (s : State) (x : Nat) :
    (s.quitExch x).time = s.time ∧ (s.quitExch x).link = s.link ∧ (s.quitExch x).q = s.q ∧ (s.quitExch x).sub = s.sub ∧
    (s.quitExch x).sx = s.sx ∧ (s.quitExch x).dev = s.dev ∧ (s.quitExch x).tally = s.tally ∧ (s.quitExch x).pl = s.pl ∧
    (s.quitExch x).mail = s.mail ∧ (s.quitExch x).ic = s.ic ∧ (s.quitExch x).icPl = s.icPl ∧ (s.quitExch x).pw = s.pw ∧
    (s.quitExch x).fresh = s.fresh ∧ (s.quitExch x).pending = s.pending := by
  simp [State.quitExch]

@[simp] theorem State.dropExch_frame (s : State) (x : Nat) :
    (s.dropExch x).time = s.time ∧ (s.dropExch x).link = s.link ∧ (s.dropExch x).q = s.q ∧ (s.dropExch x).sub = s.sub ∧
    (s.dropExch x).sx = s.sx ∧ (s.dropExch x).pl = s.pl ∧ (s.dropExch x).mail = s.mail ∧ (s.dropExch x).ic = s.ic ∧
    (s.dropExch x).icPl = s.icPl ∧ (s.dropExch x).pw = s.pw ∧ (s.dropExch x).fresh = s.fresh ∧
    (s.dropExch x).pending = s.pending := by
  unfold State.dropExch; try dsimp only
  (repeat' split) <;> simp

@[simp] theorem State.gsWrite_frame (s : State) (w : Nat) (v : TWord) :
    (s.gsWrite w v).time = s.time ∧ (s.gsWrite w v).link = s.link ∧ (s.gsWrite w v).q = s.q ∧ (s.gsWrite w v).sub = s.sub ∧
    (s.gsWrite w v).dma = s.dma ∧ (s.gsWrite w v).md = s.md ∧ (s.gsWrite w v).dev = s.dev ∧ (s.gsWrite w v).tally = s.tally ∧
    (s.gsWrite w v).pl = s.pl ∧ (s.gsWrite w v).mail = s.mail ∧ (s.gsWrite w v).ic = s.ic ∧ (s.gsWrite w v).icPl = s.icPl ∧
    (s.gsWrite w v).pw = s.pw ∧ (s.gsWrite w v).fresh = s.fresh ∧ (s.gsWrite w v).out = s.out ∧
    (s.gsWrite w v).pending = s.pending := by
  unfold State.gsWrite; try dsimp only
  (repeat' split) <;> simp

@[simp] theorem State.gsSpoil_frame (s : State) (w : Nat) :
    (s.gsSpoil w).time = s.time ∧ (s.gsSpoil w).link = s.link ∧ (s.gsSpoil w).q = s.q ∧ (s.gsSpoil w).sub = s.sub ∧
    (s.gsSpoil w).dma = s.dma ∧ (s.gsSpoil w).md = s.md ∧ (s.gsSpoil w).dev = s.dev ∧ (s.gsSpoil w).tally = s.tally ∧
    (s.gsSpoil w).pl = s.pl ∧ (s.gsSpoil w).mail = s.mail ∧ (s.gsSpoil w).ic = s.ic ∧ (s.gsSpoil w).icPl = s.icPl ∧
    (s.gsSpoil w).pw = s.pw ∧ (s.gsSpoil w).fresh = s.fresh ∧ (s.gsSpoil w).out = s.out ∧ (s.gsSpoil w).pending = s.pending := by
  simp [State.gsSpoil]

@[simp] theorem State.memError_frame (s : State) (src a0 a1 a2 : Nat) :
    (s.memError src a0 a1 a2).time = s.time ∧ (s.memError src a0 a1 a2).sx = s.sx ∧ (s.memError src a0 a1 a2).dma = s.dma ∧
    (s.memError src a0 a1 a2).dev = s.dev ∧ (s.memError src a0 a1 a2).mail = s.mail ∧
    (s.memError src a0 a1 a2).icPl = s.icPl ∧ (s.memError src a0 a1 a2).pw = s.pw ∧
    (s.memError src a0 a1 a2).fresh = s.fresh ∧ (s.memError src a0 a1 a2).pending = s.pending := by
  simp [State.memError]

@[simp] theorem State.gsFault_frame (s : State) (sch w : Nat) :
    (s.gsFault sch w).time = s.time ∧ (s.gsFault sch w).dma = s.dma ∧ (s.gsFault sch w).dev = s.dev ∧
    (s.gsFault sch w).mail = s.mail ∧ (s.gsFault sch w).icPl = s.icPl ∧ (s.gsFault sch w).pw = s.pw ∧
    (s.gsFault sch w).fresh = s.fresh ∧ (s.gsFault sch w).pending = s.pending := by
  simp [State.gsFault]

@[simp] theorem State.gsKeep_frame (s : State) (sch w : Nat) :
    (s.gsKeep sch w).time = s.time ∧ (s.gsKeep sch w).dma = s.dma ∧ (s.gsKeep sch w).dev = s.dev ∧
    (s.gsKeep sch w).mail = s.mail ∧ (s.gsKeep sch w).icPl = s.icPl ∧ (s.gsKeep sch w).pw = s.pw ∧
    (s.gsKeep sch w).pending = s.pending := by
  unfold State.gsKeep; try dsimp only
  (repeat' split) <;> simp

@[simp] theorem State.gsBytes_frame (n : Nat) (s : State) (addr : Nat) (bs : List Byte) (bad : List Nat) (last : Bool) :
    (s.gsBytes n addr bs bad last).time = s.time ∧ (s.gsBytes n addr bs bad last).link = s.link ∧
    (s.gsBytes n addr bs bad last).q = s.q ∧ (s.gsBytes n addr bs bad last).sub = s.sub ∧
    (s.gsBytes n addr bs bad last).dma = s.dma ∧ (s.gsBytes n addr bs bad last).md = s.md ∧
    (s.gsBytes n addr bs bad last).dev = s.dev ∧ (s.gsBytes n addr bs bad last).tally = s.tally ∧
    (s.gsBytes n addr bs bad last).pl = s.pl ∧ (s.gsBytes n addr bs bad last).mail = s.mail ∧
    (s.gsBytes n addr bs bad last).ic = s.ic ∧ (s.gsBytes n addr bs bad last).icPl = s.icPl ∧
    (s.gsBytes n addr bs bad last).pw = s.pw ∧ (s.gsBytes n addr bs bad last).fresh = s.fresh ∧
    (s.gsBytes n addr bs bad last).out = s.out ∧ (s.gsBytes n addr bs bad last).pending = s.pending := by
  induction n generalizing s addr bs bad last with
  | zero => simp [State.gsBytes]
  | succ n ih =>
    unfold State.gsBytes; try dsimp only
    (repeat' split) <;> simp [ih]

@[simp] theorem State.gsTail_frame (s : State) (sch addr n : Nat) :
    (s.gsTail sch addr n).time = s.time ∧ (s.gsTail sch addr n).dma = s.dma ∧ (s.gsTail sch addr n).dev = s.dev ∧
    (s.gsTail sch addr n).mail = s.mail ∧ (s.gsTail sch addr n).icPl = s.icPl ∧ (s.gsTail sch addr n).pw = s.pw ∧
    (s.gsTail sch addr n).pending = s.pending := by
  unfold State.gsTail; try dsimp only
  (repeat' split) <;> simp

/-! ## Life -/

@[simp] theorem State.intermediate_frame (s : State) (sch : Nat) :
    (s.intermediate sch).time = s.time ∧ (s.intermediate sch).sx = s.sx ∧ (s.intermediate sch).dma = s.dma ∧
    (s.intermediate sch).dev = s.dev ∧ (s.intermediate sch).mail = s.mail ∧ (s.intermediate sch).icPl = s.icPl ∧
    (s.intermediate sch).pw = s.pw ∧ (s.intermediate sch).pending = s.pending := by
  simp [State.intermediate]

@[simp] theorem State.modCmd_frame (s : State) (sch no : Nat) (f : Cmd → Cmd) :
    (s.modCmd sch no f).time = s.time ∧ (s.modCmd sch no f).link = s.link ∧ (s.modCmd sch no f).q = s.q ∧
    (s.modCmd sch no f).sx = s.sx ∧ (s.modCmd sch no f).dma = s.dma ∧ (s.modCmd sch no f).md = s.md ∧
    (s.modCmd sch no f).dev = s.dev ∧ (s.modCmd sch no f).tally = s.tally ∧ (s.modCmd sch no f).pl = s.pl ∧
    (s.modCmd sch no f).mail = s.mail ∧ (s.modCmd sch no f).ic = s.ic ∧ (s.modCmd sch no f).icPl = s.icPl ∧
    (s.modCmd sch no f).pw = s.pw ∧ (s.modCmd sch no f).fresh = s.fresh ∧ (s.modCmd sch no f).out = s.out ∧
    (s.modCmd sch no f).pending = s.pending := by
  simp [State.modCmd]

@[simp] theorem State.releaseStore_frame (s : State) (e : Store) :
    (s.releaseStore e).time = s.time ∧ (s.releaseStore e).q = s.q ∧ (s.releaseStore e).dma = s.dma ∧
    (s.releaseStore e).md = s.md ∧ (s.releaseStore e).dev = s.dev ∧ (s.releaseStore e).tally = s.tally ∧
    (s.releaseStore e).pl = s.pl ∧ (s.releaseStore e).mail = s.mail ∧ (s.releaseStore e).ic = s.ic ∧
    (s.releaseStore e).icPl = s.icPl ∧ (s.releaseStore e).pw = s.pw ∧ (s.releaseStore e).fresh = s.fresh ∧
    (s.releaseStore e).pending = s.pending := by
  unfold State.releaseStore; try dsimp only
  (repeat' split) <;> simp

@[simp] theorem State.storeWait_frame (s : State) (sch : Nat) :
    (s.storeWait sch).time = s.time ∧ (s.storeWait sch).link = s.link ∧ (s.storeWait sch).q = s.q ∧
    (s.storeWait sch).sub = s.sub ∧ (s.storeWait sch).sx = s.sx ∧ (s.storeWait sch).dma = s.dma ∧
    (s.storeWait sch).dev = s.dev ∧ (s.storeWait sch).tally = s.tally ∧ (s.storeWait sch).pl = s.pl ∧
    (s.storeWait sch).mail = s.mail ∧ (s.storeWait sch).ic = s.ic ∧ (s.storeWait sch).icPl = s.icPl ∧
    (s.storeWait sch).pw = s.pw ∧ (s.storeWait sch).fresh = s.fresh ∧ (s.storeWait sch).out = s.out ∧
    (s.storeWait sch).pending = s.pending := by
  simp [State.storeWait]

@[simp] theorem State.halfPoint_frame (s : State) (sch no : Nat) :
    (s.halfPoint sch no).time = s.time ∧ (s.halfPoint sch no).sx = s.sx ∧ (s.halfPoint sch no).dma = s.dma ∧
    (s.halfPoint sch no).dev = s.dev ∧ (s.halfPoint sch no).mail = s.mail ∧ (s.halfPoint sch no).icPl = s.icPl ∧
    (s.halfPoint sch no).pw = s.pw ∧ (s.halfPoint sch no).pending = s.pending := by
  unfold State.halfPoint; try dsimp only
  (repeat' split) <;> simp

@[simp] theorem State.fullPoint_frame (s : State) (sch no : Nat) :
    (s.fullPoint sch no).time = s.time ∧ (s.fullPoint sch no).sx = s.sx ∧ (s.fullPoint sch no).dma = s.dma ∧
    (s.fullPoint sch no).dev = s.dev ∧ (s.fullPoint sch no).mail = s.mail ∧ (s.fullPoint sch no).icPl = s.icPl ∧
    (s.fullPoint sch no).pw = s.pw ∧ (s.fullPoint sch no).pending = s.pending := by
  unfold State.fullPoint; try dsimp only
  (repeat' split) <;> simp

@[simp] theorem State.dataPoints_frame (s : State) (sch no : Nat) :
    (s.dataPoints sch no).time = s.time ∧ (s.dataPoints sch no).sx = s.sx ∧ (s.dataPoints sch no).dma = s.dma ∧
    (s.dataPoints sch no).dev = s.dev ∧ (s.dataPoints sch no).mail = s.mail ∧ (s.dataPoints sch no).icPl = s.icPl ∧
    (s.dataPoints sch no).pw = s.pw ∧ (s.dataPoints sch no).pending = s.pending := by
  unfold State.dataPoints; try dsimp only
  (repeat' split) <;> simp

@[simp] theorem State.descDone_frame (s : State) (k a b : Nat) :
    (s.descDone k a b).time = s.time ∧ (s.descDone k a b).sx = s.sx ∧ (s.descDone k a b).dev = s.dev ∧
    (s.descDone k a b).mail = s.mail ∧ (s.descDone k a b).icPl = s.icPl ∧ (s.descDone k a b).pw = s.pw ∧
    (s.descDone k a b).pending = s.pending := by
  unfold State.descDone; try dsimp only
  (repeat' split) <;> simp

@[simp] theorem State.descMoved_frame (s : State) (k a b : Nat) :
    (s.descMoved k a b).time = s.time ∧ (s.descMoved k a b).sx = s.sx ∧ (s.descMoved k a b).dev = s.dev ∧
    (s.descMoved k a b).mail = s.mail ∧ (s.descMoved k a b).icPl = s.icPl ∧ (s.descMoved k a b).pw = s.pw ∧
    (s.descMoved k a b).pending = s.pending := by
  simp [State.descMoved]

@[simp] theorem State.cancelBytes_frame (s : State) (sch no a b : Nat) :
    (s.cancelBytes sch no a b).time = s.time ∧ (s.cancelBytes sch no a b).sx = s.sx ∧
    (s.cancelBytes sch no a b).dev = s.dev ∧ (s.cancelBytes sch no a b).mail = s.mail ∧
    (s.cancelBytes sch no a b).icPl = s.icPl ∧ (s.cancelBytes sch no a b).pw = s.pw ∧
    (s.cancelBytes sch no a b).pending = s.pending := by
  unfold State.cancelBytes; try dsimp only
  (repeat' split) <;> simp [foldl_keeps State.time, foldl_keeps State.sx, foldl_keeps State.dev, foldl_keeps State.mail,
      foldl_keeps State.icPl, foldl_keeps State.pw, foldl_keeps State.pending, apply_ite State.time, apply_ite State.sx,
      apply_ite State.dev, apply_ite State.mail, apply_ite State.icPl, apply_ite State.pw, apply_ite State.pending]

@[simp] theorem State.cancelUnwritten_frame (s : State) (sch no pc : Nat) (p : Piece) :
    (s.cancelUnwritten sch no pc p).time = s.time ∧ (s.cancelUnwritten sch no pc p).sx = s.sx ∧
    (s.cancelUnwritten sch no pc p).dev = s.dev ∧ (s.cancelUnwritten sch no pc p).mail = s.mail ∧
    (s.cancelUnwritten sch no pc p).icPl = s.icPl ∧ (s.cancelUnwritten sch no pc p).pw = s.pw ∧
    (s.cancelUnwritten sch no pc p).pending = s.pending := by
  unfold State.cancelUnwritten; try dsimp only
  (repeat' split) <;> simp [foldl_keeps State.time, foldl_keeps State.sx, foldl_keeps State.dev, foldl_keeps State.mail,
      foldl_keeps State.icPl, foldl_keeps State.pw, foldl_keeps State.pending, apply_ite State.time, apply_ite State.sx,
      apply_ite State.dev, apply_ite State.mail, apply_ite State.icPl, apply_ite State.pw, apply_ite State.pending]

@[simp] theorem State.park_frame (s : State) (k : Nat) :
    (s.park k).time = s.time ∧ (s.park k).link = s.link ∧ (s.park k).q = s.q ∧ (s.park k).sub = s.sub ∧
    (s.park k).sx = s.sx ∧ (s.park k).dev = s.dev ∧ (s.park k).pl = s.pl ∧ (s.park k).mail = s.mail ∧ (s.park k).ic = s.ic ∧
    (s.park k).icPl = s.icPl ∧ (s.park k).pw = s.pw ∧ (s.park k).fresh = s.fresh ∧ (s.park k).pending = s.pending := by
  unfold State.park; try dsimp only
  (repeat' split) <;> simp

@[simp] theorem State.forgetPieces_frame (s : State) (sch no pc : Nat) :
    (s.forgetPieces sch no pc).time = s.time ∧ (s.forgetPieces sch no pc).q = s.q ∧ (s.forgetPieces sch no pc).sub = s.sub ∧
    (s.forgetPieces sch no pc).sx = s.sx ∧ (s.forgetPieces sch no pc).dev = s.dev ∧ (s.forgetPieces sch no pc).pl = s.pl ∧
    (s.forgetPieces sch no pc).pw = s.pw ∧ (s.forgetPieces sch no pc).fresh = s.fresh ∧
    (s.forgetPieces sch no pc).pending = s.pending := by
  unfold State.forgetPieces; try dsimp only
  (repeat' split) <;> simp [foldl_keeps State.time, foldl_keeps State.q, foldl_keeps State.sub, foldl_keeps State.sx,
      foldl_keeps State.dev, foldl_keeps State.pl, foldl_keeps State.pw, foldl_keeps State.fresh, foldl_keeps State.pending,
      apply_ite State.time, apply_ite State.q, apply_ite State.sub, apply_ite State.sx, apply_ite State.dev, apply_ite
      State.pl, apply_ite State.pw, apply_ite State.fresh, apply_ite State.pending]

@[simp] theorem buildDescs_frame (n : Nat) (s : State) (sch no : Nat) (rd hlf : Bool) (lo count : Nat) :
    (buildDescs n s sch no rd hlf lo count).time = s.time ∧ (buildDescs n s sch no rd hlf lo count).link = s.link ∧
    (buildDescs n s sch no rd hlf lo count).q = s.q ∧ (buildDescs n s sch no rd hlf lo count).sub = s.sub ∧
    (buildDescs n s sch no rd hlf lo count).sx = s.sx ∧ (buildDescs n s sch no rd hlf lo count).md = s.md ∧
    (buildDescs n s sch no rd hlf lo count).dev = s.dev ∧ (buildDescs n s sch no rd hlf lo count).pl = s.pl ∧
    (buildDescs n s sch no rd hlf lo count).mail = s.mail ∧ (buildDescs n s sch no rd hlf lo count).ic = s.ic ∧
    (buildDescs n s sch no rd hlf lo count).icPl = s.icPl ∧ (buildDescs n s sch no rd hlf lo count).pw = s.pw ∧
    (buildDescs n s sch no rd hlf lo count).fresh = s.fresh ∧ (buildDescs n s sch no rd hlf lo count).out = s.out ∧
    (buildDescs n s sch no rd hlf lo count).pending = s.pending := by
  induction n generalizing s sch no rd hlf lo count with
  | zero => simp [buildDescs]
  | succ n ih =>
    unfold buildDescs; try dsimp only
    (repeat' split) <;> simp [ih]

@[simp] theorem State.addDescs_frame (s : State) (sch no : Nat) (rd hlf : Bool) (count : Nat) :
    (s.addDescs sch no rd hlf count).time = s.time ∧ (s.addDescs sch no rd hlf count).link = s.link ∧
    (s.addDescs sch no rd hlf count).q = s.q ∧ (s.addDescs sch no rd hlf count).sub = s.sub ∧
    (s.addDescs sch no rd hlf count).sx = s.sx ∧ (s.addDescs sch no rd hlf count).md = s.md ∧
    (s.addDescs sch no rd hlf count).dev = s.dev ∧ (s.addDescs sch no rd hlf count).pl = s.pl ∧
    (s.addDescs sch no rd hlf count).mail = s.mail ∧ (s.addDescs sch no rd hlf count).ic = s.ic ∧
    (s.addDescs sch no rd hlf count).icPl = s.icPl ∧ (s.addDescs sch no rd hlf count).pw = s.pw ∧
    (s.addDescs sch no rd hlf count).fresh = s.fresh ∧ (s.addDescs sch no rd hlf count).out = s.out ∧
    (s.addDescs sch no rd hlf count).pending = s.pending := by
  simp [State.addDescs]

@[simp] theorem State.dropDescs_frame (s : State) (sch : Nat) :
    (s.dropDescs sch).time = s.time ∧ (s.dropDescs sch).link = s.link ∧ (s.dropDescs sch).q = s.q ∧
    (s.dropDescs sch).sub = s.sub ∧ (s.dropDescs sch).sx = s.sx ∧ (s.dropDescs sch).md = s.md ∧
    (s.dropDescs sch).dev = s.dev ∧ (s.dropDescs sch).tally = s.tally ∧ (s.dropDescs sch).pl = s.pl ∧
    (s.dropDescs sch).mail = s.mail ∧ (s.dropDescs sch).ic = s.ic ∧ (s.dropDescs sch).icPl = s.icPl ∧
    (s.dropDescs sch).pw = s.pw ∧ (s.dropDescs sch).fresh = s.fresh ∧ (s.dropDescs sch).out = s.out ∧
    (s.dropDescs sch).pending = s.pending := by
  simp [State.dropDescs]

@[simp] theorem State.awaitChan_frame (s : State) (k sch : Nat) (rd : Bool) :
    (s.awaitChan k sch rd).time = s.time ∧ (s.awaitChan k sch rd).link = s.link ∧ (s.awaitChan k sch rd).q = s.q ∧
    (s.awaitChan k sch rd).sub = s.sub ∧ (s.awaitChan k sch rd).sx = s.sx ∧ (s.awaitChan k sch rd).dma = s.dma ∧
    (s.awaitChan k sch rd).dev = s.dev ∧ (s.awaitChan k sch rd).pl = s.pl ∧ (s.awaitChan k sch rd).mail = s.mail ∧
    (s.awaitChan k sch rd).ic = s.ic ∧ (s.awaitChan k sch rd).icPl = s.icPl ∧ (s.awaitChan k sch rd).pw = s.pw ∧
    (s.awaitChan k sch rd).fresh = s.fresh ∧ (s.awaitChan k sch rd).out = s.out ∧
    (s.awaitChan k sch rd).pending = s.pending := by
  unfold State.awaitChan; try dsimp only
  (repeat' split) <;> simp

@[simp] theorem State.pieceReady_frame (s : State) (sch no pc x piece : Nat) :
    (s.pieceReady sch no pc x piece).time = s.time ∧ (s.pieceReady sch no pc x piece).sx = s.sx ∧
    (s.pieceReady sch no pc x piece).dev = s.dev ∧ (s.pieceReady sch no pc x piece).mail = s.mail ∧
    (s.pieceReady sch no pc x piece).icPl = s.icPl ∧ (s.pieceReady sch no pc x piece).pw = s.pw ∧
    (s.pieceReady sch no pc x piece).pending = s.pending := by
  unfold State.pieceReady; try dsimp only
  (repeat' split) <;> simp [foldl_keeps State.time, foldl_keeps State.sx, foldl_keeps State.dev, foldl_keeps State.mail,
      foldl_keeps State.icPl, foldl_keeps State.pw, foldl_keeps State.pending, apply_ite State.time, apply_ite State.sx,
      apply_ite State.dev, apply_ite State.mail, apply_ite State.icPl, apply_ite State.pw, apply_ite State.pending]

@[simp] theorem State.dropData_frame (s : State) (sch : Nat) :
    (s.dropData sch).time = s.time ∧ (s.dropData sch).sx = s.sx ∧ (s.dropData sch).dev = s.dev ∧
    (s.dropData sch).mail = s.mail ∧ (s.dropData sch).icPl = s.icPl ∧ (s.dropData sch).pw = s.pw ∧
    (s.dropData sch).pending = s.pending := by
  unfold State.dropData; try dsimp only
  (repeat' split) <;> simp [foldl_keeps State.time, foldl_keeps State.sx, foldl_keeps State.dev, foldl_keeps State.mail,
      foldl_keeps State.icPl, foldl_keeps State.pw, foldl_keeps State.pending, apply_ite State.time, apply_ite State.sx,
      apply_ite State.dev, apply_ite State.mail, apply_ite State.icPl, apply_ite State.pw, apply_ite State.pending]

@[simp] theorem State.undispatch_frame (s : State) (sch : Nat) :
    (s.undispatch sch).time = s.time ∧ (s.undispatch sch).link = s.link ∧ (s.undispatch sch).q = s.q ∧
    (s.undispatch sch).sx = s.sx ∧ (s.undispatch sch).dma = s.dma ∧ (s.undispatch sch).dev = s.dev ∧
    (s.undispatch sch).tally = s.tally ∧ (s.undispatch sch).pl = s.pl ∧ (s.undispatch sch).mail = s.mail ∧
    (s.undispatch sch).ic = s.ic ∧ (s.undispatch sch).icPl = s.icPl ∧ (s.undispatch sch).pw = s.pw ∧
    (s.undispatch sch).fresh = s.fresh ∧ (s.undispatch sch).out = s.out ∧ (s.undispatch sch).pending = s.pending := by
  unfold State.undispatch; try dsimp only
  (repeat' split) <;> simp

@[simp] theorem State.dropSense_frame (s : State) (sch : Nat) :
    (s.dropSense sch).time = s.time ∧ (s.dropSense sch).sx = s.sx ∧ (s.dropSense sch).dev = s.dev ∧
    (s.dropSense sch).mail = s.mail ∧ (s.dropSense sch).icPl = s.icPl ∧ (s.dropSense sch).pw = s.pw ∧
    (s.dropSense sch).fresh = s.fresh ∧ (s.dropSense sch).pending = s.pending := by
  unfold State.dropSense; try dsimp only
  (repeat' split) <;> simp

@[simp] theorem State.forgetGhosts_frame (s : State) (sch : Nat) :
    (s.forgetGhosts sch).time = s.time ∧ (s.forgetGhosts sch).link = s.link ∧ (s.forgetGhosts sch).q = s.q ∧
    (s.forgetGhosts sch).sub = s.sub ∧ (s.forgetGhosts sch).sx = s.sx ∧ (s.forgetGhosts sch).dma = s.dma ∧
    (s.forgetGhosts sch).md = s.md ∧ (s.forgetGhosts sch).tally = s.tally ∧ (s.forgetGhosts sch).pl = s.pl ∧
    (s.forgetGhosts sch).mail = s.mail ∧ (s.forgetGhosts sch).ic = s.ic ∧ (s.forgetGhosts sch).icPl = s.icPl ∧
    (s.forgetGhosts sch).pw = s.pw ∧ (s.forgetGhosts sch).fresh = s.fresh ∧ (s.forgetGhosts sch).out = s.out ∧
    (s.forgetGhosts sch).pending = s.pending := by
  unfold State.forgetGhosts; try dsimp only
  (repeat' split) <;> simp

@[simp] theorem State.makeFinal_frame (s : State) (sch : Nat) :
    (s.makeFinal sch).time = s.time ∧ (s.makeFinal sch).sx = s.sx ∧ (s.makeFinal sch).mail = s.mail ∧
    (s.makeFinal sch).icPl = s.icPl ∧ (s.makeFinal sch).pw = s.pw ∧ (s.makeFinal sch).pending = s.pending := by
  unfold State.makeFinal; try dsimp only
  (repeat' split) <;> simp

@[simp] theorem State.endAtOnce_frame (s : State) (sch : Nat) :
    (s.endAtOnce sch).time = s.time ∧ (s.endAtOnce sch).sx = s.sx ∧ (s.endAtOnce sch).mail = s.mail ∧
    (s.endAtOnce sch).icPl = s.icPl ∧ (s.endAtOnce sch).pw = s.pw ∧ (s.endAtOnce sch).pending = s.pending := by
  unfold State.endAtOnce; try dsimp only
  (repeat' split) <;> simp

@[simp] theorem State.unqueue_frame (s : State) (sch no i : Nat) :
    (s.unqueue sch no i).time = s.time ∧ (s.unqueue sch no i).link = s.link ∧ (s.unqueue sch no i).q = s.q ∧
    (s.unqueue sch no i).sub = s.sub ∧ (s.unqueue sch no i).sx = s.sx ∧ (s.unqueue sch no i).pl = s.pl ∧
    (s.unqueue sch no i).mail = s.mail ∧ (s.unqueue sch no i).ic = s.ic ∧ (s.unqueue sch no i).icPl = s.icPl ∧
    (s.unqueue sch no i).pw = s.pw ∧ (s.unqueue sch no i).fresh = s.fresh ∧ (s.unqueue sch no i).pending = s.pending := by
  unfold State.unqueue; try dsimp only
  (repeat' split) <;> simp

@[simp] theorem State.cutPiece_frame (s : State) (sch no i : Nat) :
    (s.cutPiece sch no i).time = s.time ∧ (s.cutPiece sch no i).sx = s.sx ∧ (s.cutPiece sch no i).pw = s.pw ∧
    (s.cutPiece sch no i).pending = s.pending := by
  unfold State.cutPiece; try dsimp only
  (repeat' split) <;> simp

@[simp] theorem State.cutUnsent_frame (s : State) (sch : Nat) (spare : Nat → Nat → Piece → Bool) :
    (s.cutUnsent sch spare).time = s.time ∧ (s.cutUnsent sch spare).sx = s.sx ∧ (s.cutUnsent sch spare).pw = s.pw ∧
    (s.cutUnsent sch spare).pending = s.pending := by
  unfold State.cutUnsent; try dsimp only
  (repeat' split) <;> simp [foldl_keeps State.time, foldl_keeps State.sx, foldl_keeps State.pw, foldl_keeps State.pending,
      apply_ite State.time, apply_ite State.sx, apply_ite State.pw, apply_ite State.pending]

@[simp] theorem State.breakAt_frame (s : State) (sch no : Nat) (dstat : Byte) (residual : BitVec 32) :
    (s.breakAt sch no dstat residual).time = s.time ∧ (s.breakAt sch no dstat residual).sx = s.sx ∧
    (s.breakAt sch no dstat residual).pw = s.pw ∧ (s.breakAt sch no dstat residual).pending = s.pending := by
  unfold State.breakAt; try dsimp only
  (repeat' split) <;> simp

@[simp] theorem State.breakHere_frame (s : State) (sch no : Nat) :
    (s.breakHere sch no).time = s.time ∧ (s.breakHere sch no).sx = s.sx ∧ (s.breakHere sch no).pw = s.pw ∧
    (s.breakHere sch no).pending = s.pending := by
  simp [State.breakHere]

@[simp] theorem State.hostAccess_frame (s : State) (sch : Nat) :
    (s.hostAccess sch).time = s.time ∧ (s.hostAccess sch).sx = s.sx ∧ (s.hostAccess sch).dma = s.dma ∧
    (s.hostAccess sch).dev = s.dev ∧ (s.hostAccess sch).mail = s.mail ∧ (s.hostAccess sch).icPl = s.icPl ∧
    (s.hostAccess sch).pw = s.pw ∧ (s.hostAccess sch).fresh = s.fresh ∧ (s.hostAccess sch).pending = s.pending := by
  unfold State.hostAccess; try dsimp only
  (repeat' split) <;> simp

@[simp] theorem State.writeRefused_frame (s : State) (sch no : Nat) :
    (s.writeRefused sch no).time = s.time ∧ (s.writeRefused sch no).sx = s.sx ∧ (s.writeRefused sch no).pw = s.pw ∧
    (s.writeRefused sch no).pending = s.pending := by
  simp [State.writeRefused]

@[simp] theorem State.releaseStores_frame (s : State) (sch : Nat) (l : List Store) :
    (s.releaseStores sch l).time = s.time ∧ (s.releaseStores sch l).pw = s.pw ∧ (s.releaseStores sch l).pending = s.pending := by
  unfold State.releaseStores; try dsimp only
  (repeat' split) <;> simp [foldl_keeps State.time, foldl_keeps State.pw, foldl_keeps State.pending, apply_ite State.time,
      apply_ite State.pw, apply_ite State.pending]

@[simp] theorem State.keepAsked_frame (s : State) (o : SegOwner) (p : DmaPiece) :
    (s.keepAsked o p).time = s.time ∧ (s.keepAsked o p).link = s.link ∧ (s.keepAsked o p).q = s.q ∧
    (s.keepAsked o p).sub = s.sub ∧ (s.keepAsked o p).sx = s.sx ∧ (s.keepAsked o p).md = s.md ∧
    (s.keepAsked o p).dev = s.dev ∧ (s.keepAsked o p).tally = s.tally ∧ (s.keepAsked o p).pl = s.pl ∧
    (s.keepAsked o p).mail = s.mail ∧ (s.keepAsked o p).ic = s.ic ∧ (s.keepAsked o p).icPl = s.icPl ∧
    (s.keepAsked o p).pw = s.pw ∧ (s.keepAsked o p).fresh = s.fresh ∧ (s.keepAsked o p).out = s.out ∧
    (s.keepAsked o p).pending = s.pending := by
  unfold State.keepAsked; try dsimp only
  (repeat' split) <;> simp

@[simp] theorem State.stopDesc_frame (s : State) (x sch no pc d : Nat) (m : Desc) :
    (s.stopDesc x sch no pc d m).time = s.time ∧ (s.stopDesc x sch no pc d m).link = s.link ∧
    (s.stopDesc x sch no pc d m).q = s.q ∧ (s.stopDesc x sch no pc d m).sub = s.sub ∧
    (s.stopDesc x sch no pc d m).sx = s.sx ∧ (s.stopDesc x sch no pc d m).dev = s.dev ∧
    (s.stopDesc x sch no pc d m).pl = s.pl ∧ (s.stopDesc x sch no pc d m).mail = s.mail ∧
    (s.stopDesc x sch no pc d m).ic = s.ic ∧ (s.stopDesc x sch no pc d m).icPl = s.icPl ∧
    (s.stopDesc x sch no pc d m).pw = s.pw ∧ (s.stopDesc x sch no pc d m).fresh = s.fresh ∧
    (s.stopDesc x sch no pc d m).pending = s.pending := by
  unfold State.stopDesc; try dsimp only
  (repeat' split) <;> simp [foldl_keeps State.time, foldl_keeps State.link, foldl_keeps State.q, foldl_keeps State.sub,
      foldl_keeps State.sx, foldl_keeps State.dev, foldl_keeps State.pl, foldl_keeps State.mail, foldl_keeps State.ic,
      foldl_keeps State.icPl, foldl_keeps State.pw, foldl_keeps State.fresh, foldl_keeps State.pending, apply_ite State.time,
      apply_ite State.link, apply_ite State.q, apply_ite State.sub, apply_ite State.sx, apply_ite State.dev, apply_ite
      State.pl, apply_ite State.mail, apply_ite State.ic, apply_ite State.icPl, apply_ite State.pw, apply_ite State.fresh,
      apply_ite State.pending]

@[simp] theorem State.stopWrites_frame (s : State) (x sch no pc : Nat) :
    (s.stopWrites x sch no pc).time = s.time ∧ (s.stopWrites x sch no pc).link = s.link ∧
    (s.stopWrites x sch no pc).q = s.q ∧ (s.stopWrites x sch no pc).sub = s.sub ∧ (s.stopWrites x sch no pc).sx = s.sx ∧
    (s.stopWrites x sch no pc).dev = s.dev ∧ (s.stopWrites x sch no pc).pl = s.pl ∧
    (s.stopWrites x sch no pc).mail = s.mail ∧ (s.stopWrites x sch no pc).ic = s.ic ∧
    (s.stopWrites x sch no pc).icPl = s.icPl ∧ (s.stopWrites x sch no pc).pw = s.pw ∧
    (s.stopWrites x sch no pc).fresh = s.fresh ∧ (s.stopWrites x sch no pc).pending = s.pending := by
  unfold State.stopWrites; try dsimp only
  (repeat' split) <;> simp [foldl_keeps State.time, foldl_keeps State.link, foldl_keeps State.q, foldl_keeps State.sub,
      foldl_keeps State.sx, foldl_keeps State.dev, foldl_keeps State.pl, foldl_keeps State.mail, foldl_keeps State.ic,
      foldl_keeps State.icPl, foldl_keeps State.pw, foldl_keeps State.fresh, foldl_keeps State.pending, apply_ite State.time,
      apply_ite State.link, apply_ite State.q, apply_ite State.sub, apply_ite State.sx, apply_ite State.dev, apply_ite
      State.pl, apply_ite State.mail, apply_ite State.ic, apply_ite State.icPl, apply_ite State.pw, apply_ite State.fresh,
      apply_ite State.pending]

@[simp] theorem State.abortExch_frame (s : State) (x : Nat) :
    (s.abortExch x).time = s.time ∧ (s.abortExch x).link = s.link ∧ (s.abortExch x).q = s.q ∧ (s.abortExch x).sub = s.sub ∧
    (s.abortExch x).sx = s.sx ∧ (s.abortExch x).pl = s.pl ∧ (s.abortExch x).mail = s.mail ∧ (s.abortExch x).ic = s.ic ∧
    (s.abortExch x).icPl = s.icPl ∧ (s.abortExch x).pw = s.pw ∧ (s.abortExch x).fresh = s.fresh ∧
    (s.abortExch x).pending = s.pending := by
  unfold State.abortExch; try dsimp only
  (repeat' split) <;> simp

@[simp] theorem State.abortAll_frame (s : State) (sch : Nat) :
    (s.abortAll sch).time = s.time ∧ (s.abortAll sch).link = s.link ∧ (s.abortAll sch).q = s.q ∧
    (s.abortAll sch).sub = s.sub ∧ (s.abortAll sch).sx = s.sx ∧ (s.abortAll sch).pl = s.pl ∧ (s.abortAll sch).mail = s.mail ∧
    (s.abortAll sch).ic = s.ic ∧ (s.abortAll sch).icPl = s.icPl ∧ (s.abortAll sch).pw = s.pw ∧
    (s.abortAll sch).fresh = s.fresh ∧ (s.abortAll sch).pending = s.pending := by
  unfold State.abortAll; try dsimp only
  (repeat' split) <;> simp [foldl_keeps State.time, foldl_keeps State.link, foldl_keeps State.q, foldl_keeps State.sub,
      foldl_keeps State.sx, foldl_keeps State.pl, foldl_keeps State.mail, foldl_keeps State.ic, foldl_keeps State.icPl,
      foldl_keeps State.pw, foldl_keeps State.fresh, foldl_keeps State.pending, apply_ite State.time, apply_ite State.link,
      apply_ite State.q, apply_ite State.sub, apply_ite State.sx, apply_ite State.pl, apply_ite State.mail, apply_ite State.ic,
      apply_ite State.icPl, apply_ite State.pw, apply_ite State.fresh, apply_ite State.pending]

@[simp] theorem State.poisoned_frame (s : State) (sch : Nat) :
    (s.poisoned sch).time = s.time ∧ (s.poisoned sch).link = s.link ∧ (s.poisoned sch).q = s.q ∧ (s.poisoned sch).sx = s.sx ∧
    (s.poisoned sch).dma = s.dma ∧ (s.poisoned sch).md = s.md ∧ (s.poisoned sch).dev = s.dev ∧
    (s.poisoned sch).tally = s.tally ∧ (s.poisoned sch).pl = s.pl ∧ (s.poisoned sch).mail = s.mail ∧
    (s.poisoned sch).ic = s.ic ∧ (s.poisoned sch).icPl = s.icPl ∧ (s.poisoned sch).pw = s.pw ∧
    (s.poisoned sch).fresh = s.fresh ∧ (s.poisoned sch).out = s.out ∧ (s.poisoned sch).pending = s.pending := by
  simp [State.poisoned]

@[simp] theorem State.readFailed_frame (s : State) (sch : Nat) (st : CplStatus) :
    (s.readFailed sch st).time = s.time ∧ (s.readFailed sch st).sx = s.sx ∧ (s.readFailed sch st).dma = s.dma ∧
    (s.readFailed sch st).dev = s.dev ∧ (s.readFailed sch st).mail = s.mail ∧ (s.readFailed sch st).icPl = s.icPl ∧
    (s.readFailed sch st).pw = s.pw ∧ (s.readFailed sch st).fresh = s.fresh ∧ (s.readFailed sch st).pending = s.pending := by
  unfold State.readFailed; try dsimp only
  (repeat' split) <;> simp

@[simp] theorem State.cmdEnd_frame (s : State) (sch no : Nat) :
    (s.cmdEnd sch no).time = s.time ∧ (s.cmdEnd sch no).sx = s.sx ∧ (s.cmdEnd sch no).pw = s.pw ∧
    (s.cmdEnd sch no).pending = s.pending := by
  unfold State.cmdEnd; try dsimp only
  (repeat' split) <;> simp

@[simp] theorem State.takeDs_frame (s : State) (sch : Nat) :
    (s.takeDs sch).time = s.time ∧ (s.takeDs sch).link = s.link ∧ (s.takeDs sch).q = s.q ∧ (s.takeDs sch).sx = s.sx ∧
    (s.takeDs sch).dma = s.dma ∧ (s.takeDs sch).md = s.md ∧ (s.takeDs sch).dev = s.dev ∧ (s.takeDs sch).tally = s.tally ∧
    (s.takeDs sch).pl = s.pl ∧ (s.takeDs sch).mail = s.mail ∧ (s.takeDs sch).ic = s.ic ∧ (s.takeDs sch).icPl = s.icPl ∧
    (s.takeDs sch).pw = s.pw ∧ (s.takeDs sch).fresh = s.fresh ∧ (s.takeDs sch).out = s.out ∧
    (s.takeDs sch).pending = s.pending := by
  unfold State.takeDs; try dsimp only
  (repeat' split) <;> simp

@[simp] theorem State.progress_frame (s : State) (sch : Nat) :
    (s.progress sch).time = s.time ∧ (s.progress sch).link = s.link ∧ (s.progress sch).q = s.q ∧ (s.progress sch).sx = s.sx ∧
    (s.progress sch).dma = s.dma ∧ (s.progress sch).dev = s.dev ∧ (s.progress sch).pl = s.pl ∧
    (s.progress sch).mail = s.mail ∧ (s.progress sch).ic = s.ic ∧ (s.progress sch).icPl = s.icPl ∧
    (s.progress sch).pw = s.pw ∧ (s.progress sch).fresh = s.fresh ∧ (s.progress sch).out = s.out ∧
    (s.progress sch).pending = s.pending := by
  unfold State.progress; try dsimp only
  (repeat' split) <;> simp

@[simp] theorem State.zeroTail_frame (s : State) (sch : Nat) (ext : List Extent) (g : Nat × Nat) :
    (s.zeroTail sch ext g).time = s.time ∧ (s.zeroTail sch ext g).dma = s.dma ∧ (s.zeroTail sch ext g).dev = s.dev ∧
    (s.zeroTail sch ext g).mail = s.mail ∧ (s.zeroTail sch ext g).icPl = s.icPl ∧ (s.zeroTail sch ext g).pw = s.pw ∧
    (s.zeroTail sch ext g).pending = s.pending := by
  unfold State.zeroTail; try dsimp only
  (repeat' split) <;> simp

@[simp] theorem State.zeroTails_frame (s : State) (sch no : Nat) (p : Piece) (got : List (Nat × Nat)) :
    (s.zeroTails sch no p got).time = s.time ∧ (s.zeroTails sch no p got).dma = s.dma ∧
    (s.zeroTails sch no p got).dev = s.dev ∧ (s.zeroTails sch no p got).mail = s.mail ∧
    (s.zeroTails sch no p got).icPl = s.icPl ∧ (s.zeroTails sch no p got).pw = s.pw ∧
    (s.zeroTails sch no p got).pending = s.pending := by
  unfold State.zeroTails; try dsimp only
  (repeat' split) <;> simp [foldl_keeps State.time, foldl_keeps State.dma, foldl_keeps State.dev, foldl_keeps State.mail,
      foldl_keeps State.icPl, foldl_keeps State.pw, foldl_keeps State.pending, apply_ite State.time, apply_ite State.dma,
      apply_ite State.dev, apply_ite State.mail, apply_ite State.icPl, apply_ite State.pw, apply_ite State.pending]

@[simp] theorem State.settleIn_frame (s : State) (sch no i : Nat) (p : Piece) :
    (s.settleIn sch no i p).time = s.time ∧ (s.settleIn sch no i p).dev = s.dev ∧ (s.settleIn sch no i p).mail = s.mail ∧
    (s.settleIn sch no i p).icPl = s.icPl ∧ (s.settleIn sch no i p).pw = s.pw ∧ (s.settleIn sch no i p).pending = s.pending := by
  unfold State.settleIn; try dsimp only
  (repeat' split) <;> simp [foldl_keeps State.time, foldl_keeps State.dev, foldl_keeps State.mail, foldl_keeps State.icPl,
      foldl_keeps State.pw, foldl_keeps State.pending, apply_ite State.time, apply_ite State.dev, apply_ite State.mail,
      apply_ite State.icPl, apply_ite State.pw, apply_ite State.pending]

@[simp] theorem State.endPiece_frame (s : State) (sch no i : Nat) (dstat : Byte) (moved : Nat) :
    (s.endPiece sch no i dstat moved).time = s.time ∧ (s.endPiece sch no i dstat moved).pw = s.pw ∧
    (s.endPiece sch no i dstat moved).pending = s.pending := by
  unfold State.endPiece; try dsimp only
  (repeat' split) <;> simp

@[simp] theorem State.dropStale_frame (s : State) (x : Nat) :
    (s.dropStale x).time = s.time ∧ (s.dropStale x).sx = s.sx ∧ (s.dropStale x).mail = s.mail ∧
    (s.dropStale x).icPl = s.icPl ∧ (s.dropStale x).pw = s.pw ∧ (s.dropStale x).fresh = s.fresh ∧
    (s.dropStale x).pending = s.pending := by
  unfold State.dropStale; try dsimp only
  (repeat' split) <;> simp

@[simp] theorem State.answered_frame (s : State) (x : Nat) (dstat : Byte) (moved : Nat) :
    (s.answered x dstat moved).time = s.time ∧ (s.answered x dstat moved).pw = s.pw ∧
    (s.answered x dstat moved).pending = s.pending := by
  unfold State.answered; try dsimp only
  (repeat' split) <;> simp

@[simp] theorem State.endCut_frame (s : State) (sch no i : Nat) :
    (s.endCut sch no i).time = s.time ∧ (s.endCut sch no i).sx = s.sx ∧ (s.endCut sch no i).pw = s.pw ∧
    (s.endCut sch no i).pending = s.pending := by
  simp [State.endCut]

@[simp] theorem State.exchCut_frame (s : State) (x : Nat) (keepSlot : Bool) :
    (s.exchCut x keepSlot).time = s.time ∧ (s.exchCut x keepSlot).sx = s.sx ∧ (s.exchCut x keepSlot).pw = s.pw ∧
    (s.exchCut x keepSlot).pending = s.pending := by
  unfold State.exchCut; try dsimp only
  (repeat' split) <;> simp

end Sys2Proof.Machine
end

