-- ==== Sys2Proof/Laws/FramesQueues.lean ====
section
/-! SUPPORT. Sys2Proof/Laws/FramesQueues.lean: which blocks of the state each operation leaves as they are: the queues and the
      admin pair.
Of a block that it does change, a lemma says that the map or the list lengths named in the invariant stay. -/

namespace Sys2Proof.Machine

set_option linter.all false

/-! ## Queues -/

@[simp] theorem State.sqError_frame (s : State) (q cause pos : Nat) :
    (s.sqError q cause pos).time = s.time ∧ (s.sqError q cause pos).sx = s.sx ∧ (s.sqError q cause pos).dma = s.dma ∧
    (s.sqError q cause pos).dev = s.dev ∧ (s.sqError q cause pos).pw = s.pw ∧ (s.sqError q cause pos).fresh = s.fresh ∧
    (s.sqError q cause pos).pending = s.pending := by
  unfold State.sqError; try dsimp only
  (repeat' split) <;> simp

@[simp] theorem State.cqError_frame (s : State) (q : Nat) :
    (s.cqError q).time = s.time ∧ (s.cqError q).sx = s.sx ∧ (s.cqError q).dma = s.dma ∧ (s.cqError q).dev = s.dev ∧
    (s.cqError q).mail = s.mail ∧ (s.cqError q).icPl = s.icPl ∧ (s.cqError q).pw = s.pw ∧ (s.cqError q).pending = s.pending := by
  unfold State.cqError; try dsimp only
  (repeat' split) <;> simp

@[simp] theorem State.takeEntry_frame (s : State) (q : Nat) (r : SQ) (e : BitVec 512) :
    (s.takeEntry q r e).1.time = s.time ∧ (s.takeEntry q r e).1.sx = s.sx ∧ (s.takeEntry q r e).1.dma = s.dma ∧
    (s.takeEntry q r e).1.dev = s.dev ∧ (s.takeEntry q r e).1.pw = s.pw ∧ (s.takeEntry q r e).1.fresh = s.fresh ∧
    (s.takeEntry q r e).1.pending = s.pending := by
  unfold State.takeEntry; try dsimp only
  (repeat' split) <;> simp

@[simp] theorem State.takeLoop_frame (n : Nat) (s : State) (q : Nat) (slots : List (BitVec 512)) :
    (s.takeLoop n q slots).time = s.time ∧ (s.takeLoop n q slots).sx = s.sx ∧ (s.takeLoop n q slots).dma = s.dma ∧
    (s.takeLoop n q slots).dev = s.dev ∧ (s.takeLoop n q slots).fresh = s.fresh ∧
    (s.takeLoop n q slots).pending = s.pending := by
  induction n generalizing s q slots with
  | zero => simp [State.takeLoop]
  | succ n ih =>
    unfold State.takeLoop; try dsimp only
    (repeat' split) <;> simp [ih]

@[simp] theorem State.wantRing_frame (s : State) (q : Nat) :
    (s.wantRing q).time = s.time ∧ (s.wantRing q).link = s.link ∧ (s.wantRing q).q = s.q ∧ (s.wantRing q).sub = s.sub ∧
    (s.wantRing q).sx = s.sx ∧ (s.wantRing q).dma = s.dma ∧ (s.wantRing q).dev = s.dev ∧ (s.wantRing q).pl = s.pl ∧
    (s.wantRing q).pw = s.pw ∧ (s.wantRing q).fresh = s.fresh ∧ (s.wantRing q).out = s.out ∧
    (s.wantRing q).pending = s.pending := by
  unfold State.wantRing; try dsimp only
  (repeat' split) <;> simp

@[simp] theorem State.pump_frame (s : State) (q : Nat) :
    (s.pump q).time = s.time ∧ (s.pump q).sx = s.sx ∧ (s.pump q).dma = s.dma ∧ (s.pump q).dev = s.dev ∧
    (s.pump q).fresh = s.fresh ∧ (s.pump q).pending = s.pending := by
  simp [State.pump]

@[simp] theorem State.pumpPaired_frame (s : State) (cq : Nat) :
    (s.pumpPaired cq).time = s.time ∧ (s.pumpPaired cq).sx = s.sx ∧ (s.pumpPaired cq).dma = s.dma ∧
    (s.pumpPaired cq).dev = s.dev ∧ (s.pumpPaired cq).fresh = s.fresh ∧ (s.pumpPaired cq).pending = s.pending := by
  unfold State.pumpPaired; try dsimp only
  (repeat' split) <;> simp [foldl_keeps State.time, foldl_keeps State.sx, foldl_keeps State.dma, foldl_keeps State.dev,
      foldl_keeps State.fresh, foldl_keeps State.pending, apply_ite State.time, apply_ite State.sx, apply_ite State.dma,
      apply_ite State.dev, apply_ite State.fresh, apply_ite State.pending]

@[simp] theorem State.pumpAll_frame (s : State) :
    (s.pumpAll).time = s.time ∧ (s.pumpAll).sx = s.sx ∧ (s.pumpAll).dma = s.dma ∧ (s.pumpAll).dev = s.dev ∧
    (s.pumpAll).fresh = s.fresh ∧ (s.pumpAll).pending = s.pending := by
  unfold State.pumpAll; try dsimp only
  (repeat' split) <;> simp [foldl_keeps State.time, foldl_keeps State.sx, foldl_keeps State.dma, foldl_keeps State.dev,
      foldl_keeps State.fresh, foldl_keeps State.pending, apply_ite State.time, apply_ite State.sx, apply_ite State.dma,
      apply_ite State.dev, apply_ite State.fresh, apply_ite State.pending]

@[simp] theorem State.sqFails_frame (s : State) (q cause pos : Nat) :
    (s.sqFails q cause pos).time = s.time ∧ (s.sqFails q cause pos).sx = s.sx ∧ (s.sqFails q cause pos).dma = s.dma ∧
    (s.sqFails q cause pos).dev = s.dev ∧ (s.sqFails q cause pos).fresh = s.fresh ∧
    (s.sqFails q cause pos).pending = s.pending := by
  simp [State.sqFails]

@[simp] theorem State.pushDiscard_frame (s : State) :
    (s.pushDiscard).time = s.time ∧ (s.pushDiscard).link = s.link ∧ (s.pushDiscard).sub = s.sub ∧ (s.pushDiscard).sx = s.sx ∧
    (s.pushDiscard).dma = s.dma ∧ (s.pushDiscard).md = s.md ∧ (s.pushDiscard).dev = s.dev ∧ (s.pushDiscard).tally = s.tally ∧
    (s.pushDiscard).pl = s.pl ∧ (s.pushDiscard).mail = s.mail ∧ (s.pushDiscard).ic = s.ic ∧ (s.pushDiscard).icPl = s.icPl ∧
    (s.pushDiscard).pw = s.pw ∧ (s.pushDiscard).fresh = s.fresh ∧ (s.pushDiscard).out = s.out ∧
    (s.pushDiscard).pending = s.pending := by
  simp [State.pushDiscard]

@[simp] theorem State.dbDiscard_frame (s : State) :
    (s.dbDiscard).time = s.time ∧ (s.dbDiscard).link = s.link ∧ (s.dbDiscard).sub = s.sub ∧ (s.dbDiscard).sx = s.sx ∧
    (s.dbDiscard).dma = s.dma ∧ (s.dbDiscard).md = s.md ∧ (s.dbDiscard).dev = s.dev ∧ (s.dbDiscard).tally = s.tally ∧
    (s.dbDiscard).pl = s.pl ∧ (s.dbDiscard).mail = s.mail ∧ (s.dbDiscard).ic = s.ic ∧ (s.dbDiscard).icPl = s.icPl ∧
    (s.dbDiscard).pw = s.pw ∧ (s.dbDiscard).fresh = s.fresh ∧ (s.dbDiscard).out = s.out ∧ (s.dbDiscard).pending = s.pending := by
  simp [State.dbDiscard]

@[simp] theorem State.receiveBar2_frame (s : State) (w : Bar2Tlp) :
    (s.receiveBar2 w).time = s.time ∧ (s.receiveBar2 w).q = s.q ∧ (s.receiveBar2 w).sub = s.sub ∧
    (s.receiveBar2 w).sx = s.sx ∧ (s.receiveBar2 w).dma = s.dma ∧ (s.receiveBar2 w).md = s.md ∧
    (s.receiveBar2 w).dev = s.dev ∧ (s.receiveBar2 w).tally = s.tally ∧ (s.receiveBar2 w).pl = s.pl ∧
    (s.receiveBar2 w).mail = s.mail ∧ (s.receiveBar2 w).ic = s.ic ∧ (s.receiveBar2 w).icPl = s.icPl ∧
    (s.receiveBar2 w).pw = s.pw ∧ (s.receiveBar2 w).fresh = s.fresh ∧ (s.receiveBar2 w).out = s.out := by
  unfold State.receiveBar2; try dsimp only
  (repeat' split) <;> simp

@[simp] theorem State.ringFabric_frame (s : State) (st : CplStatus) (e : Ecc) :
    (s.ringFabric st e).time = s.time ∧ (s.ringFabric st e).sx = s.sx ∧ (s.ringFabric st e).dma = s.dma ∧
    (s.ringFabric st e).dev = s.dev ∧ (s.ringFabric st e).mail = s.mail ∧ (s.ringFabric st e).icPl = s.icPl ∧
    (s.ringFabric st e).pw = s.pw ∧ (s.ringFabric st e).fresh = s.fresh ∧ (s.ringFabric st e).pending = s.pending := by
  unfold State.ringFabric; try dsimp only
  (repeat' split) <;> simp

@[simp] theorem State.shift_frame (s : State) (q : Nat) (r : SQ) :
    (s.shift q r).time = s.time ∧ (s.shift q r).link = s.link ∧ (s.shift q r).sub = s.sub ∧ (s.shift q r).sx = s.sx ∧
    (s.shift q r).dma = s.dma ∧ (s.shift q r).md = s.md ∧ (s.shift q r).dev = s.dev ∧ (s.shift q r).tally = s.tally ∧
    (s.shift q r).pl = s.pl ∧ (s.shift q r).mail = s.mail ∧ (s.shift q r).ic = s.ic ∧ (s.shift q r).icPl = s.icPl ∧
    (s.shift q r).pw = s.pw ∧ (s.shift q r).fresh = s.fresh ∧ (s.shift q r).out = s.out ∧ (s.shift q r).pending = s.pending := by
  simp [State.shift]

@[simp] theorem State.rejectEntry_frame (s : State) (q : Nat) (r : SQ) (e : BitVec 512) (reason : Nat) :
    (s.rejectEntry q r e reason).time = s.time ∧ (s.rejectEntry q r e reason).sx = s.sx ∧
    (s.rejectEntry q r e reason).dma = s.dma ∧ (s.rejectEntry q r e reason).dev = s.dev ∧
    (s.rejectEntry q r e reason).mail = s.mail ∧ (s.rejectEntry q r e reason).icPl = s.icPl ∧
    (s.rejectEntry q r e reason).pw = s.pw ∧ (s.rejectEntry q r e reason).pending = s.pending := by
  simp [State.rejectEntry]

@[simp] theorem State.startAccepted_frame (s : State) (q : Nat) (r : SQ) (e : BitVec 512) :
    (s.startAccepted q r e).time = s.time ∧ (s.startAccepted q r e).link = s.link ∧ (s.startAccepted q r e).sx = s.sx ∧
    (s.startAccepted q r e).dma = s.dma ∧ (s.startAccepted q r e).dev = s.dev ∧ (s.startAccepted q r e).pl = s.pl ∧
    (s.startAccepted q r e).mail = s.mail ∧ (s.startAccepted q r e).icPl = s.icPl ∧ (s.startAccepted q r e).pw = s.pw ∧
    (s.startAccepted q r e).fresh = s.fresh ∧ (s.startAccepted q r e).out = s.out ∧
    (s.startAccepted q r e).pending = s.pending := by
  unfold State.startAccepted; try dsimp only
  (repeat' split) <;> simp

@[simp] theorem State.bufferUe_frame (s : State) (n seg : Nat) :
    (s.bufferUe n seg).time = s.time ∧ (s.bufferUe n seg).sx = s.sx ∧ (s.bufferUe n seg).dev = s.dev ∧
    (s.bufferUe n seg).mail = s.mail ∧ (s.bufferUe n seg).icPl = s.icPl ∧ (s.bufferUe n seg).pw = s.pw ∧
    (s.bufferUe n seg).fresh = s.fresh ∧ (s.bufferUe n seg).pending = s.pending := by
  unfold State.bufferUe; try dsimp only
  (repeat' split) <;> simp

@[simp] theorem State.writeOff_frame (s : State) (sch : Nat) :
    (s.writeOff sch).time = s.time ∧ (s.writeOff sch).pw = s.pw ∧ (s.writeOff sch).pending = s.pending := by
  unfold State.writeOff; try dsimp only
  (repeat' split) <;> simp

@[simp] theorem State.startUe_frame (s : State) (sch : Nat) :
    (s.startUe sch).time = s.time ∧ (s.startUe sch).pw = s.pw ∧ (s.startUe sch).pending = s.pending := by
  unfold State.startUe; try dsimp only
  (repeat' split) <;> simp

@[simp] theorem State.dropStores_frame (s : State) (sch : Nat) :
    (s.dropStores sch).time = s.time ∧ (s.dropStores sch).link = s.link ∧ (s.dropStores sch).q = s.q ∧
    (s.dropStores sch).sx = s.sx ∧ (s.dropStores sch).dma = s.dma ∧ (s.dropStores sch).dev = s.dev ∧
    (s.dropStores sch).tally = s.tally ∧ (s.dropStores sch).pl = s.pl ∧ (s.dropStores sch).mail = s.mail ∧
    (s.dropStores sch).ic = s.ic ∧ (s.dropStores sch).icPl = s.icPl ∧ (s.dropStores sch).pw = s.pw ∧
    (s.dropStores sch).fresh = s.fresh ∧ (s.dropStores sch).out = s.out ∧ (s.dropStores sch).pending = s.pending := by
  simp [State.dropStores]

@[simp] theorem State.rejoin_frame (s : State) (x : Nat) (e : Exch) :
    (s.rejoin x e).time = s.time ∧ (s.rejoin x e).link = s.link ∧ (s.rejoin x e).q = s.q ∧ (s.rejoin x e).sx = s.sx ∧
    (s.rejoin x e).dma = s.dma ∧ (s.rejoin x e).md = s.md ∧ (s.rejoin x e).dev = s.dev ∧ (s.rejoin x e).tally = s.tally ∧
    (s.rejoin x e).pl = s.pl ∧ (s.rejoin x e).mail = s.mail ∧ (s.rejoin x e).ic = s.ic ∧ (s.rejoin x e).icPl = s.icPl ∧
    (s.rejoin x e).pw = s.pw ∧ (s.rejoin x e).fresh = s.fresh ∧ (s.rejoin x e).out = s.out ∧
    (s.rejoin x e).pending = s.pending := by
  unfold State.rejoin; try dsimp only
  (repeat' split) <;> simp

@[simp] theorem State.cut_frame (s : State) (sch : Nat) :
    (s.cut sch).time = s.time ∧ (s.cut sch).sx = s.sx ∧ (s.cut sch).pw = s.pw ∧ (s.cut sch).pending = s.pending := by
  unfold State.cut; try dsimp only
  (repeat' split) <;> simp [foldl_keeps State.time, foldl_keeps State.sx, foldl_keeps State.pw, foldl_keeps State.pending,
      apply_ite State.time, apply_ite State.sx, apply_ite State.pw, apply_ite State.pending]

@[simp] theorem State.qevtTake_frame (s : State) :
    (s.qevtTake).time = s.time ∧ (s.qevtTake).link = s.link ∧ (s.qevtTake).sub = s.sub ∧ (s.qevtTake).sx = s.sx ∧
    (s.qevtTake).dma = s.dma ∧ (s.qevtTake).md = s.md ∧ (s.qevtTake).dev = s.dev ∧ (s.qevtTake).tally = s.tally ∧
    (s.qevtTake).pl = s.pl ∧ (s.qevtTake).mail = s.mail ∧ (s.qevtTake).ic = s.ic ∧ (s.qevtTake).icPl = s.icPl ∧
    (s.qevtTake).fresh = s.fresh ∧ (s.qevtTake).pending = s.pending := by
  unfold State.qevtTake; try dsimp only
  (repeat' split) <;> simp

@[simp] theorem State.legTake_frame (s : State) :
    (s.legTake).time = s.time ∧ (s.legTake).sx = s.sx ∧ (s.legTake).dma = s.dma ∧ (s.legTake).dev = s.dev ∧
    (s.legTake).pending = s.pending := by
  unfold State.legTake; try dsimp only
  (repeat' split) <;> simp [foldl_keeps State.time, foldl_keeps State.sx, foldl_keeps State.dma, foldl_keeps State.dev,
      foldl_keeps State.pending, apply_ite State.time, apply_ite State.sx, apply_ite State.dma, apply_ite State.dev, apply_ite
      State.pending]

/-! ## Admin -/

@[simp] theorem State.admStart_frame (s : State) (val : Word) :
    (s.admStart val).time = s.time ∧ (s.admStart val).sx = s.sx ∧ (s.admStart val).dma = s.dma ∧
    (s.admStart val).dev = s.dev ∧ (s.admStart val).pending = s.pending := by
  unfold State.admStart; try dsimp only
  (repeat' split) <;> simp

@[simp] theorem State.admStop_frame (s : State) :
    (s.admStop).time = s.time ∧ (s.admStop).link = s.link ∧ (s.admStop).sub = s.sub ∧ (s.admStop).sx = s.sx ∧
    (s.admStop).dma = s.dma ∧ (s.admStop).dev = s.dev ∧ (s.admStop).tally = s.tally ∧ (s.admStop).pl = s.pl ∧
    (s.admStop).pw = s.pw ∧ (s.admStop).fresh = s.fresh ∧ (s.admStop).out = s.out ∧ (s.admStop).pending = s.pending := by
  simp [State.admStop]

@[simp] theorem State.chanClose_frame (s : State) (rd : Bool) :
    (s.chanClose rd).time = s.time ∧ (s.chanClose rd).link = s.link ∧ (s.chanClose rd).q = s.q ∧
    (s.chanClose rd).sub = s.sub ∧ (s.chanClose rd).sx = s.sx ∧ (s.chanClose rd).md = s.md ∧ (s.chanClose rd).dev = s.dev ∧
    (s.chanClose rd).pl = s.pl ∧ (s.chanClose rd).mail = s.mail ∧ (s.chanClose rd).ic = s.ic ∧
    (s.chanClose rd).icPl = s.icPl ∧ (s.chanClose rd).pw = s.pw ∧ (s.chanClose rd).fresh = s.fresh ∧
    (s.chanClose rd).out = s.out ∧ (s.chanClose rd).pending = s.pending := by
  unfold State.chanClose; try dsimp only
  (repeat' split) <;> simp

@[simp] theorem State.chanIdle_frame (s : State) :
    (s.chanIdle).time = s.time ∧ (s.chanIdle).link = s.link ∧ (s.chanIdle).q = s.q ∧ (s.chanIdle).sub = s.sub ∧
    (s.chanIdle).sx = s.sx ∧ (s.chanIdle).dev = s.dev ∧ (s.chanIdle).pl = s.pl ∧ (s.chanIdle).mail = s.mail ∧
    (s.chanIdle).ic = s.ic ∧ (s.chanIdle).icPl = s.icPl ∧ (s.chanIdle).pw = s.pw ∧ (s.chanIdle).fresh = s.fresh ∧
    (s.chanIdle).out = s.out ∧ (s.chanIdle).pending = s.pending := by
  unfold State.chanIdle; try dsimp only
  (repeat' split) <;> simp

@[simp] theorem State.admPost_frame (s : State) (cid : BitVec 16) (status : Nat) (result : Word) :
    (s.admPost cid status result).time = s.time ∧ (s.admPost cid status result).sx = s.sx ∧
    (s.admPost cid status result).dev = s.dev ∧ (s.admPost cid status result).pending = s.pending := by
  unfold State.admPost; try dsimp only
  (repeat' split) <;> simp

@[simp] theorem State.chanOpen_frame (s : State) (rd : Bool) (e : Extent) :
    (s.chanOpen rd e).time = s.time ∧ (s.chanOpen rd e).link = s.link ∧ (s.chanOpen rd e).q = s.q ∧
    (s.chanOpen rd e).sub = s.sub ∧ (s.chanOpen rd e).sx = s.sx ∧ (s.chanOpen rd e).md = s.md ∧
    (s.chanOpen rd e).dev = s.dev ∧ (s.chanOpen rd e).pl = s.pl ∧ (s.chanOpen rd e).mail = s.mail ∧
    (s.chanOpen rd e).ic = s.ic ∧ (s.chanOpen rd e).icPl = s.icPl ∧ (s.chanOpen rd e).pw = s.pw ∧
    (s.chanOpen rd e).fresh = s.fresh ∧ (s.chanOpen rd e).out = s.out ∧ (s.chanOpen rd e).pending = s.pending := by
  unfold State.chanOpen; try dsimp only
  (repeat' split) <;> simp

@[simp] theorem State.modSup_frame (s : State) (rd : Bool) (f : SupDesc → SupDesc) :
    (s.modSup rd f).time = s.time ∧ (s.modSup rd f).link = s.link ∧ (s.modSup rd f).q = s.q ∧ (s.modSup rd f).sub = s.sub ∧
    (s.modSup rd f).sx = s.sx ∧ (s.modSup rd f).md = s.md ∧ (s.modSup rd f).dev = s.dev ∧ (s.modSup rd f).tally = s.tally ∧
    (s.modSup rd f).pl = s.pl ∧ (s.modSup rd f).mail = s.mail ∧ (s.modSup rd f).ic = s.ic ∧ (s.modSup rd f).icPl = s.icPl ∧
    (s.modSup rd f).pw = s.pw ∧ (s.modSup rd f).fresh = s.fresh ∧ (s.modSup rd f).out = s.out ∧
    (s.modSup rd f).pending = s.pending := by
  unfold State.modSup; try dsimp only
  (repeat' split) <;> simp

@[simp] theorem State.supSegment_frame (s : State) (rd : Bool) (i : Nat) :
    (s.supSegment rd i).time = s.time ∧ (s.supSegment rd i).sx = s.sx ∧ (s.supSegment rd i).dev = s.dev ∧
    (s.supSegment rd i).mail = s.mail ∧ (s.supSegment rd i).icPl = s.icPl ∧ (s.supSegment rd i).pw = s.pw ∧
    (s.supSegment rd i).fresh = s.fresh ∧ (s.supSegment rd i).pending = s.pending := by
  unfold State.supSegment; try dsimp only
  (repeat' split) <;> simp

@[simp] theorem State.supPieces_frame (n : Nat) (s : State) (rd : Bool) (i : Nat) :
    (s.supPieces n rd i).time = s.time ∧ (s.supPieces n rd i).sx = s.sx ∧ (s.supPieces n rd i).dev = s.dev ∧
    (s.supPieces n rd i).mail = s.mail ∧ (s.supPieces n rd i).icPl = s.icPl ∧ (s.supPieces n rd i).pw = s.pw ∧
    (s.supPieces n rd i).fresh = s.fresh ∧ (s.supPieces n rd i).pending = s.pending := by
  induction n generalizing s rd i with
  | zero => simp [State.supPieces]
  | succ n ih =>
    unfold State.supPieces; try dsimp only
    (repeat' split) <;> simp [ih]

@[simp] theorem State.chanMove_frame (s : State) (rd : Bool) (e : Extent) (moved : Nat) :
    (s.chanMove rd e moved).time = s.time ∧ (s.chanMove rd e moved).sx = s.sx ∧ (s.chanMove rd e moved).dev = s.dev ∧
    (s.chanMove rd e moved).mail = s.mail ∧ (s.chanMove rd e moved).icPl = s.icPl ∧ (s.chanMove rd e moved).pw = s.pw ∧
    (s.chanMove rd e moved).fresh = s.fresh ∧ (s.chanMove rd e moved).pending = s.pending := by
  unfold State.chanMove; try dsimp only
  (repeat' split) <;> simp

@[simp] theorem State.ownAsk_frame (s : State) (rd : Bool) (rix : Nat) :
    (s.ownAsk rd rix).time = s.time ∧ (s.ownAsk rd rix).link = s.link ∧ (s.ownAsk rd rix).q = s.q ∧
    (s.ownAsk rd rix).sub = s.sub ∧ (s.ownAsk rd rix).sx = s.sx ∧ (s.ownAsk rd rix).dma = s.dma ∧
    (s.ownAsk rd rix).dev = s.dev ∧ (s.ownAsk rd rix).pl = s.pl ∧ (s.ownAsk rd rix).mail = s.mail ∧
    (s.ownAsk rd rix).ic = s.ic ∧ (s.ownAsk rd rix).icPl = s.icPl ∧ (s.ownAsk rd rix).pw = s.pw ∧
    (s.ownAsk rd rix).fresh = s.fresh ∧ (s.ownAsk rd rix).out = s.out ∧ (s.ownAsk rd rix).pending = s.pending := by
  unfold State.ownAsk; try dsimp only
  (repeat' split) <;> simp

@[simp] theorem State.ownTag_frame (s : State) :
    (s.ownTag).time = s.time ∧ (s.ownTag).link = s.link ∧ (s.ownTag).q = s.q ∧ (s.ownTag).sub = s.sub ∧
    (s.ownTag).sx = s.sx ∧ (s.ownTag).dma = s.dma ∧ (s.ownTag).md = s.md ∧ (s.ownTag).dev = s.dev ∧ (s.ownTag).pl = s.pl ∧
    (s.ownTag).mail = s.mail ∧ (s.ownTag).ic = s.ic ∧ (s.ownTag).icPl = s.icPl ∧ (s.ownTag).pw = s.pw ∧
    (s.ownTag).fresh = s.fresh ∧ (s.ownTag).out = s.out ∧ (s.ownTag).pending = s.pending := by
  unfold State.ownTag; try dsimp only
  (repeat' split) <;> simp

@[simp] theorem State.ownReads_frame (n : Nat) (s : State) (addr : Word) (pasid : Option (BitVec 20)) (len : Nat) :
    (s.ownReads n addr pasid len).time = s.time ∧ (s.ownReads n addr pasid len).q = s.q ∧
    (s.ownReads n addr pasid len).sub = s.sub ∧ (s.ownReads n addr pasid len).sx = s.sx ∧
    (s.ownReads n addr pasid len).dma = s.dma ∧ (s.ownReads n addr pasid len).md = s.md ∧
    (s.ownReads n addr pasid len).dev = s.dev ∧ (s.ownReads n addr pasid len).pl = s.pl ∧
    (s.ownReads n addr pasid len).mail = s.mail ∧ (s.ownReads n addr pasid len).ic = s.ic ∧
    (s.ownReads n addr pasid len).icPl = s.icPl ∧ (s.ownReads n addr pasid len).pw = s.pw ∧
    (s.ownReads n addr pasid len).fresh = s.fresh ∧ (s.ownReads n addr pasid len).pending = s.pending := by
  induction n generalizing s addr pasid len with
  | zero => simp [State.ownReads]
  | succ n ih =>
    unfold State.ownReads; try dsimp only
    (repeat' split) <;> simp [ih]

@[simp] theorem State.ownRead_frame (s : State) (rix : Nat) (addr : Word) (pasid : Option (BitVec 20)) (len : Nat) (d :
      HostData) :
    (s.ownRead rix addr pasid len d).1.time = s.time ∧ (s.ownRead rix addr pasid len d).1.sx = s.sx ∧
    (s.ownRead rix addr pasid len d).1.dma = s.dma ∧ (s.ownRead rix addr pasid len d).1.dev = s.dev ∧
    (s.ownRead rix addr pasid len d).1.mail = s.mail ∧ (s.ownRead rix addr pasid len d).1.icPl = s.icPl ∧
    (s.ownRead rix addr pasid len d).1.pw = s.pw ∧ (s.ownRead rix addr pasid len d).1.fresh = s.fresh ∧
    (s.ownRead rix addr pasid len d).1.pending = s.pending := by
  unfold State.ownRead; try dsimp only
  (repeat' split) <;> simp [foldl_keeps State.time, foldl_keeps State.sx, foldl_keeps State.dma, foldl_keeps State.dev,
      foldl_keeps State.mail, foldl_keeps State.icPl, foldl_keeps State.pw, foldl_keeps State.fresh, foldl_keeps State.pending,
      apply_ite State.time, apply_ite State.sx, apply_ite State.dma, apply_ite State.dev, apply_ite State.mail, apply_ite
      State.icPl, apply_ite State.pw, apply_ite State.fresh, apply_ite State.pending]

@[simp] theorem State.supRead_frame (s : State) (addr : Word) (pasid : Option (BitVec 20)) (len : Nat) (d : HostData) :
    (s.supRead addr pasid len d).1.time = s.time ∧ (s.supRead addr pasid len d).1.sx = s.sx ∧
    (s.supRead addr pasid len d).1.dev = s.dev ∧ (s.supRead addr pasid len d).1.mail = s.mail ∧
    (s.supRead addr pasid len d).1.icPl = s.icPl ∧ (s.supRead addr pasid len d).1.pw = s.pw ∧
    (s.supRead addr pasid len d).1.fresh = s.fresh ∧ (s.supRead addr pasid len d).1.pending = s.pending := by
  unfold State.supRead; try dsimp only
  (repeat' split) <;> simp

@[simp] theorem State.chanAt_frame (s : State) (addr : Word) (count : Nat) :
    (s.chanAt addr count).time = s.time ∧ (s.chanAt addr count).link = s.link ∧ (s.chanAt addr count).q = s.q ∧
    (s.chanAt addr count).sub = s.sub ∧ (s.chanAt addr count).sx = s.sx ∧ (s.chanAt addr count).md = s.md ∧
    (s.chanAt addr count).dev = s.dev ∧ (s.chanAt addr count).pl = s.pl ∧ (s.chanAt addr count).mail = s.mail ∧
    (s.chanAt addr count).ic = s.ic ∧ (s.chanAt addr count).icPl = s.icPl ∧ (s.chanAt addr count).pw = s.pw ∧
    (s.chanAt addr count).fresh = s.fresh ∧ (s.chanAt addr count).out = s.out ∧ (s.chanAt addr count).pending = s.pending := by
  unfold State.chanAt; try dsimp only
  (repeat' split) <;> simp

@[simp] theorem State.supWrite_frame (s : State) (addr : Word) (count : Nat) (data : List Byte) (ecc : Ecc) :
    (s.supWrite addr count data ecc).time = s.time ∧ (s.supWrite addr count data ecc).sx = s.sx ∧
    (s.supWrite addr count data ecc).dev = s.dev ∧ (s.supWrite addr count data ecc).mail = s.mail ∧
    (s.supWrite addr count data ecc).icPl = s.icPl ∧ (s.supWrite addr count data ecc).pw = s.pw ∧
    (s.supWrite addr count data ecc).fresh = s.fresh ∧ (s.supWrite addr count data ecc).pending = s.pending := by
  unfold State.supWrite; try dsimp only
  (repeat' split) <;> simp

@[simp] theorem State.supWait_frame (s : State) (rd : Bool) (addr : Word) (pasid : Option (BitVec 20)) (len : Nat) :
    (s.supWait rd addr pasid len).time = s.time ∧ (s.supWait rd addr pasid len).link = s.link ∧
    (s.supWait rd addr pasid len).q = s.q ∧ (s.supWait rd addr pasid len).sub = s.sub ∧
    (s.supWait rd addr pasid len).sx = s.sx ∧ (s.supWait rd addr pasid len).dev = s.dev ∧
    (s.supWait rd addr pasid len).pl = s.pl ∧ (s.supWait rd addr pasid len).mail = s.mail ∧
    (s.supWait rd addr pasid len).ic = s.ic ∧ (s.supWait rd addr pasid len).icPl = s.icPl ∧
    (s.supWait rd addr pasid len).pw = s.pw ∧ (s.supWait rd addr pasid len).fresh = s.fresh ∧
    (s.supWait rd addr pasid len).out = s.out ∧ (s.supWait rd addr pasid len).pending = s.pending := by
  simp [State.supWait]

@[simp] theorem State.admRefuse_frame (s : State) (x : Refuse) :
    (s.admRefuse x).time = s.time ∧ (s.admRefuse x).link = s.link ∧ (s.admRefuse x).q = s.q ∧ (s.admRefuse x).sub = s.sub ∧
    (s.admRefuse x).sx = s.sx ∧ (s.admRefuse x).dma = s.dma ∧ (s.admRefuse x).dev = s.dev ∧ (s.admRefuse x).tally = s.tally ∧
    (s.admRefuse x).pl = s.pl ∧ (s.admRefuse x).mail = s.mail ∧ (s.admRefuse x).ic = s.ic ∧ (s.admRefuse x).icPl = s.icPl ∧
    (s.admRefuse x).pw = s.pw ∧ (s.admRefuse x).fresh = s.fresh ∧ (s.admRefuse x).out = s.out ∧
    (s.admRefuse x).pending = s.pending := by
  simp [State.admRefuse]

@[simp] theorem State.plan_frame (s : State) (e : BitVec 512) (p : Plan) :
    (s.plan e p).time = s.time ∧ (s.plan e p).pw = s.pw ∧ (s.plan e p).pending = s.pending := by
  simp [State.plan]

@[simp] theorem State.readText_frame (s : State) (stb kib : Nat) (text : HostData) :
    (s.readText stb kib text).1.time = s.time ∧ (s.readText stb kib text).1.sx = s.sx ∧
    (s.readText stb kib text).1.dev = s.dev ∧ (s.readText stb kib text).1.mail = s.mail ∧
    (s.readText stb kib text).1.icPl = s.icPl ∧ (s.readText stb kib text).1.pw = s.pw ∧
    (s.readText stb kib text).1.fresh = s.fresh ∧ (s.readText stb kib text).1.pending = s.pending := by
  unfold State.readText; try dsimp only
  (repeat' split) <;> simp

@[simp] theorem State.waitText_frame (s : State) (stb kib : Nat) :
    (s.waitText stb kib).time = s.time ∧ (s.waitText stb kib).link = s.link ∧ (s.waitText stb kib).q = s.q ∧
    (s.waitText stb kib).sub = s.sub ∧ (s.waitText stb kib).sx = s.sx ∧ (s.waitText stb kib).dev = s.dev ∧
    (s.waitText stb kib).pl = s.pl ∧ (s.waitText stb kib).mail = s.mail ∧ (s.waitText stb kib).ic = s.ic ∧
    (s.waitText stb kib).icPl = s.icPl ∧ (s.waitText stb kib).pw = s.pw ∧ (s.waitText stb kib).fresh = s.fresh ∧
    (s.waitText stb kib).out = s.out ∧ (s.waitText stb kib).pending = s.pending := by
  unfold State.waitText; try dsimp only
  (repeat' split) <;> simp

@[simp] theorem State.install_frame (s : State) (p : Plan) :
    (s.install p).time = s.time ∧ (s.install p).sx = s.sx ∧ (s.install p).dma = s.dma ∧ (s.install p).dev = s.dev ∧
    (s.install p).mail = s.mail ∧ (s.install p).icPl = s.icPl ∧ (s.install p).fresh = s.fresh ∧
    (s.install p).pending = s.pending := by
  unfold State.install; try dsimp only
  (repeat' split) <;> simp

@[simp] theorem State.delSq_frame (s : State) (q : Nat) (r : SQ) :
    (s.delSq q r).time = s.time ∧ (s.delSq q r).sx = s.sx ∧ (s.delSq q r).dma = s.dma ∧ (s.delSq q r).dev = s.dev ∧
    (s.delSq q r).pending = s.pending := by
  unfold State.delSq; try dsimp only
  (repeat' split) <;> simp [foldl_keeps State.time, foldl_keeps State.sx, foldl_keeps State.dma, foldl_keeps State.dev,
      foldl_keeps State.pending, apply_ite State.time, apply_ite State.sx, apply_ite State.dma, apply_ite State.dev, apply_ite
      State.pending]

end Sys2Proof.Machine
end

