-- ==== Sys2Proof/Laws/FramesSirax.lean ====
section
/-! SUPPORT. Sys2Proof/Laws/FramesSirax.lean: which blocks of the state each operation leaves as they are: the threads of the
      Sirax engines and their commands to devices.
Of a block that it does change, a lemma says that the map or the list lengths named in the invariant stay. -/

namespace Sys2Proof.Machine

set_option linter.all false

/-! ## Threads -/

@[simp] theorem State.record__frame (s : State) (th : Nat) (c : Ckpt) :
    (s.record_ th c).time = s.time ∧ (s.record_ th c).link = s.link ∧ (s.record_ th c).q = s.q ∧
    (s.record_ th c).sub = s.sub ∧ (s.record_ th c).dma = s.dma ∧ (s.record_ th c).md = s.md ∧ (s.record_ th c).dev = s.dev ∧
    (s.record_ th c).tally = s.tally ∧ (s.record_ th c).pl = s.pl ∧ (s.record_ th c).mail = s.mail ∧
    (s.record_ th c).ic = s.ic ∧ (s.record_ th c).icPl = s.icPl ∧ (s.record_ th c).pw = s.pw ∧
    (s.record_ th c).fresh = s.fresh ∧ (s.record_ th c).out = s.out ∧ (s.record_ th c).pending = s.pending := by
  unfold State.record_; try dsimp only
  (repeat' split) <;> simp

@[simp] theorem State.amend_frame (s : State) (th : Nat) (f : Ckpt → Ckpt) :
    (s.amend th f).time = s.time ∧ (s.amend th f).link = s.link ∧ (s.amend th f).q = s.q ∧ (s.amend th f).sub = s.sub ∧
    (s.amend th f).dma = s.dma ∧ (s.amend th f).md = s.md ∧ (s.amend th f).dev = s.dev ∧ (s.amend th f).tally = s.tally ∧
    (s.amend th f).pl = s.pl ∧ (s.amend th f).mail = s.mail ∧ (s.amend th f).ic = s.ic ∧ (s.amend th f).icPl = s.icPl ∧
    (s.amend th f).pw = s.pw ∧ (s.amend th f).fresh = s.fresh ∧ (s.amend th f).out = s.out ∧
    (s.amend th f).pending = s.pending := by
  unfold State.amend; try dsimp only
  (repeat' split) <;> simp

@[simp] theorem State.commitFor_frame (s : State) (th : Nat) (t : Thread) (e : CkEffect) :
    (s.commitFor th t e).time = s.time ∧ (s.commitFor th t e).pw = s.pw ∧ (s.commitFor th t e).pending = s.pending := by
  unfold State.commitFor; try dsimp only
  (repeat' split) <;> simp

@[simp] theorem State.commit_frame (s : State) (th : Nat) (t : Thread) :
    (s.commit th t).time = s.time ∧ (s.commit th t).pw = s.pw ∧ (s.commit th t).pending = s.pending := by
  simp [State.commit]

@[simp] theorem State.effectDone_frame (s : State) (th : Nat) (t : Thread) :
    (s.effectDone th t).time = s.time ∧ (s.effectDone th t).link = s.link ∧ (s.effectDone th t).q = s.q ∧
    (s.effectDone th t).sub = s.sub ∧ (s.effectDone th t).dma = s.dma ∧ (s.effectDone th t).md = s.md ∧
    (s.effectDone th t).dev = s.dev ∧ (s.effectDone th t).tally = s.tally ∧ (s.effectDone th t).pl = s.pl ∧
    (s.effectDone th t).mail = s.mail ∧ (s.effectDone th t).ic = s.ic ∧ (s.effectDone th t).icPl = s.icPl ∧
    (s.effectDone th t).pw = s.pw ∧ (s.effectDone th t).fresh = s.fresh ∧ (s.effectDone th t).out = s.out ∧
    (s.effectDone th t).pending = s.pending := by
  simp [State.effectDone]

@[simp] theorem State.release_frame (s : State) (th : Nat) (t : Thread) (wait : Wait) :
    (s.release th t wait).time = s.time ∧ (s.release th t wait).q = s.q ∧ (s.release th t wait).dma = s.dma ∧
    (s.release th t wait).dev = s.dev ∧ (s.release th t wait).pl = s.pl ∧ (s.release th t wait).mail = s.mail ∧
    (s.release th t wait).ic = s.ic ∧ (s.release th t wait).icPl = s.icPl ∧ (s.release th t wait).pw = s.pw ∧
    (s.release th t wait).fresh = s.fresh ∧ (s.release th t wait).out = s.out ∧ (s.release th t wait).pending = s.pending := by
  simp [State.release]

@[simp] theorem State.stopThread_frame (s : State) (th : Nat) (t : Thread) :
    (s.stopThread th t).time = s.time ∧ (s.stopThread th t).q = s.q ∧ (s.stopThread th t).dev = s.dev ∧
    (s.stopThread th t).pl = s.pl ∧ (s.stopThread th t).mail = s.mail ∧ (s.stopThread th t).ic = s.ic ∧
    (s.stopThread th t).icPl = s.icPl ∧ (s.stopThread th t).pw = s.pw ∧ (s.stopThread th t).fresh = s.fresh ∧
    (s.stopThread th t).pending = s.pending := by
  unfold State.stopThread; try dsimp only
  (repeat' split) <;> simp

@[simp] theorem State.endThread_frame (s : State) (th : Nat) (t : Thread) :
    (s.endThread th t).time = s.time ∧ (s.endThread th t).q = s.q ∧ (s.endThread th t).dev = s.dev ∧
    (s.endThread th t).pl = s.pl ∧ (s.endThread th t).mail = s.mail ∧ (s.endThread th t).ic = s.ic ∧
    (s.endThread th t).icPl = s.icPl ∧ (s.endThread th t).pw = s.pw ∧ (s.endThread th t).fresh = s.fresh ∧
    (s.endThread th t).pending = s.pending := by
  simp [State.endThread]

@[simp] theorem State.programCheck_frame (s : State) (th : Nat) (t : Thread) (code : Nat) :
    (s.programCheck th t code).time = s.time ∧ (s.programCheck th t code).q = s.q ∧ (s.programCheck th t code).dev = s.dev ∧
    (s.programCheck th t code).pl = s.pl ∧ (s.programCheck th t code).mail = s.mail ∧ (s.programCheck th t code).ic = s.ic ∧
    (s.programCheck th t code).icPl = s.icPl ∧ (s.programCheck th t code).pw = s.pw ∧
    (s.programCheck th t code).fresh = s.fresh ∧ (s.programCheck th t code).pending = s.pending := by
  unfold State.programCheck; try dsimp only
  (repeat' split) <;> simp

@[simp] theorem State.readWait_frame (s : State) (th sch : Nat) (who : WaitWho) :
    (s.readWait th sch who).time = s.time ∧ (s.readWait th sch who).link = s.link ∧ (s.readWait th sch who).q = s.q ∧
    (s.readWait th sch who).sub = s.sub ∧ (s.readWait th sch who).sx = s.sx ∧ (s.readWait th sch who).dma = s.dma ∧
    (s.readWait th sch who).dev = s.dev ∧ (s.readWait th sch who).pl = s.pl ∧ (s.readWait th sch who).mail = s.mail ∧
    (s.readWait th sch who).ic = s.ic ∧ (s.readWait th sch who).icPl = s.icPl ∧ (s.readWait th sch who).pw = s.pw ∧
    (s.readWait th sch who).fresh = s.fresh ∧ (s.readWait th sch who).out = s.out ∧
    (s.readWait th sch who).pending = s.pending := by
  unfold State.readWait; try dsimp only
  (repeat' split) <;> simp

@[simp] theorem State.issueLoad_frame (s : State) (th : Nat) (t : Thread) (l : Load) :
    (s.issueLoad th t l).time = s.time ∧ (s.issueLoad th t l).q = s.q ∧ (s.issueLoad th t l).sub = s.sub ∧
    (s.issueLoad th t l).dma = s.dma ∧ (s.issueLoad th t l).dev = s.dev ∧ (s.issueLoad th t l).pl = s.pl ∧
    (s.issueLoad th t l).mail = s.mail ∧ (s.issueLoad th t l).ic = s.ic ∧ (s.issueLoad th t l).icPl = s.icPl ∧
    (s.issueLoad th t l).pw = s.pw ∧ (s.issueLoad th t l).fresh = s.fresh ∧ (s.issueLoad th t l).pending = s.pending := by
  unfold State.issueLoad; try dsimp only
  (repeat' split) <;> simp

@[simp] theorem State.adopt_frame (s : State) (th : Nat) (t : Thread) :
    (s.adopt th t).1.time = s.time ∧ (s.adopt th t).1.link = s.link ∧ (s.adopt th t).1.q = s.q ∧
    (s.adopt th t).1.sub = s.sub ∧ (s.adopt th t).1.dma = s.dma ∧ (s.adopt th t).1.md = s.md ∧ (s.adopt th t).1.dev = s.dev ∧
    (s.adopt th t).1.tally = s.tally ∧ (s.adopt th t).1.pl = s.pl ∧ (s.adopt th t).1.mail = s.mail ∧
    (s.adopt th t).1.ic = s.ic ∧ (s.adopt th t).1.icPl = s.icPl ∧ (s.adopt th t).1.pw = s.pw ∧
    (s.adopt th t).1.fresh = s.fresh ∧ (s.adopt th t).1.out = s.out ∧ (s.adopt th t).1.pending = s.pending := by
  unfold State.adopt; try dsimp only
  (repeat' split) <;> simp

@[simp] theorem State.releaseFaults_frame (s : State) (sch : Nat) (l : List Store) (rel : Release) :
    (s.releaseFaults sch l rel).time = s.time ∧ (s.releaseFaults sch l rel).dma = s.dma ∧
    (s.releaseFaults sch l rel).dev = s.dev ∧ (s.releaseFaults sch l rel).mail = s.mail ∧
    (s.releaseFaults sch l rel).icPl = s.icPl ∧ (s.releaseFaults sch l rel).pw = s.pw ∧
    (s.releaseFaults sch l rel).fresh = s.fresh ∧ (s.releaseFaults sch l rel).pending = s.pending := by
  unfold State.releaseFaults; try dsimp only
  (repeat' split) <;> simp [foldl_keeps State.time, foldl_keeps State.dma, foldl_keeps State.dev, foldl_keeps State.mail,
      foldl_keeps State.icPl, foldl_keeps State.pw, foldl_keeps State.fresh, foldl_keeps State.pending, apply_ite State.time,
      apply_ite State.dma, apply_ite State.dev, apply_ite State.mail, apply_ite State.icPl, apply_ite State.pw, apply_ite
      State.fresh, apply_ite State.pending]

@[simp] theorem State.reissue_frame (s : State) (th : Nat) (bad : List Nat) (l : List Load) :
    (s.reissue th bad l).time = s.time ∧ (s.reissue th bad l).dma = s.dma ∧ (s.reissue th bad l).dev = s.dev ∧
    (s.reissue th bad l).mail = s.mail ∧ (s.reissue th bad l).icPl = s.icPl ∧ (s.reissue th bad l).pw = s.pw ∧
    (s.reissue th bad l).fresh = s.fresh ∧ (s.reissue th bad l).pending = s.pending := by
  induction l generalizing s th bad with
  | nil => simp [State.reissue]
  | cons a l ih =>
    unfold State.reissue; try dsimp only
    (repeat' split) <;> simp [ih]

/-! ## Bundles -/

@[simp] theorem State.finish_frame (s : State) (th : Nat) (t : Thread) :
    (s.finish th t).time = s.time ∧ (s.finish th t).q = s.q ∧ (s.finish th t).dma = s.dma ∧ (s.finish th t).dev = s.dev ∧
    (s.finish th t).pl = s.pl ∧ (s.finish th t).mail = s.mail ∧ (s.finish th t).ic = s.ic ∧ (s.finish th t).icPl = s.icPl ∧
    (s.finish th t).pw = s.pw ∧ (s.finish th t).fresh = s.fresh ∧ (s.finish th t).out = s.out ∧
    (s.finish th t).pending = s.pending := by
  simp [State.finish]

@[simp] theorem State.issuePlain_frame (s : State) (th : Nat) (t : Thread) (b : BitVec 128) (ops : List Op) :
    (s.issuePlain th t b ops).time = s.time ∧ (s.issuePlain th t b ops).q = s.q ∧ (s.issuePlain th t b ops).dev = s.dev ∧
    (s.issuePlain th t b ops).pl = s.pl ∧ (s.issuePlain th t b ops).mail = s.mail ∧ (s.issuePlain th t b ops).ic = s.ic ∧
    (s.issuePlain th t b ops).icPl = s.icPl ∧ (s.issuePlain th t b ops).pw = s.pw ∧
    (s.issuePlain th t b ops).fresh = s.fresh ∧ (s.issuePlain th t b ops).pending = s.pending := by
  unfold State.issuePlain; try dsimp only
  (repeat' split) <;> simp

/-! ## Memory -/

@[simp] theorem State.added_frame (s : State) (th : Nat) (t : Thread) (host : Option Bool) :
    (s.added th t host).1.time = s.time ∧ (s.added th t host).1.pending = s.pending := by
  unfold State.added; try dsimp only
  (repeat' split) <;> simp

@[simp] theorem State.loadFailed_frame (s : State) (th : Nat) (t : Thread) :
    (s.loadFailed th t).time = s.time ∧ (s.loadFailed th t).dev = s.dev ∧ (s.loadFailed th t).mail = s.mail ∧
    (s.loadFailed th t).icPl = s.icPl ∧ (s.loadFailed th t).pw = s.pw ∧ (s.loadFailed th t).fresh = s.fresh ∧
    (s.loadFailed th t).pending = s.pending := by
  simp [State.loadFailed]

@[simp] theorem State.loadGo_frame (s : State) (th : Nat) (t : Thread) (l : Load) (m : Meet) (resv : Bool) :
    (s.loadGo th t l m resv).time = s.time ∧ (s.loadGo th t l m resv).pw = s.pw ∧
    (s.loadGo th t l m resv).pending = s.pending := by
  unfold State.loadGo; try dsimp only
  (repeat' split) <;> simp

@[simp] theorem State.opLoad_frame (s : State) (th : Nat) (t : Thread) (op : Op) :
    (s.opLoad th t op).time = s.time ∧ (s.opLoad th t op).pending = s.pending := by
  unfold State.opLoad State.checked; try dsimp only
  (repeat' split) <;> simp [apply_ite State.time, apply_ite State.pending]

@[simp] theorem State.buffer_frame (s : State) (th : Nat) (t : Thread) (e : Store) :
    (s.buffer th t e).1.time = s.time ∧ (s.buffer th t e).1.pending = s.pending := by
  unfold State.buffer; try dsimp only
  (repeat' split) <;> simp

@[simp] theorem State.opStore_frame (s : State) (th : Nat) (t : Thread) (b : BitVec 128) (op : Op) :
    (s.opStore th t b op).time = s.time ∧ (s.opStore th t b op).pending = s.pending := by
  unfold State.opStore State.checked; try dsimp only
  (repeat' split) <;> simp [apply_ite State.time, apply_ite State.pending]

@[simp] theorem State.opRpt_frame (s : State) (th : Nat) (t : Thread) (op : Op) :
    (s.opRpt th t op).time = s.time ∧ (s.opRpt th t op).q = s.q ∧ (s.opRpt th t op).dev = s.dev ∧
    (s.opRpt th t op).pl = s.pl ∧ (s.opRpt th t op).mail = s.mail ∧ (s.opRpt th t op).icPl = s.icPl ∧
    (s.opRpt th t op).pw = s.pw ∧ (s.opRpt th t op).fresh = s.fresh ∧ (s.opRpt th t op).pending = s.pending := by
  unfold State.opRpt State.checked; try dsimp only
  (repeat' split) <;> simp [apply_ite State.time, apply_ite State.q, apply_ite State.dev, apply_ite State.pl, apply_ite
      State.mail, apply_ite State.icPl, apply_ite State.pw, apply_ite State.fresh, apply_ite State.pending]

@[simp] theorem State.stepGo_frame (s : State) (th : Nat) (t : Thread) (b : BitVec 128) (op : Op) (raw : Bool) (r : TWord ×
      TWord × TWord) (us : List TWord) (dst : Option Place) (cnt : Option Nat) :
    (s.stepGo th t b op raw r us dst cnt).time = s.time ∧ (s.stepGo th t b op raw r us dst cnt).pending = s.pending := by
  unfold State.stepGo; try dsimp only
  (repeat' split) <;> simp

@[simp] theorem State.blockStep_frame (fuel : Nat) (s : State) (th : Nat) (t : Thread) (b : BitVec 128) (op : Op) (srcs : List
      Src) :
    (s.blockStep fuel th t b op srcs).time = s.time ∧ (s.blockStep fuel th t b op srcs).pending = s.pending := by
  induction fuel generalizing s th t b op srcs with
  | zero => simp [State.blockStep]
  | succ n ih =>
    unfold State.blockStep; try dsimp only
    (repeat' split) <;> simp [ih]

@[simp] theorem State.opBlock_frame (s : State) (th : Nat) (t : Thread) (b : BitVec 128) (op : Op) :
    (s.opBlock th t b op).time = s.time ∧ (s.opBlock th t b op).pending = s.pending := by
  unfold State.opBlock State.checked; try dsimp only
  (repeat' split) <;> simp [apply_ite State.time, apply_ite State.pending]

@[simp] theorem State.opCommit_frame (s : State) (th : Nat) (t : Thread) (op : Op) :
    (s.opCommit th t op).time = s.time ∧ (s.opCommit th t op).pending = s.pending := by
  unfold State.opCommit State.checked; try dsimp only
  (repeat' split) <;> simp [apply_ite State.time, apply_ite State.pending]

@[simp] theorem State.opAtomic_frame (s : State) (th : Nat) (t : Thread) (op : Op) :
    (s.opAtomic th t op).time = s.time ∧ (s.opAtomic th t op).pending = s.pending := by
  unfold State.opAtomic State.checked; try dsimp only
  (repeat' split) <;> simp [apply_ite State.time, apply_ite State.pending]

/-! ## Transfer -/

@[simp] theorem State.wantSend_frame (s : State) (sch : Nat) :
    (s.wantSend sch).time = s.time ∧ (s.wantSend sch).link = s.link ∧ (s.wantSend sch).q = s.q ∧
    (s.wantSend sch).sub = s.sub ∧ (s.wantSend sch).sx = s.sx ∧ (s.wantSend sch).dma = s.dma ∧ (s.wantSend sch).dev = s.dev ∧
    (s.wantSend sch).pl = s.pl ∧ (s.wantSend sch).mail = s.mail ∧ (s.wantSend sch).ic = s.ic ∧
    (s.wantSend sch).icPl = s.icPl ∧ (s.wantSend sch).pw = s.pw ∧ (s.wantSend sch).fresh = s.fresh ∧
    (s.wantSend sch).out = s.out ∧ (s.wantSend sch).pending = s.pending := by
  unfold State.wantSend; try dsimp only
  (repeat' split) <;> simp

@[simp] theorem State.wantAll_frame (s : State) :
    (s.wantAll).time = s.time ∧ (s.wantAll).link = s.link ∧ (s.wantAll).q = s.q ∧ (s.wantAll).sub = s.sub ∧
    (s.wantAll).sx = s.sx ∧ (s.wantAll).dma = s.dma ∧ (s.wantAll).dev = s.dev ∧ (s.wantAll).pl = s.pl ∧
    (s.wantAll).mail = s.mail ∧ (s.wantAll).ic = s.ic ∧ (s.wantAll).icPl = s.icPl ∧ (s.wantAll).pw = s.pw ∧
    (s.wantAll).fresh = s.fresh ∧ (s.wantAll).out = s.out ∧ (s.wantAll).pending = s.pending := by
  unfold State.wantAll; try dsimp only
  (repeat' split) <;> simp [foldl_keeps State.time, foldl_keeps State.link, foldl_keeps State.q, foldl_keeps State.sub,
      foldl_keeps State.sx, foldl_keeps State.dma, foldl_keeps State.dev, foldl_keeps State.pl, foldl_keeps State.mail,
      foldl_keeps State.ic, foldl_keeps State.icPl, foldl_keeps State.pw, foldl_keeps State.fresh, foldl_keeps State.out,
      foldl_keeps State.pending, apply_ite State.time, apply_ite State.link, apply_ite State.q, apply_ite State.sub, apply_ite
      State.sx, apply_ite State.dma, apply_ite State.dev, apply_ite State.pl, apply_ite State.mail, apply_ite State.ic,
      apply_ite State.icPl, apply_ite State.pw, apply_ite State.fresh, apply_ite State.out, apply_ite State.pending]

@[simp] theorem State.moveClock_frame (s : State) (sch n : Nat) :
    (s.moveClock sch n).time = s.time ∧ (s.moveClock sch n).link = s.link ∧ (s.moveClock sch n).sub = s.sub ∧
    (s.moveClock sch n).sx = s.sx ∧ (s.moveClock sch n).dma = s.dma ∧ (s.moveClock sch n).md = s.md ∧
    (s.moveClock sch n).dev = s.dev ∧ (s.moveClock sch n).tally = s.tally ∧ (s.moveClock sch n).pl = s.pl ∧
    (s.moveClock sch n).mail = s.mail ∧ (s.moveClock sch n).ic = s.ic ∧ (s.moveClock sch n).icPl = s.icPl ∧
    (s.moveClock sch n).pw = s.pw ∧ (s.moveClock sch n).fresh = s.fresh ∧ (s.moveClock sch n).out = s.out ∧
    (s.moveClock sch n).pending = s.pending := by
  unfold State.moveClock; try dsimp only
  (repeat' split) <;> simp

@[simp] theorem senseOut_frame (n : Nat) (s : State) (addr : Word) (pasid : Option (BitVec 20)) (a : Nat) (bs : List Byte)
      (poison : BitVec 8) :
    (senseOut n s addr pasid a bs poison).time = s.time ∧ (senseOut n s addr pasid a bs poison).q = s.q ∧
    (senseOut n s addr pasid a bs poison).sx = s.sx ∧ (senseOut n s addr pasid a bs poison).dma = s.dma ∧
    (senseOut n s addr pasid a bs poison).md = s.md ∧ (senseOut n s addr pasid a bs poison).dev = s.dev ∧
    (senseOut n s addr pasid a bs poison).tally = s.tally ∧ (senseOut n s addr pasid a bs poison).pl = s.pl ∧
    (senseOut n s addr pasid a bs poison).mail = s.mail ∧ (senseOut n s addr pasid a bs poison).ic = s.ic ∧
    (senseOut n s addr pasid a bs poison).icPl = s.icPl ∧ (senseOut n s addr pasid a bs poison).pw = s.pw ∧
    (senseOut n s addr pasid a bs poison).fresh = s.fresh ∧ (senseOut n s addr pasid a bs poison).pending = s.pending := by
  induction n generalizing s addr pasid a bs poison with
  | zero => simp [senseOut]
  | succ n ih =>
    unfold senseOut; try dsimp only
    (repeat' split) <;> simp [ih]

@[simp] theorem State.senseWrite_frame (s : State) (e : Extent) (bs : List Byte) (poison : BitVec 8) :
    (s.senseWrite e bs poison).time = s.time ∧ (s.senseWrite e bs poison).q = s.q ∧ (s.senseWrite e bs poison).dma = s.dma ∧
    (s.senseWrite e bs poison).md = s.md ∧ (s.senseWrite e bs poison).dev = s.dev ∧
    (s.senseWrite e bs poison).tally = s.tally ∧ (s.senseWrite e bs poison).pl = s.pl ∧
    (s.senseWrite e bs poison).mail = s.mail ∧ (s.senseWrite e bs poison).ic = s.ic ∧
    (s.senseWrite e bs poison).icPl = s.icPl ∧ (s.senseWrite e bs poison).pw = s.pw ∧
    (s.senseWrite e bs poison).fresh = s.fresh ∧ (s.senseWrite e bs poison).pending = s.pending := by
  unfold State.senseWrite; try dsimp only
  (repeat' split) <;> simp

@[simp] theorem State.afterIssue_frame (s : State) (th : Nat) (t : Thread) (chc : Bool) :
    (s.afterIssue th t chc).time = s.time ∧ (s.afterIssue th t chc).q = s.q ∧ (s.afterIssue th t chc).dma = s.dma ∧
    (s.afterIssue th t chc).dev = s.dev ∧ (s.afterIssue th t chc).pl = s.pl ∧ (s.afterIssue th t chc).mail = s.mail ∧
    (s.afterIssue th t chc).ic = s.ic ∧ (s.afterIssue th t chc).icPl = s.icPl ∧ (s.afterIssue th t chc).pw = s.pw ∧
    (s.afterIssue th t chc).fresh = s.fresh ∧ (s.afterIssue th t chc).out = s.out ∧
    (s.afterIssue th t chc).pending = s.pending := by
  unfold State.afterIssue; try dsimp only
  (repeat' split) <;> simp

@[simp] theorem State.senseDescs_frame (s : State) (sch count moved : Nat) :
    (s.senseDescs sch count moved).time = s.time ∧ (s.senseDescs sch count moved).sx = s.sx ∧
    (s.senseDescs sch count moved).dev = s.dev ∧ (s.senseDescs sch count moved).mail = s.mail ∧
    (s.senseDescs sch count moved).icPl = s.icPl ∧ (s.senseDescs sch count moved).pw = s.pw ∧
    (s.senseDescs sch count moved).pending = s.pending := by
  unfold State.senseDescs; try dsimp only
  (repeat' split) <;> simp [foldl_keeps State.time, foldl_keeps State.sx, foldl_keeps State.dev, foldl_keeps State.mail,
      foldl_keeps State.icPl, foldl_keeps State.pw, foldl_keeps State.pending, apply_ite State.time, apply_ite State.sx,
      apply_ite State.dev, apply_ite State.mail, apply_ite State.icPl, apply_ite State.pw, apply_ite State.pending]

@[simp] theorem State.issueSense_frame (s : State) (th : Nat) (t : Thread) (w : XWords) (ext : Extent) :
    (s.issueSense th t w ext).time = s.time ∧ (s.issueSense th t w ext).pw = s.pw ∧
    (s.issueSense th t w ext).pending = s.pending := by
  unfold State.issueSense; try dsimp only
  (repeat' split) <;> simp

@[simp] theorem State.suspend_frame (s : State) (th : Nat) (t : Thread) :
    (s.suspend th t).time = s.time ∧ (s.suspend th t).pw = s.pw ∧ (s.suspend th t).pending = s.pending := by
  unfold State.suspend; try dsimp only
  (repeat' split) <;> simp

/-! ## Command -/

@[simp] theorem State.sendRead_frame (s : State) (x : Nat) (e : Exch) (p : Piece) :
    (s.sendRead x e p).time = s.time ∧ (s.sendRead x e p).link = s.link ∧ (s.sendRead x e p).q = s.q ∧
    (s.sendRead x e p).sub = s.sub ∧ (s.sendRead x e p).sx = s.sx ∧ (s.sendRead x e p).dma = s.dma ∧
    (s.sendRead x e p).tally = s.tally ∧ (s.sendRead x e p).pl = s.pl ∧ (s.sendRead x e p).mail = s.mail ∧
    (s.sendRead x e p).ic = s.ic ∧ (s.sendRead x e p).icPl = s.icPl ∧ (s.sendRead x e p).pw = s.pw ∧
    (s.sendRead x e p).fresh = s.fresh ∧ (s.sendRead x e p).pending = s.pending := by
  unfold State.sendRead; try dsimp only
  (repeat' split) <;> simp

@[simp] theorem State.sendReads_frame (n : Nat) (s : State) (x : Nat) :
    (s.sendReads n x).time = s.time ∧ (s.sendReads n x).link = s.link ∧ (s.sendReads n x).q = s.q ∧
    (s.sendReads n x).sub = s.sub ∧ (s.sendReads n x).sx = s.sx ∧ (s.sendReads n x).dma = s.dma ∧
    (s.sendReads n x).tally = s.tally ∧ (s.sendReads n x).pl = s.pl ∧ (s.sendReads n x).mail = s.mail ∧
    (s.sendReads n x).ic = s.ic ∧ (s.sendReads n x).icPl = s.icPl ∧ (s.sendReads n x).pw = s.pw ∧
    (s.sendReads n x).fresh = s.fresh ∧ (s.sendReads n x).pending = s.pending := by
  induction n generalizing s x with
  | zero => simp [State.sendReads]
  | succ n ih =>
    unfold State.sendReads; try dsimp only
    (repeat' split) <;> simp [ih]

@[simp] theorem State.emitCmd_frame (s : State) (x dev : Nat) (pd : PathDesc) (c : Cmd) (p : Piece) :
    (s.emitCmd x dev pd c p).time = s.time ∧ (s.emitCmd x dev pd c p).link = s.link ∧ (s.emitCmd x dev pd c p).q = s.q ∧
    (s.emitCmd x dev pd c p).sub = s.sub ∧ (s.emitCmd x dev pd c p).sx = s.sx ∧ (s.emitCmd x dev pd c p).dma = s.dma ∧
    (s.emitCmd x dev pd c p).tally = s.tally ∧ (s.emitCmd x dev pd c p).pl = s.pl ∧ (s.emitCmd x dev pd c p).mail = s.mail ∧
    (s.emitCmd x dev pd c p).ic = s.ic ∧ (s.emitCmd x dev pd c p).icPl = s.icPl ∧ (s.emitCmd x dev pd c p).pw = s.pw ∧
    (s.emitCmd x dev pd c p).fresh = s.fresh ∧ (s.emitCmd x dev pd c p).pending = s.pending := by
  unfold State.emitCmd; try dsimp only
  (repeat' split) <;> simp

end Sys2Proof.Machine
end

