-- ==== Sys2Proof/Laws/FramesDevices.lean ====
section
/-! SUPPORT. Sys2Proof/Laws/FramesDevices.lean: which blocks of the state each operation leaves as they are: exchanges,
      redrive, transfers and quads.
Of a block that it does change, a lemma says that the map or the list lengths named in the invariant stay. -/

namespace Sys2Proof.Machine

set_option linter.all false

/-! ## Redrive -/

@[simp] theorem State.reopenDesc_frame (s : State) (k : Nat) (d : Desc) (pc a b : Nat) :
    (s.reopenDesc k d pc a b).time = s.time ∧ (s.reopenDesc k d pc a b).q = s.q ∧ (s.reopenDesc k d pc a b).sub = s.sub ∧
    (s.reopenDesc k d pc a b).sx = s.sx ∧ (s.reopenDesc k d pc a b).dev = s.dev ∧ (s.reopenDesc k d pc a b).pl = s.pl ∧
    (s.reopenDesc k d pc a b).pw = s.pw ∧ (s.reopenDesc k d pc a b).fresh = s.fresh ∧
    (s.reopenDesc k d pc a b).pending = s.pending := by
  unfold State.reopenDesc; try dsimp only
  (repeat' split) <;> simp

@[simp] theorem State.reopenSpan_frame (s : State) (d i : Nat) (g : Nat × Nat) :
    (s.reopenSpan d i g).time = s.time ∧ (s.reopenSpan d i g).q = s.q ∧ (s.reopenSpan d i g).sub = s.sub ∧
    (s.reopenSpan d i g).sx = s.sx ∧ (s.reopenSpan d i g).dev = s.dev ∧ (s.reopenSpan d i g).pl = s.pl ∧
    (s.reopenSpan d i g).pw = s.pw ∧ (s.reopenSpan d i g).fresh = s.fresh ∧ (s.reopenSpan d i g).pending = s.pending := by
  unfold State.reopenSpan; try dsimp only
  (repeat' split) <;> simp

@[simp] theorem State.reopen_frame (s : State) (sch no i : Nat) (free : Bool) :
    (s.reopen sch no i free).time = s.time ∧ (s.reopen sch no i free).sx = s.sx ∧ (s.reopen sch no i free).dev = s.dev ∧
    (s.reopen sch no i free).pw = s.pw ∧ (s.reopen sch no i free).fresh = s.fresh ∧
    (s.reopen sch no i free).pending = s.pending := by
  unfold State.reopen; try dsimp only
  (repeat' split) <;> simp [foldl_keeps State.time, foldl_keeps State.sx, foldl_keeps State.dev, foldl_keeps State.pw,
      foldl_keeps State.fresh, foldl_keeps State.pending, apply_ite State.time, apply_ite State.sx, apply_ite State.dev,
      apply_ite State.pw, apply_ite State.fresh, apply_ite State.pending]

@[simp] theorem State.unsend_frame (s : State) (x : Nat) (same : Option Nat) (ended : Bool) :
    (s.unsend x same ended).time = s.time ∧ (s.unsend x same ended).sx = s.sx ∧ (s.unsend x same ended).dev = s.dev ∧
    (s.unsend x same ended).pw = s.pw ∧ (s.unsend x same ended).fresh = s.fresh ∧
    (s.unsend x same ended).pending = s.pending := by
  unfold State.unsend; try dsimp only
  (repeat' split) <;> simp

@[simp] theorem State.setSeq_frame (s : State) (dev : Nat) (p : SeqPos) :
    (s.setSeq dev p).time = s.time ∧ (s.setSeq dev p).link = s.link ∧ (s.setSeq dev p).q = s.q ∧
    (s.setSeq dev p).sub = s.sub ∧ (s.setSeq dev p).sx = s.sx ∧ (s.setSeq dev p).dma = s.dma ∧ (s.setSeq dev p).md = s.md ∧
    (s.setSeq dev p).tally = s.tally ∧ (s.setSeq dev p).pl = s.pl ∧ (s.setSeq dev p).mail = s.mail ∧
    (s.setSeq dev p).ic = s.ic ∧ (s.setSeq dev p).icPl = s.icPl ∧ (s.setSeq dev p).pw = s.pw ∧
    (s.setSeq dev p).fresh = s.fresh ∧ (s.setSeq dev p).out = s.out ∧ (s.setSeq dev p).pending = s.pending := by
  simp [State.setSeq]

@[simp] theorem State.positionCheck_frame (s : State) (sch no i dev : Nat) (pos : Option Nat) :
    (s.positionCheck sch no i dev pos).time = s.time ∧ (s.positionCheck sch no i dev pos).pw = s.pw ∧
    (s.positionCheck sch no i dev pos).pending = s.pending := by
  unfold State.positionCheck; try dsimp only
  (repeat' split) <;> simp

@[simp] theorem State.readPos_frame (s : State) :
    (s.readPos).1.time = s.time ∧ (s.readPos).1.link = s.link ∧ (s.readPos).1.q = s.q ∧ (s.readPos).1.sub = s.sub ∧
    (s.readPos).1.sx = s.sx ∧ (s.readPos).1.dma = s.dma ∧ (s.readPos).1.md = s.md ∧ (s.readPos).1.dev = s.dev ∧
    (s.readPos).1.tally = s.tally ∧ (s.readPos).1.pl = s.pl ∧ (s.readPos).1.mail = s.mail ∧ (s.readPos).1.ic = s.ic ∧
    (s.readPos).1.icPl = s.icPl ∧ (s.readPos).1.pw = s.pw ∧ (s.readPos).1.out = s.out ∧ (s.readPos).1.pending = s.pending := by
  simp [State.readPos]

@[simp] theorem State.portPathsDown_frame (s : State) (quad port : Nat) (ctrl : Option Word) :
    (s.portPathsDown quad port ctrl).time = s.time ∧ (s.portPathsDown quad port ctrl).link = s.link ∧
    (s.portPathsDown quad port ctrl).q = s.q ∧ (s.portPathsDown quad port ctrl).sub = s.sub ∧
    (s.portPathsDown quad port ctrl).sx = s.sx ∧ (s.portPathsDown quad port ctrl).dma = s.dma ∧
    (s.portPathsDown quad port ctrl).md = s.md ∧ (s.portPathsDown quad port ctrl).tally = s.tally ∧
    (s.portPathsDown quad port ctrl).pl = s.pl ∧ (s.portPathsDown quad port ctrl).mail = s.mail ∧
    (s.portPathsDown quad port ctrl).ic = s.ic ∧ (s.portPathsDown quad port ctrl).icPl = s.icPl ∧
    (s.portPathsDown quad port ctrl).pw = s.pw ∧ (s.portPathsDown quad port ctrl).fresh = s.fresh ∧
    (s.portPathsDown quad port ctrl).out = s.out ∧ (s.portPathsDown quad port ctrl).pending = s.pending := by
  simp [State.portPathsDown]

@[simp] theorem State.abortLater_frame (s : State) (f : Exch) :
    (s.abortLater f).time = s.time ∧ (s.abortLater f).link = s.link ∧ (s.abortLater f).q = s.q ∧
    (s.abortLater f).sub = s.sub ∧ (s.abortLater f).sx = s.sx ∧ (s.abortLater f).pl = s.pl ∧ (s.abortLater f).mail = s.mail ∧
    (s.abortLater f).ic = s.ic ∧ (s.abortLater f).icPl = s.icPl ∧ (s.abortLater f).pw = s.pw ∧
    (s.abortLater f).fresh = s.fresh ∧ (s.abortLater f).pending = s.pending := by
  unfold State.abortLater; try dsimp only
  (repeat' split) <;> simp [foldl_keeps State.time, foldl_keeps State.link, foldl_keeps State.q, foldl_keeps State.sub,
      foldl_keeps State.sx, foldl_keeps State.pl, foldl_keeps State.mail, foldl_keeps State.ic, foldl_keeps State.icPl,
      foldl_keeps State.pw, foldl_keeps State.fresh, foldl_keeps State.pending, apply_ite State.time, apply_ite State.link,
      apply_ite State.q, apply_ite State.sub, apply_ite State.sx, apply_ite State.pl, apply_ite State.mail, apply_ite State.ic,
      apply_ite State.icPl, apply_ite State.pw, apply_ite State.fresh, apply_ite State.pending]

@[simp] theorem State.leaveGhost_frame (s : State) (x : Nat) (e : Exch) (k : GhostKind) :
    (s.leaveGhost x e k).time = s.time ∧ (s.leaveGhost x e k).link = s.link ∧ (s.leaveGhost x e k).q = s.q ∧
    (s.leaveGhost x e k).sub = s.sub ∧ (s.leaveGhost x e k).sx = s.sx ∧ (s.leaveGhost x e k).dma = s.dma ∧
    (s.leaveGhost x e k).md = s.md ∧ (s.leaveGhost x e k).tally = s.tally ∧ (s.leaveGhost x e k).pl = s.pl ∧
    (s.leaveGhost x e k).mail = s.mail ∧ (s.leaveGhost x e k).ic = s.ic ∧ (s.leaveGhost x e k).icPl = s.icPl ∧
    (s.leaveGhost x e k).pw = s.pw ∧ (s.leaveGhost x e k).fresh = s.fresh ∧ (s.leaveGhost x e k).out = s.out ∧
    (s.leaveGhost x e k).pending = s.pending := by
  unfold State.leaveGhost; try dsimp only
  (repeat' split) <;> simp

@[simp] theorem State.losePath_frame (s : State) (x : Nat) (k : GhostKind) :
    (s.losePath x k).time = s.time ∧ (s.losePath x k).sx = s.sx ∧ (s.losePath x k).pw = s.pw ∧
    (s.losePath x k).pending = s.pending := by
  unfold State.losePath; try dsimp only
  (repeat' split) <;> simp

@[simp] theorem State.redriveAll_frame (s : State) (quad port : Nat) (l : List Nat) (k : GhostKind) :
    (s.redriveAll quad port l k).time = s.time ∧ (s.redriveAll quad port l k).sx = s.sx ∧
    (s.redriveAll quad port l k).pw = s.pw ∧ (s.redriveAll quad port l k).pending = s.pending := by
  unfold State.redriveAll; try dsimp only
  (repeat' split) <;> simp [foldl_keeps State.time, foldl_keeps State.sx, foldl_keeps State.pw, foldl_keeps State.pending,
      apply_ite State.time, apply_ite State.sx, apply_ite State.pw, apply_ite State.pending]

@[simp] theorem State.portGone_frame (s : State) (quad port : Nat) :
    (s.portGone quad port).time = s.time ∧ (s.portGone quad port).link = s.link ∧ (s.portGone quad port).q = s.q ∧
    (s.portGone quad port).sub = s.sub ∧ (s.portGone quad port).sx = s.sx ∧ (s.portGone quad port).dma = s.dma ∧
    (s.portGone quad port).dev = s.dev ∧ (s.portGone quad port).tally = s.tally ∧ (s.portGone quad port).pl = s.pl ∧
    (s.portGone quad port).mail = s.mail ∧ (s.portGone quad port).icPl = s.icPl ∧ (s.portGone quad port).pw = s.pw ∧
    (s.portGone quad port).fresh = s.fresh ∧ (s.portGone quad port).out = s.out ∧
    (s.portGone quad port).pending = s.pending := by
  unfold State.portGone; try dsimp only
  (repeat' split) <;> simp

@[simp] theorem State.portDown_frame (s : State) (quad port : Nat) (st : BitVec 2) :
    (s.portDown quad port st).time = s.time ∧ (s.portDown quad port st).sx = s.sx ∧ (s.portDown quad port st).pw = s.pw ∧
    (s.portDown quad port st).pending = s.pending := by
  unfold State.portDown; try dsimp only
  (repeat' split) <;> simp

@[simp] theorem State.train_frame (s : State) (quad port : Nat) :
    (s.train quad port).time = s.time ∧ (s.train quad port).link = s.link ∧ (s.train quad port).q = s.q ∧
    (s.train quad port).sub = s.sub ∧ (s.train quad port).sx = s.sx ∧ (s.train quad port).dma = s.dma ∧
    (s.train quad port).md = s.md ∧ (s.train quad port).tally = s.tally ∧ (s.train quad port).pl = s.pl ∧
    (s.train quad port).mail = s.mail ∧ (s.train quad port).ic = s.ic ∧ (s.train quad port).icPl = s.icPl ∧
    (s.train quad port).pw = s.pw ∧ (s.train quad port).fresh = s.fresh ∧ (s.train quad port).pending = s.pending := by
  unfold State.train; try dsimp only
  (repeat' split) <;> simp

@[simp] theorem State.linkLost_frame (s : State) (quad port : Nat) (st : BitVec 2) :
    (s.linkLost quad port st).time = s.time ∧ (s.linkLost quad port st).sx = s.sx ∧ (s.linkLost quad port st).pw = s.pw ∧
    (s.linkLost quad port st).pending = s.pending := by
  unfold State.linkLost; try dsimp only
  (repeat' split) <;> simp

@[simp] theorem State.devPathDown_frame (s : State) (e : Exch) :
    (s.devPathDown e).time = s.time ∧ (s.devPathDown e).sx = s.sx ∧ (s.devPathDown e).pw = s.pw ∧
    (s.devPathDown e).pending = s.pending := by
  unfold State.devPathDown; try dsimp only
  (repeat' split) <;> simp [foldl_keeps State.time, foldl_keeps State.sx, foldl_keeps State.pw, foldl_keeps State.pending,
      apply_ite State.time, apply_ite State.sx, apply_ite State.pw, apply_ite State.pending]

@[simp] theorem State.noteFail_frame (s : State) (e : Exch) :
    (s.noteFail e).time = s.time ∧ (s.noteFail e).link = s.link ∧ (s.noteFail e).q = s.q ∧ (s.noteFail e).sx = s.sx ∧
    (s.noteFail e).dma = s.dma ∧ (s.noteFail e).md = s.md ∧ (s.noteFail e).dev = s.dev ∧ (s.noteFail e).tally = s.tally ∧
    (s.noteFail e).pl = s.pl ∧ (s.noteFail e).mail = s.mail ∧ (s.noteFail e).ic = s.ic ∧ (s.noteFail e).icPl = s.icPl ∧
    (s.noteFail e).pw = s.pw ∧ (s.noteFail e).fresh = s.fresh ∧ (s.noteFail e).out = s.out ∧
    (s.noteFail e).pending = s.pending := by
  simp [State.noteFail]

@[simp] theorem State.resendSame_frame (s : State) (x : Nat) (e : Exch) (pos : Option Nat) :
    (s.resendSame x e pos).time = s.time ∧ (s.resendSame x e pos).pw = s.pw ∧ (s.resendSame x e pos).pending = s.pending := by
  unfold State.resendSame; try dsimp only
  (repeat' split) <;> simp

@[simp] theorem State.transport_frame (s : State) (x : Nat) :
    (s.transport x).time = s.time ∧ (s.transport x).sx = s.sx ∧ (s.transport x).pw = s.pw ∧
    (s.transport x).pending = s.pending := by
  unfold State.transport; try dsimp only
  (repeat' split) <;> simp

@[simp] theorem State.transportEnded_frame (s : State) (x : Nat) :
    (s.transportEnded x).time = s.time ∧ (s.transportEnded x).pw = s.pw ∧ (s.transportEnded x).pending = s.pending := by
  unfold State.transportEnded; try dsimp only
  (repeat' split) <;> simp

@[simp] theorem State.abortDone_frame (s : State) (x : Nat) (pos : Option Nat) :
    (s.abortDone x pos).time = s.time ∧ (s.abortDone x pos).pw = s.pw ∧ (s.abortDone x pos).pending = s.pending := by
  unfold State.abortDone; try dsimp only
  (repeat' split) <;> simp

@[simp] theorem State.noPath_frame (s : State) (sch no i : Nat) :
    (s.noPath sch no i).time = s.time ∧ (s.noPath sch no i).sx = s.sx ∧ (s.noPath sch no i).pw = s.pw ∧
    (s.noPath sch no i).pending = s.pending := by
  unfold State.noPath; try dsimp only
  (repeat' split) <;> simp

/-! ## Exchange -/

@[simp] theorem State.usePort_frame (s : State) (quad port : Nat) :
    (s.usePort quad port).time = s.time ∧ (s.usePort quad port).link = s.link ∧ (s.usePort quad port).q = s.q ∧
    (s.usePort quad port).sub = s.sub ∧ (s.usePort quad port).sx = s.sx ∧ (s.usePort quad port).dma = s.dma ∧
    (s.usePort quad port).md = s.md ∧ (s.usePort quad port).tally = s.tally ∧ (s.usePort quad port).pl = s.pl ∧
    (s.usePort quad port).mail = s.mail ∧ (s.usePort quad port).ic = s.ic ∧ (s.usePort quad port).icPl = s.icPl ∧
    (s.usePort quad port).pw = s.pw ∧ (s.usePort quad port).fresh = s.fresh ∧ (s.usePort quad port).pending = s.pending := by
  unfold State.usePort; try dsimp only
  (repeat' split) <;> simp

@[simp] theorem State.useConn_frame (s : State) (dev : Nat) (pd : PathDesc) :
    (s.useConn dev pd).time = s.time ∧ (s.useConn dev pd).link = s.link ∧ (s.useConn dev pd).q = s.q ∧
    (s.useConn dev pd).sub = s.sub ∧ (s.useConn dev pd).sx = s.sx ∧ (s.useConn dev pd).dma = s.dma ∧
    (s.useConn dev pd).md = s.md ∧ (s.useConn dev pd).tally = s.tally ∧ (s.useConn dev pd).pl = s.pl ∧
    (s.useConn dev pd).mail = s.mail ∧ (s.useConn dev pd).ic = s.ic ∧ (s.useConn dev pd).icPl = s.icPl ∧
    (s.useConn dev pd).pw = s.pw ∧ (s.useConn dev pd).fresh = s.fresh ∧ (s.useConn dev pd).pending = s.pending := by
  unfold State.useConn; try dsimp only
  (repeat' split) <;> simp

@[simp] theorem State.knowPos_frame (s : State) (sch : Nat) (c : Cmd) :
    (s.knowPos sch c).time = s.time ∧ (s.knowPos sch c).link = s.link ∧ (s.knowPos sch c).sx = s.sx ∧
    (s.knowPos sch c).dma = s.dma ∧ (s.knowPos sch c).md = s.md ∧ (s.knowPos sch c).tally = s.tally ∧
    (s.knowPos sch c).pl = s.pl ∧ (s.knowPos sch c).mail = s.mail ∧ (s.knowPos sch c).ic = s.ic ∧
    (s.knowPos sch c).icPl = s.icPl ∧ (s.knowPos sch c).pw = s.pw ∧ (s.knowPos sch c).out = s.out ∧
    (s.knowPos sch c).pending = s.pending := by
  unfold State.knowPos; try dsimp only
  (repeat' split) <;> simp

@[simp] theorem State.countRedrive_frame (s : State) (p : Piece) :
    (s.countRedrive p).time = s.time ∧ (s.countRedrive p).link = s.link ∧ (s.countRedrive p).q = s.q ∧
    (s.countRedrive p).sub = s.sub ∧ (s.countRedrive p).sx = s.sx ∧ (s.countRedrive p).dma = s.dma ∧
    (s.countRedrive p).md = s.md ∧ (s.countRedrive p).dev = s.dev ∧ (s.countRedrive p).pl = s.pl ∧
    (s.countRedrive p).mail = s.mail ∧ (s.countRedrive p).ic = s.ic ∧ (s.countRedrive p).icPl = s.icPl ∧
    (s.countRedrive p).pw = s.pw ∧ (s.countRedrive p).fresh = s.fresh ∧ (s.countRedrive p).out = s.out ∧
    (s.countRedrive p).pending = s.pending := by
  unfold State.countRedrive; try dsimp only
  (repeat' split) <;> simp

@[simp] theorem State.wantRead_frame (s : State) (sch no : Nat) (p : Piece) :
    (s.wantRead sch no p).time = s.time ∧ (s.wantRead sch no p).link = s.link ∧ (s.wantRead sch no p).q = s.q ∧
    (s.wantRead sch no p).sub = s.sub ∧ (s.wantRead sch no p).sx = s.sx ∧ (s.wantRead sch no p).dma = s.dma ∧
    (s.wantRead sch no p).dev = s.dev ∧ (s.wantRead sch no p).pl = s.pl ∧ (s.wantRead sch no p).mail = s.mail ∧
    (s.wantRead sch no p).ic = s.ic ∧ (s.wantRead sch no p).icPl = s.icPl ∧ (s.wantRead sch no p).pw = s.pw ∧
    (s.wantRead sch no p).fresh = s.fresh ∧ (s.wantRead sch no p).out = s.out ∧ (s.wantRead sch no p).pending = s.pending := by
  unfold State.wantRead; try dsimp only
  (repeat' split) <;> simp [foldl_keeps State.time, foldl_keeps State.link, foldl_keeps State.q, foldl_keeps State.sub,
      foldl_keeps State.sx, foldl_keeps State.dma, foldl_keeps State.dev, foldl_keeps State.pl, foldl_keeps State.mail,
      foldl_keeps State.ic, foldl_keeps State.icPl, foldl_keeps State.pw, foldl_keeps State.fresh, foldl_keeps State.out,
      foldl_keeps State.pending, apply_ite State.time, apply_ite State.link, apply_ite State.q, apply_ite State.sub, apply_ite
      State.sx, apply_ite State.dma, apply_ite State.dev, apply_ite State.pl, apply_ite State.mail, apply_ite State.ic,
      apply_ite State.icPl, apply_ite State.pw, apply_ite State.fresh, apply_ite State.out, apply_ite State.pending]

@[simp] theorem State.inherit_frame (s : State) (sch no i x : Nat) :
    (s.inherit sch no i x).time = s.time ∧ (s.inherit sch no i x).link = s.link ∧ (s.inherit sch no i x).q = s.q ∧
    (s.inherit sch no i x).sub = s.sub ∧ (s.inherit sch no i x).sx = s.sx ∧ (s.inherit sch no i x).md = s.md ∧
    (s.inherit sch no i x).dev = s.dev ∧ (s.inherit sch no i x).tally = s.tally ∧ (s.inherit sch no i x).pl = s.pl ∧
    (s.inherit sch no i x).mail = s.mail ∧ (s.inherit sch no i x).ic = s.ic ∧ (s.inherit sch no i x).icPl = s.icPl ∧
    (s.inherit sch no i x).pw = s.pw ∧ (s.inherit sch no i x).fresh = s.fresh ∧ (s.inherit sch no i x).out = s.out ∧
    (s.inherit sch no i x).pending = s.pending := by
  unfold State.inherit; try dsimp only
  (repeat' split) <;> simp

@[simp] theorem State.holdExch_frame (s : State) (x sch : Nat) (c : Cmd) (i : Nat) (p : Piece) (pi : Nat) (pd : PathDesc) :
    (s.holdExch x sch c i p pi pd).time = s.time ∧ (s.holdExch x sch c i p pi pd).link = s.link ∧
    (s.holdExch x sch c i p pi pd).q = s.q ∧ (s.holdExch x sch c i p pi pd).sub = s.sub ∧
    (s.holdExch x sch c i p pi pd).sx = s.sx ∧ (s.holdExch x sch c i p pi pd).dma = s.dma ∧
    (s.holdExch x sch c i p pi pd).md = s.md ∧ (s.holdExch x sch c i p pi pd).pl = s.pl ∧
    (s.holdExch x sch c i p pi pd).mail = s.mail ∧ (s.holdExch x sch c i p pi pd).ic = s.ic ∧
    (s.holdExch x sch c i p pi pd).icPl = s.icPl ∧ (s.holdExch x sch c i p pi pd).pw = s.pw ∧
    (s.holdExch x sch c i p pi pd).fresh = s.fresh ∧ (s.holdExch x sch c i p pi pd).out = s.out ∧
    (s.holdExch x sch c i p pi pd).pending = s.pending := by
  simp [State.holdExch]

@[simp] theorem State.sendExch_frame (s : State) (x sch : Nat) (c : Cmd) (i : Nat) (p : Piece) (pi : Nat) (pd : PathDesc) :
    (s.sendExch x sch c i p pi pd).time = s.time ∧ (s.sendExch x sch c i p pi pd).link = s.link ∧
    (s.sendExch x sch c i p pi pd).sx = s.sx ∧ (s.sendExch x sch c i p pi pd).pl = s.pl ∧
    (s.sendExch x sch c i p pi pd).mail = s.mail ∧ (s.sendExch x sch c i p pi pd).ic = s.ic ∧
    (s.sendExch x sch c i p pi pd).icPl = s.icPl ∧ (s.sendExch x sch c i p pi pd).pw = s.pw ∧
    (s.sendExch x sch c i p pi pd).pending = s.pending := by
  unfold State.sendExch; try dsimp only
  (repeat' split) <;> simp

@[simp] theorem State.refuseSend_frame (s : State) (sch no i : Nat) :
    (s.refuseSend sch no i).time = s.time ∧ (s.refuseSend sch no i).pw = s.pw ∧ (s.refuseSend sch no i).pending = s.pending := by
  unfold State.refuseSend; try dsimp only
  (repeat' split) <;> simp

@[simp] theorem State.keepSense_frame (s : State) (quad sch : Nat) (l : List Byte) :
    (s.keepSense quad sch l).time = s.time ∧ (s.keepSense quad sch l).link = s.link ∧ (s.keepSense quad sch l).q = s.q ∧
    (s.keepSense quad sch l).sx = s.sx ∧ (s.keepSense quad sch l).dev = s.dev ∧ (s.keepSense quad sch l).pl = s.pl ∧
    (s.keepSense quad sch l).mail = s.mail ∧ (s.keepSense quad sch l).ic = s.ic ∧ (s.keepSense quad sch l).icPl = s.icPl ∧
    (s.keepSense quad sch l).pw = s.pw ∧ (s.keepSense quad sch l).fresh = s.fresh ∧
    (s.keepSense quad sch l).pending = s.pending := by
  unfold State.keepSense; try dsimp only
  (repeat' split) <;> simp

@[simp] theorem State.seqEnd_frame (s : State) (dev : Nat) (c : Cmd) (ds : Byte) (read : Option Nat) :
    (s.seqEnd dev c ds read).time = s.time ∧ (s.seqEnd dev c ds read).link = s.link ∧ (s.seqEnd dev c ds read).sub = s.sub ∧
    (s.seqEnd dev c ds read).sx = s.sx ∧ (s.seqEnd dev c ds read).dma = s.dma ∧ (s.seqEnd dev c ds read).md = s.md ∧
    (s.seqEnd dev c ds read).tally = s.tally ∧ (s.seqEnd dev c ds read).pl = s.pl ∧ (s.seqEnd dev c ds read).mail = s.mail ∧
    (s.seqEnd dev c ds read).ic = s.ic ∧ (s.seqEnd dev c ds read).icPl = s.icPl ∧ (s.seqEnd dev c ds read).pw = s.pw ∧
    (s.seqEnd dev c ds read).fresh = s.fresh ∧ (s.seqEnd dev c ds read).out = s.out ∧
    (s.seqEnd dev c ds read).pending = s.pending := by
  unfold State.seqEnd; try dsimp only
  (repeat' split) <;> simp

@[simp] theorem State.exchAnswer_frame (s : State) (x : Nat) (e : Exch) (a : DevAnswer) :
    (s.exchAnswer x e a).time = s.time ∧ (s.exchAnswer x e a).pw = s.pw ∧ (s.exchAnswer x e a).pending = s.pending := by
  unfold State.exchAnswer; try dsimp only
  (repeat' split) <;> simp

@[simp] theorem State.declareLost_frame (s : State) (sch quad x : Nat) :
    (s.declareLost sch quad x).time = s.time ∧ (s.declareLost sch quad x).sx = s.sx ∧
    (s.declareLost sch quad x).dma = s.dma ∧ (s.declareLost sch quad x).dev = s.dev ∧
    (s.declareLost sch quad x).mail = s.mail ∧ (s.declareLost sch quad x).icPl = s.icPl ∧
    (s.declareLost sch quad x).pw = s.pw ∧ (s.declareLost sch quad x).fresh = s.fresh ∧
    (s.declareLost sch quad x).pending = s.pending := by
  unfold State.declareLost; try dsimp only
  (repeat' split) <;> simp

@[simp] theorem State.noteEscalate_frame (s : State) (e : Exch) :
    (s.noteEscalate e).time = s.time ∧ (s.noteEscalate e).pw = s.pw ∧ (s.noteEscalate e).pending = s.pending := by
  simp [State.noteEscalate]

@[simp] theorem State.enableCtrl_frame (s : State) (quad port : Nat) (id : Word) :
    (s.enableCtrl quad port id).time = s.time ∧ (s.enableCtrl quad port id).link = s.link ∧
    (s.enableCtrl quad port id).q = s.q ∧ (s.enableCtrl quad port id).sub = s.sub ∧ (s.enableCtrl quad port id).sx = s.sx ∧
    (s.enableCtrl quad port id).dma = s.dma ∧ (s.enableCtrl quad port id).md = s.md ∧
    (s.enableCtrl quad port id).dev = s.dev ∧ (s.enableCtrl quad port id).tally = s.tally ∧
    (s.enableCtrl quad port id).pl = s.pl ∧ (s.enableCtrl quad port id).mail = s.mail ∧
    (s.enableCtrl quad port id).ic = s.ic ∧ (s.enableCtrl quad port id).icPl = s.icPl ∧
    (s.enableCtrl quad port id).pw = s.pw ∧ (s.enableCtrl quad port id).fresh = s.fresh ∧
    (s.enableCtrl quad port id).pending = s.pending := by
  simp [State.enableCtrl]

@[simp] theorem State.shareQuad_frame (s : State) (quad : Nat) :
    (s.shareQuad quad).time = s.time ∧ (s.shareQuad quad).link = s.link ∧ (s.shareQuad quad).sub = s.sub ∧
    (s.shareQuad quad).sx = s.sx ∧ (s.shareQuad quad).dma = s.dma ∧ (s.shareQuad quad).md = s.md ∧
    (s.shareQuad quad).tally = s.tally ∧ (s.shareQuad quad).pl = s.pl ∧ (s.shareQuad quad).mail = s.mail ∧
    (s.shareQuad quad).ic = s.ic ∧ (s.shareQuad quad).icPl = s.icPl ∧ (s.shareQuad quad).pw = s.pw ∧
    (s.shareQuad quad).fresh = s.fresh ∧ (s.shareQuad quad).pending = s.pending := by
  unfold State.shareQuad; try dsimp only
  (repeat' split) <;> simp

@[simp] theorem State.initCtrl_frame (s : State) (quad port : Nat) (id : Word) :
    (s.initCtrl quad port id).time = s.time ∧ (s.initCtrl quad port id).link = s.link ∧
    (s.initCtrl quad port id).sub = s.sub ∧ (s.initCtrl quad port id).sx = s.sx ∧ (s.initCtrl quad port id).dma = s.dma ∧
    (s.initCtrl quad port id).md = s.md ∧ (s.initCtrl quad port id).tally = s.tally ∧ (s.initCtrl quad port id).pl = s.pl ∧
    (s.initCtrl quad port id).mail = s.mail ∧ (s.initCtrl quad port id).ic = s.ic ∧ (s.initCtrl quad port id).icPl = s.icPl ∧
    (s.initCtrl quad port id).pw = s.pw ∧ (s.initCtrl quad port id).pending = s.pending := by
  unfold State.initCtrl; try dsimp only
  (repeat' split) <;> simp

@[simp] theorem State.sendReset_frame (s : State) (e : Exch) :
    (s.sendReset e).time = s.time ∧ (s.sendReset e).link = s.link ∧ (s.sendReset e).sub = s.sub ∧ (s.sendReset e).sx = s.sx ∧
    (s.sendReset e).dma = s.dma ∧ (s.sendReset e).md = s.md ∧ (s.sendReset e).tally = s.tally ∧ (s.sendReset e).pl = s.pl ∧
    (s.sendReset e).mail = s.mail ∧ (s.sendReset e).ic = s.ic ∧ (s.sendReset e).icPl = s.icPl ∧ (s.sendReset e).pw = s.pw ∧
    (s.sendReset e).pending = s.pending := by
  unfold State.sendReset; try dsimp only
  (repeat' split) <;> simp

@[simp] theorem State.endByReset_frame (s : State) (x : Nat) :
    (s.endByReset x).time = s.time ∧ (s.endByReset x).pw = s.pw ∧ (s.endByReset x).pending = s.pending := by
  unfold State.endByReset; try dsimp only
  (repeat' split) <;> simp

@[simp] theorem State.escalate_frame (s : State) (x : Nat) (e : Exch) :
    (s.escalate x e).time = s.time ∧ (s.escalate x e).pw = s.pw ∧ (s.escalate x e).pending = s.pending := by
  unfold State.escalate; try dsimp only
  (repeat' split) <;> simp [foldl_keeps State.time, foldl_keeps State.pw, foldl_keeps State.pending, apply_ite State.time,
      apply_ite State.pw, apply_ite State.pending]

@[simp] theorem State.loseExch_frame (s : State) (x : Nat) (e : Exch) :
    (s.loseExch x e).time = s.time ∧ (s.loseExch x e).pw = s.pw ∧ (s.loseExch x e).pending = s.pending := by
  unfold State.loseExch; try dsimp only
  (repeat' split) <;> simp

@[simp] theorem State.ghostGone_frame (s : State) (k : Nat) (g : Ghost) (pos : Option Nat) :
    (s.ghostGone k g pos).time = s.time ∧ (s.ghostGone k g pos).pw = s.pw ∧ (s.ghostGone k g pos).pending = s.pending := by
  unfold State.ghostGone; try dsimp only
  (repeat' split) <;> simp

/-! ## Move -/

@[simp] theorem State.modSeg_frame (s : State) (n : Nat) (f : HeldSeg → HeldSeg) :
    (s.modSeg n f).time = s.time ∧ (s.modSeg n f).link = s.link ∧ (s.modSeg n f).q = s.q ∧ (s.modSeg n f).sub = s.sub ∧
    (s.modSeg n f).sx = s.sx ∧ (s.modSeg n f).md = s.md ∧ (s.modSeg n f).dev = s.dev ∧ (s.modSeg n f).tally = s.tally ∧
    (s.modSeg n f).pl = s.pl ∧ (s.modSeg n f).mail = s.mail ∧ (s.modSeg n f).ic = s.ic ∧ (s.modSeg n f).icPl = s.icPl ∧
    (s.modSeg n f).pw = s.pw ∧ (s.modSeg n f).fresh = s.fresh ∧ (s.modSeg n f).out = s.out ∧
    (s.modSeg n f).pending = s.pending := by
  simp [State.modSeg]

@[simp] theorem State.poisonCmd_frame (s : State) (sch no : Nat) :
    (s.poisonCmd sch no).time = s.time ∧ (s.poisonCmd sch no).sx = s.sx ∧ (s.poisonCmd sch no).pw = s.pw ∧
    (s.poisonCmd sch no).pending = s.pending := by
  unfold State.poisonCmd; try dsimp only
  (repeat' split) <;> simp

@[simp] theorem State.giveUp_frame (s : State) (x : Nat) :
    (s.giveUp x).time = s.time ∧ (s.giveUp x).sx = s.sx ∧ (s.giveUp x).pw = s.pw ∧ (s.giveUp x).pending = s.pending := by
  unfold State.giveUp; try dsimp only
  (repeat' split) <;> simp

@[simp] theorem State.wantDma_frame (s : State) (k : Nat) :
    (s.wantDma k).time = s.time ∧ (s.wantDma k).link = s.link ∧ (s.wantDma k).q = s.q ∧ (s.wantDma k).sub = s.sub ∧
    (s.wantDma k).sx = s.sx ∧ (s.wantDma k).dev = s.dev ∧ (s.wantDma k).pl = s.pl ∧ (s.wantDma k).mail = s.mail ∧
    (s.wantDma k).ic = s.ic ∧ (s.wantDma k).icPl = s.icPl ∧ (s.wantDma k).pw = s.pw ∧ (s.wantDma k).fresh = s.fresh ∧
    (s.wantDma k).out = s.out ∧ (s.wantDma k).pending = s.pending := by
  unfold State.wantDma; try dsimp only
  (repeat' split) <;> simp

@[simp] theorem State.onward_frame (s : State) (k : Nat) :
    (s.onward k).time = s.time ∧ (s.onward k).link = s.link ∧ (s.onward k).q = s.q ∧ (s.onward k).sub = s.sub ∧
    (s.onward k).sx = s.sx ∧ (s.onward k).dev = s.dev ∧ (s.onward k).pl = s.pl ∧ (s.onward k).mail = s.mail ∧
    (s.onward k).ic = s.ic ∧ (s.onward k).icPl = s.icPl ∧ (s.onward k).pw = s.pw ∧ (s.onward k).fresh = s.fresh ∧
    (s.onward k).out = s.out ∧ (s.onward k).pending = s.pending := by
  unfold State.onward; try dsimp only
  (repeat' split) <;> simp

@[simp] theorem State.writeOut_frame (s : State) (r : WriteReq) (bs : List Byte) (poison : Bool) (bad : List Nat) :
    (s.writeOut r bs poison bad).time = s.time ∧ (s.writeOut r bs poison bad).q = s.q ∧
    (s.writeOut r bs poison bad).dma = s.dma ∧ (s.writeOut r bs poison bad).md = s.md ∧
    (s.writeOut r bs poison bad).dev = s.dev ∧ (s.writeOut r bs poison bad).tally = s.tally ∧
    (s.writeOut r bs poison bad).pl = s.pl ∧ (s.writeOut r bs poison bad).mail = s.mail ∧
    (s.writeOut r bs poison bad).ic = s.ic ∧ (s.writeOut r bs poison bad).icPl = s.icPl ∧
    (s.writeOut r bs poison bad).pw = s.pw ∧ (s.writeOut r bs poison bad).fresh = s.fresh ∧
    (s.writeOut r bs poison bad).pending = s.pending := by
  unfold State.writeOut; try dsimp only
  (repeat' split) <;> simp

@[simp] theorem State.fabricUe_frame (s : State) (n sch : Nat) :
    (s.fabricUe n sch).time = s.time ∧ (s.fabricUe n sch).sx = s.sx ∧ (s.fabricUe n sch).dma = s.dma ∧
    (s.fabricUe n sch).dev = s.dev ∧ (s.fabricUe n sch).mail = s.mail ∧ (s.fabricUe n sch).icPl = s.icPl ∧
    (s.fabricUe n sch).pw = s.pw ∧ (s.fabricUe n sch).fresh = s.fresh ∧ (s.fabricUe n sch).pending = s.pending := by
  unfold State.fabricUe; try dsimp only
  (repeat' split) <;> simp [apply_ite State.time, apply_ite State.sx, apply_ite State.dma, apply_ite State.dev, apply_ite
      State.mail, apply_ite State.icPl, apply_ite State.pw, apply_ite State.fresh, apply_ite State.pending, iter_keeps
      State.time, iter_keeps State.sx, iter_keeps State.dma, iter_keeps State.dev, iter_keeps State.mail, iter_keeps
      State.icPl, iter_keeps State.pw, iter_keeps State.fresh, iter_keeps State.pending]

@[simp] theorem State.bufferFault_frame (s : State) (e : Exch) (x a : Nat) :
    (s.bufferFault e x a).time = s.time ∧ (s.bufferFault e x a).sx = s.sx ∧ (s.bufferFault e x a).pw = s.pw ∧
    (s.bufferFault e x a).pending = s.pending := by
  simp [State.bufferFault]

@[simp] theorem State.answerRead_frame (s : State) (e : Exch) (quad port : Nat) (addr : Word) (x : Nat) (r : List Byte × Bool) :
    (s.answerRead e quad port addr x r).time = s.time ∧ (s.answerRead e quad port addr x r).sx = s.sx ∧
    (s.answerRead e quad port addr x r).pw = s.pw ∧ (s.answerRead e quad port addr x r).pending = s.pending := by
  unfold State.answerRead; try dsimp only
  (repeat' split) <;> simp

@[simp] theorem State.fabricFault_frame (s : State) (e : Exch) (x : Nat) :
    (s.fabricFault e x).time = s.time ∧ (s.fabricFault e x).sx = s.sx ∧ (s.fabricFault e x).pw = s.pw ∧
    (s.fabricFault e x).pending = s.pending := by
  simp [State.fabricFault]

@[simp] theorem State.answerWait_frame (s : State) (x : Nat) (r : DevRead) :
    (s.answerWait x r).time = s.time ∧ (s.answerWait x r).pending = s.pending := by
  unfold State.answerWait; try dsimp only
  (repeat' split) <;> simp

@[simp] theorem State.answerReads_frame (s : State) (x : Nat) :
    (s.answerReads x).time = s.time ∧ (s.answerReads x).pending = s.pending := by
  unfold State.answerReads; try dsimp only
  (repeat' split) <;> simp [foldl_keeps State.time, foldl_keeps State.pending, apply_ite State.time, apply_ite State.pending]

@[simp] theorem State.filled_frame (s : State) (d : Nat) (pc x' k a : Nat) (bs : List Byte) (bad : BitVec 8) :
    (s.filled d pc x' k a bs bad).time = s.time ∧ (s.filled d pc x' k a bs bad).pending = s.pending := by
  unfold State.filled; try dsimp only
  (repeat' split) <;> simp

@[simp] theorem State.fillFailed_frame (s : State) (d a : Nat) (st : CplStatus) :
    (s.fillFailed d a st).time = s.time ∧ (s.fillFailed d a st).sx = s.sx ∧ (s.fillFailed d a st).pw = s.pw ∧
    (s.fillFailed d a st).pending = s.pending := by
  unfold State.fillFailed; try dsimp only
  (repeat' split) <;> simp

/-! ## Fifo -/

@[simp] theorem State.onFifo_frame (s : State) (quad : Nat) (f : Fifo → Fifo) :
    (s.onFifo quad f).time = s.time ∧ (s.onFifo quad f).link = s.link ∧ (s.onFifo quad f).q = s.q ∧
    (s.onFifo quad f).sub = s.sub ∧ (s.onFifo quad f).sx = s.sx ∧ (s.onFifo quad f).md = s.md ∧
    (s.onFifo quad f).dev = s.dev ∧ (s.onFifo quad f).tally = s.tally ∧ (s.onFifo quad f).pl = s.pl ∧
    (s.onFifo quad f).mail = s.mail ∧ (s.onFifo quad f).ic = s.ic ∧ (s.onFifo quad f).icPl = s.icPl ∧
    (s.onFifo quad f).pw = s.pw ∧ (s.onFifo quad f).fresh = s.fresh ∧ (s.onFifo quad f).pending = s.pending := by
  simp [State.onFifo]

@[simp] theorem State.overrun_frame (s : State) (x : Nat) :
    (s.overrun x).time = s.time ∧ (s.overrun x).sx = s.sx ∧ (s.overrun x).pw = s.pw ∧ (s.overrun x).pending = s.pending := by
  simp [State.overrun]

@[simp] theorem State.touchConn_frame (s : State) (x : Nat) :
    (s.touchConn x).time = s.time ∧ (s.touchConn x).link = s.link ∧ (s.touchConn x).q = s.q ∧ (s.touchConn x).sub = s.sub ∧
    (s.touchConn x).sx = s.sx ∧ (s.touchConn x).dma = s.dma ∧ (s.touchConn x).md = s.md ∧ (s.touchConn x).tally = s.tally ∧
    (s.touchConn x).pl = s.pl ∧ (s.touchConn x).mail = s.mail ∧ (s.touchConn x).ic = s.ic ∧ (s.touchConn x).icPl = s.icPl ∧
    (s.touchConn x).pw = s.pw ∧ (s.touchConn x).fresh = s.fresh ∧ (s.touchConn x).pending = s.pending := by
  unfold State.touchConn; try dsimp only
  (repeat' split) <;> simp

@[simp] theorem State.popFrame_frame (s : State) (quad : Nat) (r : RxFrame) :
    (s.popFrame quad r).time = s.time ∧ (s.popFrame quad r).link = s.link ∧ (s.popFrame quad r).q = s.q ∧
    (s.popFrame quad r).sub = s.sub ∧ (s.popFrame quad r).sx = s.sx ∧ (s.popFrame quad r).dev = s.dev ∧
    (s.popFrame quad r).tally = s.tally ∧ (s.popFrame quad r).pl = s.pl ∧ (s.popFrame quad r).mail = s.mail ∧
    (s.popFrame quad r).ic = s.ic ∧ (s.popFrame quad r).icPl = s.icPl ∧ (s.popFrame quad r).pw = s.pw ∧
    (s.popFrame quad r).fresh = s.fresh ∧ (s.popFrame quad r).pending = s.pending := by
  simp [State.popFrame]

@[simp] theorem State.setWatermarks_frame (s : State) (quad : Nat) (val : Word) :
    (s.setWatermarks quad val).time = s.time ∧ (s.setWatermarks quad val).link = s.link ∧
    (s.setWatermarks quad val).q = s.q ∧ (s.setWatermarks quad val).sub = s.sub ∧ (s.setWatermarks quad val).sx = s.sx ∧
    (s.setWatermarks quad val).md = s.md ∧ (s.setWatermarks quad val).dev = s.dev ∧
    (s.setWatermarks quad val).tally = s.tally ∧ (s.setWatermarks quad val).pl = s.pl ∧
    (s.setWatermarks quad val).mail = s.mail ∧ (s.setWatermarks quad val).ic = s.ic ∧
    (s.setWatermarks quad val).icPl = s.icPl ∧ (s.setWatermarks quad val).pw = s.pw ∧
    (s.setWatermarks quad val).fresh = s.fresh ∧ (s.setWatermarks quad val).out = s.out ∧
    (s.setWatermarks quad val).pending = s.pending := by
  unfold State.setWatermarks; try dsimp only
  (repeat' split) <;> simp

@[simp] theorem State.offer_frame (s : State) (x : Nat) :
    (s.offer x).time = s.time ∧ (s.offer x).sx = s.sx ∧ (s.offer x).pw = s.pw ∧ (s.offer x).pending = s.pending := by
  unfold State.offer; try dsimp only
  (repeat' split) <;> simp

@[simp] theorem State.offerNext_frame (s : State) (quad : Nat) :
    (s.offerNext quad).time = s.time ∧ (s.offerNext quad).sx = s.sx ∧ (s.offerNext quad).pw = s.pw ∧
    (s.offerNext quad).pending = s.pending := by
  unfold State.offerNext; try dsimp only
  (repeat' split) <;> simp

@[simp] theorem State.txFault_frame (s : State) (quad : Nat) :
    (s.txFault quad).time = s.time ∧ (s.txFault quad).link = s.link ∧ (s.txFault quad).q = s.q ∧
    (s.txFault quad).sub = s.sub ∧ (s.txFault quad).sx = s.sx ∧ (s.txFault quad).md = s.md ∧
    (s.txFault quad).tally = s.tally ∧ (s.txFault quad).pl = s.pl ∧ (s.txFault quad).mail = s.mail ∧
    (s.txFault quad).ic = s.ic ∧ (s.txFault quad).icPl = s.icPl ∧ (s.txFault quad).pw = s.pw ∧
    (s.txFault quad).fresh = s.fresh ∧ (s.txFault quad).out = s.out ∧ (s.txFault quad).pending = s.pending := by
  unfold State.txFault; try dsimp only
  (repeat' split) <;> simp

@[simp] theorem State.sendPayload_frame (s : State) (x : Nat) (e : Exch) (p : Piece) (off : Nat) (data : List Byte) :
    (s.sendPayload x e p off data).time = s.time ∧ (s.sendPayload x e p off data).link = s.link ∧
    (s.sendPayload x e p off data).q = s.q ∧ (s.sendPayload x e p off data).sub = s.sub ∧
    (s.sendPayload x e p off data).sx = s.sx ∧ (s.sendPayload x e p off data).dma = s.dma ∧
    (s.sendPayload x e p off data).md = s.md ∧ (s.sendPayload x e p off data).dev = s.dev ∧
    (s.sendPayload x e p off data).tally = s.tally ∧ (s.sendPayload x e p off data).pl = s.pl ∧
    (s.sendPayload x e p off data).mail = s.mail ∧ (s.sendPayload x e p off data).ic = s.ic ∧
    (s.sendPayload x e p off data).icPl = s.icPl ∧ (s.sendPayload x e p off data).pw = s.pw ∧
    (s.sendPayload x e p off data).fresh = s.fresh ∧ (s.sendPayload x e p off data).pending = s.pending := by
  unfold State.sendPayload; try dsimp only
  (repeat' split) <;> simp

@[simp] theorem State.devRefuse_frame (s : State) (quad port : Nat) (addr : Word) (x : Option Nat) :
    (s.devRefuse quad port addr x).time = s.time ∧ (s.devRefuse quad port addr x).sx = s.sx ∧
    (s.devRefuse quad port addr x).pw = s.pw ∧ (s.devRefuse quad port addr x).pending = s.pending := by
  unfold State.devRefuse; try dsimp only
  (repeat' split) <;> simp

@[simp] theorem State.queueRamReq_frame (s : State) (quad port : Nat) (r : DevMemReq) :
    (s.queueRamReq quad port r).time = s.time ∧ (s.queueRamReq quad port r).link = s.link ∧
    (s.queueRamReq quad port r).q = s.q ∧ (s.queueRamReq quad port r).sub = s.sub ∧ (s.queueRamReq quad port r).sx = s.sx ∧
    (s.queueRamReq quad port r).dma = s.dma ∧ (s.queueRamReq quad port r).md = s.md ∧
    (s.queueRamReq quad port r).tally = s.tally ∧ (s.queueRamReq quad port r).pl = s.pl ∧
    (s.queueRamReq quad port r).mail = s.mail ∧ (s.queueRamReq quad port r).ic = s.ic ∧
    (s.queueRamReq quad port r).icPl = s.icPl ∧ (s.queueRamReq quad port r).pw = s.pw ∧
    (s.queueRamReq quad port r).pending = s.pending := by
  unfold State.queueRamReq; try dsimp only
  (repeat' split) <;> simp [foldl_keeps State.time, foldl_keeps State.link, foldl_keeps State.q, foldl_keeps State.sub,
      foldl_keeps State.sx, foldl_keeps State.dma, foldl_keeps State.md, foldl_keeps State.tally, foldl_keeps State.pl,
      foldl_keeps State.mail, foldl_keeps State.ic, foldl_keeps State.icPl, foldl_keeps State.pw, foldl_keeps State.pending,
      apply_ite State.time, apply_ite State.link, apply_ite State.q, apply_ite State.sub, apply_ite State.sx, apply_ite
      State.dma, apply_ite State.md, apply_ite State.tally, apply_ite State.pl, apply_ite State.mail, apply_ite State.ic,
      apply_ite State.icPl, apply_ite State.pw, apply_ite State.pending]

@[simp] theorem State.prpReq_frame (s : State) (quad port : Nat) (r : DevMemReq) (x off : Nat) :
    (s.prpReq quad port r x off).time = s.time ∧ (s.prpReq quad port r x off).sx = s.sx ∧
    (s.prpReq quad port r x off).pw = s.pw ∧ (s.prpReq quad port r x off).pending = s.pending := by
  unfold State.prpReq; try dsimp only
  (repeat' split) <;> simp

/-! ## Awake -/

@[simp] theorem State.wake_frame (s : State) (k : Nat) :
    (s.wake k).time = s.time ∧ (s.wake k).link = s.link ∧ (s.wake k).q = s.q ∧ (s.wake k).sub = s.sub ∧
    (s.wake k).sx = s.sx ∧ (s.wake k).dma = s.dma ∧ (s.wake k).md = s.md ∧ (s.wake k).dev = s.dev ∧
    (s.wake k).tally = s.tally ∧ (s.wake k).pl = s.pl ∧ (s.wake k).mail = s.mail ∧ (s.wake k).ic = s.ic ∧
    (s.wake k).icPl = s.icPl ∧ (s.wake k).fresh = s.fresh ∧ (s.wake k).out = s.out ∧ (s.wake k).pending = s.pending := by
  unfold State.wake; try dsimp only
  (repeat' split) <;> simp

@[simp] theorem State.recomputeAwake_frame (s : State) :
    (s.recomputeAwake).time = s.time ∧ (s.recomputeAwake).link = s.link ∧ (s.recomputeAwake).q = s.q ∧
    (s.recomputeAwake).sub = s.sub ∧ (s.recomputeAwake).sx = s.sx ∧ (s.recomputeAwake).dma = s.dma ∧
    (s.recomputeAwake).md = s.md ∧ (s.recomputeAwake).dev = s.dev ∧ (s.recomputeAwake).tally = s.tally ∧
    (s.recomputeAwake).pl = s.pl ∧ (s.recomputeAwake).mail = s.mail ∧ (s.recomputeAwake).ic = s.ic ∧
    (s.recomputeAwake).icPl = s.icPl ∧ (s.recomputeAwake).fresh = s.fresh ∧ (s.recomputeAwake).out = s.out ∧
    (s.recomputeAwake).pending = s.pending := by
  unfold State.recomputeAwake; try dsimp only
  (repeat' split) <;> simp [foldl_keeps State.time, foldl_keeps State.link, foldl_keeps State.q, foldl_keeps State.sub,
      foldl_keeps State.sx, foldl_keeps State.dma, foldl_keeps State.md, foldl_keeps State.dev, foldl_keeps State.tally,
      foldl_keeps State.pl, foldl_keeps State.mail, foldl_keeps State.ic, foldl_keeps State.icPl, foldl_keeps State.fresh,
      foldl_keeps State.out, foldl_keeps State.pending, apply_ite State.time, apply_ite State.link, apply_ite State.q,
      apply_ite State.sub, apply_ite State.sx, apply_ite State.dma, apply_ite State.md, apply_ite State.dev, apply_ite
      State.tally, apply_ite State.pl, apply_ite State.mail, apply_ite State.ic, apply_ite State.icPl, apply_ite State.fresh,
      apply_ite State.out, apply_ite State.pending]

@[simp] theorem State.rest_frame (s : State) (k : Nat) (st : CluSt) :
    (s.rest k st).time = s.time ∧ (s.rest k st).link = s.link ∧ (s.rest k st).q = s.q ∧ (s.rest k st).sub = s.sub ∧
    (s.rest k st).sx = s.sx ∧ (s.rest k st).dma = s.dma ∧ (s.rest k st).md = s.md ∧ (s.rest k st).dev = s.dev ∧
    (s.rest k st).tally = s.tally ∧ (s.rest k st).pl = s.pl ∧ (s.rest k st).mail = s.mail ∧ (s.rest k st).ic = s.ic ∧
    (s.rest k st).icPl = s.icPl ∧ (s.rest k st).fresh = s.fresh ∧ (s.rest k st).out = s.out ∧
    (s.rest k st).pending = s.pending := by
  unfold State.rest; try dsimp only
  (repeat' split) <;> simp

@[simp] theorem State.setMaxState_frame (s : State) (val : Word) :
    (s.setMaxState val).time = s.time ∧ (s.setMaxState val).link = s.link ∧ (s.setMaxState val).q = s.q ∧
    (s.setMaxState val).sub = s.sub ∧ (s.setMaxState val).sx = s.sx ∧ (s.setMaxState val).dma = s.dma ∧
    (s.setMaxState val).md = s.md ∧ (s.setMaxState val).dev = s.dev ∧ (s.setMaxState val).tally = s.tally ∧
    (s.setMaxState val).pl = s.pl ∧ (s.setMaxState val).mail = s.mail ∧ (s.setMaxState val).ic = s.ic ∧
    (s.setMaxState val).icPl = s.icPl ∧ (s.setMaxState val).fresh = s.fresh ∧ (s.setMaxState val).out = s.out ∧
    (s.setMaxState val).pending = s.pending := by
  simp [State.setMaxState]

/-! ## Recover -/

@[simp] theorem State.tallyRead_frame (s : State) :
    (s.tallyRead).time = s.time ∧ (s.tallyRead).link = s.link ∧ (s.tallyRead).q = s.q ∧ (s.tallyRead).sub = s.sub ∧
    (s.tallyRead).sx = s.sx ∧ (s.tallyRead).dma = s.dma ∧ (s.tallyRead).md = s.md ∧ (s.tallyRead).dev = s.dev ∧
    (s.tallyRead).pl = s.pl ∧ (s.tallyRead).mail = s.mail ∧ (s.tallyRead).ic = s.ic ∧ (s.tallyRead).icPl = s.icPl ∧
    (s.tallyRead).pw = s.pw ∧ (s.tallyRead).out = s.out ∧ (s.tallyRead).pending = s.pending := by
  unfold State.tallyRead; try dsimp only
  (repeat' split) <;> simp

@[simp] theorem State.returnLeak_frame (s : State) (line : Nat) (n : Word) :
    (s.returnLeak line n).time = s.time ∧ (s.returnLeak line n).link = s.link ∧ (s.returnLeak line n).q = s.q ∧
    (s.returnLeak line n).sub = s.sub ∧ (s.returnLeak line n).sx = s.sx ∧ (s.returnLeak line n).md = s.md ∧
    (s.returnLeak line n).dev = s.dev ∧ (s.returnLeak line n).pl = s.pl ∧ (s.returnLeak line n).mail = s.mail ∧
    (s.returnLeak line n).ic = s.ic ∧ (s.returnLeak line n).icPl = s.icPl ∧ (s.returnLeak line n).pw = s.pw ∧
    (s.returnLeak line n).fresh = s.fresh ∧ (s.returnLeak line n).out = s.out ∧ (s.returnLeak line n).pending = s.pending := by
  unfold State.returnLeak; try dsimp only
  (repeat' split) <;> simp

@[simp] theorem State.auditLine_frame (s : State) (line : Nat) :
    (s.auditLine line).1.time = s.time ∧ (s.auditLine line).1.link = s.link ∧ (s.auditLine line).1.q = s.q ∧
    (s.auditLine line).1.sub = s.sub ∧ (s.auditLine line).1.sx = s.sx ∧ (s.auditLine line).1.md = s.md ∧
    (s.auditLine line).1.dev = s.dev ∧ (s.auditLine line).1.pl = s.pl ∧ (s.auditLine line).1.mail = s.mail ∧
    (s.auditLine line).1.ic = s.ic ∧ (s.auditLine line).1.icPl = s.icPl ∧ (s.auditLine line).1.pw = s.pw ∧
    (s.auditLine line).1.fresh = s.fresh ∧ (s.auditLine line).1.out = s.out ∧ (s.auditLine line).1.pending = s.pending := by
  unfold State.auditLine; try dsimp only
  (repeat' split) <;> simp

@[simp] theorem State.tallySnap_frame (s : State) :
    (s.tallySnap).time = s.time ∧ (s.tallySnap).link = s.link ∧ (s.tallySnap).q = s.q ∧ (s.tallySnap).sub = s.sub ∧
    (s.tallySnap).sx = s.sx ∧ (s.tallySnap).dma = s.dma ∧ (s.tallySnap).md = s.md ∧ (s.tallySnap).dev = s.dev ∧
    (s.tallySnap).pl = s.pl ∧ (s.tallySnap).mail = s.mail ∧ (s.tallySnap).ic = s.ic ∧ (s.tallySnap).icPl = s.icPl ∧
    (s.tallySnap).pw = s.pw ∧ (s.tallySnap).fresh = s.fresh ∧ (s.tallySnap).out = s.out ∧ (s.tallySnap).pending = s.pending := by
  simp [State.tallySnap]

@[simp] theorem State.stopThreads_frame (s : State) (p : Nat → Bool) :
    (s.stopThreads p).time = s.time ∧ (s.stopThreads p).q = s.q ∧ (s.stopThreads p).sub = s.sub ∧
    (s.stopThreads p).dma = s.dma ∧ (s.stopThreads p).dev = s.dev ∧ (s.stopThreads p).pl = s.pl ∧
    (s.stopThreads p).mail = s.mail ∧ (s.stopThreads p).ic = s.ic ∧ (s.stopThreads p).icPl = s.icPl ∧
    (s.stopThreads p).pw = s.pw ∧ (s.stopThreads p).fresh = s.fresh ∧ (s.stopThreads p).out = s.out ∧
    (s.stopThreads p).pending = s.pending := by
  unfold State.stopThreads; try dsimp only
  (repeat' split) <;> simp [foldl_keeps State.time, foldl_keeps State.q, foldl_keeps State.sub, foldl_keeps State.dma,
      foldl_keeps State.dev, foldl_keeps State.pl, foldl_keeps State.mail, foldl_keeps State.ic, foldl_keeps State.icPl,
      foldl_keeps State.pw, foldl_keeps State.fresh, foldl_keeps State.out, foldl_keeps State.pending, apply_ite State.time,
      apply_ite State.q, apply_ite State.sub, apply_ite State.dma, apply_ite State.dev, apply_ite State.pl, apply_ite
      State.mail, apply_ite State.ic, apply_ite State.icPl, apply_ite State.pw, apply_ite State.fresh, apply_ite State.out,
      apply_ite State.pending]

@[simp] theorem State.requeueStopped_frame (s : State) (k : Nat) :
    (s.requeueStopped k).time = s.time ∧ (s.requeueStopped k).link = s.link ∧ (s.requeueStopped k).q = s.q ∧
    (s.requeueStopped k).sx = s.sx ∧ (s.requeueStopped k).dma = s.dma ∧ (s.requeueStopped k).dev = s.dev ∧
    (s.requeueStopped k).tally = s.tally ∧ (s.requeueStopped k).pl = s.pl ∧ (s.requeueStopped k).mail = s.mail ∧
    (s.requeueStopped k).ic = s.ic ∧ (s.requeueStopped k).icPl = s.icPl ∧ (s.requeueStopped k).pw = s.pw ∧
    (s.requeueStopped k).fresh = s.fresh ∧ (s.requeueStopped k).out = s.out ∧ (s.requeueStopped k).pending = s.pending := by
  unfold State.requeueStopped; try dsimp only
  (repeat' split) <;> simp [foldl_keeps State.time, foldl_keeps State.link, foldl_keeps State.q, foldl_keeps State.sx,
      foldl_keeps State.dma, foldl_keeps State.dev, foldl_keeps State.tally, foldl_keeps State.pl, foldl_keeps State.mail,
      foldl_keeps State.ic, foldl_keeps State.icPl, foldl_keeps State.pw, foldl_keeps State.fresh, foldl_keeps State.out,
      foldl_keeps State.pending, apply_ite State.time, apply_ite State.link, apply_ite State.q, apply_ite State.sx, apply_ite
      State.dma, apply_ite State.dev, apply_ite State.tally, apply_ite State.pl, apply_ite State.mail, apply_ite State.ic,
      apply_ite State.icPl, apply_ite State.pw, apply_ite State.fresh, apply_ite State.out, apply_ite State.pending]

@[simp] theorem State.fence_frame (s : State) (k : Nat) :
    (s.fence k).time = s.time ∧ (s.fence k).dma = s.dma ∧ (s.fence k).dev = s.dev ∧ (s.fence k).mail = s.mail ∧
    (s.fence k).icPl = s.icPl ∧ (s.fence k).fresh = s.fresh ∧ (s.fence k).pending = s.pending := by
  unfold State.fence; try dsimp only
  (repeat' split) <;> simp

@[simp] theorem State.failEngine_frame (s : State) (k e : Nat) :
    (s.failEngine k e).time = s.time ∧ (s.failEngine k e).dma = s.dma ∧ (s.failEngine k e).dev = s.dev ∧
    (s.failEngine k e).mail = s.mail ∧ (s.failEngine k e).icPl = s.icPl ∧ (s.failEngine k e).fresh = s.fresh ∧
    (s.failEngine k e).pending = s.pending := by
  unfold State.failEngine; try dsimp only
  (repeat' split) <;> simp

end Sys2Proof.Machine
end

