-- ==== Sys2Proof/Laws/FramesPlatform.lean ====
section
/-! SUPPORT. Sys2Proof/Laws/FramesPlatform.lean: which blocks of the state each operation leaves as they are: mailboxes, ports,
      the Almanac, the issue of a bundle, the link, Plinth and resets.
Of a block that it does change, a lemma says that the map or the list lengths named in the invariant stay. -/

namespace Sys2Proof.Machine

set_option linter.all false

/-! ## Mailbox -/

@[simp] theorem State.modBox_frame (s : State) (ch : Chan) (f : Box → Box) :
    (s.modBox ch f).time = s.time ∧ (s.modBox ch f).link = s.link ∧ (s.modBox ch f).q = s.q ∧ (s.modBox ch f).sub = s.sub ∧
    (s.modBox ch f).sx = s.sx ∧ (s.modBox ch f).dma = s.dma ∧ (s.modBox ch f).md = s.md ∧ (s.modBox ch f).dev = s.dev ∧
    (s.modBox ch f).tally = s.tally ∧ (s.modBox ch f).pl = s.pl ∧ (s.modBox ch f).ic = s.ic ∧ (s.modBox ch f).icPl = s.icPl ∧
    (s.modBox ch f).pw = s.pw ∧ (s.modBox ch f).fresh = s.fresh ∧ (s.modBox ch f).out = s.out ∧
    (s.modBox ch f).pending = s.pending := by
  simp [State.modBox]

@[simp] theorem State.modSender_frame (s : State) (ch : Chan) (f : Sender → Sender) :
    (s.modSender ch f).time = s.time ∧ (s.modSender ch f).link = s.link ∧ (s.modSender ch f).q = s.q ∧
    (s.modSender ch f).sub = s.sub ∧ (s.modSender ch f).sx = s.sx ∧ (s.modSender ch f).dma = s.dma ∧
    (s.modSender ch f).md = s.md ∧ (s.modSender ch f).dev = s.dev ∧ (s.modSender ch f).tally = s.tally ∧
    (s.modSender ch f).pl = s.pl ∧ (s.modSender ch f).ic = s.ic ∧ (s.modSender ch f).icPl = s.icPl ∧
    (s.modSender ch f).pw = s.pw ∧ (s.modSender ch f).fresh = s.fresh ∧ (s.modSender ch f).out = s.out ∧
    (s.modSender ch f).pending = s.pending := by
  simp [State.modSender]

@[simp] theorem State.mbEdge_frame (before : State) (s : State) :
    (before.mbEdge s).time = s.time ∧ (before.mbEdge s).sx = s.sx ∧ (before.mbEdge s).dma = s.dma ∧
    (before.mbEdge s).dev = s.dev ∧ (before.mbEdge s).mail = s.mail ∧ (before.mbEdge s).icPl = s.icPl ∧
    (before.mbEdge s).pw = s.pw ∧ (before.mbEdge s).fresh = s.fresh ∧ (before.mbEdge s).pending = s.pending := by
  unfold State.mbEdge; try dsimp only
  (repeat' split) <;> simp [foldl_keeps State.time, foldl_keeps State.sx, foldl_keeps State.dma, foldl_keeps State.dev,
      foldl_keeps State.mail, foldl_keeps State.icPl, foldl_keeps State.pw, foldl_keeps State.fresh, foldl_keeps State.pending,
      apply_ite State.time, apply_ite State.sx, apply_ite State.dma, apply_ite State.dev, apply_ite State.mail, apply_ite
      State.icPl, apply_ite State.pw, apply_ite State.fresh, apply_ite State.pending]

@[simp] theorem State.modBell_frame (s : State) (ch : Chan) (f : Bell → Bell) :
    (s.modBell ch f).time = s.time ∧ (s.modBell ch f).link = s.link ∧ (s.modBell ch f).q = s.q ∧
    (s.modBell ch f).sub = s.sub ∧ (s.modBell ch f).sx = s.sx ∧ (s.modBell ch f).dma = s.dma ∧ (s.modBell ch f).md = s.md ∧
    (s.modBell ch f).dev = s.dev ∧ (s.modBell ch f).tally = s.tally ∧ (s.modBell ch f).pl = s.pl ∧
    (s.modBell ch f).ic = s.ic ∧ (s.modBell ch f).icPl = s.icPl ∧ (s.modBell ch f).pw = s.pw ∧
    (s.modBell ch f).fresh = s.fresh ∧ (s.modBell ch f).out = s.out ∧ (s.modBell ch f).pending = s.pending := by
  unfold State.modBell; try dsimp only
  (repeat' split) <;> simp

@[simp] theorem State.raiseAt_frame (s : State) (src : Option (IcInst × Nat)) :
    (s.raiseAt src).time = s.time ∧ (s.raiseAt src).link = s.link ∧ (s.raiseAt src).q = s.q ∧ (s.raiseAt src).sub = s.sub ∧
    (s.raiseAt src).sx = s.sx ∧ (s.raiseAt src).dma = s.dma ∧ (s.raiseAt src).md = s.md ∧ (s.raiseAt src).dev = s.dev ∧
    (s.raiseAt src).tally = s.tally ∧ (s.raiseAt src).pl = s.pl ∧ (s.raiseAt src).mail = s.mail ∧ (s.raiseAt src).pw = s.pw ∧
    (s.raiseAt src).fresh = s.fresh ∧ (s.raiseAt src).out = s.out ∧ (s.raiseAt src).pending = s.pending := by
  unfold State.raiseAt; try dsimp only
  (repeat' split) <;> simp

@[simp] theorem State.ring_frame (s : State) (ch : Chan) (bit : Nat) :
    (s.ring ch bit).time = s.time ∧ (s.ring ch bit).link = s.link ∧ (s.ring ch bit).q = s.q ∧ (s.ring ch bit).sub = s.sub ∧
    (s.ring ch bit).sx = s.sx ∧ (s.ring ch bit).dma = s.dma ∧ (s.ring ch bit).md = s.md ∧ (s.ring ch bit).dev = s.dev ∧
    (s.ring ch bit).tally = s.tally ∧ (s.ring ch bit).pl = s.pl ∧ (s.ring ch bit).pw = s.pw ∧
    (s.ring ch bit).fresh = s.fresh ∧ (s.ring ch bit).out = s.out ∧ (s.ring ch bit).pending = s.pending := by
  unfold State.ring; try dsimp only
  (repeat' split) <;> simp

@[simp] theorem State.tellSender_frame (s : State) (ch : Chan) :
    (s.tellSender ch).time = s.time ∧ (s.tellSender ch).link = s.link ∧ (s.tellSender ch).q = s.q ∧
    (s.tellSender ch).sub = s.sub ∧ (s.tellSender ch).sx = s.sx ∧ (s.tellSender ch).dma = s.dma ∧
    (s.tellSender ch).md = s.md ∧ (s.tellSender ch).dev = s.dev ∧ (s.tellSender ch).tally = s.tally ∧
    (s.tellSender ch).pl = s.pl ∧ (s.tellSender ch).mail = s.mail ∧ (s.tellSender ch).pw = s.pw ∧
    (s.tellSender ch).fresh = s.fresh ∧ (s.tellSender ch).out = s.out ∧ (s.tellSender ch).pending = s.pending := by
  unfold State.tellSender; try dsimp only
  (repeat' split) <;> simp

@[simp] theorem State.overrunOf_frame (s : State) (ch : Chan) :
    (s.overrunOf ch).time = s.time ∧ (s.overrunOf ch).link = s.link ∧ (s.overrunOf ch).q = s.q ∧
    (s.overrunOf ch).sub = s.sub ∧ (s.overrunOf ch).sx = s.sx ∧ (s.overrunOf ch).dma = s.dma ∧ (s.overrunOf ch).md = s.md ∧
    (s.overrunOf ch).dev = s.dev ∧ (s.overrunOf ch).tally = s.tally ∧ (s.overrunOf ch).pl = s.pl ∧
    (s.overrunOf ch).mail = s.mail ∧ (s.overrunOf ch).pw = s.pw ∧ (s.overrunOf ch).fresh = s.fresh ∧
    (s.overrunOf ch).out = s.out ∧ (s.overrunOf ch).pending = s.pending := by
  unfold State.overrunOf; try dsimp only
  (repeat' split) <;> simp

@[simp] theorem State.mbSend_frame (s : State) (ch : Chan) (bit : Nat) (word : Word) :
    (s.mbSend ch bit word).time = s.time ∧ (s.mbSend ch bit word).sx = s.sx ∧ (s.mbSend ch bit word).pw = s.pw ∧
    (s.mbSend ch bit word).pending = s.pending := by
  unfold State.mbSend; try dsimp only
  (repeat' split) <;> simp

@[simp] theorem State.serveBell_frame (s : State) (ch : Chan) :
    (s.serveBell ch).time = s.time ∧ (s.serveBell ch).link = s.link ∧ (s.serveBell ch).q = s.q ∧
    (s.serveBell ch).sub = s.sub ∧ (s.serveBell ch).sx = s.sx ∧ (s.serveBell ch).dma = s.dma ∧ (s.serveBell ch).md = s.md ∧
    (s.serveBell ch).dev = s.dev ∧ (s.serveBell ch).tally = s.tally ∧ (s.serveBell ch).pl = s.pl ∧
    (s.serveBell ch).ic = s.ic ∧ (s.serveBell ch).icPl = s.icPl ∧ (s.serveBell ch).pw = s.pw ∧
    (s.serveBell ch).fresh = s.fresh ∧ (s.serveBell ch).out = s.out ∧ (s.serveBell ch).pending = s.pending := by
  unfold State.serveBell; try dsimp only
  (repeat' split) <;> simp

@[simp] theorem State.mbTake_frame (s : State) (ch : Chan) :
    (s.mbTake ch).time = s.time ∧ (s.mbTake ch).sx = s.sx ∧ (s.mbTake ch).dma = s.dma ∧ (s.mbTake ch).dev = s.dev ∧
    (s.mbTake ch).pw = s.pw ∧ (s.mbTake ch).fresh = s.fresh ∧ (s.mbTake ch).pending = s.pending := by
  unfold State.mbTake; try dsimp only
  (repeat' split) <;> simp

@[simp] theorem State.mbServe_frame (s : State) (ch : Chan) :
    (s.mbServe ch).time = s.time ∧ (s.mbServe ch).sx = s.sx ∧ (s.mbServe ch).dma = s.dma ∧ (s.mbServe ch).dev = s.dev ∧
    (s.mbServe ch).pw = s.pw ∧ (s.mbServe ch).fresh = s.fresh ∧ (s.mbServe ch).pending = s.pending := by
  simp [State.mbServe]

@[simp] theorem State.mbAbort_frame (s : State) (ch : Chan) :
    (s.mbAbort ch).time = s.time ∧ (s.mbAbort ch).sx = s.sx ∧ (s.mbAbort ch).dma = s.dma ∧ (s.mbAbort ch).dev = s.dev ∧
    (s.mbAbort ch).pw = s.pw ∧ (s.mbAbort ch).fresh = s.fresh ∧ (s.mbAbort ch).pending = s.pending := by
  unfold State.mbAbort; try dsimp only
  (repeat' split) <;> simp

@[simp] theorem State.pumpNotices_frame (s : State) :
    (s.pumpNotices).time = s.time ∧ (s.pumpNotices).sx = s.sx ∧ (s.pumpNotices).pending = s.pending := by
  unfold State.pumpNotices; try dsimp only
  (repeat' split) <;> simp

@[simp] theorem State.notice_frame (s : State) (type value : Nat) :
    (s.notice type value).time = s.time ∧ (s.notice type value).sx = s.sx ∧ (s.notice type value).pending = s.pending := by
  unfold State.notice; try dsimp only
  (repeat' split) <;> simp

@[simp] theorem State.modIc_frame (s : State) (inst : IcInst) (f : Ic → Ic) :
    (s.modIc inst f).time = s.time ∧ (s.modIc inst f).link = s.link ∧ (s.modIc inst f).q = s.q ∧
    (s.modIc inst f).sub = s.sub ∧ (s.modIc inst f).sx = s.sx ∧ (s.modIc inst f).dma = s.dma ∧ (s.modIc inst f).md = s.md ∧
    (s.modIc inst f).dev = s.dev ∧ (s.modIc inst f).tally = s.tally ∧ (s.modIc inst f).pl = s.pl ∧
    (s.modIc inst f).mail = s.mail ∧ (s.modIc inst f).pw = s.pw ∧ (s.modIc inst f).fresh = s.fresh ∧
    (s.modIc inst f).out = s.out ∧ (s.modIc inst f).pending = s.pending := by
  unfold State.modIc; try dsimp only
  (repeat' split) <;> simp

@[simp] theorem State.relatch_frame (s : State) (inst : IcInst) :
    (s.relatch inst).time = s.time ∧ (s.relatch inst).link = s.link ∧ (s.relatch inst).q = s.q ∧
    (s.relatch inst).sub = s.sub ∧ (s.relatch inst).sx = s.sx ∧ (s.relatch inst).dma = s.dma ∧ (s.relatch inst).md = s.md ∧
    (s.relatch inst).dev = s.dev ∧ (s.relatch inst).tally = s.tally ∧ (s.relatch inst).pl = s.pl ∧
    (s.relatch inst).mail = s.mail ∧ (s.relatch inst).pw = s.pw ∧ (s.relatch inst).fresh = s.fresh ∧
    (s.relatch inst).out = s.out ∧ (s.relatch inst).pending = s.pending := by
  simp [State.relatch]

@[simp] theorem State.mbRead_frame (s : State) (ch : Chan) (size : Nat) (show_ : Word → Out) :
    (s.mbRead ch size show_).time = s.time ∧ (s.mbRead ch size show_).sx = s.sx ∧
    (s.mbRead ch size show_).pending = s.pending := by
  unfold State.mbRead; try dsimp only
  (repeat' split) <;> simp

@[simp] theorem State.obuloTakes_frame (s : State) :
    (s.obuloTakes).time = s.time ∧ (s.obuloTakes).sx = s.sx ∧ (s.obuloTakes).pending = s.pending := by
  unfold State.obuloTakes; try dsimp only
  (repeat' split) <;> simp

@[simp] theorem State.mbStatus_frame (s : State) (plinth stat : Bool) (half : Option Bool) (val : Word) :
    (s.mbStatus plinth stat half val).time = s.time ∧ (s.mbStatus plinth stat half val).sx = s.sx ∧
    (s.mbStatus plinth stat half val).dma = s.dma ∧ (s.mbStatus plinth stat half val).dev = s.dev ∧
    (s.mbStatus plinth stat half val).icPl = s.icPl ∧ (s.mbStatus plinth stat half val).pw = s.pw ∧
    (s.mbStatus plinth stat half val).fresh = s.fresh ∧ (s.mbStatus plinth stat half val).pending = s.pending := by
  unfold State.mbStatus; try dsimp only
  (repeat' split) <;> simp

@[simp] theorem State.innerStatus_frame (s : State) (ch : Chan) (stat : Bool) (half : Option Bool) (v : Word) :
    (s.innerStatus ch stat half v).time = s.time ∧ (s.innerStatus ch stat half v).link = s.link ∧
    (s.innerStatus ch stat half v).q = s.q ∧ (s.innerStatus ch stat half v).sub = s.sub ∧
    (s.innerStatus ch stat half v).sx = s.sx ∧ (s.innerStatus ch stat half v).dma = s.dma ∧
    (s.innerStatus ch stat half v).md = s.md ∧ (s.innerStatus ch stat half v).dev = s.dev ∧
    (s.innerStatus ch stat half v).tally = s.tally ∧ (s.innerStatus ch stat half v).pl = s.pl ∧
    (s.innerStatus ch stat half v).pw = s.pw ∧ (s.innerStatus ch stat half v).fresh = s.fresh ∧
    (s.innerStatus ch stat half v).out = s.out ∧ (s.innerStatus ch stat half v).pending = s.pending := by
  unfold State.innerStatus; try dsimp only
  (repeat' split) <;> simp

@[simp] theorem State.icAcked_frame (s : State) (inst : IcInst) :
    (s.icAcked inst).time = s.time ∧ (s.icAcked inst).link = s.link ∧ (s.icAcked inst).q = s.q ∧
    (s.icAcked inst).sub = s.sub ∧ (s.icAcked inst).sx = s.sx ∧ (s.icAcked inst).dma = s.dma ∧ (s.icAcked inst).md = s.md ∧
    (s.icAcked inst).dev = s.dev ∧ (s.icAcked inst).tally = s.tally ∧ (s.icAcked inst).pl = s.pl ∧
    (s.icAcked inst).mail = s.mail ∧ (s.icAcked inst).pw = s.pw ∧ (s.icAcked inst).fresh = s.fresh ∧
    (s.icAcked inst).out = s.out ∧ (s.icAcked inst).pending = s.pending := by
  simp [State.icAcked]

@[simp] theorem State.icCounted_frame (s : State) (inst : IcInst) (i : Nat) (js : List Nat) :
    (s.icCounted inst i js).time = s.time ∧ (s.icCounted inst i js).link = s.link ∧ (s.icCounted inst i js).q = s.q ∧
    (s.icCounted inst i js).sub = s.sub ∧ (s.icCounted inst i js).sx = s.sx ∧ (s.icCounted inst i js).dma = s.dma ∧
    (s.icCounted inst i js).md = s.md ∧ (s.icCounted inst i js).dev = s.dev ∧ (s.icCounted inst i js).tally = s.tally ∧
    (s.icCounted inst i js).pl = s.pl ∧ (s.icCounted inst i js).mail = s.mail ∧ (s.icCounted inst i js).pw = s.pw ∧
    (s.icCounted inst i js).fresh = s.fresh ∧ (s.icCounted inst i js).out = s.out ∧
    (s.icCounted inst i js).pending = s.pending := by
  unfold State.icCounted; try dsimp only
  (repeat' split) <;> simp [foldl_keeps State.time, foldl_keeps State.link, foldl_keeps State.q, foldl_keeps State.sub,
      foldl_keeps State.sx, foldl_keeps State.dma, foldl_keeps State.md, foldl_keeps State.dev, foldl_keeps State.tally,
      foldl_keeps State.pl, foldl_keeps State.mail, foldl_keeps State.pw, foldl_keeps State.fresh, foldl_keeps State.out,
      foldl_keeps State.pending, apply_ite State.time, apply_ite State.link, apply_ite State.q, apply_ite State.sub, apply_ite
      State.sx, apply_ite State.dma, apply_ite State.md, apply_ite State.dev, apply_ite State.tally, apply_ite State.pl,
      apply_ite State.mail, apply_ite State.pw, apply_ite State.fresh, apply_ite State.out, apply_ite State.pending]

/-! ## Quads -/

@[simp] theorem State.drive_frame (s : State) (l : List Out) :
    (s.drive l).time = s.time ∧ (s.drive l).link = s.link ∧ (s.drive l).q = s.q ∧ (s.drive l).sub = s.sub ∧
    (s.drive l).sx = s.sx ∧ (s.drive l).dma = s.dma ∧ (s.drive l).md = s.md ∧ (s.drive l).dev = s.dev ∧
    (s.drive l).tally = s.tally ∧ (s.drive l).pl = s.pl ∧ (s.drive l).mail = s.mail ∧ (s.drive l).ic = s.ic ∧
    (s.drive l).icPl = s.icPl ∧ (s.drive l).pw = s.pw ∧ (s.drive l).fresh = s.fresh ∧ (s.drive l).pending = s.pending := by
  unfold State.drive; try dsimp only
  (repeat' split) <;> simp

@[simp] theorem State.quadIrq_frame (s : State) (quad : Nat) :
    (s.quadIrq quad).time = s.time ∧ (s.quadIrq quad).link = s.link ∧ (s.quadIrq quad).q = s.q ∧
    (s.quadIrq quad).sub = s.sub ∧ (s.quadIrq quad).sx = s.sx ∧ (s.quadIrq quad).dma = s.dma ∧ (s.quadIrq quad).md = s.md ∧
    (s.quadIrq quad).dev = s.dev ∧ (s.quadIrq quad).tally = s.tally ∧ (s.quadIrq quad).pl = s.pl ∧
    (s.quadIrq quad).mail = s.mail ∧ (s.quadIrq quad).icPl = s.icPl ∧ (s.quadIrq quad).pw = s.pw ∧
    (s.quadIrq quad).fresh = s.fresh ∧ (s.quadIrq quad).out = s.out ∧ (s.quadIrq quad).pending = s.pending := by
  simp [State.quadIrq]

@[simp] theorem State.pinPwren_frame (s : State) (quad port : Nat) (level : Bool) :
    (s.pinPwren quad port level).time = s.time ∧ (s.pinPwren quad port level).link = s.link ∧
    (s.pinPwren quad port level).q = s.q ∧ (s.pinPwren quad port level).sub = s.sub ∧
    (s.pinPwren quad port level).sx = s.sx ∧ (s.pinPwren quad port level).dma = s.dma ∧
    (s.pinPwren quad port level).md = s.md ∧ (s.pinPwren quad port level).tally = s.tally ∧
    (s.pinPwren quad port level).pl = s.pl ∧ (s.pinPwren quad port level).mail = s.mail ∧
    (s.pinPwren quad port level).ic = s.ic ∧ (s.pinPwren quad port level).icPl = s.icPl ∧
    (s.pinPwren quad port level).pw = s.pw ∧ (s.pinPwren quad port level).fresh = s.fresh ∧
    (s.pinPwren quad port level).pending = s.pending := by
  simp [State.pinPwren]

@[simp] theorem State.pinPerst_frame (s : State) (quad port : Nat) (held : Bool) :
    (s.pinPerst quad port held).time = s.time ∧ (s.pinPerst quad port held).pw = s.pw ∧
    (s.pinPerst quad port held).pending = s.pending := by
  unfold State.pinPerst; try dsimp only
  (repeat' split) <;> simp [foldl_keeps State.time, foldl_keeps State.pw, foldl_keeps State.pending, apply_ite State.time,
      apply_ite State.pw, apply_ite State.pending]

@[simp] theorem State.portFault_frame (s : State) (quad port : Nat) :
    (s.portFault quad port).time = s.time ∧ (s.portFault quad port).sx = s.sx ∧ (s.portFault quad port).pw = s.pw ∧
    (s.portFault quad port).pending = s.pending := by
  unfold State.portFault; try dsimp only
  (repeat' split) <;> simp

@[simp] theorem State.pwrenFault_frame (s : State) (quad port : Nat) :
    (s.pwrenFault quad port).time = s.time ∧ (s.pwrenFault quad port).sx = s.sx ∧ (s.pwrenFault quad port).pw = s.pw ∧
    (s.pwrenFault quad port).pending = s.pending := by
  unfold State.pwrenFault; try dsimp only
  (repeat' split) <;> simp

@[simp] theorem State.powerUp_frame (s : State) (quad port : Nat) (readbackOk : Bool) :
    (s.powerUp quad port readbackOk).time = s.time ∧ (s.powerUp quad port readbackOk).sx = s.sx ∧
    (s.powerUp quad port readbackOk).pw = s.pw ∧ (s.powerUp quad port readbackOk).pending = s.pending := by
  unfold State.powerUp; try dsimp only
  (repeat' split) <;> simp

@[simp] theorem State.sgpioAgain_frame (s : State) (quad : Nat) :
    (s.sgpioAgain quad).time = s.time ∧ (s.sgpioAgain quad).link = s.link ∧ (s.sgpioAgain quad).q = s.q ∧
    (s.sgpioAgain quad).sub = s.sub ∧ (s.sgpioAgain quad).sx = s.sx ∧ (s.sgpioAgain quad).dma = s.dma ∧
    (s.sgpioAgain quad).md = s.md ∧ (s.sgpioAgain quad).tally = s.tally ∧ (s.sgpioAgain quad).pl = s.pl ∧
    (s.sgpioAgain quad).mail = s.mail ∧ (s.sgpioAgain quad).ic = s.ic ∧ (s.sgpioAgain quad).icPl = s.icPl ∧
    (s.sgpioAgain quad).pw = s.pw ∧ (s.sgpioAgain quad).fresh = s.fresh ∧ (s.sgpioAgain quad).out = s.out ∧
    (s.sgpioAgain quad).pending = s.pending := by
  unfold State.sgpioAgain; try dsimp only
  (repeat' split) <;> simp

@[simp] theorem State.testI2c_frame (s : State) (quad port : Nat) (ok : Bool) :
    (s.testI2c quad port ok).time = s.time ∧ (s.testI2c quad port ok).sx = s.sx ∧ (s.testI2c quad port ok).dma = s.dma ∧
    (s.testI2c quad port ok).mail = s.mail ∧ (s.testI2c quad port ok).icPl = s.icPl ∧ (s.testI2c quad port ok).pw = s.pw ∧
    (s.testI2c quad port ok).fresh = s.fresh ∧ (s.testI2c quad port ok).pending = s.pending := by
  unfold State.testI2c; try dsimp only
  (repeat' split) <;> simp

@[simp] theorem State.unreset_frame (s : State) (quad port : Nat) (readbackOk : Bool) :
    (s.unreset quad port readbackOk).time = s.time ∧ (s.unreset quad port readbackOk).pw = s.pw ∧
    (s.unreset quad port readbackOk).pending = s.pending := by
  unfold State.unreset; try dsimp only
  (repeat' split) <;> simp

@[simp] theorem State.unplug_frame (s : State) (quad port : Nat) (i2cOk : Bool) :
    (s.unplug quad port i2cOk).time = s.time ∧ (s.unplug quad port i2cOk).pw = s.pw ∧
    (s.unplug quad port i2cOk).pending = s.pending := by
  unfold State.unplug; try dsimp only
  (repeat' split) <;> simp

@[simp] theorem State.linkPower_frame (s : State) (quad port : Nat) :
    (s.linkPower quad port).time = s.time ∧ (s.linkPower quad port).link = s.link ∧ (s.linkPower quad port).q = s.q ∧
    (s.linkPower quad port).sub = s.sub ∧ (s.linkPower quad port).sx = s.sx ∧ (s.linkPower quad port).dma = s.dma ∧
    (s.linkPower quad port).md = s.md ∧ (s.linkPower quad port).tally = s.tally ∧ (s.linkPower quad port).pl = s.pl ∧
    (s.linkPower quad port).mail = s.mail ∧ (s.linkPower quad port).ic = s.ic ∧ (s.linkPower quad port).icPl = s.icPl ∧
    (s.linkPower quad port).pw = s.pw ∧ (s.linkPower quad port).fresh = s.fresh ∧
    (s.linkPower quad port).pending = s.pending := by
  unfold State.linkPower; try dsimp only
  (repeat' split) <;> simp

@[simp] theorem State.miswire_frame (s : State) (quad : Nat) (foreign : List Nat) :
    (s.miswire quad foreign).time = s.time ∧ (s.miswire quad foreign).sx = s.sx ∧ (s.miswire quad foreign).dma = s.dma ∧
    (s.miswire quad foreign).mail = s.mail ∧ (s.miswire quad foreign).icPl = s.icPl ∧ (s.miswire quad foreign).pw = s.pw ∧
    (s.miswire quad foreign).fresh = s.fresh ∧ (s.miswire quad foreign).pending = s.pending := by
  unfold State.miswire; try dsimp only
  (repeat' split) <;> simp

@[simp] theorem State.repin_frame (s : State) (quad port : Nat) :
    (s.repin quad port).time = s.time ∧ (s.repin quad port).link = s.link ∧ (s.repin quad port).sub = s.sub ∧
    (s.repin quad port).sx = s.sx ∧ (s.repin quad port).dma = s.dma ∧ (s.repin quad port).md = s.md ∧
    (s.repin quad port).tally = s.tally ∧ (s.repin quad port).pl = s.pl ∧ (s.repin quad port).mail = s.mail ∧
    (s.repin quad port).ic = s.ic ∧ (s.repin quad port).icPl = s.icPl ∧ (s.repin quad port).pw = s.pw ∧
    (s.repin quad port).fresh = s.fresh ∧ (s.repin quad port).out = s.out ∧ (s.repin quad port).pending = s.pending := by
  unfold State.repin; try dsimp only
  (repeat' split) <;> simp

@[simp] theorem State.retrainLater_frame (s : State) (quad port : Nat) :
    (s.retrainLater quad port).time = s.time ∧ (s.retrainLater quad port).link = s.link ∧
    (s.retrainLater quad port).q = s.q ∧ (s.retrainLater quad port).sub = s.sub ∧ (s.retrainLater quad port).sx = s.sx ∧
    (s.retrainLater quad port).dma = s.dma ∧ (s.retrainLater quad port).md = s.md ∧
    (s.retrainLater quad port).tally = s.tally ∧ (s.retrainLater quad port).pl = s.pl ∧
    (s.retrainLater quad port).mail = s.mail ∧ (s.retrainLater quad port).ic = s.ic ∧
    (s.retrainLater quad port).icPl = s.icPl ∧ (s.retrainLater quad port).pw = s.pw ∧
    (s.retrainLater quad port).fresh = s.fresh ∧ (s.retrainLater quad port).out = s.out ∧
    (s.retrainLater quad port).pending = s.pending := by
  unfold State.retrainLater; try dsimp only
  (repeat' split) <;> simp

@[simp] theorem State.readIdentity_frame (s : State) (quad port : Nat) (r : IdentityRead) :
    (s.readIdentity quad port r).time = s.time ∧ (s.readIdentity quad port r).sx = s.sx ∧
    (s.readIdentity quad port r).dma = s.dma ∧ (s.readIdentity quad port r).mail = s.mail ∧
    (s.readIdentity quad port r).pw = s.pw ∧ (s.readIdentity quad port r).pending = s.pending := by
  unfold State.readIdentity; try dsimp only
  (repeat' split) <;> simp

@[simp] theorem State.setCtrls_frame (s : State) (quad port : Nat) (ids : List Word) :
    (s.setCtrls quad port ids).time = s.time ∧ (s.setCtrls quad port ids).link = s.link ∧
    (s.setCtrls quad port ids).sub = s.sub ∧ (s.setCtrls quad port ids).sx = s.sx ∧ (s.setCtrls quad port ids).dma = s.dma ∧
    (s.setCtrls quad port ids).md = s.md ∧ (s.setCtrls quad port ids).tally = s.tally ∧
    (s.setCtrls quad port ids).pl = s.pl ∧ (s.setCtrls quad port ids).mail = s.mail ∧ (s.setCtrls quad port ids).ic = s.ic ∧
    (s.setCtrls quad port ids).icPl = s.icPl ∧ (s.setCtrls quad port ids).pw = s.pw ∧
    (s.setCtrls quad port ids).pending = s.pending := by
  unfold State.setCtrls; try dsimp only
  (repeat' split) <;> simp [foldl_keeps State.time, foldl_keeps State.link, foldl_keeps State.sub, foldl_keeps State.sx,
      foldl_keeps State.dma, foldl_keeps State.md, foldl_keeps State.tally, foldl_keeps State.pl, foldl_keeps State.mail,
      foldl_keeps State.ic, foldl_keeps State.icPl, foldl_keeps State.pw, foldl_keeps State.pending, apply_ite State.time,
      apply_ite State.link, apply_ite State.sub, apply_ite State.sx, apply_ite State.dma, apply_ite State.md, apply_ite
      State.tally, apply_ite State.pl, apply_ite State.mail, apply_ite State.ic, apply_ite State.icPl, apply_ite State.pw,
      apply_ite State.pending]

@[simp] theorem State.listOne_frame (s : State) (quad port : Nat) (gen : BitVec 32) (f : Finding) :
    (s.listOne quad port gen f).time = s.time ∧ (s.listOne quad port gen f).sx = s.sx ∧
    (s.listOne quad port gen f).dma = s.dma ∧ (s.listOne quad port gen f).mail = s.mail ∧
    (s.listOne quad port gen f).icPl = s.icPl ∧ (s.listOne quad port gen f).pw = s.pw ∧
    (s.listOne quad port gen f).fresh = s.fresh ∧ (s.listOne quad port gen f).pending = s.pending := by
  unfold State.listOne; try dsimp only
  (repeat' split) <;> simp

@[simp] theorem State.forgetPos_frame (s : State) (quad port : Nat) :
    (s.forgetPos quad port).time = s.time ∧ (s.forgetPos quad port).link = s.link ∧ (s.forgetPos quad port).q = s.q ∧
    (s.forgetPos quad port).sub = s.sub ∧ (s.forgetPos quad port).sx = s.sx ∧ (s.forgetPos quad port).dma = s.dma ∧
    (s.forgetPos quad port).md = s.md ∧ (s.forgetPos quad port).tally = s.tally ∧ (s.forgetPos quad port).pl = s.pl ∧
    (s.forgetPos quad port).mail = s.mail ∧ (s.forgetPos quad port).ic = s.ic ∧ (s.forgetPos quad port).icPl = s.icPl ∧
    (s.forgetPos quad port).pw = s.pw ∧ (s.forgetPos quad port).fresh = s.fresh ∧ (s.forgetPos quad port).out = s.out ∧
    (s.forgetPos quad port).pending = s.pending := by
  unfold State.forgetPos; try dsimp only
  (repeat' split) <;> simp [foldl_keeps State.time, foldl_keeps State.link, foldl_keeps State.q, foldl_keeps State.sub,
      foldl_keeps State.sx, foldl_keeps State.dma, foldl_keeps State.md, foldl_keeps State.tally, foldl_keeps State.pl,
      foldl_keeps State.mail, foldl_keeps State.ic, foldl_keeps State.icPl, foldl_keeps State.pw, foldl_keeps State.fresh,
      foldl_keeps State.out, foldl_keeps State.pending, apply_ite State.time, apply_ite State.link, apply_ite State.q,
      apply_ite State.sub, apply_ite State.sx, apply_ite State.dma, apply_ite State.md, apply_ite State.tally, apply_ite
      State.pl, apply_ite State.mail, apply_ite State.ic, apply_ite State.icPl, apply_ite State.pw, apply_ite State.fresh,
      apply_ite State.out, apply_ite State.pending]

@[simp] theorem State.pinTarget_frame (s : State) (quad port : Nat) (found : List Finding) :
    (s.pinTarget quad port found).time = s.time ∧ (s.pinTarget quad port found).link = s.link ∧
    (s.pinTarget quad port found).sub = s.sub ∧ (s.pinTarget quad port found).sx = s.sx ∧
    (s.pinTarget quad port found).dma = s.dma ∧ (s.pinTarget quad port found).md = s.md ∧
    (s.pinTarget quad port found).tally = s.tally ∧ (s.pinTarget quad port found).pl = s.pl ∧
    (s.pinTarget quad port found).mail = s.mail ∧ (s.pinTarget quad port found).ic = s.ic ∧
    (s.pinTarget quad port found).icPl = s.icPl ∧ (s.pinTarget quad port found).pw = s.pw ∧
    (s.pinTarget quad port found).fresh = s.fresh ∧ (s.pinTarget quad port found).out = s.out ∧
    (s.pinTarget quad port found).pending = s.pending := by
  unfold State.pinTarget; try dsimp only
  (repeat' split) <;> simp

@[simp] theorem State.lateCtrls_frame (s : State) (quad port : Nat) (found : List Finding) :
    (s.lateCtrls quad port found).time = s.time ∧ (s.lateCtrls quad port found).link = s.link ∧
    (s.lateCtrls quad port found).sub = s.sub ∧ (s.lateCtrls quad port found).sx = s.sx ∧
    (s.lateCtrls quad port found).dma = s.dma ∧ (s.lateCtrls quad port found).md = s.md ∧
    (s.lateCtrls quad port found).tally = s.tally ∧ (s.lateCtrls quad port found).pl = s.pl ∧
    (s.lateCtrls quad port found).mail = s.mail ∧ (s.lateCtrls quad port found).ic = s.ic ∧
    (s.lateCtrls quad port found).icPl = s.icPl ∧ (s.lateCtrls quad port found).pw = s.pw ∧
    (s.lateCtrls quad port found).pending = s.pending := by
  unfold State.lateCtrls; try dsimp only
  (repeat' split) <;> simp [foldl_keeps State.time, foldl_keeps State.link, foldl_keeps State.sub, foldl_keeps State.sx,
      foldl_keeps State.dma, foldl_keeps State.md, foldl_keeps State.tally, foldl_keeps State.pl, foldl_keeps State.mail,
      foldl_keeps State.ic, foldl_keeps State.icPl, foldl_keeps State.pw, foldl_keeps State.pending, apply_ite State.time,
      apply_ite State.link, apply_ite State.sub, apply_ite State.sx, apply_ite State.dma, apply_ite State.md, apply_ite
      State.tally, apply_ite State.pl, apply_ite State.mail, apply_ite State.ic, apply_ite State.icPl, apply_ite State.pw,
      apply_ite State.pending]

@[simp] theorem State.askReset_frame (s : State) (quad : Nat) :
    (s.askReset quad).time = s.time ∧ (s.askReset quad).link = s.link ∧ (s.askReset quad).q = s.q ∧
    (s.askReset quad).sub = s.sub ∧ (s.askReset quad).sx = s.sx ∧ (s.askReset quad).dma = s.dma ∧
    (s.askReset quad).md = s.md ∧ (s.askReset quad).tally = s.tally ∧ (s.askReset quad).pl = s.pl ∧
    (s.askReset quad).mail = s.mail ∧ (s.askReset quad).ic = s.ic ∧ (s.askReset quad).icPl = s.icPl ∧
    (s.askReset quad).pw = s.pw ∧ (s.askReset quad).fresh = s.fresh ∧ (s.askReset quad).out = s.out ∧
    (s.askReset quad).pending = s.pending := by
  unfold State.askReset; try dsimp only
  (repeat' split) <;> simp

@[simp] theorem State.endCleared_frame (s : State) (quad : Nat) :
    (s.endCleared quad).time = s.time ∧ (s.endCleared quad).sx = s.sx ∧ (s.endCleared quad).pw = s.pw ∧
    (s.endCleared quad).pending = s.pending := by
  unfold State.endCleared; try dsimp only
  (repeat' split) <;> simp [foldl_keeps State.time, foldl_keeps State.sx, foldl_keeps State.pw, foldl_keeps State.pending,
      apply_ite State.time, apply_ite State.sx, apply_ite State.pw, apply_ite State.pending]

@[simp] theorem State.resetPort_frame (s : State) (quad port : Nat) (readbackOk : Bool) :
    (s.resetPort quad port readbackOk).time = s.time ∧ (s.resetPort quad port readbackOk).pw = s.pw ∧
    (s.resetPort quad port readbackOk).pending = s.pending := by
  unfold State.resetPort; try dsimp only
  (repeat' split) <;> simp

@[simp] theorem State.quadResetNow_frame (s : State) (quad : Nat) (perstBad : BitVec 4) :
    (s.quadResetNow quad perstBad).time = s.time ∧ (s.quadResetNow quad perstBad).pw = s.pw ∧
    (s.quadResetNow quad perstBad).pending = s.pending := by
  unfold State.quadResetNow; try dsimp only
  (repeat' split) <;> simp [foldl_keeps State.time, foldl_keeps State.pw, foldl_keeps State.pending, apply_ite State.time,
      apply_ite State.pw, apply_ite State.pending]

@[simp] theorem State.retryPort_frame (s : State) (quad : Nat) (still : BitVec 17) (port : Nat) :
    (s.retryPort quad still port).time = s.time ∧ (s.retryPort quad still port).pw = s.pw ∧
    (s.retryPort quad still port).pending = s.pending := by
  unfold State.retryPort; try dsimp only
  (repeat' split) <;> simp

@[simp] theorem State.retrySideband_frame (s : State) (quad : Nat) (stillFaulty : BitVec 17) :
    (s.retrySideband quad stillFaulty).time = s.time ∧ (s.retrySideband quad stillFaulty).pw = s.pw ∧
    (s.retrySideband quad stillFaulty).pending = s.pending := by
  unfold State.retrySideband; try dsimp only
  (repeat' split) <;> simp [foldl_keeps State.time, foldl_keeps State.pw, foldl_keeps State.pending, apply_ite State.time,
      apply_ite State.pw, apply_ite State.pending]

/-! ## Almanac -/

@[simp] theorem State.writeRec_frame (s : State) (q : AlmReq) :
    (s.writeRec q).time = s.time ∧ (s.writeRec q).sx = s.sx ∧ (s.writeRec q).dma = s.dma ∧ (s.writeRec q).dev = s.dev ∧
    (s.writeRec q).mail = s.mail ∧ (s.writeRec q).icPl = s.icPl ∧ (s.writeRec q).pw = s.pw ∧ (s.writeRec q).fresh = s.fresh ∧
    (s.writeRec q).pending = s.pending := by
  unfold State.writeRec; try dsimp only
  (repeat' split) <;> simp [foldl_keeps State.time, foldl_keeps State.sx, foldl_keeps State.dma, foldl_keeps State.dev,
      foldl_keeps State.mail, foldl_keeps State.icPl, foldl_keeps State.pw, foldl_keeps State.fresh, foldl_keeps State.pending,
      apply_ite State.time, apply_ite State.sx, apply_ite State.dma, apply_ite State.dev, apply_ite State.mail, apply_ite
      State.icPl, apply_ite State.pw, apply_ite State.fresh, apply_ite State.pending]

@[simp] theorem State.writeNext_frame (s : State) :
    (s.writeNext).time = s.time ∧ (s.writeNext).sx = s.sx ∧ (s.writeNext).dma = s.dma ∧ (s.writeNext).dev = s.dev ∧
    (s.writeNext).mail = s.mail ∧ (s.writeNext).fresh = s.fresh ∧ (s.writeNext).pending = s.pending := by
  unfold State.writeNext; try dsimp only
  (repeat' split) <;> simp

@[simp] theorem writeMany_frame (n : Nat) (s : State) :
    (writeMany n s).time = s.time ∧ (writeMany n s).sx = s.sx ∧ (writeMany n s).dma = s.dma ∧ (writeMany n s).dev = s.dev ∧
    (writeMany n s).mail = s.mail ∧ (writeMany n s).fresh = s.fresh ∧ (writeMany n s).pending = s.pending := by
  induction n generalizing s with
  | zero => simp [writeMany]
  | succ n ih =>
    unfold writeMany; try dsimp only
    (repeat' split) <;> simp [ih]

@[simp] theorem State.flushAlm_frame (s : State) :
    (s.flushAlm).time = s.time ∧ (s.flushAlm).sx = s.sx ∧ (s.flushAlm).dma = s.dma ∧ (s.flushAlm).dev = s.dev ∧
    (s.flushAlm).mail = s.mail ∧ (s.flushAlm).fresh = s.fresh ∧ (s.flushAlm).pending = s.pending := by
  simp [State.flushAlm]

@[simp] theorem State.plRecord_frame (s : State) (type : Nat) (payload : List Byte) :
    (s.plRecord type payload).time = s.time ∧ (s.plRecord type payload).sx = s.sx ∧ (s.plRecord type payload).dma = s.dma ∧
    (s.plRecord type payload).dev = s.dev ∧ (s.plRecord type payload).mail = s.mail ∧
    (s.plRecord type payload).icPl = s.icPl ∧ (s.plRecord type payload).pw = s.pw ∧
    (s.plRecord type payload).fresh = s.fresh ∧ (s.plRecord type payload).pending = s.pending := by
  simp [State.plRecord]

@[simp] theorem State.sramRead_frame (s : State) :
    (s.sramRead).time = s.time ∧ (s.sramRead).link = s.link ∧ (s.sramRead).q = s.q ∧ (s.sramRead).sub = s.sub ∧
    (s.sramRead).sx = s.sx ∧ (s.sramRead).dma = s.dma ∧ (s.sramRead).md = s.md ∧ (s.sramRead).dev = s.dev ∧
    (s.sramRead).tally = s.tally ∧ (s.sramRead).pl = s.pl ∧ (s.sramRead).mail = s.mail ∧ (s.sramRead).ic = s.ic ∧
    (s.sramRead).pw = s.pw ∧ (s.sramRead).out = s.out ∧ (s.sramRead).pending = s.pending := by
  unfold State.sramRead; try dsimp only
  (repeat' split) <;> simp

@[simp] theorem State.makeQuote_frame (s : State) (nonce : List Byte) :
    (s.makeQuote nonce).1.time = s.time ∧ (s.makeQuote nonce).1.link = s.link ∧ (s.makeQuote nonce).1.q = s.q ∧
    (s.makeQuote nonce).1.sub = s.sub ∧ (s.makeQuote nonce).1.sx = s.sx ∧ (s.makeQuote nonce).1.dma = s.dma ∧
    (s.makeQuote nonce).1.md = s.md ∧ (s.makeQuote nonce).1.dev = s.dev ∧ (s.makeQuote nonce).1.tally = s.tally ∧
    (s.makeQuote nonce).1.pl = s.pl ∧ (s.makeQuote nonce).1.mail = s.mail ∧ (s.makeQuote nonce).1.ic = s.ic ∧
    (s.makeQuote nonce).1.pw = s.pw ∧ (s.makeQuote nonce).1.out = s.out ∧ (s.makeQuote nonce).1.pending = s.pending := by
  unfold State.makeQuote; try dsimp only
  (repeat' split) <;> simp

/-! ## Sirax -/

@[simp] theorem State.spoil_frame (s : State) (t : Thread) (w : BadWord) :
    (s.spoil t w).1.time = s.time ∧ (s.spoil t w).1.dev = s.dev ∧ (s.spoil t w).1.mail = s.mail ∧
    (s.spoil t w).1.icPl = s.icPl ∧ (s.spoil t w).1.pw = s.pw ∧ (s.spoil t w).1.fresh = s.fresh ∧
    (s.spoil t w).1.pending = s.pending := by
  unfold State.spoil; try dsimp only
  (repeat' split) <;> simp

@[simp] theorem State.spoils_frame (s : State) (t : Thread) (bad : List BadWord) :
    (s.spoils t bad).1.time = s.time ∧ (s.spoils t bad).1.dev = s.dev ∧ (s.spoils t bad).1.mail = s.mail ∧
    (s.spoils t bad).1.icPl = s.icPl ∧ (s.spoils t bad).1.pw = s.pw ∧ (s.spoils t bad).1.fresh = s.fresh ∧
    (s.spoils t bad).1.pending = s.pending := by
  induction bad generalizing s t with
  | nil => simp [State.spoils]
  | cons a l ih =>
    unfold State.spoils; try dsimp only
    (repeat' split) <;> simp [ih]

@[simp] theorem State.noteIssue_frame (s : State) (th : Nat) (routine : Option Nat) :
    (s.noteIssue th routine).time = s.time ∧ (s.noteIssue th routine).link = s.link ∧ (s.noteIssue th routine).q = s.q ∧
    (s.noteIssue th routine).sub = s.sub ∧ (s.noteIssue th routine).dma = s.dma ∧ (s.noteIssue th routine).dev = s.dev ∧
    (s.noteIssue th routine).tally = s.tally ∧ (s.noteIssue th routine).pl = s.pl ∧ (s.noteIssue th routine).mail = s.mail ∧
    (s.noteIssue th routine).ic = s.ic ∧ (s.noteIssue th routine).icPl = s.icPl ∧ (s.noteIssue th routine).pw = s.pw ∧
    (s.noteIssue th routine).fresh = s.fresh ∧ (s.noteIssue th routine).out = s.out ∧
    (s.noteIssue th routine).pending = s.pending := by
  unfold State.noteIssue; try dsimp only
  (repeat' split) <;> simp

/-! ## Link -/

@[simp] theorem State.resumes_frame (s : State) :
    (s.resumes).time = s.time ∧ (s.resumes).sx = s.sx ∧ (s.resumes).dma = s.dma ∧ (s.resumes).dev = s.dev ∧
    (s.resumes).pending = s.pending := by
  unfold State.resumes; try dsimp only
  (repeat' split) <;> simp [foldl_keeps State.time, foldl_keeps State.sx, foldl_keeps State.dma, foldl_keeps State.dev,
      foldl_keeps State.pending, apply_ite State.time, apply_ite State.sx, apply_ite State.dma, apply_ite State.dev, apply_ite
      State.pending]

@[simp] theorem State.ideFail_frame (s : State) :
    (s.ideFail).time = s.time ∧ (s.ideFail).sx = s.sx ∧ (s.ideFail).dma = s.dma ∧ (s.ideFail).dev = s.dev ∧
    (s.ideFail).mail = s.mail ∧ (s.ideFail).icPl = s.icPl ∧ (s.ideFail).pw = s.pw ∧ (s.ideFail).fresh = s.fresh ∧
    (s.ideFail).pending = s.pending := by
  unfold State.ideFail; try dsimp only
  (repeat' split) <;> simp

@[simp] theorem State.spdmSay_frame (s : State) (tr : Transport) (code : Byte) :
    (s.spdmSay tr code).time = s.time ∧ (s.spdmSay tr code).link = s.link ∧ (s.spdmSay tr code).q = s.q ∧
    (s.spdmSay tr code).sub = s.sub ∧ (s.spdmSay tr code).sx = s.sx ∧ (s.spdmSay tr code).dma = s.dma ∧
    (s.spdmSay tr code).md = s.md ∧ (s.spdmSay tr code).dev = s.dev ∧ (s.spdmSay tr code).tally = s.tally ∧
    (s.spdmSay tr code).pl = s.pl ∧ (s.spdmSay tr code).mail = s.mail ∧ (s.spdmSay tr code).ic = s.ic ∧
    (s.spdmSay tr code).icPl = s.icPl ∧ (s.spdmSay tr code).pw = s.pw ∧ (s.spdmSay tr code).pending = s.pending := by
  simp [State.spdmSay]

@[simp] theorem State.setConn_frame (s : State) (tr : Transport) (c : SpdmConn) :
    (s.setConn tr c).time = s.time ∧ (s.setConn tr c).q = s.q ∧ (s.setConn tr c).sub = s.sub ∧ (s.setConn tr c).sx = s.sx ∧
    (s.setConn tr c).dma = s.dma ∧ (s.setConn tr c).md = s.md ∧ (s.setConn tr c).dev = s.dev ∧
    (s.setConn tr c).tally = s.tally ∧ (s.setConn tr c).pl = s.pl ∧ (s.setConn tr c).mail = s.mail ∧
    (s.setConn tr c).ic = s.ic ∧ (s.setConn tr c).icPl = s.icPl ∧ (s.setConn tr c).pw = s.pw ∧
    (s.setConn tr c).fresh = s.fresh ∧ (s.setConn tr c).out = s.out ∧ (s.setConn tr c).pending = s.pending := by
  unfold State.setConn; try dsimp only
  (repeat' split) <;> simp

@[simp] theorem State.heard_frame (s : State) (tr : Transport) :
    (s.heard tr).time = s.time ∧ (s.heard tr).link = s.link ∧ (s.heard tr).q = s.q ∧ (s.heard tr).sub = s.sub ∧
    (s.heard tr).sx = s.sx ∧ (s.heard tr).dma = s.dma ∧ (s.heard tr).md = s.md ∧ (s.heard tr).dev = s.dev ∧
    (s.heard tr).tally = s.tally ∧ (s.heard tr).pl = s.pl ∧ (s.heard tr).mail = s.mail ∧ (s.heard tr).ic = s.ic ∧
    (s.heard tr).pw = s.pw ∧ (s.heard tr).fresh = s.fresh ∧ (s.heard tr).out = s.out ∧ (s.heard tr).pending = s.pending := by
  unfold State.heard; try dsimp only
  (repeat' split) <;> simp

@[simp] theorem State.spdmError_frame (s : State) (tr : Transport) (code : Byte) :
    (s.spdmError tr code).time = s.time ∧ (s.spdmError tr code).link = s.link ∧ (s.spdmError tr code).q = s.q ∧
    (s.spdmError tr code).sub = s.sub ∧ (s.spdmError tr code).sx = s.sx ∧ (s.spdmError tr code).dma = s.dma ∧
    (s.spdmError tr code).md = s.md ∧ (s.spdmError tr code).dev = s.dev ∧ (s.spdmError tr code).tally = s.tally ∧
    (s.spdmError tr code).pl = s.pl ∧ (s.spdmError tr code).mail = s.mail ∧ (s.spdmError tr code).ic = s.ic ∧
    (s.spdmError tr code).icPl = s.icPl ∧ (s.spdmError tr code).pw = s.pw ∧ (s.spdmError tr code).fresh = s.fresh ∧
    (s.spdmError tr code).pending = s.pending := by
  simp [State.spdmError]

@[simp] theorem State.modSession_frame (s : State) (id : Nat) (f : SpdmSession → SpdmSession) :
    (s.modSession id f).time = s.time ∧ (s.modSession id f).q = s.q ∧ (s.modSession id f).sub = s.sub ∧
    (s.modSession id f).sx = s.sx ∧ (s.modSession id f).dma = s.dma ∧ (s.modSession id f).md = s.md ∧
    (s.modSession id f).dev = s.dev ∧ (s.modSession id f).tally = s.tally ∧ (s.modSession id f).pl = s.pl ∧
    (s.modSession id f).mail = s.mail ∧ (s.modSession id f).ic = s.ic ∧ (s.modSession id f).icPl = s.icPl ∧
    (s.modSession id f).pw = s.pw ∧ (s.modSession id f).fresh = s.fresh ∧ (s.modSession id f).out = s.out ∧
    (s.modSession id f).pending = s.pending := by
  unfold State.modSession; try dsimp only
  (repeat' split) <;> simp

@[simp] theorem State.endSessions_frame (s : State) :
    (s.endSessions).time = s.time ∧ (s.endSessions).q = s.q ∧ (s.endSessions).sub = s.sub ∧ (s.endSessions).sx = s.sx ∧
    (s.endSessions).dma = s.dma ∧ (s.endSessions).md = s.md ∧ (s.endSessions).dev = s.dev ∧ (s.endSessions).tally = s.tally ∧
    (s.endSessions).pl = s.pl ∧ (s.endSessions).mail = s.mail ∧ (s.endSessions).ic = s.ic ∧ (s.endSessions).icPl = s.icPl ∧
    (s.endSessions).pw = s.pw ∧ (s.endSessions).fresh = s.fresh ∧ (s.endSessions).out = s.out ∧
    (s.endSessions).pending = s.pending := by
  simp [State.endSessions]

/-! ## Plinth -/

@[simp] theorem State.beginBoot_frame (s : State) :
    (s.beginBoot).time = s.time ∧ (s.beginBoot).sx = s.sx ∧ (s.beginBoot).dma = s.dma ∧ (s.beginBoot).dev = s.dev ∧
    (s.beginBoot).mail = s.mail ∧ (s.beginBoot).icPl = s.icPl ∧ (s.beginBoot).pw = s.pw ∧ (s.beginBoot).fresh = s.fresh ∧
    (s.beginBoot).pending = s.pending := by
  unfold State.beginBoot; try dsimp only
  (repeat' split) <;> simp

@[simp] theorem State.imageRecord_frame (s : State) (copy : Nat) (d : Option (List Byte)) (code : Nat) :
    (s.imageRecord copy d code).time = s.time ∧ (s.imageRecord copy d code).sx = s.sx ∧
    (s.imageRecord copy d code).dma = s.dma ∧ (s.imageRecord copy d code).dev = s.dev ∧
    (s.imageRecord copy d code).mail = s.mail ∧ (s.imageRecord copy d code).icPl = s.icPl ∧
    (s.imageRecord copy d code).pw = s.pw ∧ (s.imageRecord copy d code).fresh = s.fresh ∧
    (s.imageRecord copy d code).pending = s.pending := by
  unfold State.imageRecord; try dsimp only
  (repeat' split) <;> simp

@[simp] theorem State.measure_frame (s : State) (copy : Nat) (bodies : AMap (List Byte)) (type : Nat) :
    (s.measure copy bodies type).time = s.time ∧ (s.measure copy bodies type).sx = s.sx ∧
    (s.measure copy bodies type).dma = s.dma ∧ (s.measure copy bodies type).dev = s.dev ∧
    (s.measure copy bodies type).mail = s.mail ∧ (s.measure copy bodies type).icPl = s.icPl ∧
    (s.measure copy bodies type).pw = s.pw ∧ (s.measure copy bodies type).fresh = s.fresh ∧
    (s.measure copy bodies type).pending = s.pending := by
  unfold State.measure; try dsimp only
  (repeat' split) <;> simp

@[simp] theorem State.portConfig_frame (s : State) (p : Option (List Byte)) :
    (s.portConfig p).time = s.time ∧ (s.portConfig p).sx = s.sx ∧ (s.portConfig p).mail = s.mail ∧
    (s.portConfig p).icPl = s.icPl ∧ (s.portConfig p).fresh = s.fresh ∧ (s.portConfig p).pending = s.pending := by
  unfold State.portConfig; try dsimp only
  (repeat' split) <;> simp [foldl_keeps State.time, foldl_keeps State.sx, foldl_keeps State.mail, foldl_keeps State.icPl,
      foldl_keeps State.fresh, foldl_keeps State.pending, apply_ite State.time, apply_ite State.sx, apply_ite State.mail,
      apply_ite State.icPl, apply_ite State.fresh, apply_ite State.pending]

@[simp] theorem State.testSegments_frame (s : State) (bad : BitVec 128) :
    (s.testSegments bad).time = s.time ∧ (s.testSegments bad).sx = s.sx ∧ (s.testSegments bad).dma = s.dma ∧
    (s.testSegments bad).mail = s.mail ∧ (s.testSegments bad).icPl = s.icPl ∧ (s.testSegments bad).pw = s.pw ∧
    (s.testSegments bad).fresh = s.fresh ∧ (s.testSegments bad).pending = s.pending := by
  unfold State.testSegments; try dsimp only
  (repeat' split) <;> simp [foldl_keeps State.time, foldl_keeps State.sx, foldl_keeps State.dma, foldl_keeps State.mail,
      foldl_keeps State.icPl, foldl_keeps State.pw, foldl_keeps State.fresh, foldl_keeps State.pending, apply_ite State.time,
      apply_ite State.sx, apply_ite State.dma, apply_ite State.mail, apply_ite State.icPl, apply_ite State.pw, apply_ite
      State.fresh, apply_ite State.pending]

@[simp] theorem State.tuneLanes_frame (s : State) (b : List Byte) :
    (s.tuneLanes b).time = s.time ∧ (s.tuneLanes b).link = s.link ∧ (s.tuneLanes b).q = s.q ∧ (s.tuneLanes b).sub = s.sub ∧
    (s.tuneLanes b).sx = s.sx ∧ (s.tuneLanes b).dma = s.dma ∧ (s.tuneLanes b).md = s.md ∧ (s.tuneLanes b).tally = s.tally ∧
    (s.tuneLanes b).pl = s.pl ∧ (s.tuneLanes b).mail = s.mail ∧ (s.tuneLanes b).ic = s.ic ∧ (s.tuneLanes b).icPl = s.icPl ∧
    (s.tuneLanes b).pw = s.pw ∧ (s.tuneLanes b).fresh = s.fresh ∧ (s.tuneLanes b).out = s.out ∧
    (s.tuneLanes b).pending = s.pending := by
  simp [State.tuneLanes]

@[simp] theorem State.armTimers_frame (s : State) :
    (s.armTimers).time = s.time ∧ (s.armTimers).link = s.link ∧ (s.armTimers).q = s.q ∧ (s.armTimers).sub = s.sub ∧
    (s.armTimers).sx = s.sx ∧ (s.armTimers).dma = s.dma ∧ (s.armTimers).md = s.md ∧ (s.armTimers).dev = s.dev ∧
    (s.armTimers).tally = s.tally ∧ (s.armTimers).pl = s.pl ∧ (s.armTimers).mail = s.mail ∧ (s.armTimers).ic = s.ic ∧
    (s.armTimers).icPl = s.icPl ∧ (s.armTimers).out = s.out ∧ (s.armTimers).pending = s.pending := by
  simp [State.armTimers]

@[simp] theorem State.bootNormal_frame (s : State) (mode : Nat) (d : List Byte) (start : BootTest) :
    (s.bootNormal mode d start).time = s.time ∧ (s.bootNormal mode d start).mail = s.mail ∧
    (s.bootNormal mode d start).icPl = s.icPl ∧ (s.bootNormal mode d start).pending = s.pending := by
  unfold State.bootNormal; try dsimp only
  (repeat' split) <;> simp [foldl_keeps State.time, foldl_keeps State.mail, foldl_keeps State.icPl, foldl_keeps State.pending,
      apply_ite State.time, apply_ite State.mail, apply_ite State.icPl, apply_ite State.pending]

@[simp] theorem State.bootRecovery_frame (s : State) (micros : Nat) :
    (s.bootRecovery micros).time = s.time ∧ (s.bootRecovery micros).sx = s.sx ∧ (s.bootRecovery micros).mail = s.mail ∧
    (s.bootRecovery micros).icPl = s.icPl ∧ (s.bootRecovery micros).fresh = s.fresh ∧
    (s.bootRecovery micros).pending = s.pending := by
  unfold State.bootRecovery; try dsimp only
  (repeat' split) <;> simp

@[simp] theorem State.flashRead_frame (s : State) (device : Bool) (f : FlashDev) :
    (s.flashRead device f).time = s.time ∧ (s.flashRead device f).link = s.link ∧ (s.flashRead device f).q = s.q ∧
    (s.flashRead device f).sub = s.sub ∧ (s.flashRead device f).sx = s.sx ∧ (s.flashRead device f).dma = s.dma ∧
    (s.flashRead device f).md = s.md ∧ (s.flashRead device f).dev = s.dev ∧ (s.flashRead device f).tally = s.tally ∧
    (s.flashRead device f).pl = s.pl ∧ (s.flashRead device f).mail = s.mail ∧ (s.flashRead device f).ic = s.ic ∧
    (s.flashRead device f).icPl = s.icPl ∧ (s.flashRead device f).pw = s.pw ∧ (s.flashRead device f).fresh = s.fresh ∧
    (s.flashRead device f).pending = s.pending := by
  unfold State.flashRead; try dsimp only
  (repeat' split) <;> simp

@[simp] theorem State.reply_frame (s : State) (w : Word) (status value : Nat) :
    (s.reply w status value).time = s.time ∧ (s.reply w status value).sx = s.sx ∧ (s.reply w status value).pw = s.pw ∧
    (s.reply w status value).pending = s.pending := by
  unfold State.reply; try dsimp only
  (repeat' split) <;> simp

@[simp] theorem State.blockWrite_frame (s : State) (w : Word) (data : List Byte) :
    (s.blockWrite w data).time = s.time ∧ (s.blockWrite w data).q = s.q ∧ (s.blockWrite w data).sx = s.sx ∧
    (s.blockWrite w data).dma = s.dma ∧ (s.blockWrite w data).md = s.md ∧ (s.blockWrite w data).dev = s.dev ∧
    (s.blockWrite w data).tally = s.tally ∧ (s.blockWrite w data).pl = s.pl ∧ (s.blockWrite w data).mail = s.mail ∧
    (s.blockWrite w data).ic = s.ic ∧ (s.blockWrite w data).icPl = s.icPl ∧ (s.blockWrite w data).pw = s.pw ∧
    (s.blockWrite w data).fresh = s.fresh ∧ (s.blockWrite w data).pending = s.pending := by
  simp [State.blockWrite]

@[simp] theorem State.blockRead_frame (s : State) (w : Word) (d : HostData) :
    (s.blockRead w d).1.time = s.time ∧ (s.blockRead w d).1.sx = s.sx ∧ (s.blockRead w d).1.dma = s.dma ∧
    (s.blockRead w d).1.dev = s.dev ∧ (s.blockRead w d).1.mail = s.mail ∧ (s.blockRead w d).1.icPl = s.icPl ∧
    (s.blockRead w d).1.pw = s.pw ∧ (s.blockRead w d).1.fresh = s.fresh ∧ (s.blockRead w d).1.pending = s.pending := by
  simp [State.blockRead]

@[simp] theorem State.flashRecord_frame (s : State) (phase target status version : Nat) (digest : BitVec 384) :
    (s.flashRecord phase target status version digest).time = s.time ∧
    (s.flashRecord phase target status version digest).sx = s.sx ∧
    (s.flashRecord phase target status version digest).dma = s.dma ∧
    (s.flashRecord phase target status version digest).dev = s.dev ∧
    (s.flashRecord phase target status version digest).mail = s.mail ∧
    (s.flashRecord phase target status version digest).icPl = s.icPl ∧
    (s.flashRecord phase target status version digest).pw = s.pw ∧
    (s.flashRecord phase target status version digest).fresh = s.fresh ∧
    (s.flashRecord phase target status version digest).pending = s.pending := by
  simp [State.flashRecord]

@[simp] theorem State.flashBegin_frame (s : State) (target : Nat) (image : List Byte) :
    (s.flashBegin target image).time = s.time ∧ (s.flashBegin target image).link = s.link ∧
    (s.flashBegin target image).q = s.q ∧ (s.flashBegin target image).sub = s.sub ∧ (s.flashBegin target image).sx = s.sx ∧
    (s.flashBegin target image).dma = s.dma ∧ (s.flashBegin target image).md = s.md ∧
    (s.flashBegin target image).dev = s.dev ∧ (s.flashBegin target image).tally = s.tally ∧
    (s.flashBegin target image).mail = s.mail ∧ (s.flashBegin target image).ic = s.ic ∧
    (s.flashBegin target image).icPl = s.icPl ∧ (s.flashBegin target image).pw = s.pw ∧
    (s.flashBegin target image).fresh = s.fresh ∧ (s.flashBegin target image).pending = s.pending := by
  unfold State.flashBegin; try dsimp only
  (repeat' split) <;> simp

@[simp] theorem State.flashEnd_frame (s : State) (j : FlashJob) (status : Nat) :
    (s.flashEnd j status).time = s.time ∧ (s.flashEnd j status).sx = s.sx ∧ (s.flashEnd j status).dma = s.dma ∧
    (s.flashEnd j status).dev = s.dev ∧ (s.flashEnd j status).mail = s.mail ∧ (s.flashEnd j status).pw = s.pw ∧
    (s.flashEnd j status).fresh = s.fresh ∧ (s.flashEnd j status).pending = s.pending := by
  unfold State.flashEnd; try dsimp only
  (repeat' split) <;> simp

@[simp] theorem State.decodeRecord_frame (s : State) (status : Nat) (body : List Byte) :
    (s.decodeRecord status body).time = s.time ∧ (s.decodeRecord status body).sx = s.sx ∧
    (s.decodeRecord status body).dma = s.dma ∧ (s.decodeRecord status body).dev = s.dev ∧
    (s.decodeRecord status body).mail = s.mail ∧ (s.decodeRecord status body).icPl = s.icPl ∧
    (s.decodeRecord status body).pw = s.pw ∧ (s.decodeRecord status body).fresh = s.fresh ∧
    (s.decodeRecord status body).pending = s.pending := by
  simp [State.decodeRecord]

@[simp] theorem State.decodeRefuse_frame (s : State) (status : Nat) (body : List Byte) :
    (s.decodeRefuse status body).time = s.time ∧ (s.decodeRefuse status body).dma = s.dma ∧
    (s.decodeRefuse status body).dev = s.dev ∧ (s.decodeRefuse status body).mail = s.mail ∧
    (s.decodeRefuse status body).icPl = s.icPl ∧ (s.decodeRefuse status body).pw = s.pw ∧
    (s.decodeRefuse status body).fresh = s.fresh ∧ (s.decodeRefuse status body).pending = s.pending := by
  simp [State.decodeRefuse]

@[simp] theorem State.decodeFail_frame (s : State) (w : Word) (st : Nat) (body : List Byte) :
    (s.decodeFail w st body).time = s.time ∧ (s.decodeFail w st body).pw = s.pw ∧
    (s.decodeFail w st body).pending = s.pending := by
  simp [State.decodeFail]

@[simp] theorem State.tamperRecord_frame (s : State) (edge : Nat) :
    (s.tamperRecord edge).time = s.time ∧ (s.tamperRecord edge).sx = s.sx ∧ (s.tamperRecord edge).dma = s.dma ∧
    (s.tamperRecord edge).dev = s.dev ∧ (s.tamperRecord edge).mail = s.mail ∧ (s.tamperRecord edge).icPl = s.icPl ∧
    (s.tamperRecord edge).pw = s.pw ∧ (s.tamperRecord edge).fresh = s.fresh ∧ (s.tamperRecord edge).pending = s.pending := by
  simp [State.tamperRecord]

@[simp] theorem State.tamperLocks_frame (s : State) :
    (s.tamperLocks).time = s.time ∧ (s.tamperLocks).sx = s.sx ∧ (s.tamperLocks).dma = s.dma ∧ (s.tamperLocks).dev = s.dev ∧
    (s.tamperLocks).mail = s.mail ∧ (s.tamperLocks).pw = s.pw ∧ (s.tamperLocks).fresh = s.fresh ∧
    (s.tamperLocks).pending = s.pending := by
  unfold State.tamperLocks; try dsimp only
  (repeat' split) <;> simp

/-! ## Resets -/

@[simp] theorem State.obuloClears_frame (s : State) :
    (s.obuloClears).time = s.time ∧ (s.obuloClears).sx = s.sx ∧ (s.obuloClears).fresh = s.fresh ∧
    (s.obuloClears).pending = s.pending := by
  unfold State.obuloClears; try dsimp only
  (repeat' split) <;> simp [foldl_keeps State.time, foldl_keeps State.sx, foldl_keeps State.fresh, foldl_keeps State.pending,
      apply_ite State.time, apply_ite State.sx, apply_ite State.fresh, apply_ite State.pending]

@[simp] theorem State.obuloRestart_frame (s : State) :
    (s.obuloRestart).time = s.time ∧ (s.obuloRestart).sx = s.sx ∧ (s.obuloRestart).pending = s.pending := by
  unfold State.obuloRestart; try dsimp only
  (repeat' split) <;> simp

@[simp] theorem State.rearm_frame (s : State) (n : Nat) :
    (s.rearm n).time = s.time ∧ (s.rearm n).link = s.link ∧ (s.rearm n).q = s.q ∧ (s.rearm n).sub = s.sub ∧
    (s.rearm n).sx = s.sx ∧ (s.rearm n).dma = s.dma ∧ (s.rearm n).md = s.md ∧ (s.rearm n).dev = s.dev ∧
    (s.rearm n).tally = s.tally ∧ (s.rearm n).pl = s.pl ∧ (s.rearm n).mail = s.mail ∧ (s.rearm n).ic = s.ic ∧
    (s.rearm n).icPl = s.icPl ∧ (s.rearm n).out = s.out ∧ (s.rearm n).pending = s.pending := by
  unfold State.rearm; try dsimp only
  (repeat' split) <;> simp

@[simp] theorem State.dropExchanges_frame (s : State) (silent : Nat → Bool) :
    (s.dropExchanges silent).time = s.time ∧ (s.dropExchanges silent).pw = s.pw ∧
    (s.dropExchanges silent).pending = s.pending := by
  unfold State.dropExchanges; try dsimp only
  (repeat' split) <;> simp [foldl_keeps State.time, foldl_keeps State.pw, foldl_keeps State.pending, apply_ite State.time,
      apply_ite State.pw, apply_ite State.pending]

@[simp] theorem State.flrState_frame (s : State) :
    (s.flrState).time = s.time ∧ (s.flrState).pending = s.pending := by
  unfold State.flrState; try dsimp only
  (repeat' split) <;> simp

@[simp] theorem State.flrEnd_frame (s : State) :
    (s.flrEnd).time = s.time ∧ (s.flrEnd).sx = s.sx ∧ (s.flrEnd).dma = s.dma ∧ (s.flrEnd).dev = s.dev ∧
    (s.flrEnd).mail = s.mail ∧ (s.flrEnd).icPl = s.icPl ∧ (s.flrEnd).fresh = s.fresh ∧ (s.flrEnd).pending = s.pending := by
  unfold State.flrEnd; try dsimp only
  (repeat' split) <;> simp

@[simp] theorem State.flrMail_frame (s : State) :
    (s.flrMail).time = s.time ∧ (s.flrMail).sx = s.sx ∧ (s.flrMail).dma = s.dma ∧ (s.flrMail).dev = s.dev ∧
    (s.flrMail).pw = s.pw ∧ (s.flrMail).fresh = s.fresh ∧ (s.flrMail).pending = s.pending := by
  unfold State.flrMail; try dsimp only
  (repeat' split) <;> simp [foldl_keeps State.time, foldl_keeps State.sx, foldl_keeps State.dma, foldl_keeps State.dev,
      foldl_keeps State.pw, foldl_keeps State.fresh, foldl_keeps State.pending, apply_ite State.time, apply_ite State.sx,
      apply_ite State.dma, apply_ite State.dev, apply_ite State.pw, apply_ite State.fresh, apply_ite State.pending]

@[simp] theorem State.holdDown_frame (s : State) :
    (s.holdDown).time = s.time ∧ (s.holdDown).fresh = s.fresh ∧ (s.holdDown).pending = s.pending := by
  simp [State.holdDown]

@[simp] theorem State.warmReset_frame (s : State) (last : Nat) (hold : Option Time) :
    (s.warmReset last hold).time = s.time ∧ (s.warmReset last hold).fresh = s.fresh ∧
    (s.warmReset last hold).pending = s.pending := by
  unfold State.warmReset; try dsimp only
  (repeat' split) <;> simp

@[simp] theorem State.unhold_frame (s : State) :
    (s.unhold).time = s.time ∧ (s.unhold).link = s.link ∧ (s.unhold).q = s.q ∧ (s.unhold).sub = s.sub ∧
    (s.unhold).sx = s.sx ∧ (s.unhold).dma = s.dma ∧ (s.unhold).md = s.md ∧ (s.unhold).dev = s.dev ∧
    (s.unhold).tally = s.tally ∧ (s.unhold).pl = s.pl ∧ (s.unhold).mail = s.mail ∧ (s.unhold).ic = s.ic ∧
    (s.unhold).icPl = s.icPl ∧ (s.unhold).fresh = s.fresh ∧ (s.unhold).out = s.out ∧ (s.unhold).pending = s.pending := by
  simp [State.unhold]

@[simp] theorem State.setPref_frame (s : State) (half v : Bool) :
    (s.setPref half v).time = s.time ∧ (s.setPref half v).link = s.link ∧ (s.setPref half v).q = s.q ∧
    (s.setPref half v).sub = s.sub ∧ (s.setPref half v).sx = s.sx ∧ (s.setPref half v).dma = s.dma ∧
    (s.setPref half v).md = s.md ∧ (s.setPref half v).dev = s.dev ∧ (s.setPref half v).tally = s.tally ∧
    (s.setPref half v).pl = s.pl ∧ (s.setPref half v).mail = s.mail ∧ (s.setPref half v).ic = s.ic ∧
    (s.setPref half v).icPl = s.icPl ∧ (s.setPref half v).fresh = s.fresh ∧ (s.setPref half v).out = s.out ∧
    (s.setPref half v).pending = s.pending := by
  unfold State.setPref; try dsimp only
  (repeat' split) <;> simp

@[simp] theorem State.tryRelease_frame (s : State) :
    (s.tryRelease).link = s.link ∧ (s.tryRelease).q = s.q ∧ (s.tryRelease).sub = s.sub ∧ (s.tryRelease).sx = s.sx ∧
    (s.tryRelease).dma = s.dma ∧ (s.tryRelease).md = s.md ∧ (s.tryRelease).dev = s.dev ∧ (s.tryRelease).tally = s.tally ∧
    (s.tryRelease).pl = s.pl ∧ (s.tryRelease).mail = s.mail ∧ (s.tryRelease).ic = s.ic ∧ (s.tryRelease).icPl = s.icPl ∧
    (s.tryRelease).fresh = s.fresh ∧ (s.tryRelease).out = s.out ∧ (s.tryRelease).pending = s.pending := by
  unfold State.tryRelease; try dsimp only
  (repeat' split) <;> simp

@[simp] theorem State.sidebandLost_frame (s : State) :
    (s.sidebandLost).time = s.time ∧ (s.sidebandLost).pw = s.pw ∧ (s.sidebandLost).pending = s.pending := by
  unfold State.sidebandLost; try dsimp only
  (repeat' split) <;> simp [foldl_keeps State.time, foldl_keeps State.pw, foldl_keeps State.pending, apply_ite State.time,
      apply_ite State.pw, apply_ite State.pending]

@[simp] theorem State.avsWrite_frame (s : State) (mv : Nat) (acked : Bool) :
    (s.avsWrite mv acked).time = s.time ∧ (s.avsWrite mv acked).link = s.link ∧ (s.avsWrite mv acked).q = s.q ∧
    (s.avsWrite mv acked).sub = s.sub ∧ (s.avsWrite mv acked).sx = s.sx ∧ (s.avsWrite mv acked).dma = s.dma ∧
    (s.avsWrite mv acked).md = s.md ∧ (s.avsWrite mv acked).dev = s.dev ∧ (s.avsWrite mv acked).tally = s.tally ∧
    (s.avsWrite mv acked).pl = s.pl ∧ (s.avsWrite mv acked).mail = s.mail ∧ (s.avsWrite mv acked).ic = s.ic ∧
    (s.avsWrite mv acked).icPl = s.icPl ∧ (s.avsWrite mv acked).fresh = s.fresh ∧ (s.avsWrite mv acked).pending = s.pending := by
  unfold State.avsWrite; try dsimp only
  (repeat' split) <;> simp

@[simp] theorem State.handBack_frame (s : State) :
    (s.handBack).time = s.time ∧ (s.handBack).link = s.link ∧ (s.handBack).q = s.q ∧ (s.handBack).sub = s.sub ∧
    (s.handBack).sx = s.sx ∧ (s.handBack).dma = s.dma ∧ (s.handBack).md = s.md ∧ (s.handBack).dev = s.dev ∧
    (s.handBack).tally = s.tally ∧ (s.handBack).pl = s.pl ∧ (s.handBack).mail = s.mail ∧ (s.handBack).ic = s.ic ∧
    (s.handBack).icPl = s.icPl ∧ (s.handBack).fresh = s.fresh ∧ (s.handBack).pending = s.pending := by
  unfold State.handBack; try dsimp only
  (repeat' split) <;> simp

@[simp] theorem State.boundaryScan_frame (s : State) (cells : List Bool) (extest : Bool) :
    (s.boundaryScan cells extest).time = s.time ∧ (s.boundaryScan cells extest).link = s.link ∧
    (s.boundaryScan cells extest).q = s.q ∧ (s.boundaryScan cells extest).sub = s.sub ∧
    (s.boundaryScan cells extest).sx = s.sx ∧ (s.boundaryScan cells extest).dma = s.dma ∧
    (s.boundaryScan cells extest).md = s.md ∧ (s.boundaryScan cells extest).dev = s.dev ∧
    (s.boundaryScan cells extest).tally = s.tally ∧ (s.boundaryScan cells extest).pl = s.pl ∧
    (s.boundaryScan cells extest).mail = s.mail ∧ (s.boundaryScan cells extest).ic = s.ic ∧
    (s.boundaryScan cells extest).icPl = s.icPl ∧ (s.boundaryScan cells extest).fresh = s.fresh ∧
    (s.boundaryScan cells extest).pending = s.pending := by
  unfold State.boundaryScan; try dsimp only
  (repeat' split) <;> simp

/-! ## Registers -/

@[simp] theorem State.readZeros_frame (n : Nat) (s : State) (off len : Nat) :
    (s.readZeros n off len).time = s.time ∧ (s.readZeros n off len).link = s.link ∧ (s.readZeros n off len).q = s.q ∧
    (s.readZeros n off len).sub = s.sub ∧ (s.readZeros n off len).sx = s.sx ∧ (s.readZeros n off len).dma = s.dma ∧
    (s.readZeros n off len).md = s.md ∧ (s.readZeros n off len).dev = s.dev ∧ (s.readZeros n off len).tally = s.tally ∧
    (s.readZeros n off len).pl = s.pl ∧ (s.readZeros n off len).mail = s.mail ∧ (s.readZeros n off len).ic = s.ic ∧
    (s.readZeros n off len).icPl = s.icPl ∧ (s.readZeros n off len).pw = s.pw ∧ (s.readZeros n off len).fresh = s.fresh ∧
    (s.readZeros n off len).pending = s.pending := by
  induction n generalizing s off len with
  | zero => simp [State.readZeros]
  | succ n ih =>
    unfold State.readZeros; try dsimp only
    (repeat' split) <;> simp [ih]

@[simp] theorem State.privRead_frame (s : State) (inst : IcInst) (bar off size : Nat) :
    (s.privRead inst bar off size).time = s.time ∧ (s.privRead inst bar off size).link = s.link ∧
    (s.privRead inst bar off size).q = s.q ∧ (s.privRead inst bar off size).sub = s.sub ∧
    (s.privRead inst bar off size).sx = s.sx ∧ (s.privRead inst bar off size).dma = s.dma ∧
    (s.privRead inst bar off size).md = s.md ∧ (s.privRead inst bar off size).dev = s.dev ∧
    (s.privRead inst bar off size).tally = s.tally ∧ (s.privRead inst bar off size).pl = s.pl ∧
    (s.privRead inst bar off size).mail = s.mail ∧ (s.privRead inst bar off size).pw = s.pw ∧
    (s.privRead inst bar off size).fresh = s.fresh ∧ (s.privRead inst bar off size).pending = s.pending := by
  unfold State.privRead; try dsimp only
  (repeat' split) <;> simp

@[simp] theorem State.writeAdmCtrl_frame (s : State) (v : Word) :
    (s.writeAdmCtrl v).time = s.time ∧ (s.writeAdmCtrl v).sx = s.sx ∧ (s.writeAdmCtrl v).dma = s.dma ∧
    (s.writeAdmCtrl v).dev = s.dev ∧ (s.writeAdmCtrl v).pending = s.pending := by
  unfold State.writeAdmCtrl; try dsimp only
  (repeat' split) <;> simp

@[simp] theorem State.writeFlow_frame (s : State) (v : Word) :
    (s.writeFlow v).time = s.time ∧ (s.writeFlow v).link = s.link ∧ (s.writeFlow v).q = s.q ∧ (s.writeFlow v).sub = s.sub ∧
    (s.writeFlow v).sx = s.sx ∧ (s.writeFlow v).md = s.md ∧ (s.writeFlow v).dev = s.dev ∧ (s.writeFlow v).tally = s.tally ∧
    (s.writeFlow v).pl = s.pl ∧ (s.writeFlow v).mail = s.mail ∧ (s.writeFlow v).ic = s.ic ∧ (s.writeFlow v).icPl = s.icPl ∧
    (s.writeFlow v).pw = s.pw ∧ (s.writeFlow v).fresh = s.fresh ∧ (s.writeFlow v).pending = s.pending := by
  simp [State.writeFlow]

@[simp] theorem State.writeQuadCtrl_frame (s : State) (q : Nat) (v : Word) :
    (s.writeQuadCtrl q v).time = s.time ∧ (s.writeQuadCtrl q v).pw = s.pw ∧ (s.writeQuadCtrl q v).pending = s.pending := by
  unfold State.writeQuadCtrl; try dsimp only
  (repeat' split) <;> simp

@[simp] theorem State.writeTlStat_frame (s : State) (v : Word) :
    (s.writeTlStat v).time = s.time ∧ (s.writeTlStat v).link = s.link ∧ (s.writeTlStat v).q = s.q ∧
    (s.writeTlStat v).sub = s.sub ∧ (s.writeTlStat v).sx = s.sx ∧ (s.writeTlStat v).dma = s.dma ∧
    (s.writeTlStat v).md = s.md ∧ (s.writeTlStat v).dev = s.dev ∧ (s.writeTlStat v).pl = s.pl ∧
    (s.writeTlStat v).mail = s.mail ∧ (s.writeTlStat v).ic = s.ic ∧ (s.writeTlStat v).icPl = s.icPl ∧
    (s.writeTlStat v).pw = s.pw ∧ (s.writeTlStat v).fresh = s.fresh ∧ (s.writeTlStat v).out = s.out ∧
    (s.writeTlStat v).pending = s.pending := by
  unfold State.writeTlStat; try dsimp only
  (repeat' split) <;> simp [foldl_keeps State.time, foldl_keeps State.link, foldl_keeps State.q, foldl_keeps State.sub,
      foldl_keeps State.sx, foldl_keeps State.dma, foldl_keeps State.md, foldl_keeps State.dev, foldl_keeps State.pl,
      foldl_keeps State.mail, foldl_keeps State.ic, foldl_keeps State.icPl, foldl_keeps State.pw, foldl_keeps State.fresh,
      foldl_keeps State.out, foldl_keeps State.pending, apply_ite State.time, apply_ite State.link, apply_ite State.q,
      apply_ite State.sub, apply_ite State.sx, apply_ite State.dma, apply_ite State.md, apply_ite State.dev, apply_ite
      State.pl, apply_ite State.mail, apply_ite State.ic, apply_ite State.icPl, apply_ite State.pw, apply_ite State.fresh,
      apply_ite State.out, apply_ite State.pending]

@[simp] theorem State.writeBar4_frame (s : State) (off : Nat) (half : Option Bool) (val : Word) :
    (s.writeBar4 off half val).time = s.time ∧ (s.writeBar4 off half val).sx = s.sx ∧
    (s.writeBar4 off half val).dma = s.dma ∧ (s.writeBar4 off half val).dev = s.dev ∧
    (s.writeBar4 off half val).mail = s.mail ∧ (s.writeBar4 off half val).icPl = s.icPl ∧
    (s.writeBar4 off half val).pw = s.pw ∧ (s.writeBar4 off half val).fresh = s.fresh ∧
    (s.writeBar4 off half val).pending = s.pending := by
  unfold State.writeBar4; try dsimp only
  (repeat' split) <;> simp

/-! ## Tick -/

@[simp] theorem tick_frame (s : State) :
    (tick s).link = s.link ∧ (tick s).q = s.q ∧ (tick s).sub = s.sub ∧ (tick s).sx = s.sx ∧ (tick s).dma = s.dma ∧
    (tick s).md = s.md ∧ (tick s).dev = s.dev ∧ (tick s).tally = s.tally ∧ (tick s).pl = s.pl ∧ (tick s).mail = s.mail ∧
    (tick s).ic = s.ic ∧ (tick s).icPl = s.icPl ∧ (tick s).fresh = s.fresh ∧ (tick s).out = s.out ∧
    (tick s).pending = s.pending := by
  unfold tick; try dsimp only
  (repeat' split) <;> simp

end Sys2Proof.Machine
end

