-- ==== Sys2Proof/Laws/Memory.lean ====
section
/-! SUPPORT. Sys2Proof/Laws/Memory.lean: the addressed memories of the 6128, the global scratchpad and the subchannel contexts: a
read after a write, every other place as before, and the canonical form of both kept by every operation over them. -/

namespace Sys2Proof.Machine

/-! ## The global scratchpad -/

theorem State.gsRead_gsWrite_same (s : State) (w : Nat) (v : TWord) (h : AMap.sorted s.sx.gs = true) :
    (s.gsWrite w v).gsRead w = v := AMap.getD_store_same w v TWord.unset h

theorem State.gsRead_gsWrite_other (s : State) {w n : Nat} (v : TWord) (h : n ≠ w) : (s.gsWrite w v).gsRead n = s.gsRead n :=
  AMap.getD_store_other s.sx.gs v TWord.unset h

theorem State.gsWrite_wf (s : State) (w : Nat) (v : TWord) (h : AMap.wf s.sx.gs TWord.unset = true) :
    AMap.wf (s.gsWrite w v).sx.gs TWord.unset = true := AMap.wf_store w v h

theorem State.gsBytes_wf (n : Nat) (s : State) (addr : Nat) (bs : List Byte) (bad : List Nat) (last : Bool)
    (h : AMap.wf s.sx.gs TWord.unset = true) : AMap.wf (State.gsBytes n s addr bs bad last).sx.gs TWord.unset = true := by
  induction n generalizing s addr bs with
  | zero => exact h
  | succ n ih =>
    unfold State.gsBytes; dsimp only
    split
    · exact h
    · exact ih _ _ _ (s.gsWrite_wf _ _ h)

theorem State.releaseStore_wf (s : State) (e : Store) (h : AMap.wf s.sx.gs TWord.unset = true) :
    AMap.wf (s.releaseStore e).sx.gs TWord.unset = true := by
  unfold State.releaseStore
  repeat' split
  all_goals first
    | exact s.gsWrite_wf _ _ h
    | simpa using h

theorem State.releaseEach_wf (s : State) (l : List Store) (h : AMap.wf s.sx.gs TWord.unset = true) :
    AMap.wf (l.foldl State.releaseStore s).sx.gs TWord.unset = true := by
  induction l generalizing s with
  | nil => exact h
  | cons e l ih => exact ih _ (s.releaseStore_wf e h)

theorem State.releaseStores_wf (s : State) (sch : Nat) (l : List Store) (h : AMap.wf s.sx.gs TWord.unset = true) :
    AMap.wf (s.releaseStores sch l).sx.gs TWord.unset = true := by
  have g := s.releaseEach_wf l h
  unfold State.releaseStores; dsimp only
  split
  · simpa [State.writeRefused] using g
  · exact g

/-! ## The contexts -/

theorem State.ctxOf_setCtx_same (s : State) (sch : Nat) (c : Ctx) (h : AMap.sorted s.sub.ctx = true) :
    (s.setCtx sch c).ctxOf sch = c := AMap.getD_store_same sch c Ctx.zero h

theorem State.ctxOf_setCtx_other (s : State) {sch n : Nat} (c : Ctx) (h : n ≠ sch) : (s.setCtx sch c).ctxOf n = s.ctxOf n :=
  AMap.getD_store_other s.sub.ctx c Ctx.zero h

theorem State.setCtx_wf (s : State) (sch : Nat) (c : Ctx) (h : AMap.wf s.sub.ctx Ctx.zero = true) :
    AMap.wf (s.setCtx sch c).sub.ctx Ctx.zero = true := AMap.wf_store sch c h

theorem State.modCtx_wf (s : State) (sch : Nat) (f : Ctx → Ctx) (h : AMap.wf s.sub.ctx Ctx.zero = true) :
    AMap.wf (s.modCtx sch f).sub.ctx Ctx.zero = true := s.setCtx_wf sch _ h

theorem mapCtx_wf (f : Ctx → Ctx) (m : AMap Ctx) (h : AMap.wf m Ctx.zero = true) : AMap.wf (mapCtx f m) Ctx.zero = true := by
  have ab : ∀ (n : Nat) (m : AMap Ctx), AMap.above n m → AMap.above n (mapCtx f m) := by
    intro n m
    induction m with
    | nil => exact fun a => a
    | cons e m ih =>
      obtain ⟨k, c⟩ := e
      intro a
      have am : AMap.above n m := fun e he => a e (List.mem_cons_of_mem _ he)
      simp only [mapCtx]
      split
      · exact ih am
      · intro e he
        rcases List.mem_cons.1 he with rfl | he
        · exact a (k, c) List.mem_cons_self
        · exact ih am e he
  induction m with
  | nil => rfl
  | cons e m ih =>
    obtain ⟨k, c⟩ := e
    rw [AMap.wf_iff, AMap.sorted_cons] at h
    have hm : AMap.wf m Ctx.zero = true := (AMap.wf_iff m _).2 ⟨h.1.2, fun e he => h.2 e (List.mem_cons_of_mem _ he)⟩
    have hi := (AMap.wf_iff _ _).1 (ih hm)
    simp only [mapCtx]
    split
    · exact ih hm
    · rename_i hf
      rw [AMap.wf_iff, AMap.sorted_cons]
      refine ⟨⟨ab k m h.1.1, hi.1⟩, fun e he => ?_⟩
      rcases List.mem_cons.1 he with rfl | he
      · exact hf
      · exact hi.2 e he

theorem flrCtx_wf (m : AMap Ctx) : AMap.wf (flrCtx m) Ctx.zero = true := by
  have g : ∀ (l : List (Nat × Ctx)) (a : AMap Ctx), AMap.wf a Ctx.zero = true →
      AMap.wf (l.foldl (fun n e => AMap.store n e.1 { Ctx.zero with gen := e.2.gen } Ctx.zero) a) Ctx.zero = true := by
    intro l
    induction l with
    | nil => exact fun a h => h
    | cons e l ih => exact fun a h => ih _ (AMap.wf_store _ _ h)
  exact g m [] rfl

/-! ## Both at reset -/

theorem reset_scratch_wf : AMap.wf State.reset.sx.gs TWord.unset = true := by decide
theorem reset_contexts_wf : AMap.wf State.reset.sub.ctx Ctx.zero = true := by decide

end Sys2Proof.Machine
end

