-- ==== Sys2Proof/Machine/Package.lean ====
section
/-! DEFINITION. Sys2Proof/Machine/Package.lean: the balls of the package, their signals with type and supply domain, and the ranges
and loads of the rails (17). Constants of the part: no command reads or changes them. -/

namespace Sys2Proof.Machine

/-! ## Rows (R508) -/

def rowLetters : List Char :=
  ['A', 'B', 'C', 'D', 'E', 'F', 'G', 'H', 'J', 'K', 'L', 'M', 'N', 'P', 'T', 'U', 'V', 'W', 'Y']

/-- The name of row index 1 to 51. -/
def rowName (i : Nat) : List Char :=
  let c := fun k => (rowLetters[k]?).toList
  if i = 0 || 51 < i then [] else if i ≤ 19 then c (i - 1) else if i ≤ 38 then 'A' :: c (i - 20) else 'B' :: c (i - 39)

/-- The row index of a name. -/
def rowIndex (name : List Char) : Option Nat := (List.range 52).find? fun i => i ≠ 0 && rowName i = name

/-! ## Signals (R509 to R513) -/

/-- What a ball carries. `neg`: the negative leg of a pair; `half`: PREF1. -/
inductive Signal where
  | vss
  | supply (r : Rail)
  | hlTx (lane : Nat) (neg : Bool)
  | hlRx (lane : Nat) (neg : Bool)
  | hlRefclk (neg : Bool)
  | pqTx (quad lane : Nat) (neg : Bool)
  | pqRx (quad lane : Nat) (neg : Bool)
  | pwren (quad port : Nat)
  | perstPort (quad port : Nat)
  | prsnt (quad port : Nat)
  | scl (quad seg : Nat)
  | sda (quad seg : Nat)
  | sgclk (quad : Nat)
  | sgld (quad : Nat)
  | sgdo (quad : Nat)
  | sgdi (quad : Nat)
  | pref (half neg : Bool)
  | flow (k : Nat)
  | flCk (n : Nat)
  | flCs (n : Nat)
  | flDqs (n : Nat)
  | flReset (n : Nat)
  | flDq (n bit : Nat)
  | tck | tms | tdi | tdo | trst | testMode
  | xtalIn | xtalOut | pwrok | tamper | thermtrip | perst
  | avsClk | avsMdata | avsSdata
  deriving DecidableEq, Repr

/-- Position 0 to 23 of a quad's sideband. -/
def sidebandAt (quad pos : Nat) : Signal :=
  if pos < 4 then .pwren quad pos
  else if pos < 8 then .perstPort quad (pos - 4)
  else if pos < 12 then .prsnt quad (pos - 8)
  else if pos < 16 then .scl quad (pos - 12)
  else if pos < 20 then .sda quad (pos - 16)
  else if pos = 20 then .sgclk quad
  else if pos = 21 then .sgld quad
  else if pos = 22 then .sgdo quad
  else .sgdi quad

/-- R510: a ball of a quad's strip, by its row index in an upper strip and its column of three. -/
def quadBall (quad row col : Nat) : Signal :=
  if row ≤ 8 then sidebandAt quad (3 * (row - 1) + col)
  else if row = 9 || row = 14 || col = 2 then .vss
  else if row ≤ 13 then .pqTx quad (row - 10) (col = 1)
  else .pqRx quad (row - 15) (col = 1)

/-- The quad strips and port supply columns of R509. -/
def portBall (row col : Nat) : Signal :=
  if col = 1 then .supply .vpq
  else if col = 50 then .supply .vpqh
  else if col = 51 then (if row % 2 = 1 then .vss else .supply .vsb33)
  else if row ≤ 18 then quadBall ((col - 2) / 3) row ((col - 2) % 3)
  else quadBall (16 + (col - 2) / 3) (52 - row) ((col - 2) % 3)

/-- R511. -/
def hostBall (row col : Nat) : Signal :=
  if row ≤ 20 || row = 29 then .vss
  else if row ≤ 28 then
    let lane := row - 21 + (if col < 8 then 0 else 8)
    let k := (col - 2) % 6
    if col = 13 then .supply .vhl
    else if col % 3 = 1 then .vss
    else if k = 0 then .hlTx lane false
    else if k = 1 then .hlTx lane true
    else if k = 3 then .hlRx lane false
    else .hlRx lane true
  else if row = 30 then (if col = 2 then .hlRefclk false else if col = 3 then .hlRefclk true else .vss)
  else if row ≤ 32 then .supply .vhl
  else .supply .vhlh

/-- The core region of R509. -/
def coreBall (row col : Nat) : Signal :=
  if (row + col) % 2 = 0 then .vss else if col ≤ 40 then .supply .vcore else .supply .vsram

/-- A row of the miscellaneous region whose balls take two signals in turn. -/
def pairRow (a b : Signal) : List Signal := [a, b, a, b, a, b, a, b]

/-- The row of flash n with its control signals. -/
def flashRow (n : Nat) : List Signal :=
  [.flCk n, .flCs n, .flDqs n, .flReset n, .supply .vio18, .vss, .supply .vio18, .vss]

/-- R512: rows Y, AA to AP of the miscellaneous region, columns 44 to 51. -/
def miscRows : List (List Signal) :=
  [(List.range 8).map .flow,
   (List.range 8).map fun k => .flow (8 + k),
   flashRow 0,
   (List.range 8).map (.flDq 0),
   pairRow .vss (.supply .vio18),
   flashRow 1,
   (List.range 8).map (.flDq 1),
   pairRow (.supply .vsb33) .vss,
   [.tck, .tms, .tdi, .tdo, .trst, .testMode, .vss, .supply .vio18],
   [.xtalIn, .xtalOut, .vss, .pwrok, .tamper, .thermtrip, .perst, .supply .vioAon],
   [.avsClk, .avsMdata, .avsSdata, .vss, .supply .vioAon, .vss, .supply .vaon, .supply .vaon],
   [.pref false false, .pref false true, .vss, .pref true false, .pref true true, .vss, .supply .vaon, .supply .vaon],
   pairRow (.supply .vsb33) .vss,
   pairRow (.supply .vaon) .vss,
   pairRow .vss .vss]

def miscBall (row col : Nat) : Signal := ((miscRows.getD (row - 19) []).getD (col - 44) .vss)

/-- R508, R509: the signal of a ball, none outside the grid. -/
def ballSignal (row col : Nat) : Option Signal :=
  if row = 0 || 51 < row || col = 0 || 51 < col then none
  else some (
    if row ≤ 18 || 34 ≤ row then portBall row col
    else if col ≤ 13 then hostBall row col
    else if col ≤ 43 then coreBall row col
    else miscBall row col)

/-! ## Types and domains (R513) -/

inductive PinType where
  | input | output | openDrain | openDrainIo | bidir | analog
  deriving DecidableEq, Repr

/-- What the Type column of R513 adds: an internal pull-up or pull-down, 3.3 V tolerance, an HCSL input, a tri-state output. -/
inductive PinExtra where
  | plain | pullUp | pullDown | tolerant33 | hcsl | triState
  deriving DecidableEq, Repr

/-- R513: the type of a signal, whether it is read back, what its Type column adds, and its supply domain. -/
structure PinUse where
  type : PinType
  readBack : Bool
  extra : PinExtra
  domain : List Rail
  deriving DecidableEq, Repr

/-- R513, none for a supply ball. -/
def Signal.use (x : Signal) : Option PinUse :=
  match x with
  | .vss | .supply _ => none
  | .hlTx _ _ | .hlRx _ _ => some ⟨.analog, false, .plain, [.vhl, .vhlh]⟩
  | .hlRefclk _ => some ⟨.analog, false, .hcsl, [.vhl]⟩
  | .pqTx _ _ _ | .pqRx _ _ _ => some ⟨.analog, false, .plain, [.vpq, .vpqh]⟩
  | .pref _ _ => some ⟨.analog, false, .hcsl, [.vpq]⟩
  | .pwren _ _ | .sgclk _ | .sgld _ | .sgdo _ => some ⟨.output, true, .plain, [.vsb33]⟩
  | .perstPort _ _ => some ⟨.openDrain, true, .plain, [.vsb33]⟩
  | .prsnt _ _ => some ⟨.input, false, .pullUp, [.vsb33]⟩
  | .sgdi _ => some ⟨.input, false, .plain, [.vsb33]⟩
  | .scl _ _ | .sda _ _ => some ⟨.openDrainIo, false, .plain, [.vsb33]⟩
  | .flow _ => some ⟨.openDrain, false, .plain, [.vsb33]⟩
  | .flCk _ | .flCs _ | .flReset _ => some ⟨.output, false, .plain, [.vio18]⟩
  | .flDq _ _ => some ⟨.bidir, false, .plain, [.vio18]⟩
  | .flDqs _ => some ⟨.input, false, .plain, [.vio18]⟩
  | .trst => some ⟨.input, false, .pullDown, [.vio18]⟩
  | .tck | .tms | .tdi | .testMode => some ⟨.input, false, .plain, [.vio18]⟩
  | .tdo => some ⟨.output, false, .triState, [.vio18]⟩
  | .xtalIn | .xtalOut => some ⟨.analog, false, .plain, [.vioAon]⟩
  | .pwrok | .perst | .tamper => some ⟨.input, false, .tolerant33, [.vioAon]⟩
  | .thermtrip => some ⟨.openDrain, false, .tolerant33, [.vioAon]⟩
  | .avsClk | .avsMdata => some ⟨.output, false, .plain, [.vioAon]⟩
  | .avsSdata => some ⟨.input, false, .plain, [.vioAon]⟩

/-! ## Rails (R514, R516, R517) -/

/-- A nominal voltage and a tolerance in percent, as a range in µV. -/
def around (uv pct : Nat) : Nat × Nat := (uv - uv * pct / 100, uv + uv * pct / 100)

/-- R516: the range in µV that the monitors of R520 hold a rail to, VCORE about its target in mV. -/
def Rail.range (r : Rail) (target : Nat) : Nat × Nat :=
  match r with
  | .vaon => around 800000 3
  | .vcore => (target * 1000 - 30000, target * 1000 + 30000)
  | .vsram => around 850000 3
  | .vhl | .vpq => around 900000 3
  | .vhlh | .vpqh => around 1200000 3
  | .vio18 | .vioAon => around 1800000 5
  | .vsb33 => around 3300000 5

/-- A rail at a voltage in µV is within its range. -/
def Rail.within (r : Rail) (target uv : Nat) : Bool := (Rail.range r target).1 ≤ uv && uv ≤ (Rail.range r target).2

/-- R514: the highest voltage in mV that does no damage; the lowest is −300 mV for every rail. -/
def Rail.rating (r : Rail) : Nat :=
  match r with
  | .vaon | .vcore => 950
  | .vsram => 1000
  | .vhl | .vpq => 1050
  | .vhlh | .vpqh => 1350
  | .vio18 | .vioAon => 2100
  | .vsb33 => 3900

/-- R517: the typical and the maximum power of a rail in mW. -/
def Rail.power (r : Rail) : Nat × Nat :=
  match r with
  | .vaon => (1200, 1600)
  | .vioAon => (50, 100)
  | .vcore => (40000, 62000)
  | .vsram => (9000, 12000)
  | .vhl => (2700, 3600)
  | .vhlh => (1200, 1800)
  | .vpq => (16200, 21600)
  | .vpqh => (6000, 7200)
  | .vio18 => (700, 1000)
  | .vsb33 => (950, 1100)

/-- The rails of R517. -/
def rails : List Rail := [.vaon, .vioAon, .vcore, .vsram, .vhl, .vhlh, .vpq, .vpqh, .vio18, .vsb33]

end Sys2Proof.Machine
end

