-- ==== Sys2Proof/WellFormed.lean ====
section
/-! DEFINITION. Sys2Proof/WellFormed.lean: the range of every operand of a command. -/

namespace Sys2Proof

/-- Queue IDs are 18 bits (R68), subchannels 20 bits (R120), threads 16 clusters × 9 engines × 32 (R15, R402), host-link
tags 14 bits (R32), exchanges 32 quads × 4,096 (R366), segments 131,072 (R288). -/
def queueLimit : Nat := 262144
def schLimit : Nat := 1048576
def threadLimit : Nat := 4608
def tagLimit : Nat := 16384
def exchLimit : Nat := 131072
def segLimit : Nat := 131072

def sizeWf (size : Nat) : Bool := 1 ≤ size && size ≤ 64

/-- BAR0 is 64 MiB and BAR4 1 MiB (R36); an access has 1 to 64 bytes. -/
def barWf (bar off size : Nat) : Bool := ((bar = 0 && off < 67108864) || (bar = 4 && off < 1048576)) && sizeWf size

def Chan.wf (ch : Chan) : Bool :=
  match ch with
  | .cluSup k => k < 16
  | .supClu k => k < 16
  | .hostSup => true
  | .supHost => true
  | .hostPln => true
  | .plnHost => true
  | .supPln => true
  | .plnSup => true

/-- Four registers of 64 sources for the supervisor, two of 16 for Plinth (R466, R469). -/
def icIndexWf (inst : IcInst) (i : Nat) : Bool :=
  match inst with
  | .sup => i < 4
  | .pln => i < 2

/-- Eight counters a register, in Plinth's instance two (R468, R469). -/
def icCountWf (inst : IcInst) (i : Nat) : Bool :=
  match inst with
  | .sup => i < 32
  | .pln => i < 16

/-- A command whose operands are in range. -/
def Instr.wf (c : Instr) : Bool :=
  match c with
  | .wholePush q _ => q < queueLimit
  | .tornPush q _ => q < queueLimit
  | .sqDoorbell q _ _ => q < queueLimit
  | .cqDoorbell q _ _ => q < queueLimit
  | .poisonedTlpReceived => true
  | .registerWrite bar off size _ _ => ((bar = 6 || bar = 7) && off < 67108864 && sizeWf size) || barWf bar off size
  | .msixUnmask vec => vec.all (· < 2048)
  | .busMasterEnableSet cfg => cfg.mps ≤ 512 && cfg.mrrs ≤ 4096
  | .busMasterEnableCleared => true
  | .memorySpaceEnableCleared => true
  | .d3hotEntry => true
  | .flr => true
  | .linkResetEvent => true
  | .hostLinkRateChange rate width _ => 1 ≤ rate && rate ≤ 6 && width ≤ 16
  | .hostCompletionTimeout tag => tag < tagLimit
  | .ideCheckFailure => true
  | .keyProg session _ _ _ _ => session < 4
  | .keySetGo session _ _ _ => session < 4
  | .keySetStop session _ _ _ => session < 4
  | .keySetSwitch _ _ => true
  | .spdmGetVersion _ => true
  | .spdmGetCapabilities _ => true
  | .spdmNegotiateAlgorithms _ => true
  | .spdmGetDigests _ => true
  | .spdmGetCertificate _ slot _ _ => slot < 8
  | .spdmChallenge _ slot _ => slot < 8
  | .spdmGetMeasurements _ index _ => index < 256
  | .spdmKeyExchange _ id => id < 4
  | .spdmFinish _ id => id < 4
  | .spdmHeartbeat _ id => id < 4
  | .spdmKeyUpdate _ id => id < 4
  | .spdmEndSession _ id => id < 4
  | .spdmUnsupportedRequest _ _ => true
  | .doeDiscovery index => index < 256
  | .mctpControlMessage _ => true
  | .ringFetch q tag => q < queueLimit && tag < tagLimit
  | .ringFetchComplete tag _ slots => tag < tagLimit && slots.val.length ≤ 8
  | .phaseStaleReread q tag _ => q < queueLimit && tag < tagLimit
  | .nopEntry q => q < queueLimit
  | .start q _ => q < queueLimit
  | .resume q => q < queueLimit
  | .halt q => q < queueLimit
  | .clear q => q < queueLimit
  | .fenceRelease q => q < queueLimit
  | .finalStatusPending rel => rel.of_ < schLimit
  | .aggregationTimerExpiry q => q < queueLimit
  | .adminEnable _ => true
  | .adminDisable _ => true
  | .adminUndefinedOpcode => true
  | .createSq _ => true
  | .createCq => true
  | .deleteQueue => true
  | .resetQueue => true
  | .modifySq _ => true
  | .pauseQueue => true
  | .queryQueue => true
  | .loadSegmentTable _ => true
  | .deleteSegmentTable => true
  | .configureSubchannel => true
  | .querySubchannel => true
  | .listDevices _ => true
  | .createDevice => true
  | .setPathSet _ => true
  | .deletePathSet => true
  | .deleteDevice => true
  | .setLegacyFifo => true
  | .maquetteCommit => true
  | .qevtRead size => sizeWf size
  | .legFifoRead size => sizeWf size.val
  | .dispatch sch th _ => sch < schLimit && th < threadLimit
  | .threadRestore th th' _ => th < threadLimit && th' < threadLimit
  | .textLineFetch th tag => th < threadLimit && tag < tagLimit
  | .textLineArrival tag _ _ => tag < tagLimit
  | .threadStop th => th < threadLimit
  | .autoCommit rel => rel.of_ < threadLimit
  | .opNop turn => turn.th < threadLimit
  | .opEnd turn => turn.th < threadLimit
  | .opMove turn => turn.th < threadLimit
  | .opAdd turn => turn.th < threadLimit
  | .opSub turn => turn.th < threadLimit
  | .opMul turn => turn.th < threadLimit
  | .opDiv turn => turn.th < threadLimit
  | .opNeg turn => turn.th < threadLimit
  | .opAnd turn => turn.th < threadLimit
  | .opOr turn => turn.th < threadLimit
  | .opXor turn => turn.th < threadLimit
  | .opAndn turn => turn.th < threadLimit
  | .opShl turn => turn.th < threadLimit
  | .opShr turn => turn.th < threadLimit
  | .opSar turn => turn.th < threadLimit
  | .opCmp turn => turn.th < threadLimit
  | .opTst turn => turn.th < threadLimit
  | .opTtag turn => turn.th < threadLimit
  | .opGtag turn => turn.th < threadLimit
  | .opCvt turn => turn.th < threadLimit
  | .opOffs turn => turn.th < threadLimit
  | .opExts turn => turn.th < threadLimit
  | .opRdcc turn => turn.th < threadLimit
  | .opStat turn => turn.th < threadLimit
  | .opBcc turn => turn.th < threadLimit
  | .opBds turn => turn.th < threadLimit
  | .opBal turn => turn.th < threadLimit
  | .opLdh turn => turn.th < threadLimit
  | .opLdhr turn => turn.th < threadLimit
  | .opSth turn => turn.th < threadLimit
  | .opSthr turn => turn.th < threadLimit
  | .opLdg turn => turn.th < threadLimit
  | .opStg turn => turn.th < threadLimit
  | .hostLoadReturn tag _ _ => tag < tagLimit
  | .opSegaddr turn => turn.th < threadLimit
  | .opDevh turn => turn.th < threadLimit
  | .opRpt turn => turn.th < threadLimit
  | .opMovb turn => turn.th < threadLimit
  | .opCmpb turn => turn.th < threadLimit
  | .opScnb turn => turn.th < threadLimit
  | .opFilb turn => turn.th < threadLimit
  | .opTas turn => turn.th < threadLimit
  | .opLrs turn => turn.th < threadLimit
  | .opScs turn => turn.th < threadLimit
  | .opCommit turn => turn.th < threadLimit
  | .opWaith turn => turn.th < threadLimit
  | .opWaitg turn => turn.th < threadLimit
  | .opRead turn => turn.th < threadLimit
  | .opWrite turn => turn.th < threadLimit
  | .opControl turn => turn.th < threadLimit
  | .opSense turn => turn.th < threadLimit
  | .opNvme turn => turn.th < threadLimit
  | .opScsi turn => turn.th < threadLimit
  | .opPmem turn => turn.th < threadLimit
  | .customerInstruction turn => turn.th < threadLimit
  | .exchangeSend sch idx => sch < schLimit && idx < 4096
  | .exchangeReachedDevice x => x < exchLimit
  | .exchangeEnd x _ _ => x < exchLimit
  | .abortAnswered x => x < exchLimit
  | .exchangeAbortTimeout x => x < exchLimit
  | .escalationHardReset x => x < exchLimit
  | .subchannelTimeout sch => sch < schLimit
  | .timeoutSpan sch => sch < schLimit
  | .frameReceive quad fr => quad < 32 && fr.port < 4 && fr.idx < 4096
  | .frameMove quad _ segs => quad < 32 && segs.all (· < segLimit)
  | .frameTransmit quad _ _ => quad < 32
  | .segmentAllocate _ _ segs => segs.all (· < segLimit)
  | .dmaChannelGrant _ => true
  | .dmaWriteIssue _ _ _ => true
  | .dmaWriteVisible _ _ => true
  | .dmaReadIssue _ _ tag seg => tag < tagLimit && seg.seg < segLimit
  | .dmaReadCompletion tag _ _ => tag < tagLimit
  | .fifoWatermarkWrite quad _ _ => quad < 32
  | .meridianGrant res => res < 37
  | .costOverrun sch => sch < schLimit
  | .freezeDrained => true
  | .capacityRetest change => change ≤ 0xFFFF
  | .deadlineWatchExpiry sch => sch < schLimit
  | .discoveryRunStart quad port _ => quad < 32 && port < 4
  | .discoveryRunEnd quad port _ => quad < 32 && port < 4
  | .portLinkUp quad port _ lanes => quad < 32 && port < 4 && lanes.all (·.lane < 4)
  | .errCorMessage quad port => quad < 32 && port < 4
  | .errNonfatalMessage quad port => quad < 32 && port < 4
  | .pathFault quad port _ => quad < 32 && port < 4
  | .controllerFatal quad ctrl => quad < 32 && ctrl.port < 4
  | .transportFailure x => x < exchLimit
  | .ghostDeath _ _ _ => true
  | .nvmeAsyncEvent quad port => quad < 32 && port < 4
  | .sasBroadcastChange quad port => quad < 32 && port < 4
  | .deviceMemoryRequest quad port req => quad < 32 && port < 4 && req.data.length ≤ req.len && req.segs.all (· < segLimit)
  | .connectionIdleClose quad phy => quad < 32 && phy < 4
  | .laneFault quad lane _ => quad < 32 && lane < 4
  | .presenceAssert quad port => quad < 32 && port < 4
  | .presenceDebounced quad port _ _ => quad < 32 && port < 4
  | .powerDelayExpiry quad port _ => quad < 32 && port < 4
  | .presenceDeassert quad i2c => quad < 32 && i2c.port < 4
  | .pwrenOffDelayExpiry quad pwren => quad < 32 && pwren.port < 4
  | .nolinkRetry quad port => quad < 32 && port < 4
  | .sgpioFrame quad _ => quad < 32
  | .mgmtPoll quad port _ => quad < 32 && port < 4
  | .qreset quad => quad < 32
  | .quadReset test => test.quad < 32
  | .sbretry quad _ => quad < 32
  | .tallyCheck => true
  | .tallyAudit line => line < 4
  | .tallySnap => true
  | .engineFault cluster engine => cluster < 16 && engine < 9
  | .engineHang cluster engine => cluster < 16 && engine < 9
  | .clusterFault cluster => cluster < 16
  | .clusterReset cluster _ => cluster < 16
  | .controlCompareError block => block < 64
  | .supervisorLockstepMismatch => true
  | .plinthLockstepMismatch => true
  | .crystalLoss => true
  | .crystalReturn => true
  | .boot _ _ _ => true
  | .almanacWrite => true
  | .extend _ => true
  | .extendLock => true
  | .quote _ => true
  | .getNonce _ => true
  | .flashUpdate _ _ => true
  | .flashUpdateEnd _ => true
  | .decodeLoad _ _ => true
  | .decodeRetireTimeout => true
  | .generationSwitch => true
  | .plinthBadOp => true
  | .plinthAccessRefused requester _ _ => requester < 64
  | .tamperAssert => true
  | .tamperRelease => true
  | .mailboxSend ch bit size _ => ch.wf && bit < 32 && sizeWf size
  | .mailboxReceive ch size => ch.wf && sizeWf size
  | .mailboxStatusWrite reg _ _ _ => match reg with
    | .host _ => true
    | .inner ch => ch.wf
  | .ping => true
  | .icAck _ _ => true
  | .icEoi _ => true
  | .icPendSet inst i _ => icIndexWf inst i
  | .icPendClr inst i _ => icIndexWf inst i
  | .icMaskSet inst i _ => icIndexWf inst i
  | .icMaskClr inst i _ => icIndexWf inst i
  | .icCntRead inst i _ => icCountWf inst i
  | .supervisorTimerExpiry n => n < 64
  | .watchdogWrite => true
  | .watchdogExpiry => true
  | .clusterIdle cluster => cluster < 16
  | .clusterWake cluster => cluster < 16
  | .clusterWakeDone cluster => cluster < 16
  | .maxstateWrite _ => true
  | .vcoreStep _ _ => true
  | .avsRetry _ => true
  | .hostReferenceLoss => true
  | .portReferenceLoss _ => true
  | .powerOn => true
  | .perstNWarmReset => true
  | .perstNDeassert => true
  | .pwrokFall => true
  | .railOutOfRange _ => true
  | .thermalTrip => true
  | .jtagInstruction _ => true
  | .powerStateD0 => true
  | .memorySpaceEnableSet => true
  | .registerReadClear bar off size _ => ((bar = 6 || bar = 7) && off < 67108864 && sizeWf size) || (bar = 2 && off + size ≤ 33554432 && 1 ≤ size && size ≤ 4096) || barWf bar off size
  | .correctableLinkError => true
  | .pmemReadCompletionTimeout x => x < exchLimit
  | .hostReferenceReturn => true
  | .portReferenceReturn _ => true
  | .pwrokRise => true
  | .railReturn _ => true
  | .undefinedOpcode th => th < threadLimit
  | .privilegedOpcode th => th < threadLimit
  | .testLogicReset => true

end Sys2Proof
end

