-- ==== Sys2Proof/Tests/Slice0.lean ====
section
/-! SUPPORT. Sys2Proof/Tests/Slice0.lean: small tests of single steps. Expected results come from the spec's text and tables by
hand. The first theorems give each range check of WellFormed an operand just outside it; the theorems test_hyp_… show states
that meet the hypotheses of the statements, clause by clause. -/

namespace Sys2Proof.Tests

open Sys2Proof.Machine Sys2Proof.Safety

set_option Elab.async false

/-! ## WellFormed -/

theorem test_wf_refuses_1 : ([(.wholePush 262144 0), (.tornPush 262144 0), (.sqDoorbell 262144 0 0), (.cqDoorbell 262144 0 0), 
    (.registerWrite 0 67108864 4 false 0), (.registerWrite 4 1048576 4 false 0), (.registerWrite 1 0 4 false 0), 
    (.registerWrite 0 0 0 false 0), (.registerWrite 0 0 65 false 0), (.msixUnmask (some 2048)), 
    (.busMasterEnableSet ⟨false, false, false, false, 513, 128⟩), 
    (.busMasterEnableSet ⟨false, false, false, false, 512, 4097⟩), (.hostLinkRateChange 0 0 false), 
    (.hostLinkRateChange 7 0 false), (.hostLinkRateChange 1 17 false), (.hostCompletionTimeout 16384), 
    (.keyProg 4 .posted false false 0), (.keySetGo 4 .posted false false), (.keySetStop 4 .posted false false), 
    (.spdmGetCertificate .doe 8 0 0), (.spdmChallenge .doe 8 0), (.spdmGetMeasurements .doe 256 0), 
    (.spdmKeyExchange .doe 4), (.spdmFinish .doe 4), (.spdmHeartbeat .doe 4), (.spdmKeyUpdate .doe 4), 
    (.spdmEndSession .doe 4), (.doeDiscovery 256), (.ringFetch 262144 0), (.ringFetch 0 16384), 
    (.ringFetchComplete 16384 .ok ⟨[], .sound⟩), (.ringFetchComplete 0 .ok ⟨[0, 0, 0, 0, 0, 0, 0, 0, 0], .sound⟩), 
    (.phaseStaleReread 262144 0 ⟨.ok, ⟨0, .sound⟩⟩), (.nopEntry 262144), (.start 262144 .sound), (.resume 262144), (.halt 262144), 
    (.clear 262144), (.fenceRelease 262144), (.finalStatusPending ⟨1048576, [], 0⟩), (.aggregationTimerExpiry 262144), 
    (.qevtRead 0), (.qevtRead 65), (.legFifoRead ⟨0, .sound⟩), (.legFifoRead ⟨65, .sound⟩), (.dispatch 1048576 0 .sound), 
    (.dispatch 0 4608 .sound), (.threadRestore 4608 0 ⟨.sound, []⟩), (.threadRestore 0 4608 ⟨.sound, []⟩), (.textLineFetch 4608 0), 
    (.textLineFetch 0 16384), (.textLineArrival 16384 .ok ⟨0, .sound⟩), (.threadStop 4608), (.autoCommit ⟨4608, [], 0⟩), (.opNop ⟨4608, []⟩), 
    (.opEnd ⟨4608, []⟩), (.opMove ⟨4608, []⟩), (.opAdd ⟨4608, []⟩), (.opSub ⟨4608, []⟩), (.opMul ⟨4608, []⟩)] : List Instr).any (·.wf) = false := by decide

theorem test_wf_refuses_2 : ([(.opDiv ⟨4608, []⟩), (.opNeg ⟨4608, []⟩), (.opAnd ⟨4608, []⟩), (.opOr ⟨4608, []⟩), (.opXor ⟨4608, []⟩), (.opAndn ⟨4608, []⟩), (.opShl ⟨4608, []⟩), (.opShr ⟨4608, []⟩), 
    (.opSar ⟨4608, []⟩), (.opCmp ⟨4608, []⟩), (.opTst ⟨4608, []⟩), (.opTtag ⟨4608, []⟩), (.opGtag ⟨4608, []⟩), (.opCvt ⟨4608, []⟩), (.opOffs ⟨4608, []⟩), 
    (.opExts ⟨4608, []⟩), (.opRdcc ⟨4608, []⟩), (.opStat ⟨4608, []⟩), (.opBcc ⟨4608, []⟩), (.opBds ⟨4608, []⟩), (.opBal ⟨4608, []⟩), (.opLdh ⟨4608, []⟩), 
    (.opLdhr ⟨4608, []⟩), (.opSth ⟨4608, []⟩), (.opSthr ⟨4608, []⟩), (.opLdg ⟨4608, []⟩), (.opStg ⟨4608, []⟩), (.hostLoadReturn 16384 .ok ⟨0, .sound⟩), 
    (.opSegaddr ⟨4608, []⟩), (.opDevh ⟨4608, []⟩), (.opRpt ⟨4608, []⟩), (.opMovb ⟨4608, []⟩), (.opCmpb ⟨4608, []⟩), (.opScnb ⟨4608, []⟩), (.opFilb ⟨4608, []⟩), 
    (.opTas ⟨4608, []⟩), (.opLrs ⟨4608, []⟩), (.opScs ⟨4608, []⟩), (.opCommit ⟨4608, []⟩), (.opWaith ⟨4608, []⟩), (.opWaitg ⟨4608, []⟩), (.opRead ⟨4608, []⟩), 
    (.opWrite ⟨4608, []⟩), (.opControl ⟨4608, []⟩), (.opSense ⟨4608, []⟩), (.opNvme ⟨4608, []⟩), (.opScsi ⟨4608, []⟩), (.opPmem ⟨4608, []⟩), 
    (.customerInstruction ⟨4608, []⟩), (.exchangeSend 1048576 0), (.exchangeSend 0 4096), (.exchangeReachedDevice 131072), 
    (.exchangeEnd 131072 ⟨.pmemDone, 0, false, [], none⟩ .sound), (.abortAnswered 131072), (.exchangeAbortTimeout 131072), 
    (.escalationHardReset 131072), (.subchannelTimeout 1048576), (.timeoutSpan 1048576), 
    (.frameReceive 32 ⟨0, [], false, false, 0, 0, 0⟩), (.frameReceive 0 ⟨4, [], false, false, 0, 0, 0⟩)] : List Instr).any (·.wf) = false := by decide

theorem test_wf_refuses_3 : ([(.frameReceive 0 ⟨0, [], false, false, 4096, 0, 0⟩), (.frameMove 32 ⟨[], [], 0⟩ []), (.frameMove 0 ⟨[], [], 0⟩ [131072]), 
    (.frameTransmit 32 false .sound), (.segmentAllocate 0 0 [131072]), (.dmaReadIssue 0 0 16384 ⟨0, [], [], 0⟩), 
    (.dmaReadIssue 0 0 0 ⟨131072, [], [], 0⟩), (.dmaReadCompletion 16384 .ok ⟨[], .sound⟩), (.fifoWatermarkWrite 32 none 0), (.meridianGrant 37), 
    (.costOverrun 1048576), (.capacityRetest 65536), (.deadlineWatchExpiry 1048576), (.discoveryRunStart 32 0 []), 
    (.discoveryRunStart 0 4 []), (.discoveryRunEnd 32 0 []), (.discoveryRunEnd 0 4 []), (.portLinkUp 32 0 ⟨3, 3⟩ []), 
    (.portLinkUp 0 4 ⟨3, 3⟩ []), (.portLinkUp 0 0 ⟨3, 3⟩ [⟨4, 0⟩]), (.errCorMessage 32 0), (.errCorMessage 0 4), (.errNonfatalMessage 32 0), 
    (.errNonfatalMessage 0 4), (.pathFault 32 0 .dlDown), (.pathFault 0 4 .dlDown), (.controllerFatal 32 ⟨0, 0⟩), 
    (.controllerFatal 0 ⟨4, 0⟩), (.transportFailure 131072), (.nvmeAsyncEvent 32 0), (.nvmeAsyncEvent 0 4), 
    (.sasBroadcastChange 32 0), (.sasBroadcastChange 0 4), (.deviceMemoryRequest 32 0 ⟨false, 0, 0, [], [], .sound, [], 0⟩), 
    (.deviceMemoryRequest 0 4 ⟨false, 0, 0, [], [], .sound, [], 0⟩), (.deviceMemoryRequest 0 0 ⟨true, 0, 0, [1], [], .sound, [], 0⟩), 
    (.deviceMemoryRequest 0 0 ⟨false, 0, 0, [], [131072], .sound, [], 0⟩), (.connectionIdleClose 32 0), (.connectionIdleClose 0 4), 
    (.laneFault 32 0 .short), (.laneFault 0 4 .short), (.presenceAssert 32 0), (.presenceAssert 0 4), 
    (.presenceDebounced 32 0 false false), (.presenceDebounced 0 4 false false), (.powerDelayExpiry 32 0 false), 
    (.powerDelayExpiry 0 4 false), (.presenceDeassert 32 ⟨0, true⟩), (.presenceDeassert 0 ⟨4, true⟩), (.pwrenOffDelayExpiry 32 ⟨0, true⟩), 
    (.pwrenOffDelayExpiry 0 ⟨4, true⟩), (.nolinkRetry 32 0), (.nolinkRetry 0 4), (.sgpioFrame 32 false), (.mgmtPoll 32 0 none), 
    (.mgmtPoll 0 4 none), (.qreset 32), (.quadReset ⟨32, 0⟩), (.sbretry 32 0), (.tallyAudit 4)] : List Instr).any (·.wf) = false := by decide

theorem test_wf_refuses_4 : ([(.engineFault 16 0), (.engineFault 0 9), (.engineHang 16 0), (.engineHang 0 9), (.clusterFault 16), 
    (.clusterReset 16 false), (.controlCompareError 64), (.plinthAccessRefused 64 false 0), (.mailboxStatusWrite (.inner (.cluSup 16)) false none 0), 
    (.mailboxSend (.cluSup 16) 0 4 0), (.mailboxSend (.supClu 16) 0 4 0), (.mailboxSend .hostSup 32 4 0), 
    (.mailboxSend .hostSup 0 0 0), (.mailboxSend .hostSup 0 65 0), (.mailboxReceive (.cluSup 16) 4), 
    (.mailboxReceive (.supClu 16) 4), (.mailboxReceive .hostSup 0), (.mailboxReceive .hostSup 65), (.icPendSet .sup 4 0), 
    (.icPendSet .pln 2 0), (.icPendClr .sup 4 0), (.icPendClr .pln 2 0), (.icMaskSet .sup 4 0), (.icMaskSet .pln 2 0), 
    (.icMaskClr .sup 4 0), (.icMaskClr .pln 2 0), (.icCntRead .sup 32 false), (.icCntRead .pln 16 false), 
    (.supervisorTimerExpiry 64), (.clusterIdle 16), (.clusterWake 16), (.clusterWakeDone 16), 
    (.registerReadClear 0 67108864 4 false), (.registerReadClear 4 1048576 4 false), (.registerReadClear 1 0 4 false), 
    (.registerReadClear 0 0 0 false), (.registerReadClear 0 0 65 false), (.pmemReadCompletionTimeout 131072), 
    (.undefinedOpcode 4608), (.privilegedOpcode 4608),
    (.registerReadClear 2 33554432 4 true), (.registerReadClear 2 0 4097 true),
    (.registerWrite 6 67108864 4 true 0), (.registerWrite 7 0 0 true 0), (.phaseStaleReread 0 16384 ⟨.ok, ⟨0, .sound⟩⟩)] : List Instr).any (·.wf) = false := by decide

theorem test_wf_accepts_edges : ([(.wholePush 262143 0),
    (.hostCompletionTimeout 16383),
    (.spdmFinish .doe 3),
    (.phaseStaleReread 262143 0 ⟨.ok, ⟨0, .sound⟩⟩),
    (.aggregationTimerExpiry 262143),
    (.threadStop 4607),
    (.opDiv ⟨4607, []⟩),
    (.opSar ⟨4607, []⟩),
    (.opRdcc ⟨4607, []⟩),
    (.opSthr ⟨4607, []⟩),
    (.opCmpb ⟨4607, []⟩),
    (.opWaitg ⟨4607, []⟩),
    (.customerInstruction ⟨4607, []⟩),
    (.subchannelTimeout 1048575),
    (.fifoWatermarkWrite 31 none 0),
    (.discoveryRunEnd 0 3 []),
    (.pathFault 31 0 .dlDown),
    (.sasBroadcastChange 0 3),
    (.presenceAssert 0 3),
    (.pwrenOffDelayExpiry 0 ⟨3, true⟩),
    (.sbretry 31 0),
    (.controlCompareError 63),
    (.registerReadClear 4 0 64 false)] : List Instr).all (·.wf) = true := by decide

/-! ## Small states -/

/-- The machine in normal service: released, booted, link up, one cluster awake. -/
def up : State := { State.reset with
  time := 1000000
  link := { Link.reset with ep := .normal, ready := true, linkUp := true, rate := 5, width := 16, bme := true, mse := true, msixEn := true, mps := 256 }
  pl := { Plinth.reset with started := true, bootno := 1 }
  pw := { Power.reset with
    released := true, perstLow := false, pwrok := true, xtalOk := true, hrefOk := true, pref0 := true, pref1 := true,
    coreLock := true, plinthLock := true, supUp := true, clusters := List.replicate 16 ⟨.run, true, false, true, true, []⟩ } }

/-- A submission queue of eight entries, class 1, bound to completion queue 3; and a completion queue of eight entries. -/
def sq : SQ := { newSq 0 0 [] with log2 := 3, base := 0x10000, pasid := none, cqid := 3, cls := 1, push := false, burst := 1 }
def cq : CQ := { admCq 3 0x20000 [] with ien := false }

/-- One queue pair: submission queue 2, completion queue 3. -/
def withQ (r : SQ) (c : CQ) (s : State) : State := { s with q := { s.q with sqs := [(2, r)], cqs := [(3, c)] } }

/-- An entry of a kind for subchannel 7, with its phase bit. -/
def entry (kind : Nat) (fence phase : Bool) : BitVec 512 :=
  BitVec.ofNat 512 (kind + b2n fence * 2 ^ 8 + 0x55 * 2 ^ 16 + 7 * 2 ^ 32 + b2n phase * 2 ^ 511)

/-! ## The host link and the queues -/

theorem test_hyp_PushesAndDoorbells_push :
    Serves up ∧ (withQ { sq with push := true } cq up).pushQueue 2 = some { sq with push := true }
    ∧ 1 ≤ sq.tailRoom ∧ entryPhase (entry 0 false true) = ringPhase sq.size sq.t ∧ sq.capture.length < 4
    ∧ (let r : SQ := { sq with push := true, capture := [(0, 0), (1, 0), (2, 0), (3, 0)], t := 4 }
       (withQ r cq up).pushQueue 2 = some r ∧ 1 ≤ r.tailRoom ∧ entryPhase (entry 0 false true) = ringPhase r.size r.t
         ∧ 4 ≤ r.capture.length)
    ∧ (let r : SQ := { sq with push := true, t := 8 }
       (withQ r cq up).pushQueue 2 = some r ∧ r.tailRoom = 0)
    ∧ (1 ≤ sq.tailRoom ∧ entryPhase (entry 0 false false) ≠ ringPhase sq.size sq.t)
    ∧ (1 : BitVec 64) ≠ 0 ∧ (1 : BitVec 64) ≠ BitVec.allOnes 64 ∧ up.pushQueue 2 = none := by decide +kernel

theorem test_hyp_PushesAndDoorbells_bells :
    (withQ sq cq up).cq? 2 = none ∧ (withQ sq cq up).bellQueue 2 = some sq ∧ dbReserved 7 = 0 ∧ dbIndex 7 < sq.size
    ∧ ringDist sq.size sq.t (bellPos sq.size 7) ≤ sq.tailRoom ∧ ringDist sq.size sq.t (bellPos sq.size 0x10000) ≤ sq.tailRoom
    ∧ sq.size ≤ dbIndex 8 ∧ dbReserved 0x20000 ≠ 0 ∧ sq.tailRoom < ringDist sq.size sq.t (bellPos sq.size 0x10001)
    ∧ up.cq? 2 = none ∧ up.bellQueue 2 = none
    ∧ (let r : CQ := { cq with tail := 3 }
       (withQ sq r up).sq? 3 = none ∧ (withQ sq r up).cq? 3 = some r ∧ r.st ≠ .error ∧ dbIndex 3 < r.size
         ∧ ringDist r.size r.head (bellPos r.size 3) ≤ ringDist r.size r.head r.tail
         ∧ ringDist r.size r.head r.tail < ringDist r.size r.head (bellPos r.size 4))
    ∧ ([8, 64, 128].all fun n => (List.replicate n (0 : Byte)).length = n) := by decide +kernel

theorem test_push_area_parts :
    up.bar2Parts ⟨128 * 2 + 124, [1, 2, 3, 4, 5], [true, true, true, true, true]⟩
      = [.sqDoorbell 2 0xF0 0x0403020100000000, .tornPush 3 1] := by decide +kernel

theorem test_hyp_RingFull : ({ cq with head := 15, tail := 7 } : CQ).head < 2 * cq.size
    ∧ ({ cq with head := 15, tail := 7 } : CQ).room = false ∧ ({ cq with head := 7, tail := 7 } : CQ).room = true
    ∧ ({ sq with c := 15, t := 7 } : SQ).c < 2 * sq.size ∧ ({ sq with c := 15, t := 7 } : SQ).tailRoom = 0
    ∧ (let r : SQ := { sq with c := 15, t := 2 }
       r.c < 2 * r.size ∧ r.t < 2 * r.size ∧ ringDist r.size r.c r.t ≤ r.size ∧ 7 < 2 * r.size ∧ ringDist r.size r.t 7 ≤ r.tailRoom
         ∧ ringDist r.size r.t 7 = r.tailRoom) := by decide +kernel

/-- A queue whose block read is out under tag 5. -/
def fetching : State :=
  let s := withQ { sq with t := 2, reading := [5], block := some ⟨0, 8, 8, []⟩ } cq up
  { s with link := { s.link with reads := [(5, .ring 2 0 8)] } }

theorem test_hyp_RingReadError :
    fetching.sq? 2 = some { sq with t := 2, reading := [5], block := some ⟨0, 8, 8, []⟩ }
    ∧ AMap.get? fetching.link.reads 5 = some (.ring 2 0 8) ∧ ([CplStatus.ok, .ur, .ca, .timeout, .poison].all fun st => !fetching.link.drops st)
    ∧ 5 ∈ ({ sq with t := 2, reading := [5], block := some ⟨0, 8, 8, []⟩ } : SQ).reading ∧ sq.st ≠ .error
    ∧ (⟨[], .bad⟩ : Checked (List (BitVec 512))).ecc = .bad
    ∧ (let r : SQ := { sq with t := 2, tries := 1, staleDue := 1000000 }
       let s := withQ r cq up
       s.sq? 2 = some r ∧ r.tries ≠ 0 ∧ reached s.time r.staleDue ∧ s.link.mayIssue ∧ s.mayTake 2 r ∧ s.tagFree 5
         ∧ s.turn 2 (s.rereadKey 2 r) 3 0 r.cls (.reread 2) ∧ s.wins 1 (s.rereadKey 2 r) 3 0
         ∧ r.pasid = none ∧ s.link.noIssue.contains 5 = false) := by decide +kernel

theorem test_hyp_RingReads :
    (let r : SQ := { sq with t := 2 }
     let s := { withQ r cq up with md := { up.md with reqs := [⟨1, false, 0, 3, 0, 0, .ring 2, true⟩], nextReq := 1 } }
     s.sq? 2 = some r ∧ s.wantsFetch 2 r ∧ s.granted (.ring 2) ∧ s.link.mayIssue ∧ s.tagFree 5 ∧ s.poolFree 2 r.cls)
    ∧ (let r : SQ := { sq with t := 2, reading := [5], block := some ⟨0, 8, 8, []⟩ }
       AMap.get? fetching.link.reads 5 = some (.ring 2 0 8) ∧ fetching.sq? 2 = some r ∧ r.reading = [5] ∧ r.block = some ⟨0, 8, 8, []⟩
         ∧ (List.replicate 8 (0 : BitVec 512)).length = 8 ∧ 0 ≤ r.c % r.size ∧ fetching.link.noIssue.contains 5 = false
         ∧ fetching.link.ide.discarding = false ∧ (List.replicate 7 (0 : BitVec 512)).length < 8 ∧ List.replicate 7 (0 : BitVec 512) ≠ []
         ∧ ((⟨0, 8, 8, []⟩ : Block).fill 0 (List.replicate 7 0)).got.length ≠ 8)
    ∧ (let r : SQ := { sq with t := 2 }
       (withQ r cq up).mayTake 2 r ∧ AMap.get? r.capture r.c = none ∧ r.remain ≠ 0
         ∧ entryPhase (entry 1 false true) = ringPhase r.size r.c ∧ entryPhase (entry 1 false false) ≠ ringPhase r.size r.c
         ∧ r.tries < 63 ∧ 63 ≤ ({ r with tries := 63 } : SQ).tries) := by decide +kernel

theorem test_hyp_QueueErrors : (withQ sq cq up).sq? 2 = some sq ∧ sq.st ≠ .error ∧ (withQ sq cq up).q.qevt.length < 256
    ∧ (withQ sq cq up).cq? 3 = some cq ∧ cq.st ≠ .error ∧ (∀ e ∈ (withQ sq cq up).q.waiting, e.1 ≠ 3) := by decide +kernel

theorem test_hyp_RegisterAccess :
    Serves up ∧ up.pw.supUp = true ∧ up.q.admEnable = false ∧ (16 ≠ 4 ∧ 16 ≠ 8) ∧ up.q.qevt = [] ∧ up.q.leg = []
    ∧ (⟨7, 1, 0, 7, false, 0⟩ : LegEntry).cls < 8
    ∧ (let s := { up with q := { up.q with qevt := [⟨2, false, 4, 1, false⟩], leg := [⟨7, 1, 0, 7, false, 0⟩] } }
       s.q.qevt = ⟨2, false, 4, 1, false⟩ :: [] ∧ s.q.leg = [⟨7, 1, 0, 7, false, 0⟩]
         ∧ ∀ c ∈ s.q.cqs, c.2.legacy = false) := by decide +kernel

theorem test_hyp_FunctionControls :
    up.link.ep ≠ .held ∧ State.reset.link.bme = false ∧ up.link.bme = true ∧ State.reset.link.mse = false ∧ up.link.mse = true
    ∧ ({ up with link := { up.link with d3 := true } } : State).link.d3 = true
    ∧ (let s := { up with link := { up.link with pba := [1] } }
       s.link.pba = [1] ∧ s.link.mayIssue ∧ s.link.msixEn ∧ s.link.fmask = false ∧ s.link.ep ≠ .recovery ∧ s.link.ide.discarding = false
         ∧ s.link.mse ∧ s.link.d3 = false
         ∧ (let u := { s with link := { s.link with vecs := AMap.put s.link.vecs 1 { s.link.vec 1 with masked := false } } }
            u.winsAs 2 (u.vecKey 1) 3 0 (.msix 1) = true
              ∧ (let v : State := { u with md := { u.md with reqs := [⟨2, false, 0, 0, 7, 0, .write 0, true⟩], nextReq := 1 } }
                 v.winsAs 2 (v.vecKey 1) 3 0 (.msix 1) = false)))
    ∧ up.pw.hrefOk
    ∧ (3 ≤ 3 ∧ 3 ≤ 6 ∧ 16 ∈ [1, 2, 4, 8, 16] ∧ up.link.rate ≠ 3)
    ∧ (let s := { fetching with q := (withQ sq cq up).q }
       AMap.get? s.link.reads 5 = some (.ring 2 0 8) ∧ s.sq? 2 = some sq ∧ 5 ∉ sq.reading ∧ s.link.noIssue.contains 5 = false)
    ∧ up.link.ide.discarding = false := by decide +kernel

/-! ## Entries, subchannels and completions -/

/-- Subchannel 7 bound to queue 2 and 3, in a state, with an entry of a kind at the front of queue 2. -/
def ctx7 : Ctx := { Ctx.zero with sqid := 2, cqid := 3, sqv := true, cqv := true, stv := true, psv := true, stb := 1, pset := 4, state := .idle }
def fronted (kind : Nat) (c : Ctx) : State :=
  let s := withQ { sq with taken := [entry kind false true] } cq up
  { s with sub := { s.sub with ctx := [(7, c)] } }

theorem test_hyp_PresentedEntries :
    ([0, 1, 2, 3, 4].all fun k => decide (Fronts (fronted k ctx7) 2 k { sq with taken := [entry k false true] } (entry k false true)))
    ∧ (ctx7.bound 2 ∧ ctx7.state = .idle) ∧ Ctx.zero.bound 2 = false
    ∧ ([SchState.disabled, .startPending, .active, .waiting, .suspended, .haltPending].all fun st =>
        ({ ctx7 with state := st } : Ctx).bound 2 && ({ ctx7 with state := st } : Ctx).samePasid sq)
    ∧ entrySch (entry 1 false true) = 7 ∧ (fronted 1 ctx7).ctxOf 7 = ctx7
    ∧ ({ ctx7 with kpasid := some 5 } : Ctx).samePasid sq = false := by decide +kernel

theorem test_hyp_StartAccepted : (fronted 1 ctx7).tally.lines.length = 4 ∧ entryTmo (entry 1 false true) = 0
    ∧ entryTmo (BitVec.ofNat 512 (1 + 2 ^ 320)) ≠ 0 := by decide +kernel

/-- A WAITING program of subchannel 7 that has ended and has nothing outstanding. -/
def endedProg : State :=
  { fronted 1 { ctx7 with state := .waiting } with
    sub := { up.sub with ctx := [(7, { ctx7 with state := .waiting })], prog := [(7, { Prog.zero with sq := 2, ending := true })] } }

/-- The same, with a store to the host that its END holds; `free`: HOST-WRITE is no other's. -/
def endedHolds (free : Bool) : State :=
  { endedProg with
    sub := { endedProg.sub with prog := [(7, { Prog.zero with
      sq := 2, ending := true, stores := [⟨.hostSlot, 0x200000, none, TWord.unset⟩] })] }
    md := { endedProg.md with reqs := if free then [] else [⟨2, false, 0, 0, 9, 0, .write 0, true⟩], nextReq := 1 } }

theorem test_hyp_FenceFinalAndAggregation :
    (let r : SQ := { sq with taken := [entry 1 true true] }
     (withQ r cq up).sq? 2 = some r ∧ r.taken = entry 1 true true :: [] ∧ entryFence (entry 1 true true)
       ∧ ∀ p ∈ (withQ r cq up).sub.prog, p.2.sq ≠ 2)
    ∧ (endedProg.endStores 7 = false ∧ (endedProg.progOf 7).ending ∧ (endedProg.progress 7).finalReady 7)
    ∧ (let s := endedHolds true
       s.endStores 7 ∧ s.canRelease 7 (s.progOf 7).stores
         ∧ (let v := ((s.releaseFaults 7 (s.progOf 7).stores ⟨7, [], 0⟩).releaseStores 7 (s.progOf 7).stores).modProg 7 fun p => { p with stores := [] }
            (v.progOf 7).ending ∧ (v.progress 7).finalReady 7))
    ∧ ((endedHolds false).endStores 7 ∧ (endedHolds false).canRelease 7 ((endedHolds false).progOf 7).stores = false)
    ∧ (let r : CQ := { cq with ien := true, aggDue := some 1000000 }
       (withQ sq r up).cq? 3 = some r ∧ r.aggDue = some 1000000 ∧ r.ien ∧ (withQ sq r up).aggTimer 3 1000000)
    ∧ ((fronted 0 { ctx7 with state := .statusPending }).ctxOf 7).state = .statusPending
    ∧ ((fronted 0 { ctx7 with state := .statusPending }).ctxOf 7).disend = false
    ∧ ((fronted 0 { ctx7 with state := .statusPending, disend := true, gen := 1 }).ctxOf 7).disend
    ∧ ((fronted 0 { ctx7 with state := .statusPending, disend := true, gen := 1 }).ctxOf 7).gen ≠ 0 := by decide +kernel

theorem test_hyp_CompletionsAndHeldLists :
    (∀ e ∈ (withQ sq cq up).q.waiting, e.1 ≠ 3)
    ∧ (let c : Comp := ⟨5, 0, 9, 0, 2, 0, 0, 1000000, 1⟩
       let s := withQ sq cq up
       let t := { s with md := { s.md with reqs := [⟨2, false, 0, 0, 9, 0, .write 0, true⟩], nextReq := 1 } }
       s.winsAs 2 (s.heldKey (.comp c)) 3 c.sch (.comp 3) = true ∧ t.cq? 3 = some cq ∧ t.winsAs 2 (t.heldKey (.comp c)) 3 c.sch (.comp 3) = false)
    ∧ (withQ sq cq up).cq? 3 = some cq ∧ cq.toLegacy up.q.legOn = false ∧ up.link.mayIssue ∧ cq.st = .active ∧ cq.held = []
    ∧ cq.room ∧ cq.pasid = none ∧ cq.ien = false
    ∧ ({ cq with held := [.sub 7] } : CQ).held ≠ [] ∧ ({ cq with tail := 8 } : CQ).room = false
    ∧ (withQ sq cq State.reset).cq? 3 = some cq ∧ (withQ sq cq State.reset).link.mayIssue = false ∧ cq.toLegacy State.reset.q.legOn = false
    ∧ (withQ sq { cq with held := [.sub 7] } up).cq? 3 = some { cq with held := [.sub 7] } := by decide +kernel

/-! ## The admin queue -/

/-- An admin entry: its opcode, CID 9 and fields given as (dword, low bit, value). -/
def adm (opc : Nat) (fs : List (Nat × Nat × Nat)) : BitVec 512 :=
  BitVec.ofNat 512 (opc + 9 * 2 ^ 16 + (fs.map fun f => f.2.2 * 2 ^ (32 * f.1 + f.2.1)).sum)

/-- The admin pair with an entry in hand. -/
def hand (e : BitVec 512) (s : State) : State :=
  { s with q := { s.q with
    sqs := (0, { admSq 4 0x30000 [] with t := 1, c := 1, taken := [e] }) :: s.q.sqs, cqs := (1, admCq 4 0x40000 []) :: s.q.cqs,
    admEnable := true, admReady := true } }

def locked (s : State) : State := { s with link := { s.link with ep := .recovery } }

theorem test_hyp_AdminPairAndChecks :
    (hand (adm 0x99 []) up).admEntry = some (adm 0x99 []) ∧ aKnown 0x99 = false
    ∧ ((adminRows ⟨.ok, [], .sound, []⟩ ⟨none, .sound⟩).all fun row => (hand (adm row.1 []) up).admEntry = some (adm row.1 []) && aOpc (adm row.1 []) = row.1
        && (hand (adm row.1 []) (locked up)).admEntry = some (adm row.1 []) && (hand (adm row.1 []) (locked up)).admLocked row.1
        && !(hand (adm row.1 []) up).admLocked row.1 && !aSound (adm row.1 [(15, 0, 1)]))
    ∧ Serves up ∧ up.q.admEnable = false ∧ up.sq? 0 = none ∧ up.cq? 1 = none
    ∧ (0x319 : Word).getLsbD 0 ∧ 1 ≤ bits (0x319 : Word).toNat 2 4 ∧ bits (0x319 : Word).toNat 2 4 ≤ 12
    ∧ bits (0x319 : Word).toNat 6 4 = 12 ∧ bits (0x001 : Word).toNat 2 4 = 0 ∧ 12 < bits (0x345 : Word).toNat 6 4
    ∧ (0 : Word).getLsbD 0 = false ∧ (hand 0 up).q.admEnable := by decide +kernel

theorem test_hyp_QueueCommands :
    aField (adm 0x02 [(1, 0, 5), (4, 0, 16)]) 1 0 18 = 5 ∧ Admin (hand (adm 0x02 [(1, 0, 5), (4, 0, 16)]) up) 0x02 (adm 0x02 [(1, 0, 5), (4, 0, 16)])
    ∧ aField (adm 0x02 [(1, 0, 5), (4, 0, 16)]) 4 0 5 = 16 ∧ (hand 0 up).sq? 5 = none ∧ (hand 0 up).cq? 5 = none
    ∧ Admin (hand (adm 0x02 [(1, 0, 5), (1, 20, 1), (6, 0, 7)]) up) 0x02 (adm 0x02 [(1, 0, 5), (1, 20, 1), (6, 0, 7)])
    ∧ aField (adm 0x02 [(1, 0, 5), (1, 20, 1), (6, 0, 7)]) 6 0 11 < 8 ∧ 8 ≤ aField (adm 0x02 [(1, 0, 5), (1, 20, 1), (6, 0, 8)]) 6 0 11
    ∧ (let s := hand (adm 0x07 [(1, 0, 2)]) (withQ sq cq up)
       Admin s 0x07 (adm 0x07 [(1, 0, 2)]) ∧ s.sq? 2 = some sq)
    ∧ (let s := hand (adm 0x06 [(1, 0, 2), (1, 18, 1)]) (withQ sq cq up)
       Admin s 0x06 (adm 0x06 [(1, 0, 2), (1, 18, 1)]) ∧ s.sq? 2 = some sq ∧ sq.st = .active)
    ∧ (let r : SQ := { sq with st := .error, cause := 4 }
       let s := hand (adm 0x04 [(1, 0, 2)]) (withQ r cq up)
       Admin s 0x04 (adm 0x04 [(1, 0, 2)]) ∧ s.sq? 2 = some r ∧ r.st = .error ∧ r.remain = 0)
    ∧ (let r : SQ := { sq with t := 1 }
       let s := hand (adm 0x03 [(1, 0, 2)]) (withQ r cq up)
       Admin s 0x03 (adm 0x03 [(1, 0, 2)]) ∧ s.sq? 2 = some r ∧ r.settled ∧ r.unconsumed ≠ 0
         ∧ aField (adm 0x03 [(1, 0, 2), (1, 18, 1)]) 1 18 1 = 1 ∧ aField (adm 0x03 [(1, 0, 2)]) 1 18 1 = 0)
    ∧ sq.unconsumed = 0 ∧ sq.cls < 7 ∧ ({ sq with cls := 7 } : SQ).cls = 7 := by decide +kernel

/-- CREATE_SQ of queue 5 onto completion queue 3; and a schedule that admits every class. -/
def createE (cls : Nat) (fs : List (Nat × Nat × Nat)) : BitVec 512 := adm 0x01 ([(1, 0, 5), (1, 18, cls), (4, 0, 3), (6, 0, 3)] ++ fs)
def open_ (s : State) : State :=
  { s with
    md := { s.md with valid := true, sched := { s.md.sched with
      admitted := 0xFF, expClusters := 0xFFFF, cls := List.replicate 7 ⟨10000, 0, 0, 0, 8, 8, 8, 8, 8, 8⟩ } }
    sx := { s.sx with segTabs := [(1, [⟨0x100000, 0x10000, 0, false, 1, true, false, true⟩])] } }
def class2 : BitVec 512 := createE 2 [(7, 0, 2000), (9, 0, 1)]
def class0 : BitVec 512 := createE 0 [(1, 21, 1), (9, 0, 1), (11, 0, 1), (11, 16, 1)]

theorem test_hyp_QueueAdmission :
    (let e := createE 7 []
     let s := hand e (withQ sq cq up)
     Admin s 0x01 e ∧ aField e 2 0 12 = 0 ∧ classFields e 7 ∧ aField e 1 22 1 = 0 ∧ aField e 1 21 1 = 0 ∧ aField e 4 0 5 = 3
       ∧ s.sq? 5 = none ∧ s.cq? 5 = none ∧ aField e 6 0 18 ≠ 1 ∧ (s.cq? (aField e 6 0 18)).isSome ∧ aField e 1 18 3 = 7)
    ∧ (let s := hand class2 (withQ { sq with cls := 7 } cq (open_ up))
       Admin s 0x01 class2 ∧ classFields class2 2 ∧ aField class2 1 18 3 = 2
         ∧ s.md.passed = false ∧ ({ s with md := { s.md with passed := true } } : State).md.passed
         ∧ s.maquette (demandsOf s.q.sqs) none (newSq class2 s.time []).demand = none)
    ∧ (let s := hand class2 (withQ sq cq up)
       Admin s 0x01 class2 ∧ s.maquette (demandsOf s.q.sqs) none (newSq class2 s.time []).demand = some ⟨1, 0, 0, 0⟩)
    ∧ (let s := hand class0 (withQ { sq with cls := 7 } cq (open_ up))
       Admin s 0x01 class0 ∧ classFields class0 0 ∧ aField class0 1 21 1 = 1 ∧ s.textOk (aField class0 11 0 14) (aField class0 11 16 16)
         ∧ s.segTab (aField class0 11 0 14) = some [⟨0x100000, 0x10000, 0, false, 1, true, false, true⟩]
         ∧ aField class0 1 18 3 = 0 ∧ aField class0 1 22 1 = 0 ∧ aField class0 2 0 12 = 0 ∧ (s.q.sqs.filter fun x => x.2.push).length < 4096
         ∧ s.maquette (demandsOf s.q.sqs) none (newSq class0 s.time []).demand = none ∧ s.ownReady true 1
         ∧ (let t := { s with md := { s.md with reqs := [⟨1, false, 0, 0, 9, 0, .read 0, true⟩], nextReq := 1 } }
            Admin t 0x01 class0 ∧ t.ownReady true 1 = false))
 := by decide +kernel

theorem test_hyp_QueueAdmission_modify :
    (let e := adm 0x05 [(1, 0, 2), (1, 18, 2), (7, 0, 2000), (9, 0, 1)]
       let s := hand e (withQ { sq with cls := 7 } cq (open_ up))
       let d := ({ sq with cls := 7 } : SQ).params e 2 []
       Admin s 0x05 e ∧ s.sq? 2 = some { sq with cls := 7 } ∧ classFields e 2 ∧ aField e 1 18 3 = 2 ∧ s.md.passed = false
         ∧ s.maquette (demandsOf (AMap.del s.q.sqs 2)) (some ({ sq with cls := 7 } : SQ).demand) d.demand = none
         ∧ ((hand e (withQ sq cq up)).maquette (demandsOf (AMap.del (hand e (withQ sq cq up)).q.sqs 2)) (some sq.demand) (sq.params e 2 []).demand).isSome)
    ∧ (let e := adm 0x05 [(1, 0, 2), (1, 18, 7)]
       let s := hand e (withQ { sq with cls := 7 } cq up)
       Admin s 0x05 e ∧ s.sq? 2 = some { sq with cls := 7 } ∧ classFields e 7 ∧ aField e 1 18 3 = 7)
    ∧ ({ up with md := { up.md with commit := some ⟨.create 5 sq, some 9⟩ } } : State).md.commit = some ⟨.create 5 sq, some 9⟩ ∧ sq.cls ≠ 0
    ∧ (let s := withQ { sq with cls := 7 } cq { up with md := { up.md with commit := some ⟨.modify 2 sq, some 9⟩ } }
       s.md.commit = some ⟨.modify 2 sq, some 9⟩ ∧ s.sq? 2 = some { sq with cls := 7 }) := by decide +kernel

def configE : BitVec 512 := adm 0x12 [(1, 0, 7), (1, 20, 1), (2, 0, 2), (3, 0, 3), (4, 0, 1), (5, 0, 4)]

/-- Path set 4 of device 6, an NVMe device on port 1 of quad 8 that discovery record 0 lists. -/
def discRec : DiscRec :=
  ⟨3, 1, false, false, 0, 0, 0x77, [], 1000, 9, 0, 0, none, 0, 0, 0, 0, 0, [⟨8, 1, true, false, 0, 4, 0, .none⟩]⟩
def withDev (s : State) : State :=
  { s with
    sub := { s.sub with devs := [(6, discRec.entry 0 0x300000000)], psets := [(4, ⟨1, 6, [⟨8, 1, true⟩]⟩)] }
    dev := { s.dev with disc := [(0, { discRec with dev := some 6 })] } }

theorem test_hyp_SubchannelCommands :
    (let e := adm 0x10 [(1, 0, 2), (14, 0, 256)]
     let b : List Byte := fit 256 []
     Admin (hand e up) 0x10 e ∧ aBufLen e = 256 ∧ aField e 1 14 1 = 0 ∧ (hand e up).segTab (aField e 1 0 14) = none
       ∧ (hand e up).ownReady true 1 ∧ (readSegs b).any (·.pv) = false ∧ segsOk b)
    ∧ (let e := adm 0x11 [(1, 0, 1)]
       let s := hand e (open_ up)
       Admin s 0x11 e ∧ (s.segTab (aField e 1 0 14)).isSome ∧ (∀ x ∈ s.sub.ctx, x.2.names (aField e 1 0 14) = false)
         ∧ ∀ x ∈ s.q.sqs, x.2.cls ≠ 0)
    ∧ (let s := hand configE (withDev (withQ sq cq (open_ up)))
       Admin s 0x12 configE ∧ aField configE 1 20 1 = 1 ∧ s.sq? (aField configE 2 0 18) = some sq ∧ s.cq? (aField configE 3 0 18) = some cq
         ∧ cq.legacy = false ∧ (s.segTab (aField configE 4 0 14)).isSome ∧ AMap.has s.sub.psets (aField configE 5 0 16)
         ∧ (s.ctxOf 7).state = .disabled
         ∧ ((hand configE (withDev (fronted 0 { ctx7 with state := .active }))).ctxOf 7).state = .active)
    ∧ (let e := adm 0x13 [(1, 0, 7), (14, 0, 256)]
       Admin (hand e up) 0x13 e ∧ 256 ≤ aBufLen e ∧ (hand e up).ownReady false 1)
    ∧ (let e := adm 0x30 [(1, 0, 1)]
       Admin (hand e up) 0x30 e ∧ aField e 1 0 1 = 1 ∧ ∀ c ∈ (hand e up).q.cqs, c.2.legacy = false) := by decide +kernel

theorem test_hyp_DeviceCommands :
    (let e := adm 0x21 [(1, 0, 6), (2, 0, 0x300000000)]
     let s := hand e { up with dev := { up.dev with disc := [(0, discRec)] } }
     Admin s 0x21 e ∧ AMap.has s.sub.devs 6 = false ∧ AMap.get? s.dev.disc (aField e 2 0 64 % 2 ^ 32) = some discRec
       ∧ discRec.dgen.toNat = aField e 2 0 64 / 2 ^ 32 ∧ discRec.reason = 0 ∧ discRec.dev = none)
    ∧ (let e := adm 0x24 [(1, 0, 6)]
       let s := hand e { withDev up with sub := { (withDev up).sub with psets := [] } }
       Admin s 0x24 e ∧ (AMap.get? s.sub.devs 6).isSome ∧ ∀ p ∈ s.sub.psets, p.2.dev ≠ 6)
    ∧ (let e := adm 0x23 [(1, 0, 4)]
       let s := hand e (withDev up)
       Admin s 0x23 e ∧ AMap.has s.sub.psets 4 ∧ ∀ x ∈ s.sub.ctx, x.2.psv = false ∨ x.2.pset ≠ 4)
    ∧ (let e := adm 0x22 [(1, 0, 4), (1, 16, 1), (2, 0, 6), (14, 0, 8)]
       let s := hand e (withDev up)
       let b : List Byte := fit (8 * 1) [0x28]
       Admin s 0x22 e ∧ aField e 1 16 4 = 1 ∧ aBufLen e = 8 * 1 ∧ AMap.has s.sub.devs 6 ∧ s.ownReady true 1
         ∧ (List.range 1).all ((s.supRead (aBuf e) none (8 * 1) ⟨.ok, [], .sound, [0x28]⟩).1.pathOk 6 b))
    ∧ (let e := adm 0x20 [(14, 0, 256)]
       let s := hand e (withDev up)
       Admin s 0x20 e ∧ 256 ≤ aBufLen e ∧ s.ownReady false 1 ∧ s.dev.disc.length ≤ aBufLen e / 256) := by decide +kernel

/-! ## Exchanges, aborts, timeouts -/

/-- A program of subchannel 7 that waits for a READ of 512 bytes at block 5 into host memory, its piece in a state. -/
def piece (st : PieceSt) : Piece := ⟨0, 512, 5, 1, st⟩
def cmd (toMem : Bool) (st : PieceSt) : Cmd :=
  { no := 0, op := if toMem then .read else .write, code := 0, chc := false, ist := false, hlf := false, count := 512, toMem := toMem,
    blk := 5, entry := 0, cdbLen := 0, ext := [⟨true, 0x200000, none, 512, false⟩], pieces := [piece st], fails := [], p0 := none,
    half := false, full := false, poison := false, ended := false, aborted := false }
def running (c : Cmd) : Prog := { Prog.zero with sq := 2, wait := .commands, cmds := [c], nextNo := 1 }
def quadIn (mode : Nat) : Quad :=
  { Quad.reset with
    cfg := { QuadRec.off with mode := mode }
    lanes := List.replicate 4 { Lane.reset with inuse := true }
    ports := List.replicate 4 { Port.reset with st := 2, rate := 4, width := 1, present := true, pwren := true, perst := false, ctrls := [⟨0, 1, 1⟩] } }
def prog (mode : Nat) (c : Cmd) : State :=
  let s := withDev (withQ sq cq up)
  { s with
    sub := { s.sub with ctx := [(7, { ctx7 with state := .waiting })], prog := [(7, running c)] }
    dev := { s.dev with quads := modAt s.dev.quads 8 fun _ => quadIn mode } }

/-- Exchange 0 of quad 8 for that piece. -/
def exch (st : ExSt) : Exch := ⟨7, 0, 0, 8, 1, 0, 1, 6, 1, 0, st, none, none, false, 5, 6, 0, false, 0, 0⟩
def sent (mode : Nat) (toMem : Bool) (e : Exch) : State :=
  let s := prog mode (cmd toMem (.sent 32768))
  { s with dev := { s.dev with exch := [(32768, e)] } }

/-- A READ that waits for its EGRESS, which is granted; `full`: the one queue pair of the controller holds 64 commands. -/
def sending (full : Bool) : State :=
  let s := prog 2 (cmd true (.unsent false none))
  { s with
    sub := { s.sub with ctx := [(7, { ctx7 with state := .waiting, xout := 1 })] }
    dev := { s.dev with exch := if full then (List.range 64).map fun i => (32768 + 5 + i, { exch .sent with sch := 9 }) else [] }
    md := { s.md with reqs := [⟨11, false, 0, 0, 7, 0, .exch 7, true⟩], nextReq := 1 } }

/-- The same command, its exchange queued until the device has room. -/
def queuedUp (full : Bool) : State :=
  let s := sending full
  { s with dev := { s.dev with exch := (32768, exch .queued) :: s.dev.exch } }

theorem test_hyp_ExchangeSend :
    ([false, true].all fun full =>
      let s := sending full
      AMap.wf s.sub.ctx Ctx.zero && decide (s.nextSend 7 = some (cmd true (.unsent false none), 0, piece (.unsent false none)))
        && decide (s.queuedOf 7 = none) && decide (s.nextPath 7 = some (0, ⟨8, 1, true⟩))
        && s.md.reqs.any (fun r => r.who = .exch 7 && r.res = 3 + 8 && r.granted) && !AMap.has s.dev.exch 32768
        && s.poolFree (5 + 8) (s.clsOf 7) && decide ((s.ctxOf 7).xout ≠ 0)
        && !s.barred 7 (cmd true (.unsent false none)) && s.connReady (s.devOf 7) ⟨8, 1, true⟩
        && s.slotTurn (s.newExch 7 (cmd true (.unsent false none)) 0 (piece (.unsent false none)) 0 ⟨8, 1, true⟩) == !full)
    ∧ ([false, true].all fun full =>
      let s := queuedUp full
      decide (s.nextSend 7 = some (cmd true (.unsent false none), 0, piece (.unsent false none)))
        && decide (s.queuedOf 7 = some (32768, exch .queued)) && s.usable (exch .queued).dev (exch .queued).pathDesc
        && !s.barred 7 (cmd true (.unsent false none)) && s.connReady (exch .queued).dev (exch .queued).pathDesc
        && s.granted (.exch 7) && s.slotTurn (exch .queued) == !full)
    ∧ (let s := { queuedUp false with dev := { (queuedUp false).dev with
         quads := modAt up.dev.quads 8 fun _ => { quadIn 4 with conns := [⟨1, 0x55, false, none⟩] } } }
       s.nextSend 7 = some (cmd true (.unsent false none), 0, piece (.unsent false none)) ∧ s.queuedOf 7 = some (32768, exch .queued)
         ∧ s.usable (exch .queued).dev (exch .queued).pathDesc ∧ s.granted (.exch 7)
         ∧ s.connReady (exch .queued).dev (exch .queued).pathDesc = false)
    ∧ (let s := { queuedUp false with dev := { (queuedUp false).dev with seqPos := [(6, ⟨none, true⟩)] } }
       s.nextSend 7 = some (cmd true (.unsent false none), 0, piece (.unsent false none)) ∧ (s.seqOf (s.devOf 7)).lost
         ∧ (cmd true (.unsent false none)).op ≠ .control) := by decide +kernel

/-- Port 1 of quad 8 with an expander on it. -/
def onExpander (s : State) : State := s.modPort 8 1 fun p => { p with expander := true }

theorem test_hyp_ExchangeAnswers :
    ([ExSt.sent, .reached, .aborting, .lost].all fun st => AMap.get? (sent 2 true (exch st)).dev.exch 32768 = some (exch st))
    ∧ (sent 2 true (exch .reached)).framesWait 32768 (exch .reached) = false
    ∧ (sent 2 true (exch .reached)).pieceOf 32768 = some (cmd true (.sent 32768), piece (.sent 32768))
    ∧ keptSense ⟨.nvme 0 0 false, 512, false, [], none⟩ 512 = []
    ∧ (let e := { exch .aborting with abortDue := some 1000000, escDue := some 999999 }
       let s := sent 2 true e
       AMap.get? s.dev.exch 32768 = some e ∧ s.quadTimer e.quad 1000000 ∧ s.quadTimer e.quad 999999 ∧ e.kind = 1
         ∧ (s.ctxOf e.sch).clrreq = false ∧ (s.portOf e.quad e.port).expander = false
         ∧ ((onExpander s).portOf e.quad e.port).expander ∧ (onExpander s).quadTimer e.quad 999999)
    ∧ (let e := { exch .reached with kind := 3, sentOff := 512 }
       AMap.get? (sent 2 false e).dev.exch 32768 = some e ∧ e.st = .reached ∧ (sent 2 false e).writesLeft 32768 e = false)
    ∧ (let e := { exch .aborting with kind := 2 }
       AMap.get? (sent 4 true e).dev.exch 32768 = some e ∧ e.kind ≠ 1 ∧ ∀ a ∈ (sent 4 true e).dev.aborts, a.x ≠ 32768)
    ∧ (let s := sent 2 true (exch .aborting)
       let t := { s with dev := { s.dev with aborts := [⟨32768, 8, 1, 0⟩] } }
       AMap.get? t.dev.exch 32768 = some (exch .aborting) ∧ t.dev.aborts = [⟨32768, 8, 1, 0⟩]) := by decide +kernel

theorem test_answer_status :
    answerStatus ⟨.scsi 0 0 0 false false false, 512, false, [], none⟩ 512 = 0x01
    ∧ answerStatus ⟨.scsi 0 0 0 false false false, 511, false, [], none⟩ 512 = 0x02 := by decide +kernel

theorem test_hyp_PathFaults :
    ((prog 2 (cmd true (.unsent false none))).portOf 8 1).st = 2 ∧ isPcie ((prog 2 (cmd true (.unsent false none))).quadOf 8).cfg.mode
    ∧ ((prog 2 (cmd true (.unsent false none))).portOf 8 1).ctrls.any (fun c => c.id = 0)
    ∧ (let s := sent 2 true (exch .reached)
       s.failedLately (exch .reached) (cmd true (.sent 32768)) = false ∧ s.devSeq 6 = false)
    ∧ (let c := { cmd true (.sent 32768) with fails := [(0, 999999)] }
       let s := { prog 2 c with dev := { (prog 2 c).dev with exch := [(32768, exch .reached)] } }
       s.pieceOf 32768 = some (c, piece (.sent 32768)) ∧ s.failedLately (exch .reached) c)
    ∧ (let h : Ghost := ⟨6, 8, 1, 5, 6, 7, 0, 0, 0, 0, some 1000000, none⟩
       let s := { up with dev := { up.dev with ghosts := [(0, h), (1, { h with due := none })], nextGhost := 2 } }
       AMap.get? s.dev.ghosts 0 = some h ∧ h.abortDue = none ∧ s.quadTimer h.quad 1000000 ∧ AMap.get? s.dev.ghosts 1 = some { h with due := none }) := by decide +kernel

theorem test_hyp_TimersOfPrograms :
    (let s := fronted 0 { ctx7 with state := .active, tmoCur := 5, expiry := 1000000 }
     (s.ctxOf 7).armed ∧ s.subTimer 7 (s.ctxOf 7).expiry ∧ (s.ctxOf 7).elaps = 0 ∧ (s.ctxOf 7).state ≠ .startPending)
    ∧ (let s := fronted 0 { ctx7 with state := .startPending, tmoCur := 5, expiry := 1000000, elaps := 1 }
       (s.ctxOf 7).armed ∧ s.subTimer 7 (s.ctxOf 7).expiry ∧ (s.ctxOf 7).elaps ≠ 0 ∧ (s.ctxOf 7).state = .startPending)
    ∧ reached up.time 1000001 = false
    ∧ (let c := { ctx7 with state := .active, tmoCur := 5, expiry := 1000000 }
       let s := { fronted 0 c with sub := { up.sub with ctx := [(7, c), (8, c)] } }
       ∃ e ∈ s.sub.ctx, e.1 < 8 ∧ e.2.armed ∧ e.2.expiry = (s.ctxOf 8).expiry)
    ∧ (let s := { up with dev := { up.dev with quads := modAt up.dev.quads 8 fun _ => { quadIn 4 with conns := [⟨2, 0x55, false, some 1000000⟩] } } }
       (s.quadOf 8).conns = [⟨2, 0x55, false, some 1000000⟩] ∧ s.quadTimer 8 1000000)
    ∧ ((2 : Nat) ^ 62 - 1 < 2 ^ 62 ∧ ({ ctx7 with tmoCur := 5 } : Ctx).tmoCur ≠ 0) := by decide +kernel

/-! ## Data movement -/

def desc (rd chan : Bool) (pieces : List DmaPiece) : Desc := ⟨7, 0, rd, 0, 512, 0, [], [], false, false, false, [], chan, pieces, 0⟩
def held (toMem : Bool) : HeldSeg := ⟨.xfer 7 0 0 32768, 0, toMem, List.replicate 512 0, BitVec.allOnes 512, 0⟩
def moving (toMem : Bool) (d : Desc) (segs : AMap HeldSeg) (reqs : List Req) : State :=
  let s := sent 2 toMem (exch .reached)
  { s with dma := { s.dma with descs := [(0, d)], segs := segs, nextDesc := 1 }, md := { s.md with reqs := reqs, nextReq := 1 } }

/-- A full piece of 512 bytes in the hands of the write engine. -/
def ready : DmaPiece := ⟨0, 0, 32768, false, 0, 0, 0⟩

/-- A descriptor of subchannel 3 that waits with a nearer deadline for a write channel. -/
def behind : State :=
  let s := moving true (desc false false [ready]) [(3, held true)] []
  { s with
    dma := { s.dma with descs := [(0, desc false false [ready]), (1, { desc false false [ready] with sch := 3 })] }
    md := { s.md with waits := [⟨4, 1, false, 0, 5, 3, 0, .chan 1⟩] } }

theorem test_hyp_DmaEngines_channels :
    (let x := desc false false [ready]
     let s := moving true x [(3, held true)] []
     AMap.get? s.dma.descs 0 = some x ∧ x.chan = false ∧ s.hasWork 0 x ∧ s.turn 4 (s.progKey 7) 5 7 (s.clsOf 7) (.chan 0)
       ∧ AMap.get? behind.dma.descs 0 = some x ∧ behind.hasWork 0 x
       ∧ behind.turn 4 (behind.progKey 7) 5 7 (behind.clsOf 7) (.chan 0) = false) := by decide +kernel

/-- A write descriptor with a channel, a full piece in segment 3, and a grant of HOST-WRITE. -/
def writing : State := moving true (desc false true [ready]) [(3, held true)] [⟨2, false, 0, 5, 7, 0, .write 0, true⟩]

/-- Its requests have gone. -/
def written : State := moving true (desc false true [{ ready with issued := true, asked := 512 }]) [(3, held true)] []

theorem test_hyp_DmaEngines_write :
    AMap.get? writing.dma.descs 0 = some (desc false true [ready]) ∧ (desc false true [ready]).nextWrite = some ready
    ∧ writing.nextReq (desc false true [ready]) ready = some (3, held true, ⟨0, 256, ⟨true, 0x200000, none, 512, false⟩, 0⟩)
    ∧ writing.granted (.write 0) ∧ writing.link.mayIssue ∧ writing.refusesWrite none = false ∧ (held true).poison = 0
    ∧ (let q : DmaPiece := { ready with issued := true, asked := 512 }
       let u := written.modDesc 0 fun y => { y with pieces := y.pieces.erase q }
       AMap.get? written.dma.descs 0 = some (desc false true [q]) ∧ ((desc false true [q]).pieces.find? fun p => p.issued && p.idx = 0) = some q
         ∧ u.segOf (.xfer 7 0 0 32768) 0 = some 3 ∧ AMap.get? u.dma.segs 3 = some (held true)) := by decide +kernel

/-- A read descriptor with a channel and a grant of HOST-READ; its bytes come from host memory, or from the global scratchpad. -/
def filling (host : Bool) : State :=
  let s := moving false (desc true true []) [] [⟨1, false, 0, 4, 7, 0, .read 0, true⟩]
  let c := cmd false (.sent 32768)
  { s with sub := { s.sub with prog := [(7, running { c with ext := c.ext.map fun e => { e with host := host } })] } }

/-- Its request is out under tag 5. -/
def asked : State :=
  let s := moving false (desc true true [⟨0, 0, 32768, false, 512, 0, 0⟩]) [(3, { held false with mask := 0 })] []
  { s with link := { s.link with reads := [(5, .dma 0 0 0 512)] } }

theorem test_hyp_DmaEngines_read :
    ([false, true].all fun host =>
      let s := filling host
      decide (AMap.get? s.dma.descs 0 = some (desc true true [])) && decide (s.nextFill (desc true true []) = some ⟨0, 0, 32768, 0, 512⟩)
        && decide (((s.cmd? 7 0).bind fun c => extAt c.ext 0) = some (⟨host, 0x200000, none, 512, false⟩, 0))
        && decide (((s.cmd? 7 0).bind fun c => c.pieces[0]?) = some (piece (.sent 32768)))
        && decide (((s.segFor (exchQuad 32768) 7 0 0 32768 0 false (.seg 0 0) [3]).map (·.2)) = some (3, []))
        && s.granted (.read 0) && s.link.mayIssue && s.tagFree 5 && s.poolFree 2 (s.clsOf 7)
        && decide (s.segOf (.xfer 7 0 0 32768) 0 = none)
        && (s.allocAll (exchQuad 32768) 7 0 0 32768 (.seg 0 0) [0] [3]).isSome
        && (s.allocAll (exchQuad 32768) 7 0 0 32768 (.seg 0 0) [0] []).isNone)
    ∧ (piece (.sent 32768)).large = false
    ∧ ((filling false).gsFetch 0x200000 512).all (fun b => b.2 = false)
    ∧ AMap.get? asked.link.reads 5 = some (.dma 0 0 0 512) ∧ asked.link.noIssue.contains 5 = false ∧ asked.link.ide.discarding = false
    ∧ asked.cmd? 7 0 = some (cmd false (.sent 32768))
    ∧ ((desc true true [⟨0, 0, 32768, false, 512, 0, 0⟩]).pieces.find? fun q => q.idx = 0
        && decide ((cmd false (.sent 32768)).pieceAt 0 = q.pc)) = some ⟨0, 0, 32768, false, 512, 0, 0⟩
    ∧ (List.replicate 256 (0 : Byte) ≠ [] ∧ (List.replicate 256 (0 : Byte)).length < 512) := by decide +kernel

theorem test_hyp_SegmentsAndFifoBanks :
    AMap.sorted up.dma.segs ∧ up.segFree 131071 ∧ up.segFree 0 ∧ up.segFree 131072 = false ∧ SegOwner.sup ≠ (held true).owner
    ∧ up.tally.lines.length = 4
    ∧ (let b : Banks := ⟨100, 28, false⟩
       b.wr ≤ 128 ∧ b.left ≤ 128 ∧ 28 ≤ b.room ∧ 128 ≤ b.occ ∧ (⟨3, 0, false⟩ : Banks).left = 0 ∧ (⟨3, 0, false⟩ : Banks).wr ≠ 0)
    ∧ Fifo.reset.low < Fifo.reset.high
    ∧ ([(false, 0), (false, 256), (true, 256), (true, 0)].all fun x =>
        let f := { Fifo.reset with stop := x.1, rxB := if x.2 = 0 then ⟨0, 0, false⟩ else ⟨128, 128, false⟩ }
        decide (if x.2 = 0 then f.occ ≤ f.low else f.high ≤ f.occ)) := by decide +kernel

def frame (n : Nat) : Frame := ⟨1, List.replicate n 0, false, false, 0, 0, 16⟩
def inFifo (n fstat : Nat) : RxFrame := ⟨frame n, packFrame (List.replicate n 0) fstat 1 0, fstat, 0⟩
def fifoed (mode : Nat) (toMem : Bool) (f : Fifo) : State :=
  let s := sent mode toMem (exch .reached)
  { s with dma := { s.dma with fifos := modAt s.dma.fifos 8 fun _ => f } }

/-- The receive FIFO of quad 8 with some words in its banks. -/
def taken (wr left : Nat) : State := fifoed 4 true { Fifo.reset with rxB := ⟨wr, left, false⟩ }

theorem test_hyp_FrameFifos_receive :
    (taken 0 0).portUp 8 1 ∧ (frame 1152).bytes.length ≤ 1152 ∧ frameWords (frame 1152).bytes.length ≤ ((taken 0 0).fifoOf 8).rxB.room
    ∧ (taken 128 128).portUp 8 1 ∧ ((taken 128 128).fifoOf 8).rxB.room = 0
    ∧ 0 < ((taken 120 128).fifoOf 8).rxB.room ∧ ((taken 120 128).fifoOf 8).rxB.room < frameWords (frame 1152).bytes.length
    ∧ up.portUp 8 1 = false := by decide +kernel

/-- A frame of 528 bytes, 16 of them its header, at the front of the receive FIFO; and a segment for its piece. -/
def arrived (fstat : Nat) (toMem : Bool) (segs : AMap HeldSeg) : State :=
  let s := fifoed 4 toMem { Fifo.reset with rx := [inFifo 528 fstat], rxB := ⟨10, 0, false⟩ }
  { s with dma := { s.dma with segs := segs, descs := [(0, desc false false [])], nextDesc := 1 } }

/-- The state once the frame has left its FIFO. -/
def popped (s : State) : State := (s.popFrame 8 (inFifo 528 0)).onDma fun d => { d with fifoParity := sat 16 (d.fifoParity + 0) }

theorem test_hyp_FrameFifos_move :
    ([0, 1, 2, 3].all fun n => decide (((arrived n true []).fifoOf 8).rx = inFifo 528 n :: [])) ∧ (inFifo 528 0).words ≠ []
    ∧ (popped (arrived 0 true [])).livePiece 32768 = some (exch .reached, cmd true (.sent 32768), piece (.sent 32768))
    ∧ (popped (arrived 0 false [])).livePiece 32768 = some (exch .reached, cmd false (.sent 32768), piece (.sent 32768))
    ∧ (popped { arrived 0 true [] with dev := { (arrived 0 true []).dev with exch := [] } }).livePiece 32768 = none
    ∧ (cmd true (.sent 32768)).toMem ∧ (cmd false (.sent 32768)).toMem = false ∧ (exch .reached).port = (inFifo 528 0).fr.port
    ∧ (let bs := ((inFifo 528 0).bytes.drop 16).take 512
       bs ≠ [] ∧ 0 % 512 + bs.length ≤ 512
         ∧ (popped (arrived 0 true [(3, { held true with mask := 0 })])).segOf (.xfer 7 0 0 32768) (0 / 512) = some 3
         ∧ (State.deliver (bs.length / 512 + 2) (popped (arrived 0 true [])) 8 7 0 0 32768 (cmd true (.sent 32768)) (piece (.sent 32768)) 0 bs []
             (.frame 8) [3]).isSome
         ∧ (State.deliver (bs.length / 512 + 2) (popped (arrived 0 true [])) 8 7 0 0 32768 (cmd true (.sent 32768)) (piece (.sent 32768)) 0 bs []
             (.frame 8) []).isNone)
    ∧ ((taken 0 0).fifoOf 8).rx = [] := by decide +kernel

/-- A frame of a WRITE at the front of the transmit FIFO; `live`: its exchange still stands. -/
def leaving (live : Bool) : State :=
  let s := fifoed 4 false { Fifo.reset with tx := [inFifo 528 0], txB := ⟨10, 0, false⟩ }
  if live then s else { s with dev := { s.dev with exch := [] } }

theorem test_hyp_FrameFifos_transmit :
    ([false, true].all fun live =>
      let u := (leaving live).offerNext 8
      decide ((u.fifoOf 8).tx = inFifo 528 0 :: []) && !u.md.frozen (3 + 8)
        && ((u.modFifo 8 fun f => { f with tx := [], txB := f.txB.pop (inFifo 528 0).words.length }).livePiece 32768).isSome == live
        && u.frameReady 8 32768)
    ∧ (let s := leaving true
       let u := { s with md := { s.md with reqs := [⟨11, false, 0, 0, 7, 0, .exch 7, true⟩], nextReq := 1 } }.offerNext 8
       u.frameReady 8 32768 = false ∧ u.md.frozen (3 + 8) = false ∧ (u.fifoOf 8).tx = inFifo 528 0 :: [])
    ∧ (((taken 0 0).offerNext 8).fifoOf 8).tx = [] ∧ ((taken 0 0).offerNext 8).md.frozen (3 + 8) = false
    ∧ Serves up ∧ (none : Option Bool) ≠ some true
    ∧ (bits (0xF0 + 0xE0 * 2 ^ 9 : Word).toNat 9 9 + 16 ≤ bits (0xF0 + 0xE0 * 2 ^ 9 : Word).toNat 0 9)
    ∧ bits (0xF0 + 0xE0 * 2 ^ 9 : Word).toNat 0 9 ≤ 240
    ∧ bits (0xEF + 0xE0 * 2 ^ 9 : Word).toNat 0 9 < bits (0xEF + 0xE0 * 2 ^ 9 : Word).toNat 9 9 + 16 ∧ 240 < bits (0xF1 : Word).toNat 0 9 := by
  decide +kernel

theorem test_hyp_GlobalScratchpad : AMap.wf up.sx.gs TWord.unset := by decide +kernel

/-- A WRITE whose 512 bytes wait in segment 3, and a READ into memory. -/
def window (toMem : Bool) (segs : AMap HeldSeg) : State := moving toMem (desc (!toMem) true []) segs []

theorem test_hyp_DeviceWindows :
    ([false, true].all fun toMem =>
      let u := (window toMem [(3, held toMem)]).usePort 8 1
      (window toMem [(3, held toMem)]).portUp 8 1 && isPcie ((window toMem [(3, held toMem)]).quadOf 8).cfg.mode
        && decide (u.livePiece 32768 = some (exch .reached, cmd toMem (.sent 32768), piece (.sent 32768)))
        && decide ((exch .reached).port = 1) && decide (0 + 512 ≤ (piece (.sent 32768)).len)
        && decide ((cmd toMem (.sent 32768)).op ≠ .control))
    ∧ devWin 0 4 = .outside ∧ devWin 0x400000000 8 = .prp 0 0 ∧ devWin 0x100000000 512 = .aperture 0 0
    ∧ ((window false [(3, held false)]).usePort 8 1).readOut (exch .reached) 32768 (piece (.sent 32768)) 0 512
      = some (List.replicate 512 0, false)
    ∧ ((window false []).usePort 8 1).readOut (exch .reached) 32768 (piece (.sent 32768)) 0 512 = none
    ∧ (let u := (window false []).usePort 8 1
       AMap.get? u.dev.exch 32768 = some (exch .reached) ∧ (exch .reached).port = 1 ∧ u.devKind (exch .reached).dev = 1 ∧ 0 + 8 ≤ 4096)
    ∧ (let u := (window false [(3, held false)]).usePort 8 1
       let v := u.onDma fun d => { d with devReads := d.devReads ++ [⟨32768, 1, 0x100000000, 0, 512, .buffer, false⟩] }
       v.winsAs (3 + exchQuad 32768) (v.progKey 7) (32 + exchQuad 32768) 7 (.answer 32768)
         ∧ (let w : State := { v with md := { v.md with reqs := [⟨11, false, 0, 0, 7, 0, .exch 7, true⟩], nextReq := 1 } }
            w.winsAs (3 + exchQuad 32768) (w.progKey 7) (32 + exchQuad 32768) 7 (.answer 32768) = false))
    ∧ (State.deliver (512 / 512 + 2) ((window true []).usePort 8 1) 8 7 0 0 32768 (cmd true (.sent 32768)) (piece (.sent 32768)) 0
        (List.replicate 512 0) [] (.dev 32768) [3]).isSome := by decide +kernel

/-! ## Sirax -/

/-- Bundles written out from R211 and R212, and specifiers from R214. -/
def longB (opc cond mod s1 s2 s3 : Nat) : BitVec 128 :=
  BitVec.ofNat 128 (opc * 2 ^ 116 + cond * 2 ^ 112 + mod * 2 ^ 96 + s1 * 2 ^ 64 + s2 * 2 ^ 32 + s3)
def pairB (o1 m1 a1 b1 o2 m2 a2 b2 : Nat) : BitVec 128 :=
  BitVec.ofNat 128 (2 ^ 127 + o1 * 2 ^ 118 + m1 * 2 ^ 112 + a1 * 2 ^ 88 + b1 * 2 ^ 64 + o2 * 2 ^ 54 + m2 * 2 ^ 48 + a2 * 2 ^ 24 + b2)
def immL (v : Nat) : Nat := 2 ^ 28 + v
def countL (v : Nat) : Nat := 2 ^ 28 + 2 ^ 27 + v
def gL (n : Nat) : Nat := 5 * 2 ^ 28 + n
def hL (n : Nat) : Nat := 6 * 2 ^ 28 + n

/-- Segment 0 is text, 1 global, 2 the local window, 3 host data. -/
def segs : List Seg :=
  [⟨0x100000, 0x10000, 0, false, 1, true, false, true⟩, ⟨0, 0x1000, 0, false, 2, true, true, false⟩,
   ⟨0, 0x1000, 0, false, 3, true, true, false⟩, ⟨0x200000, 0x1000, 0, false, 1, true, true, false⟩,
   Seg.none, Seg.none, Seg.none, Seg.none]
def addrW (seg off : Nat) : TWord := ⟨if seg = 3 then tagHaddr else tagSaddr, BitVec.ofNat 64 (seg * 2 ^ 48 + off)⟩

/-- Thread 0 with frame words F0 on, its line holding the bundle at IC 0; and the machine that runs it. -/
def thr (f : List TWord) (b : BitVec 128) : Thread :=
  { (up.newThread 7) with stb := 1, budget := 100, f := f ++ List.replicate (64 - f.length) TWord.unset, lines := [⟨0x4000, b.setWidth 512⟩] }
def runs (t : Thread) : State :=
  let s := withDev (fronted 0 { ctx7 with state := .active })
  { s with sx := { s.sx with segTabs := [(1, segs)], threads := [(0, t)] }, sub := { s.sub with prog := [(7, { Prog.zero with sq := 2 })] } }
def frameOf (f : List TWord) (b : BitVec 128) : State := runs (thr f b)
def op (b : BitVec 128) : Op := (decodeBundle b).headD ⟨true, 0, 0, 0, []⟩

/-- Every operation inside a thread, in a form that its catalog entry allows, with the words of F0 to F2 that it accepts. -/
def insideForms : List (BitVec 128 × List TWord) :=
  [(longB 0x000 0 0 0 0 0, []), (longB 0x008 0 0 2 0 0, [intW 5]), (longB 0x010 0 0 2 0 1, [intW 5, intW 6]), (longB 0x011 0 0 2 0 1, [intW 5, intW 6]),
   (longB 0x012 0 0 2 0 1, [intW 5, intW 6]), (longB 0x013 0 0 2 0 1, [intW 5, intW 6]), (longB 0x014 0 0 2 0 0, [intW 5]),
   (longB 0x018 0 0 2 0 1, [intW 5, intW 6]), (longB 0x019 0 0 2 0 1, [intW 5, intW 6]), (longB 0x01A 0 0 2 0 1, [intW 5, intW 6]),
   (longB 0x01B 0 0 2 0 1, [intW 5, intW 6]), (longB 0x01C 0 0 2 0 1, [intW 5, intW 6]), (longB 0x01D 0 0 2 0 1, [intW 5, intW 6]),
   (longB 0x01E 0 0 2 0 1, [intW 5, intW 6]), (longB 0x020 0 0 0 1 0, [intW 5, intW 6]), (longB 0x021 0 0 0 0 0, [intW 5]),
   (longB 0x022 0 0 0 (immL 1) 0, [intW 5]), (longB 0x023 0 0 2 0 0, [intW 5]), (longB 0x024 0 2 2 0 0, [intW 5]),
   (longB 0x025 0 0 2 0 0, [addrW 1 8]), (longB 0x026 0 3 2 0 0, [⟨tagStatus, 5⟩]), (longB 0x027 0 0 2 0 0, []), (longB 0x028 0 0 2 0 0, []),
   (longB 0x030 0 0xE (immL 4) 0 0, []), (longB 0x031 0 0 (immL 4) 0 0, []), (longB 0x032 0 0 2 (immL 4) 0, []),
   (longB 0x210 0 0 2 (immL 1) (immL 8), []), (longB 0x211 0 0 2 0 0, [])]

theorem test_hyp_BundlesIssue :
    (((insideRows 0 []).zip insideForms).all fun x =>
      let t := thr x.2.2 x.2.1
      decide (Bundle (runs t) 0 t x.2.1 [op x.2.1]) && opIs x.1.1 (op x.2.1)
        && (match chkMap [op x.2.1] ((runs t).slot t ((runs t).env t)) with
          | .ok outs => !outs.any (·.fin)
          | .error _ => false))
    ∧ (let b := pairB 0x010 0 0 1 0x011 0 2 3
       let t := thr [intW 1, intW 2, intW 3] b
       decide (Bundle (runs t) 0 t b (decodeBundle b)) && (decodeBundle b).length = 2
         && (match chkMap (decodeBundle b) ((runs t).slot t ((runs t).env t)) with
           | .ok _ => false
           | .error c => c = pcTag))
    ∧ (let b := longB 0x7C0 0 0 2 0 1
       let e : DecEntry := ⟨3, true, 0, 1, 1, 0xFFFF, 0xFFFF, 0, [0x4C000000]⟩
       let t := thr [intW 1, intW 2] b
       let s := { runs t with sx := { (runs t).sx with bank0 := [(0, e)] } }
       decide (Bundle s 0 t b [op b]) && (op b).customer && (match chkMap [op b] (s.slot t (s.env t)) with
         | .ok outs => !outs.any (·.fin)
         | .error _ => false))
    ∧ (let b := longB 0x010 0 0 2 0 1
       let t := thr [intW 5, intW 6] b
       decide (Bundle (runs t) 0 t b [op b]) && ((runs t).readsOf t (op b) == [.frame 0, .frame 1])
         && !((insideRows 0 [.frame 63]).map (·.1)).isEmpty) := by decide +kernel

/-- The results of the word that a slot writes, and CC. -/
def result (b : BitVec 128) (f : List TWord) : Option (List (Loc × TWord × Nat)) :=
  match (frameOf f b).slot (thr f b) ((frameOf f b).env (thr f b)) (op b) with
  | .ok o => some o.ws
  | .error _ => none

theorem test_add_wraps : result (longB 0x010 0 0 2 0 1) [intW 0x7FFFFFFFFFFFFFFF, intW 1]
    = some [(.frame 2, intW 0x8000000000000000, 2), (.cc, ⟨tagUnset, 0x9⟩, 2)] := by decide +kernel
theorem test_sub_borrow : result (longB 0x011 0 0 2 0 1) [intW 1, intW 2]
    = some [(.frame 2, intW (-1), 2), (.cc, ⟨tagUnset, 0xA⟩, 2)] := by decide +kernel
theorem test_div_rounds_to_zero : result (longB 0x013 0 0 2 0 1) [intW (-7), intW 2]
    = some [(.frame 2, intW (-3), 2), (.cc, ⟨tagUnset, 0x8⟩, 2)] := by decide +kernel
theorem test_sar_sign : result (longB 0x01E 0 0 2 0 1) [intW 0x8000000000000001, intW 1]
    = some [(.frame 2, intW 0xC000000000000000, 2), (.cc, ⟨tagUnset, 0xA⟩, 2)] := by decide +kernel
theorem test_count_add_carry : result (longB 0x010 0 0 2 0 1) [⟨tagCount, 0xFFFFFFFF⟩, ⟨tagCount, 1⟩]
    = some [(.frame 2, ⟨tagCount, 0⟩, 2), (.cc, ⟨tagUnset, 0x7⟩, 2)] := by decide +kernel
theorem test_add_poison : (frameOf [⟨tagPoison, 1⟩, intW 1] (longB 0x010 0 0 2 0 1)).slot (thr [⟨tagPoison, 1⟩, intW 1] (longB 0x010 0 0 2 0 1))
    ((frameOf [⟨tagPoison, 1⟩, intW 1] (longB 0x010 0 0 2 0 1)).env (thr [⟨tagPoison, 1⟩, intW 1] (longB 0x010 0 0 2 0 1)))
    (op (longB 0x010 0 0 2 0 1)) matches .error 0x04 := by decide +kernel
theorem test_segaddr_end : result (longB 0x210 0 0 2 (immL 3) (immL 0x1000)) [] = some [(.frame 2, addrW 3 0x1000, 2)]
    ∧ result (longB 0x210 0 0 2 (immL 3) (immL 0x1001)) [] = none := by decide +kernel

/-- A slot whose operands are these places, with these words in the frame. -/
def slotOk (b : BitVec 128) (f : List TWord) (ps : List Place) : Bool :=
  decide (Slot (frameOf f b) (thr f b) (op b) ps)
def at_ (b : BitVec 128) (f : List TWord) (p : Place) : TWord := ((frameOf f b).env (thr f b)).at_ p

theorem test_hyp_ArithmeticAndLogic :
    (([0x010, 0x011, 0x012, 0x013, 0x018, 0x019, 0x01A, 0x01B, 0x01C, 0x01D, 0x01E].all fun o =>
      let b := longB o 0 0 2 0 1
      slotOk b [intW 5, intW 0] [.frame 2, .frame 0, .frame 1] && at_ b [intW 5, intW 0] (.frame 0) = intW 5 && (op b).opc = o)
    ∧ (op (longB 0x013 0 1 2 0 1)).modN % 2 = 1 ∧ slotOk (longB 0x013 0 1 2 0 1) [intW 5, intW 3] [.frame 2, .frame 0, .frame 1])
    ∧ ([0x010, 0x011, 0x012, 0x013].all fun o =>
      slotOk (longB o 0 0 2 0 1) [countW 5, countW 0xFFFFFFFF] [.frame 2, .frame 0, .frame 1])
    ∧ slotOk (longB 0x010 0 0 2 0 1) [addrW 1 (2 ^ 48 - 8), intW 8] [.frame 2, .frame 0, .frame 1]
    ∧ ([0x018, 0x01C].all fun o => slotOk (longB o 0 0 2 0 1) [⟨tagBytes, 5⟩, ⟨tagBytes, 5⟩] [.frame 2, .frame 0, .frame 1] || o ≠ 0x018)
    ∧ slotOk (longB 0x01D 0 0 2 0 1) [⟨tagBytes, 5⟩, countW 63] [.frame 2, .frame 0, .frame 1] := by decide +kernel

theorem test_hyp_MoveCompareTagsAndAddresses :
    slotOk (longB 0x008 0 0 2 0 0) [⟨tagHandle, 5⟩] [.frame 2, .frame 0] ∧ slotOk (longB 0x014 0 0 2 0 0) [intW 5] [.frame 2, .frame 0]
    ∧ slotOk (longB 0x023 0 0 2 0 0) [⟨tagPoison, 5⟩] [.frame 2, .frame 0]
    ∧ slotOk (longB 0x024 0 1 2 0 0) [⟨tagBytes, 5⟩] [.frame 2, .frame 0] ∧ (op (longB 0x024 0 1 2 0 0)).modN % 16 = 1
    ∧ slotOk (longB 0x024 0 2 2 0 0) [intW (-1)] [.frame 2, .frame 0] ∧ (op (longB 0x024 0 2 2 0 0)).modN % 16 = 2
    ∧ slotOk (longB 0x025 0 0 2 0 0) [addrW 1 8] [.frame 2, .frame 0]
    ∧ slotOk (longB 0x026 0 3 2 0 0) [⟨tagStatus, 5⟩] [.frame 2, .frame 0] ∧ (op (longB 0x026 0 3 2 0 0)).modN % 4 = 3
    ∧ slotOk (longB 0x020 0 0 0 1 0) [intW 5, intW 6] [.frame 0, .frame 1]
    ∧ slotOk (longB 0x022 0 0 0 (immL 15) 0) [⟨tagPoison, 6⟩] [.frame 0, .imm (intW 15)]
    ∧ slotOk (longB 0x021 0 0 0 0 0) [intW 5] [.frame 0]
    ∧ ([0x027, 0x028, 0x211].all fun o => slotOk (longB o 0 0 2 0 0) [] [.frame 2]) ∧ slotOk (longB 0x000 0 0 0 0 0) [] []
    ∧ AMap.get? (frameOf [] 0).sub.psets ((frameOf [] 0).ctxOf 7).pset = some ⟨1, 6, [⟨8, 1, true⟩]⟩
    ∧ slotOk (longB 0x210 0 0 2 0 1) [intW 3, countW 0x1000] [.frame 2, .frame 0, .frame 1]
    ∧ ((frameOf [] 0).segsOf 1).getD 3 Seg.none = ⟨0x200000, 0x1000, 0, false, 1, true, true, false⟩
    ∧ slotOk (longB 0x210 0 0 2 0 1) [intW 8, intW (-1)] [.frame 2, .frame 0, .frame 1] := by decide +kernel

theorem test_hyp_Branches :
    (let b := longB 0x030 0 0xE (immL 4) 0 0
     decide (BranchSlot (thr [] b) (op b) 0x030 [.imm false 4]))
    ∧ (let b := longB 0x031 1 0 0 0 0
       decide (BranchSlot (thr [intW 64] b) (op b) 0x031 [.frame 0])
         ∧ (((frameOf [intW 64] b).env (thr [intW 64] b)).fr 0).tag = tagInt)
    ∧ (let b := longB 0x032 0 0 2 (immL 4) 0
       decide (BranchSlot (thr [] b) (op b) 0x032 [.frame 2, .imm false 4]))
    ∧ (thr [] 0).rptAct = false ∧ (thr [] 0).delay = false ∧ ({ thr [] 0 with delay := true } : Thread).delay = true := by decide +kernel

theorem test_hyp_FrameWordDistance : (thr [] 0).rptAct = false ∧ (thr [] 0).inBlock = false ∧ 63 < (thr [] 0).f.length
    ∧ (thr [] 0).pend = [] := by decide +kernel

/-- A bundle of one long operation whose operands are these. -/
def longOk (opc : Nat) (b : BitVec 128) (f : List TWord) (srcs : List Src) : Bool :=
  decide (LongOp (frameOf f b) 0 (thr f b) b (op b) opc srcs)
def seg (k : Nat) : Seg := segs.getD k Seg.none

theorem test_hyp_LoadsAndBufferedStores :
    decide (Loads (frameOf [addrW 1 8] (longB 0x204 0 0 2 (gL 0) 0)) 0 (thr [addrW 1 8] (longB 0x204 0 0 2 (gL 0) 0))
      (longB 0x204 0 0 2 (gL 0) 0) (op (longB 0x204 0 0 2 (gL 0) 0)) 0x204 8 2 (.globalInd 0 0) (seg 1) 8)
    ∧ decide (Loads (frameOf [addrW 1 8] (longB 0x241 0 0 2 (gL 0) 0)) 0 (thr [addrW 1 8] (longB 0x241 0 0 2 (gL 0) 0))
      (longB 0x241 0 0 2 (gL 0) 0) (op (longB 0x241 0 0 2 (gL 0) 0)) 0x241 8 2 (.globalInd 0 0) (seg 1) 8)
    ∧ decide (Loads (frameOf [addrW 3 16] (longB 0x200 0 0 2 (hL 0) 0)) 0 (thr [addrW 3 16] (longB 0x200 0 0 2 (hL 0) 0))
      (longB 0x200 0 0 2 (hL 0) 0) (op (longB 0x200 0 0 2 (hL 0) 0)) 0x200 16 2 (.hostInd 0 0) (seg 3) 16)
    ∧ decide (Loads (frameOf [addrW 3 8] (longB 0x201 0 0 2 (hL 0) 0)) 0 (thr [addrW 3 8] (longB 0x201 0 0 2 (hL 0) 0))
      (longB 0x201 0 0 2 (hL 0) 0) (op (longB 0x201 0 0 2 (hL 0) 0)) 0x201 8 2 (.hostInd 0 0) (seg 3) 8)
    ∧ ((thr [] 0).outstanding true).length < 16 ∧ (frameOf [] 0).canRead 0 7 ∧ globalMeet [] 1 = .none
    ∧ globalMeet [⟨.plain, 1, none, intW 5⟩] 1 = .value (intW 5) ∧ hostMeet [] 0x200008 none true = .none
    ∧ decide (Stores (frameOf [addrW 3 16, intW 5] (longB 0x202 0 0 (hL 0) 1 0)) 0 (thr [addrW 3 16, intW 5] (longB 0x202 0 0 (hL 0) 1 0))
      (longB 0x202 0 0 (hL 0) 1 0) (op (longB 0x202 0 0 (hL 0) 1 0)) 0x202 16 anyTag (.hostInd 0 0) (.frame 1) (seg 3) 16 (.frame 1))
    ∧ decide (Stores (frameOf [addrW 3 8, intW 5] (longB 0x203 0 0 (hL 0) 1 0)) 0 (thr [addrW 3 8, intW 5] (longB 0x203 0 0 (hL 0) 1 0))
      (longB 0x203 0 0 (hL 0) 1 0) (op (longB 0x203 0 0 (hL 0) 1 0)) 0x203 8 isPlainTag (.hostInd 0 0) (.frame 1) (seg 3) 8 (.frame 1))
    ∧ decide (Stores (frameOf [addrW 1 8, intW 5] (longB 0x205 0 0 (gL 0) 1 0)) 0 (thr [addrW 1 8, intW 5] (longB 0x205 0 0 (gL 0) 1 0))
      (longB 0x205 0 0 (gL 0) 1 0) (op (longB 0x205 0 0 (gL 0) 1 0)) 0x205 8 anyTag (.globalInd 0 0) (.frame 1) (seg 1) 8 (.frame 1)) := by decide +kernel

/-- A step of a block-repeat run of 8-byte units from F0 to F1 in the local window. -/
def blockOk_ (opc : Nat) (b : BitVec 128) (f : List TWord) (srcs : List Src) (r : TWord × TWord × TWord) (ps : List Place) : Bool :=
  decide (Steps (frameOf f b) 0 (thr f b) b (op b) opc srcs r ps)

theorem test_hyp_RepeatedOperations_rpt :
    ([(0, 0), (256, 0), (257, 0), (257, 1)].all fun x =>
      longOk 0x220 (longB 0x220 0 x.2 (countL x.1) 0 0) [] [.imm true (BitVec.ofNat 64 x.1)]
        && decide (operandChecks ((frameOf [] (longB 0x220 0 x.2 (countL x.1) 0 0)).env (thr [] (longB 0x220 0 x.2 (countL x.1) 0 0))) 8
          [useSrc (.imm true (BitVec.ofNat 64 x.1)) (· = tagCount)] = .ok [.imm ⟨tagCount, BitVec.ofNat 64 x.1⟩])) = true := by decide +kernel

theorem test_hyp_RepeatedOperations_block :
    (let f := [addrW 2 0, addrW 2 8, countW 2]
     let s (b : BitVec 128) := { frameOf f b with sx := { (frameOf f b).sx with threads := [(0, { thr f b with win := [(0, intW 5)] })] } }
     blockOk_ 0x230 (longB 0x230 0 0 1 0 2) f [.frame 1, .frame 0, .frame 2] (addrW 2 0, addrW 2 8, countW 2) [.win 0 0, .win 1 0]
       ∧ blockOk_ 0x230 (longB 0x230 0 0 1 0 (countL 1)) f [.frame 1, .frame 0, .imm true 1] (addrW 2 0, addrW 2 8, countW 1) [.win 0 0, .win 1 0]
       ∧ blockOk_ 0x233 (longB 0x233 0 0 1 (immL 5) 2) f [.frame 1, .imm false 5, .frame 2] (intW 5, addrW 2 8, countW 2) [.win 1 0]
       ∧ blockOk_ 0x231 (longB 0x231 0 0 1 0 2) f [.frame 1, .frame 0, .frame 2] (addrW 2 0, addrW 2 8, countW 2) [.win 1 0, .win 0 0]
       ∧ blockOk_ 0x232 (longB 0x232 0 0 1 (immL 5) 2) f [.frame 1, .imm false 5, .frame 2] (intW 5, addrW 2 8, countW 2) [.win 1 0]
       ∧ (op (longB 0x232 0 0 1 (immL 5) 2)).modN % 4 < 2
       ∧ decide (UnitRead (s (longB 0x230 0 0 1 0 2)) { thr f (longB 0x230 0 0 1 0 2) with win := [(0, intW 5)] } 0 (.win 0 0) false (intW 5))) := by decide +kernel

/-- HOST-WRITE is granted to another; and a thread with a store to the host in its buffer. -/
def hostBusy (s : State) : State := { s with md := { s.md with reqs := [⟨2, false, 0, 0, 9, 0, .write 0, true⟩], nextReq := 1 } }
def storing (t : Thread) : Thread := { t with sbuf := [⟨.hostSlot, 0x200000, none, TWord.unset⟩] }

theorem test_hyp_CommitPointsAndEnd :
    (let t := storing (thr [] (longB 0x250 0 0 0 0 0))
     let s := hostBusy (runs t)
     s.canRelease t.sch t.sbuf = false ∧ LongOp s 0 t (longB 0x250 0 0 0 0 0) (op (longB 0x250 0 0 0 0 0)) 0x250 [])
    ∧ (frameOf [] 0).canRelease 7 (thr [] 0).sbuf ∧ longOk 0x250 (longB 0x250 0 0 0 0 0) [] [] ∧ longOk 0x251 (longB 0x251 0 0 0 0 0) [] []
    ∧ longOk 0x252 (longB 0x252 0 0 0 0 0) [] [] ∧ (thr [] 0).returned true ∧ (thr [] 0).failed true = false ∧ (thr [] 0).returned false
    ∧ ((thr [] 0).sbuf.all fun e => !(e.kind.toHost && (frameOf [] 0).refusesWrite e.pasid))
    ∧ (let b := longB 0x001 0 0 0 0 0
       decide (Bundle (frameOf [] b) 0 (thr [] b) b [op b]) && opIs 0x001 (op b)
         && (match chkMap [op b] ((frameOf [] b).slot (thr [] b) ((frameOf [] b).env (thr [] b))) with
           | .ok outs => outs.any (·.fin)
           | .error _ => false)) := by decide +kernel

theorem test_hyp_Atomics :
    (let b := longB 0x240 0 0 2 (gL 0) 0
     let f := [addrW 1 8]
     longOk 0x240 b f [.frame 2, .globalInd 0 0]
       ∧ operandChecks ((frameOf f b).env (thr f b)) 8 [useDst (.frame 2), ⟨.globalInd 0 0, false, true, true, anyTag⟩] = .ok [.frame 2, .mem (seg 1) 8]
       ∧ (frameOf f b).canRelease 7 (thr f b).sbuf
       ∧ ((((frameOf f b).commitFor 0 (stepped (thr f b)) (.tas 1)).gsWrite 1 (intW 1)).th? 0).isSome)
    ∧ (let b := longB 0x242 0 0 (gL 0) 1 0
       let f := [addrW 1 8, intW 5]
       longOk 0x242 b f [.globalInd 0 0, .frame 1]
         ∧ operandChecks ((frameOf f b).env (thr f b)) 8 [⟨.globalInd 0 0, false, false, true, anyTag⟩, useSrc (.frame 1) anyTag]
           = .ok [.mem (seg 1) 8, .frame 1]
         ∧ (((frameOf f b).commitFor 0 (stepped { thr f b with resv := some 1 }) (.scs 1)).th? 0).bind (·.resv) = some 1
         ∧ ((((frameOf f b).commitFor 0 (stepped { thr f b with resv := some 1 }) (.scs 1)).gsWrite 1 (intW 5)).th? 0).isSome
         ∧ ((((frameOf f b).commitFor 0 (stepped (thr f b)) (.scs 1)).th? 0).map (·.resv)) = some none) := by decide +kernel

/-- A READ of one block: F0 the handle, F1 the flags and count, F2 the block, F3 the address. -/
def handleW : TWord := ⟨tagHandle, BitVec.ofNat 64 (4 + 6 * 2 ^ 16)⟩

/-- The seven transfer commands with F0 the handle, F1 the address or code, F2 the count and the words after it; the kind of
the device each takes. -/
def transferForms : List (Nat × Nat × List TWord) :=
  [(0x600, 1, [handleW, addrW 3 0, countW 512, intW 5]), (0x601, 1, [handleW, addrW 3 0, countW 512, intW 5]),
   (0x602, 1, [handleW, intW 1, countW 0]), (0x603, 1, [handleW, addrW 3 0, countW 16]),
   (0x604, 1, [handleW, addrW 3 0, countW 0] ++ ⟨tagBytes, 0⟩ :: List.replicate 7 ⟨tagBytes, 0⟩),
   (0x605, 2, [handleW, addrW 3 0, countW 0, intW 6] ++ List.replicate 4 ⟨tagBytes, 0⟩),
   (0x606, 3, [handleW, addrW 3 0, countW 64, intW 0])]

/-- A transfer command of F0, F1 and F2 on a device of a kind. -/
def xferOn (kind : Nat) (t : Thread) : State :=
  { runs t with sub := { (runs t).sub with devs := [(6, { discRec.entry 0 0x300000000 with kind := kind })] } }

theorem test_hyp_TransferCommands :
    ((transferForms.zip (transferRows 0)).all fun x =>
      let b := longB x.1.1 0 0 0 1 2
      let t := thr x.1.2.2 b
      let s := xferOn x.1.2.1 t
      let w := words s t (op b) 0 1 2
      x.2.1 = x.1.1 && decide (Transfers s 0 t b (op b) x.2.1 0 1 2) && transferCheck s t w = 0 && !w.spn && !w.chd && s.link.mayIssue
        && s.turn 37 (s.progKey 7) 0 7 (s.clsOf 7) (.own 7) && (s.issueX 0 t w (w.elem (s.segsOf 1)) w.after).isSome) = true := by decide +kernel

theorem test_hyp_TransferCommands_turn (rix : Nat) : let s := xferOn 1 (thr [] (longB 0x600 0 0 0 1 2))
    s.turn 37 (s.progKey 7) rix 7 (s.clsOf 7) (.own 7) := by rfl

theorem test_hyp_TransferCommands_edges :
    ((transferForms.take 2).all fun x =>
      let f := x.2.2
      let b := longB x.1 1 0 0 1 2
      let t := thr f b
      let far := longB x.1 0 0 0 1 63
      let chd := longB x.1 0 1 0 1 2
      let spn := longB x.1 0 8 0 1 2
      let bad := thr (addrW 3 0 :: f.tail) (longB x.1 0 0 0 1 2)
      let go (b : BitVec 128) (n : Nat) : Bool := decide (LongOp (xferOn 1 (thr f b)) 0 (thr f b) b (op b) x.1 [.frame 0, .frame 1, .frame n])
      go b 2 && 2 + namedCount t ((xferOn 1 t).env t) (op b) 1 ≤ 63 && t.group.isEmpty && !dsCond (op b).cond t.ds
        && go far 63 && decide (63 < 63 + namedCount (thr f far) ((xferOn 1 (thr f far)).env (thr f far)) (op far) 1)
        && decide (Transfers (xferOn 1 bad) 0 bad (longB x.1 0 0 0 1 2) (op (longB x.1 0 0 0 1 2)) x.1 0 1 2)
        && transferCheck (xferOn 1 bad) bad (words (xferOn 1 bad) bad (op (longB x.1 0 0 0 1 2)) 0 1 2) = pcTag
        && (words (xferOn 1 (thr f chd)) (thr f chd) (op chd) 0 1 2).chd && go chd 2
        && transferCheck (xferOn 1 (thr f chd)) (thr f chd) (words (xferOn 1 (thr f chd)) (thr f chd) (op chd) 0 1 2) = 0
        && (words (xferOn 1 (thr f spn)) (thr f spn) (op spn) 0 1 2).spn && go spn 2 && !(thr f spn).spnOk
        && transferCheck (xferOn 1 (thr f spn)) (thr f spn) (words (xferOn 1 (thr f spn)) (thr f spn) (op spn) 0 1 2) = 0
        && !((xferOn 1 (thr f spn)).ctxOf 7).resreq && (xferOn 1 (thr f spn)).canRelease 7 (thr f spn).sbuf
        && (let b := longB x.1 0 0 0 1 2
            let t := storing (thr f b)
            !(hostBusy (xferOn 1 t)).canRelease 7 t.sbuf && decide (Transfers (hostBusy (xferOn 1 t)) 0 t b (op b) x.1 0 1 2))) = true := by decide +kernel

/-- A program that executes a transfer command with SPN while a RESUME is held. -/
def resumed (s : State) : State := s.modCtx 7 fun c => { c with resreq := true }

theorem test_hyp_TransferCommands_resumed :
    (transferForms.all fun x =>
      let b := longB x.1 0 8 0 1 2
      let t := thr x.2.2 b
      let s := resumed (xferOn x.2.1 t)
      let w := words s t (op b) 0 1 2
      let r := s.modCtx 7 fun c => { c with resreq := false }
      let chd := longB x.1 0 9 0 1 2
      decide (Transfers s 0 t b (op b) x.1 0 1 2) && transferCheck s t w = 0 && w.spn && !t.spnOk && (s.ctxOf 7).resreq && !w.chd
        && r.canRelease 7 t.sbuf && r.winsStore 7 && r.turn 37 (r.progKey 7) 0 7 (r.clsOf 7) (.own 7)
        && (r.issueX 0 { t with spnOk := true } w (w.elem (s.segsOf 1)) w.after).isSome
        && (x.1 ≠ 0x600 || (words s (thr x.2.2 chd) (op chd) 0 1 2).chd)) = true := by decide +kernel

theorem test_hyp_TransferCommands_sense : (xferOn 1 (thr [handleW, addrW 3 0, countW 16] (longB 0x603 0 0 0 1 2))).winsStore 7 := by decide +kernel

theorem test_hyp_ProgramChecks :
    (let b := longB 0x77F 0 0 0 0 0
     (op b).info = none ∧ (op b).customer = false ∧ (op b).privileged = false ∧ Bundle (frameOf [] b) 0 (thr [] b) b [op b])
    ∧ (op (longB 0x780 0 0 0 0 0)).privileged ∧ (op (longB 0x7BF 0 0 0 0 0)).privileged ∧ (op (longB 0x7C0 0 0 0 0 0)).privileged = false
    ∧ AMap.sorted (frameOf [] 0).sx.threads ∧ (frameOf [] 0).th? 0 = some (thr [] 0) ∧ ((frameOf [] 0).ctxOf (thr [] 0).sch).clrreq = false := by decide +kernel

theorem test_hyp_FirstBad : ∃ good rest, Bundle (frameOf [] (longB 0x77F 0 0 0 0 0)) 0 (thr [] (longB 0x77F 0 0 0 0 0)) (longB 0x77F 0 0 0 0 0)
    (good ++ op (longB 0x77F 0 0 0 0 0) :: rest) ∧ ∀ g ∈ good, ∃ o, (frameOf [] (longB 0x77F 0 0 0 0 0)).slot (thr [] (longB 0x77F 0 0 0 0 0))
      ((frameOf [] (longB 0x77F 0 0 0 0 0)).env (thr [] (longB 0x77F 0 0 0 0 0))) g = .ok o :=
  ⟨[], [], by decide, by simp⟩

/-! ## Threads -/

theorem test_hyp_ThreadsStartStopAndRestore :
    (let s := { fronted 0 { ctx7 with state := .startPending, dreq := true } with
       md := { up.md with reqs := [⟨0, false, 0, 0, 7, 0, .dispatch 7, true⟩], nextReq := 1 } }
     s.leastGranted 7 ∧ (s.ctxOf 7).state = .startPending ∧ s.poolFree 1 (s.ctxOf 7).cls ∧ s.threadFree 0 (s.ctxOf 7).cls
       ∧ s.sx.stopped.any (fun e => e.2.sch = 7) = false)
    ∧ (let t := thr [] 0
       let s := { frameOf [] 0 with sub := { (frameOf [] 0).sub with ctx := [(7, { ctx7 with state := .haltPending, haltreq := true })] } }
       s.th? 0 = some t ∧ s.stopping t.sch ∧ t.stopPoint ∧ s.engineUp 0)
    ∧ (let t := { thr [] 0 with since := 256 }
       (runs t).th? 0 = some t ∧ 256 ≤ t.since ∧ t.delay = false ∧ (runs t).engineUp 0 ∧ (runs t).canRelease t.sch t.sbuf)
    ∧ (let t := thr [] 0
       let s := { frameOf [] 0 with
         sx := { (frameOf [] 0).sx with threads := [], stopped := [(0, t)] },
         tally := { up.tally with spareUsed := 1, failed := [0] } }
       AMap.wf s.sub.ctx Ctx.zero ∧ AMap.get? s.sx.stopped 0 = some t ∧ s.mayRestore 0 256 t ∧ t.loads = []
         ∧ { s with sx := { s.sx with stopped := [(0, { t with loads := [⟨0, false, 2, 1, none, false, none, false⟩] })] } }.mayRestore 0 256
             { t with loads := [⟨0, false, 2, 1, none, false, none, false⟩] }) := by decide +kernel

theorem test_hyp_TextAndHostLoads :
    (let t := { thr [] 0 with lines := [] }
     let s := runs t
     s.th? 0 = some t ∧ s.runs 0 t ∧ fetchCheck (s.segsOf t.stb) t.ic = 0 ∧ s.bundle 0 t = none ∧ s.tagFree 0
       ∧ s.readTurn 0 t.sch (.text 0) ∧ s.link.reads.any (fun e => e.2 = .text 0 (lineAddr (s.segsOf t.stb) t.ic)) = false)
    ∧ (let t := { thr [] 0 with ic := 0x10000 }
       (runs t).runs 0 t ∧ t.cur = none ∧ fetchCheck ((runs t).segsOf t.stb) t.ic ≠ 0)
    ∧ (let t := { thr [] 0 with lines := [], loads := [⟨0, true, 2, 0x200000, none, false, none, false⟩] }
       let s := { runs t with link := { up.link with reads := [(0, .text 0 0x4000), (1, .load 0 0)] } }
       s.link.noIssue = [] ∧ s.link.ide.discarding = false ∧ AMap.get? s.link.reads 0 = some (.text 0 0x4000) ∧ s.th? 0 = some t ∧ ((s.segsOf t.stb).getD 0 Seg.none).pv = false
         ∧ AMap.get? s.link.reads 1 = some (.load 0 0)
         ∧ t.loads.find? (fun x => x.id = 0) = some ⟨0, true, 2, 0x200000, none, false, none, false⟩
         ∧ (BitVec.ofNat 128 (2 ^ 64 + 5)).extractLsb' 64 4 = tagInt) := by decide +kernel

/-! ## Resets of the function, IDE, responders, Meridian -/

theorem test_hyp_FunctionAndLinkResets : up.link.ep ≠ .held ∧ AMap.wf (fronted 0 ctx7).sub.ctx Ctx.zero ∧ up.link.d3 = false
    ∧ up.pw.released ∧ up.pw.trip = false ∧ up.pw.held = false
    ∧ (let s := sent 2 true (exch .sent)
       s.link.ep ≠ .held ∧ s.link.d3 = false ∧ (32768, exch .sent) ∈ s.dev.exch ∧ (exch .sent).abortToSend ∧ (exch .sent).owesAbort)
    ∧ (let e := { exch .aborting with abortDue := some 1050000 }
       (32768, e) ∈ (sent 2 true e).dev.exch ∧ e.owesAbort ∧ e.abortToSend = false ∧ e.sameSlots e) := by decide +kernel

/-- An exchange in a device's hands is aborted; its controller is reset, and set up again, only if it does not answer. -/
theorem test_flr_resets_silent : (let s := sent 2 true (exch .sent)
    (s.dropExchanges fun _ => true).out).take 2 = [.devAbort 32768, .ctrlReset 8 1 0]
    ∧ ((sent 2 true (exch .sent)).dropExchanges fun _ => false).out = [.devAbort 32768] := by decide +kernel

/-- A finished session 2 over DOE, and a stream whose keys are all active. -/
def keys : List IdeKey :=
  [SubStream.posted, .nonPosted, .completion].flatMap fun u => [true, false].map fun t => ⟨u, t, false, 0, true⟩
def keyed : State := { up with link := { up.link with
  ide := ⟨true, keys, [], false⟩, sessions := [⟨2, .doe, true, 0⟩, ⟨3, .doe, false, 0⟩],
  spdmDoe := ⟨true, true, true⟩ } }

theorem test_hyp_LinkIde : keyed.secureSession 2 = some ⟨2, .doe, true, 0⟩ ∧ keyed.link.ide.complete
    ∧ ({ keyed with link := { keyed.link with bme := false } } : State).link.bme = false ∧ up.link.ide.complete = false
    ∧ keyed.link.ide.secure ∧ keyed.link.ide.keys.any (fun k => k.sub = .posted && k.k1 = false && k.active)
    ∧ keyed.pl.alm.queue.length < 256 := by decide +kernel

theorem test_hyp_Responders :
    keyed.spdmUp ∧ (keyed.conn .doe).version ∧ (keyed.conn .mctp).version = false ∧ (keyed.conn .doe).caps ∧ (keyed.conn .doe).algs
    ∧ keyed.certChain 1 = none ∧ keyed.link.sessions.any (fun x => x.id = 0) = false ∧ keyed.link.sessions.length < 4
    ∧ 4 ≤ ({ keyed with link := { keyed.link with sessions := [⟨0, .doe, true, 0⟩, ⟨1, .doe, true, 0⟩, ⟨2, .doe, true, 0⟩, ⟨3, .doe, true, 0⟩] } } : State).link.sessions.length
    ∧ keyed.session .doe 3 false ∧ keyed.session .doe 2 true ∧ (1 : Nat) ≠ 0x40 := by decide +kernel

theorem test_hyp_Responders_chain : keyed.certChain 0 = some Config.chain0 ∧ keyed.measurement 1 = some Config.romDigest := ⟨rfl, rfl⟩

theorem test_hyp_MeridianEvents :
    (let r : Req := ⟨0, false, 5, 3, 7, 0, .dispatch 7, false⟩
     let q : Req := ⟨0, false, 6, 3, 8, 1, .dispatch 8, false⟩
     let s := { fronted 0 { ctx7 with state := .startPending, deadline := 5 } with
       md := { up.md with reqs := [q, r], nextReq := 2, drained := false }
       sub := { (fronted 0 { ctx7 with state := .startPending, deadline := 5 }).sub with prog := [(7, { Prog.zero with sq := 2 })] } }
     s.nextGrant 0 = some r ∧ (∀ q ∈ s.md.reqs, (q.dl - 0).toNat < 2 ^ 47) ∧ s.md.drained = false ∧ s.md.holding = false
       ∧ (s.ctxOf 7).cls ≤ 5 ∧ s.dispatchQueue.contains 7 ∧ (s.progOf 7).missed = false ∧ reached s.time (s.ctxOf 7).deadline)
    ∧ ({ up.md with frzEng := true } : Meridian).frozen 0
    ∧ (let t := { thr [] 0 with budget := 0 }
       let s := { runs t with md := { up.md with sched := { up.md.sched with cls := List.replicate 7 ⟨8, 0, 0, 0, 0, 0, 0, 0, 0, 0⟩ } } }
       AMap.has s.sub.prog 7 ∧ (s.progOf 7).demoted = false ∧ s.clsOf 7 < 7 ∧ (s.progOf 7).cost * 8 < s.issued 7 * 5)
    ∧ (let t := { thr [] 0 with budget := 2000000 }
       (runs t).issued 7 * 5 ≤ ((runs t).progOf 7).cost * 8)
    ∧ (let s := { up with md := { up.md with retests := [1] } }
       1 ∈ s.md.retests ∧ s.md.commit = none ∧ s.md.passed = false ∧ s.testCapacity s.md.sched s.demands = none ∧ s.md.degraded = false)
    ∧ (let s := withQ { sq with deadline := 2000 } cq up
       (s.testCapacity s.md.sched s.demands).isSome)
    ∧ (let r : Req := ⟨11, false, 0, 0, 7, 0, .exch 7, false⟩
       let s := { sending false with md := { up.md with reqs := [r], nextReq := 1 } }
       r ∈ s.md.reqs ∧ r.res ≠ 1 ∧ s.servable r ∧ s.md.frozen 11 = false ∧ (∀ x ∈ s.md.reqs, x.res = 11 → x.granted = false)
         ∧ (∀ x ∈ s.md.reqs, x.res = 11 → x.who.selfServed = false)
         ∧ s.nextGrant 11 = some r)
    ∧ (let r : Req := ⟨11, false, 0, 0, 7, 0, .exch 7, true⟩
       let q : Req := ⟨11, false, 0, 1, 8, 1, .exch 8, false⟩
       let s := { sending false with md := { up.md with reqs := [r, q], nextReq := 2 } }
       r ∈ s.md.reqs ∧ r.res = 11 ∧ r.granted ∧ r.res ≠ 0 ∧ s.nextGrant 11 = none) := by decide +kernel

/-! ## Ports, discovery, the Tally, recovery -/

/-- Quad 8 in a mode with one port record in place of its four. -/
def ports (mode : Nat) (p : Port) : State :=
  { up with dev := { up.dev with quads := modAt up.dev.quads 8 fun _ =>
    { quadIn mode with cfg := { (quadIn mode).cfg with flags := 0x3F, rateCap := 4, pwrDelay := 100 }, ports := List.replicate 4 p, sgpioDue := some 1000000 } } }
def due : Option Time := some 1000000

theorem test_hyp_PortPowerAndSideband :
    (let s := ports 2 Port.reset
     s.hasPort 8 1 ∧ (s.portOf 8 1).present = false ∧ (s.portOf 8 1).debounce = none ∧ s.refOk 8 ∧ s.quadTimer 8 1000000 ∧ s.pw.sbLow = false
       ∧ s.pw.extest = false ∧ isPcie (s.quadOf 8).cfg.mode ∧ (s.quadOf 8).sgpioDue = due ∧ (s.quadOf 8).cfg.flags.getLsbD 3 ∧ (s.quadOf 8).sgpioF = false
       ∧ (s.quadOf 8).i2cF.getLsbD 1 = false ∧ (s.quadOf 8).nolinkF.getLsbD 1 = false
       ∧ ((s.modQuad 8 fun q => { q with i2cF := 2, nolinkF := 2 }).quadOf 8).i2cF.getLsbD 1
       ∧ ((s.modQuad 8 fun q => { q with i2cF := 2, nolinkF := 2 }).quadOf 8).nolinkF.getLsbD 1)
    ∧ (let s := ports 2 { Port.reset with pollDue := due, pwren := true }
       (s.portOf 8 1).pollDue = due ∧ (s.portOf 8 1).pwren ∧ (s.portOf 8 1).i2cOpen = false)
    ∧ ((ports 2 { Port.reset with debounce := due }).portOf 8 1).debounce = due
    ∧ ((ports 2 { Port.reset with debounce := due }).portOf 8 1).st ≠ 2
    ∧ ((ports 2 { Port.reset with powerDue := due }).portOf 8 1).powerDue = due
    ∧ (let s := ports 2 { Port.reset with present := true }
       s.hasPort 8 1 ∧ (s.portOf 8 1).present ∧ (s.portOf 8 1).st ≠ 2 ∧ (∀ g ∈ s.dev.ghosts, g.2.quad ≠ 8 ∨ g.2.port ≠ 1))
    ∧ ((ports 2 { Port.reset with offDue := due }).portOf 8 1).offDue = due
    ∧ (let s := ports 2 { Port.reset with retryDue := due, st := 1, pwren := true }
       (s.portOf 8 1).retryDue = due ∧ (s.portOf 8 1).st = 1 ∧ (s.portOf 8 1).pwren)
    ∧ ((ports 2 { Port.reset with debounce := some 1000001, offDue := some 1000001 }).portOf 8 1).debounce = some 1000001
    ∧ reached up.time 1000001 = false := by decide +kernel

theorem test_hyp_PortLinksAndLanes :
    (let s := ports 2 { Port.reset with st := 1 }
     (s.portOf 8 1).st = 1 ∧ s.refOk 8 ∧ rateOk (s.quadOf 8).cfg 4 ∧ (linkLanes (s.quadOf 8).cfg.mode 1 [⟨2, 0⟩, ⟨3, 0⟩]).1 = [2, 3]
       ∧ (s.quadOf 8).cfg.shared 6 = 4 ∧ isPcie (s.quadOf 8).cfg.mode ∧ 1 < (modeLanes (s.quadOf 8).cfg.mode 1).length
       ∧ portOfLane (s.quadOf 8).cfg.mode 2 = some 1 ∧ (s.portOf 8 1).st ≠ 2)
    ∧ (let s := ports 2 { Port.reset with st := 2, ctrls := [⟨0, 1, 1⟩] }
       s.rootUp 8 1 ∧ (s.portOf 8 1).ctrls ≠ [])
    ∧ (let s := ports 2 { Port.reset with st := 2, pm := true }
       s.portUp 8 1 ∧ (s.portOf 8 1).pm ∧ reached s.time (addNs (s.portOf 8 1).used 100000))
    ∧ (ports 4 { Port.reset with st := 2 }).portUp 8 1 ∧ isSas ((ports 4 Port.reset).quadOf 8).cfg.mode := by decide +kernel

def found : Finding := ⟨.nvmeNs true 0 false, 0, false, 0x77, [], 1000, 512, 0, 0, 0, [], [], 4, 0, 0⟩

/-- The worked example of R512: quad 21's balls AU18, BB17, BH17 and AA46, and host lane 11's AE8. -/
theorem test_balls :
    [rowName 35, rowName 40, rowName 46, rowName 20, rowName 24] = [['A', 'U'], ['B', 'B'], ['B', 'H'], ['A', 'A'], ['A', 'E']]
    ∧ ballSignal 35 18 = some (.pqRx 21 2 true) ∧ ballSignal 40 17 = some (.pqTx 21 2 false) ∧ ballSignal 46 17 = some (.scl 21 3)
    ∧ ballSignal 20 46 = some (.flow 10) ∧ ballSignal 24 8 = some (.hlTx 11 false) := by decide

/-- The totals of R517, 78.0 W and 112.0 W. -/
theorem test_rail_power :
    ((rails.map fun r => (Rail.power r).1).sum, (rails.map fun r => (Rail.power r).2).sum) = (78000, 112000) := by decide

/-- R370: one identifier in two subsystems is two devices. R377: another device on a path leaves it DOWN with UID-CHANGED. -/
theorem test_identity :
    Finding.isOf { found with nqn := [1] } 8 1 (quadIn 2).cfg discRec = false ∧ Finding.isOf found 8 1 (quadIn 2).cfg discRec = true
    ∧ (DiscRec.missed discRec 8 1 (quadIn 2).cfg [{ found with uid := 0x78 }]).paths = [⟨8, 1, false, false, 0, 4, 0, .uidChanged⟩] := by decide

theorem test_hyp_DiscoveryAndQuadResets :
    (let s := ports 2 { Port.reset with st := 2, rerun := true }
     s.pw.supUp ∧ s.hasPort 8 1 ∧ (s.portOf 8 1).rerun ∧ (s.portOf 8 1).running = false ∧ (s.quadOf 8).resetReq = false)
    ∧ (let s := ports 2 { Port.reset with st := 2, running := true }
       (s.portOf 8 1).running ∧ (s.quadOf 8).resetReq = false ∧ s.idsWaiting 8 1 = false ∧ s.dev.disc = [] ∧ found.uid ≠ 0 ∧ (s.portOf 8 1).st = 2
         ∧ found.what.fits (s.quadOf 8).cfg.mode)
    ∧ Serves (ports 2 Port.reset) ∧ ((ports 2 Port.reset).quadOf 8).cfg.mode ≠ 0
    ∧ (let s := { ports 2 Port.reset with dev := { up.dev with quads := modAt up.dev.quads 8 fun _ => { quadIn 2 with resetReq := true } } }
       (s.quadOf 8).resetReq ∧ s.md.reqs.any (fun r => r.res = 3 + 8 && r.granted) = false
         ∧ ({ s with md := { s.md with reqs := [⟨11, false, 0, 0, 7, 0, .exch 7, true⟩] } } : State).md.reqs.any (fun r => r.res = 3 + 8 && r.granted)) := by decide +kernel

/-- The Tally with one line whose count is off by one. -/
def off (l : Nat) (mism : Bool) : State :=
  { up with tally := { up.tally with lines := modAt up.tally.lines l fun x => { x with issued := 1, mism := mism } } }

theorem test_hyp_TallyChecks :
    (∀ l, l < 4 → up.lineDiff l = 0) ∧ up.tally.lines.length = 4
    ∧ (∀ l, l < 4 → ((off l false).lineOf l).mism = false ∧ (off l false).lineDiff l ≠ 0 ∧ ((off l true).lineOf l).mism
      ∧ ∀ k, k < 4 → k ≠ l → (off l false).lineDiff k = 0 ∧ (off l true).lineDiff k = 0)
    ∧ up.pw.hrefOk
    ∧ (let s := { up with tally := { up.tally with audits := [1], lines := modAt up.tally.lines 1 fun x => { x with skew := 5 } } }
       1 ∈ s.tally.audits ∧ s.pw.supUp ∧ (s.lineOf 1).skew ≠ 0
         ∧ (s.lineOf 1).issued - (s.lineOf 1).returned = BitVec.ofNat 64 (s.walk 1))
    ∧ (let s := { up with tally := { up.tally with audits := [1], lines := modAt up.tally.lines 1 fun x => { x with issued := 5 } } }
       1 ∈ s.tally.audits ∧ (s.lineOf 1).skew = 0 ∧ 0 < ((s.lineOf 1).issued - (s.lineOf 1).returned - BitVec.ofNat 64 (s.walk 1)).toInt)
    ∧ Serves up := by decide +kernel

theorem test_hyp_Recoveries :
    AMap.sorted (frameOf [] 0).sx.threads ∧ (frameOf [] 0).engineLive 0 0 ∧ (frameOf [] 0).readyLong 0 ∧ up.pw.hrefOk ∧ State.reset.pw.hrefOk = false
    ∧ (frameOf [] 0).sx.threads.any (fun x => thCluster x.1 = 0 && thEngine x.1 = 0 && (frameOf [] 0).couldIssue x.1 x.2)
    ∧ (let s := { frameOf [] 0 with sx := { (frameOf [] 0).sx with lastIssue := [(0, 996000)] } }
       s.engineLive 0 0 ∧ (AMap.get? s.sx.lastIssue (0 * 9 + 0)).all fun t => reached s.time (addNs t 4000))
    ∧ up.tally.spareUsed.getLsbD 0 = false
    ∧ (let s := { frameOf [] 0 with tally := { up.tally with spareUsed := 1 }, sx := { (frameOf [] 0).sx with threads := [(256, thr [] 0)] } }
       s.tally.spareUsed.getLsbD 0 ∧ s.engineLive 0 8
         ∧ s.sx.threads.any (fun x => thCluster x.1 = 0 && thEngine x.1 = 8 && s.readyLong x.1 && s.couldIssue x.1 x.2))
    ∧ up.tally.fenced.getLsbD 15 = false ∧ (up.cluOf 15).st = .run
    ∧ (let s := { up with tally := { up.tally with fenced := 0x8000 } }
       s.tally.fenced.getLsbD 15 ∧ s.sx.stopped.any (fun x => thCluster x.1 = 15) = false ∧ s.pw.supUp
         ∧ s.tally.fencedBefore.getLsbD 15 = false)
    ∧ up.pl.started := by decide +kernel

/-! ## Plinth, mailboxes, interrupts -/

/-- A request word of the host waits for Plinth. -/
def waiting (w : Word) (s : State) : State :=
  { s with mail := { s.mail with boxes := modAt s.mail.boxes 2 fun _ => ⟨w, true, 0, false⟩ } }
def zeros : List Byte := List.replicate 2048 0

theorem getD_padded (b : List Byte) (n i : Nat) : (b ++ List.replicate n 0).getD i 0 = b.getD i 0 := by
  simp only [List.getD_eq_getElem?_getD, List.getElem?_append, List.getElem?_replicate]
  split
  · rfl
  · rw [List.getElem?_eq_none (by omega)]; split <;> rfl

/-- Zeros behind a block change none of its checks. -/
theorem blockOk_padded (b : List Byte) (n : Nat) (u : List (Nat × Nat)) : blockOk (b ++ List.replicate n 0) u = blockOk b u := by
  unfold blockOk; congr 1; funext i; rw [getD_padded]

theorem blockOk_zeros (u : List (Nat × Nat)) (h : blockOk [] u = true) : blockOk zeros u = true :=
  (blockOk_padded [] 2048 u).trans h

theorem test_hyp_PlinthRequests_blocks :
    blockOk zeros [(0, 1), (4, 4), (8, 48), (56, 1), (64, 96)] ∧ blockOk zeros [(0, 32)] ∧ blockOk zeros []
    ∧ blockOk zeros [(0, 1), (8, 8), (16, 4), (32, 96)] :=
  ⟨blockOk_zeros _ (by decide +kernel), blockOk_zeros _ (by decide +kernel), blockOk_zeros _ (by decide +kernel), blockOk_zeros _ (by decide +kernel)⟩

/-- A booted copy without a customer key, under lock flags. -/
def img (flags : BitVec 16) : ImgFacts := ⟨1, 0, 0, false, [], [1], [], 0, flags, [], [], [], false⟩
def imaged (s : State) : State := { s with pl := { s.pl with img := some (img 0) } }

/-- The read of a block that the host answers with a status. -/
def readBlock (st : CplStatus) (b : List Byte) : State × Option (List Byte) :=
  ((imaged up).mbServe .hostPln).blockRead 0x10 ⟨st, [], .sound, b⟩

theorem test_hyp_PlinthRequests_reads :
    zeros.length = 2048 ∧ (readBlock .ok zeros).2 = some zeros ∧ (readBlock .ur zeros).2 = none ∧ CplStatus.ur ≠ .ok
    ∧ reqOp 0x10 = 0x10 ∧ reqOp 0x03 = 0x03 ∧ reqOp 0x11 = 0x11 ∧ reqOp 0x20 = 0x20
    ∧ (imaged up).updateKey.isSome ∧ (readBlock .ok zeros).1.out.length = 4 := by decide +kernel

theorem test_hyp_PlinthRequests :
    (waiting 0x01 up).plnWaits = some 0x01 ∧ (waiting 0x01 up).ownReady true 0
    ∧ (let s := { waiting 0x01 up with link := { up.link with bme := false }, pl := { up.pl with readDue := some (1, 1000000) } }
       s.plnWaits = some 0x01 ∧ s.ownReady true 0 = false ∧ s.pl.readDue = some (1, 1000000) ∧ reached s.time 1000000)
    ∧ reqOp 0x01 = 0x01
    ∧ ({ up with pl := { up.pl with extLock := true } } : State).pl.extLock ∧ up.pl.extLock = false
    ∧ (rd zeros 0 1 < 16 ∧ rd zeros 56 1 ≤ 96)
    ∧ reqOp 0x02 = 0x02 ∧ reqAddr 0x02 = 0 ∧ knownOp (reqOp 0x7F) = false
    ∧ ({ up with pl := { up.pl with job := some ⟨true, 1, 0, 1, 0⟩ } } : State).pl.job.isSome
    ∧ up.pl.job = none ∧ up.pl.tamperLock = false ∧ (imaged up).updateKey = some [1] ∧ rd zeros 0 1 ≤ 1 ∧ rd zeros 8 8 % 4096 = 0 ∧ rd zeros 16 4 ≤ 16777216
    ∧ (({ imaged up with pl := { (imaged up).pl with nonce := some 5 } } : State).ownRead 0 (BitVec.ofNat 64 (rd zeros 8 8)) none (rd zeros 16 4) ⟨.ok, [], .sound, []⟩).2 = some []
    ∧ ({ up with pl := { up.pl with nonce := some 5 } } : State).pl.nonce = some 5
    ∧ (imaged up).updRefuse [1] 5 0 (slice zeros 32 96) [] = some (9, 1)
    ∧ up.link.ep ≠ .recovery ∧ up.sx.fixed = false ∧ ((waiting 0x01 up).box .hostPln).full := by decide +kernel

/-- A decode body of no entries. -/
def noEntries : List Byte := [1, 0, 0, 0, 0, 0, 0, 0, 0, 0, 0, 0, 0, 0, 0, 0]
def lenBlock : List Byte := (List.replicate 16 0 ++ [16]) ++ List.replicate 2031 0

/-- Signatures are uninterpreted (log 7): the body passes in an interpretation in which they verify. -/
theorem test_hyp_PlinthRequests_decode (h : ∀ k d g, Config.verify k d g = true) :
    decodeOk noEntries ∧ ((readBlock .ok lenBlock).1.ownRead 0 (BitVec.ofNat 64 (rd lenBlock 8 8)) none (rd lenBlock 16 4) ⟨.ok, [], .sound, noEntries⟩).2 = some noEntries
    ∧ rd lenBlock 8 8 % 64 = 0 ∧ decodeOk (fit 16 []) = false
    ∧ up.decodeSigned noEntries [] [] = false ∧ blockOk lenBlock [(8, 8), (16, 4), (32, 96), (128, 96)]
    ∧ (imaged up).decodeSigned noEntries (slice lenBlock 32 96) (slice lenBlock 128 96) :=
  ⟨by decide +kernel, by decide +kernel, by decide +kernel, by decide +kernel, rfl, (blockOk_padded _ _ _).trans (by decide +kernel), by
    have z : allZero (slice lenBlock 128 96) = true := by decide +kernel
    simp only [imaged, img, State.decodeSigned, h, z]; rfl⟩

theorem test_hyp_PlinthEvents :
    ({ up with pl := { up.pl with job := some ⟨true, 1, 0, 1, 0⟩ } } : State).pl.job = some ⟨true, 1, 0, 1, 0⟩
    ∧ (let s := { up with sx := { up.sx with load := some ⟨[], noEntries, 1000000⟩ }, pl := { up.pl with req := some 0x20 } }
       s.sx.load = some ⟨[], noEntries, 1000000⟩ ∧ s.pl.req = some 0x20 ∧ (s.box .plnHost).full = false ∧ s.bankRetired)
    ∧ (let t := { thr [] 0 with gen := 0 }
       (runs t).bankRetired = false ∧ reached (runs t).time 1000000)
    ∧ up.pl.started ∧ up.pl.tamperLow = false ∧ up.pw.aon ∧ up.tamperAction = 0
    ∧ ({ up with pl := { up.pl with img := some (img 4) } } : State).tamperAction ≠ 0
    ∧ ({ up with pl := { up.pl with tamperLow := true } } : State).pl.tamperLow := by decide +kernel

def booting : State := { up with pw := { up.pw with bootDue := true } }

theorem test_hyp_BootAndAlmanac :
    booting.bootReady ∧ booting.pw.hrefOk ∧ imgCheck none ≠ 0
    ∧ flashCopy ⟨true, 512⟩ (some [1]) = some [1] ∧ flashCopy ⟨true, 256⟩ (some [1]) = none ∧ up.bootReady = false
    ∧ (let s := { up with pl := { up.pl with alm := { up.pl.alm with queue := [⟨1, 0, fit 180 [], 0, [4]⟩] } } }
       s.pl.started ∧ s.pw.released ∧ s.pl.alm.queue = ⟨1, 0, fit 180 [], 0, [4]⟩ :: [] ∧ (([] : List AlmReq) ++ s.pl.alm.hold.take 1).length ≠ 128
         ∧ s.pl.alm.next ≠ 4095)
    ∧ up.pl.alm.next < 4096 ∧ 4096 ≤ ({ up.pl.alm with next := 4096 } : Almanac).next := by decide +kernel

theorem test_hyp_Mailboxes :
    up.mail.boxes.length = 38 ∧ up.mail.senders.length = 38 ∧ chOfHost .hostSup ∧ Serves up ∧ chOfHost (.cluSup 15) = false
    ∧ up.senderUp (.cluSup 15) ∧ chOfHost .supHost = false ∧ up.senderUp .supHost ∧ soundNotice 3 0x500000003 ∧ soundNotice 4 0x500000003 = false
    ∧ Chan.hostPln ≠ .hostSup ∧ (waiting 5 up).receiverUp .hostSup ∧ (up.box (.cluSup 15)).full = false ∧ ((waiting 5 up).box .hostPln).full
    ∧ Chan.hostPln ≠ .supHost ∧ (waiting 5 up).receiverUp .hostPln ∧ (up.box .plnHost).full = false
    ∧ (let s := { up with mail := { up.mail with boxes := modAt up.mail.boxes 1 fun _ => ⟨7, true, 0, false⟩ } }
       (s.box .supHost).full)
    ∧ (let s := { up with mail := { up.mail with boxes := modAt up.mail.boxes 0 fun _ => ⟨0x500000001, true, 0, false⟩ } }
       (s.box .hostSup).full ∧ s.pw.supUp ∧ bits (s.box .hostSup).word.toNat 0 32 = 1)
    ∧ (let s := { up with mail := { up.mail with boxes := modAt up.mail.boxes 0 fun _ => ⟨0x101, true, 0, false⟩ } }
       (s.box .hostSup).full ∧ bits (s.box .hostSup).word.toNat 0 32 ≠ 1) := by decide +kernel

/-- Source 200 of priority 3 is pending and unmasked. -/
def ic200 : Ic := { Ic.reset with pend := 1#256 <<< 200, mask := 0, prio := 3#1024 <<< 800 }

theorem test_hyp_InterruptControllers :
    ic200.best = some 200 ∧ Ic.reset.best = none ∧ (up.icUp .sup ∧ up.icUp .pln) ∧ (({ up with ic := ic200 } : State).icOf .sup).best = some 200
    ∧ ({ Ic.reset with stack := [16], run := 3 } : Ic).stack = 16 :: [] ∧ Ic.reset.stack = [] ∧ (up.icOf .sup).cnt.length = 256 := by decide +kernel

theorem test_ack_word : (up.icOf .sup).ackWord = 0x1FF ∧ ic200.ackWord = BitVec.ofNat 64 (200 + 3 * 2 ^ 9) := by decide +kernel

/-! ## Nightwatch, power, the whole machine -/

def timed : State := { up with pw := { up.pw with timers := [(63, 1000000)], wdogDue := some 1000000 } }
def drowsy (st : CluSt) (awake waking : Bool) : State := { up with pw := { up.pw with clusters := List.replicate 16 ⟨st, awake, waking, st ≠ .sleep, st ≠ .sleep, []⟩ } }

theorem test_hyp_Nightwatch :
    up.pw.supUp ∧ AMap.get? timed.pw.timers 63 = some 1000000 ∧ timed.supTimer 63 1000000 ∧ reached timed.time 1000000 ∧ timed.pw.wdogDue = some 1000000
    ∧ reached up.time 1000001 = false
    ∧ (15 < up.pw.clusters.length ∧ up.cluIdle 15 ∧ (up.cluOf 15).waking = false ∧ up.tally.fenced.getLsbD 15 = false ∧ (up.cluOf 15).awake
      ∧ (up.cluOf 15).st = .run)
    ∧ (((drowsy .nap true false).cluOf 15).awake ∧ ((drowsy .nap true false).cluOf 15).st ≠ .run)
    ∧ (((drowsy .run false false).cluOf 15).awake = false ∧ ((drowsy .run false false).cluOf 15).st = .run)
    ∧ (let s := { drowsy .sleep false false with md := { up.md with reqs := [⟨0, false, 0, 3, 7, 0, .dispatch 7, false⟩] } }
       s.noThreadFree ∧ s.wakeNext = some 0 ∧ s.dispatchQueue ≠ []
         ∧ countBelow 16 (fun i => (s.cluOf i).waking && !(s.cluOf i).awake) = 0 ∧ 0 < s.pw.clusters.length)
    ∧ ((drowsy .sleep false true).cluOf 15).waking ∧ (drowsy .sleep false true).pw.raising = false ∧ ((drowsy .sleep false true).cluOf 15).st = .sleep
    ∧ ((drowsy .doze false true).cluOf 15).waking ∧ ((drowsy .doze false true).cluOf 15).st = .doze
    ∧ ({ up.pw with vcoreTry := some 755 } : Power).raising ∧ Serves up
    ∧ (up.pw.vcoreTry = none ∧ reached up.time up.pw.vcoreDue ∧ up.pw.vcore + 5 ≤ 800 ∧ 700 ≤ up.pw.vcore + 5 ∧ 705 ≤ up.pw.vcore
      ∧ up.pw.vcore ≤ 805)
    ∧ ({ up.pw with vcore := 800 } : Power).vcore = 800 ∧ ({ up.pw with vcoreTry := some 755 } : Power).vcoreTry = some 755 := by decide +kernel

theorem test_hyp_PowerClocksAndResets :
    (up.pw.perstLow = false ∧ up.pw.hrefOk ∧ up.pw.pwrok ∧ Rail.vcore ∉ up.pw.railsBad ∧ Rail.vcore ≠ .vsb33 ∧ Rail.vsb33 ∉ up.pw.railsBad)
    ∧ (up.pw.railsBad = [] ∧ up.pw.sbLow = false ∧ ∃ q ∈ (ports 2 Port.reset).dev.quads, q.cfg.mode ≠ 0)
    ∧ up.pw.coreLock ∧ up.pw.extest = false ∧ up.pw.released ∧ up.pw.trip = false
    ∧ up.pw.held = false ∧ State.reset.pw.perstLow ∧ State.reset.pw.hrefOk = false
    ∧ (let s := { State.reset with pw := { State.reset.pw with xtalOk := true } }
       s.pw.pwrok = false ∧ s.pw.aon ∧ s.pw.released = false ∧ s.pw.xtalOk ∧ s.pw.railsBad = [])
    ∧ ({ up.pw with railsBad := [Rail.vpq] } : Power).railsBad = [.vpq]
    ∧ ({ up.pw with aon := false } : Power).aon = false ∧ up.pw.railsBad = []
    ∧ (∀ half : Bool, up.prefOk half ∧ State.reset.prefOk half = false)
    ∧ (∀ q, q < 32 → ∀ p, p < 4 → (up.portOf q p).st ≠ 1 ∧ (up.portOf q p).st ≠ 2)
    ∧ up.pw.xtalOk ∧ State.reset.pw.xtalOk = false ∧ up.pw.aon
    ∧ ({ up.pw with xtalOk := false } : Power).xtalOk = false := by decide +kernel

theorem test_hyp_DeviceTimeRunsOn : up.pw.released ∧ up.pw.aon ∧ ¬alwaysOnEvent .flr :=
  ⟨by decide, by decide, fun ⟨_, _, _, h⟩ => by rcases h with h | h <;> cases h⟩

theorem test_hyp_IdleStep : up.pending = [] ∧ State.reset.pw.released = false := by decide +kernel

theorem test_reset_values : State.reset.q.sqs = [] ∧ (State.reset.ctxOf 1048575).state = .disabled
    ∧ State.reset.mail.sup.bell.mask = 0xFFFFFFFF ∧ State.reset.ic.run = 16 ∧ State.reset.ic.mask = BitVec.allOnes 256 := by decide +kernel

/-! ## An image that passes, in an interpretation in which signatures verify (log 7) -/

/-- A one-section image: OBULO at 1,152, 16 bytes. -/
def image : List Byte :=
  [0x54, 0x48, 0x41, 0x5A, 1, 0, 1, 0, 0, 6, 0, 0, 1, 0, 0, 0, 1] ++ List.replicate 111 0
    ++ [1, 0, 0, 0, 0x80, 4, 0, 0, 16] ++ List.replicate 1399 0

theorem test_image_shape : image.length = 1536 ∧ imgFormat image ∧ imgLenOk image ∧ imgLen image = 1536
    ∧ imgVersion image = 1 ∧ imgMinver image = 1 ∧ imgTable image ∧ imgNsect image = 1 ∧ secDigest image 0 = 0 ∧ imgKeyid image = 0
    ∧ imgCosign image = false ∧ allZero (slice image (imgLen image - 96) 96) ∧ allZero (imgCustkey image) := by decide +kernel

theorem imgCheck_passes (d : List Byte) (hs : ∀ b, Config.sha384 b = 0) (hv : ∀ k d g, Config.verify k d g = true)
    (h1 : (d.length < 1152) = False) (h2 : imgFormat d = true) (h3 : imgLenOk d = true) (h4 : (d.length < imgLen d) = False)
    (h5 : (imgVersion d < imgMinver d) = False) (h6 : imgTable d = true) (h7 : imgNsect d = 1) (h8 : secDigest d 0 = 0)
    (h9 : imgKeyid d = 0) (h10 : imgCosign d = false) (h11 : allZero (slice d (imgLen d - 96) 96) = true)
    (h12 : allZero (imgCustkey d) = true) : imgCheck (some d) = 0 := by
  simp [imgCheck, h1, h2, h3, h4, h5, h6, h7, h8, h9, h10, h11, h12, hs, hv]

theorem test_hyp_image_passes (hs : ∀ b, Config.sha384 b = 0) (hv : ∀ k d g, Config.verify k d g = true) :
    imgCheck (some image) = 0 := by
  obtain ⟨h1, h2, h3, h4, h5, h6, h7, h8, h9, h10, h11, h12, h13⟩ := test_image_shape
  exact imgCheck_passes image hs hv (by rw [h1]; exact eq_false (by omega)) h2 h3 (by rw [h1, h4]; exact eq_false (by omega))
    (by rw [h5, h6]; exact eq_false (by omega)) h7 h8 h9 h10 h11 h12 h13

/-- R427: an entry of lane 4 with preset 7, swing 3, peaking 9 and DFE; preset 11 is no PCIe preset, but a SAS coefficient set. -/
theorem test_lane_tune :
    readTunes [1, 2] (fit 24 [1, 0, 1, 0, 0, 0, 0, 0, 0, 0, 0, 0, 0, 0, 0, 0, 4, 7, 3, 9, 1]) = [(4, ⟨7, 3, 9, true⟩)]
    ∧ readTune [1, 2] (fit 8 [4, 11, 3, 9, 1]) = none ∧ readTune [1, 4] (fit 8 [4, 11, 3, 9, 1]) = some (4, ⟨11, 3, 9, true⟩) := by decide

end Sys2Proof.Tests
end

/-! # Device time runs on (R24)

Every row of the table completes, and leaves device time and the queue of the waiting commands as they are: the rows of an
always-on rail aside, and those that make the power-on release, while it has not been made. A name that ends in `_keeps` speaks of
these two fields of the state. -/

namespace Sys2Proof.Machine

/-- A row answers a next state in which device time and the queue of the waiting commands are those of `s`. -/
def KeepsTimeAndQueue (s : State) (r : Res) : Prop := ∃ t, r = .next t ∧ t.time = s.time ∧ t.pending = s.pending

@[simp] theorem keepsTimeAndQueue_next (s t : State) :
    KeepsTimeAndQueue s (.next t) ↔ t.time = s.time ∧ t.pending = s.pending := by
  simp [KeepsTimeAndQueue]

/-! ## Gates: what stands before a row's own effect -/

section
variable {s t : State} (h : t.time = s.time ∧ t.pending = s.pending)
include h

@[simp] theorem State.bar2_keeps (q : Nat) (push : Bool) :
    (s.bar2 q push t).time = s.time ∧ (s.bar2 q push t).pending = s.pending := by
  unfold State.bar2
  (repeat' split) <;> simp [h]

@[simp] theorem State.bar0Read_keeps (off size : Nat) :
    (s.bar0Read off size t).time = s.time ∧ (s.bar0Read off size t).pending = s.pending := by
  unfold State.bar0Read
  (repeat' split) <;> simp [h]

@[simp] theorem State.bar0Write_keeps (size : Nat) (allBytes : Bool) :
    (s.bar0Write size allBytes t).time = s.time ∧ (s.bar0Write size allBytes t).pending = s.pending := by
  unfold State.bar0Write
  (repeat' split) <;> simp [h]

@[simp] theorem State.config_keeps : (s.config t).time = s.time ∧ (s.config t).pending = s.pending := by
  unfold State.config
  (repeat' split) <;> simp [h]

end

theorem State.spdmServe_keeps (s : State) (tr : Transport) (ready : Bool) {t : State → State}
    (h : ∀ u, (t u).time = u.time ∧ (t u).pending = u.pending) :
    (s.spdmServe tr ready t).time = s.time ∧ (s.spdmServe tr ready t).pending = s.pending := by
  unfold State.spdmServe
  (repeat' split) <;> simp [h, State.heard, State.spdmError]

@[simp] theorem admDone_st (s : State) (status : Nat) (result : Word) : (admDone s status result).st = s := rfl
@[simp] theorem admOk_st (s : State) : (admOk s).st = s := rfl
@[simp] theorem admFail_st (s : State) (status : Nat) : (admFail s status).st = s := rfl
@[simp] theorem admWait_st (s : State) : (admWait s).st = s := rfl
@[simp] theorem plnFail_s (s : State) (status : Nat) : (plnFail s status).s = s := rfl

theorem State.admRun_keeps (s : State) (opc : Nat) {f : BitVec 512 → State → AdmRes}
    (h : ∀ e, (f e s).st.time = s.time ∧ (f e s).st.pending = s.pending) :
    (s.admRun opc f).time = s.time ∧ (s.admRun opc f).pending = s.pending := by
  unfold State.admRun; dsimp only
  (repeat' split) <;> simp [h]

theorem State.plnRead_keeps (s : State) (op : Nat) (pre : State → Option Nat) {fail : Word → State → Nat → State}
    {go : Word → State → State} (hf : ∀ w u st, (fail w u st).time = u.time ∧ (fail w u st).pending = u.pending)
    (hg : ∀ w u, (go w u).time = u.time ∧ (go w u).pending = u.pending) :
    (s.plnRead op pre fail go).time = s.time ∧ (s.plnRead op pre fail go).pending = s.pending := by
  unfold State.plnRead; dsimp only
  (repeat' split) <;> simp [hf, hg]

theorem State.plnLinked_keeps (s : State) (op : Nat) (pre : State → Option Nat) {f : Word → State → PlnRes}
    (h : ∀ w u, (f w u).s.time = u.time ∧ (f w u).s.pending = u.pending) :
    (s.plnLinked op pre f).time = s.time ∧ (s.plnLinked op pre f).pending = s.pending :=
  s.plnRead_keeps op pre (by simp) (by simp [h])

theorem State.plnServe_keeps (s : State) (op : Nat) {f : Word → State → PlnRes}
    (h : ∀ w u, (f w u).s.time = u.time ∧ (f w u).s.pending = u.pending) :
    (s.plnServe op f).time = s.time ∧ (s.plnServe op f).pending = s.pending := by
  unfold State.plnServe; dsimp only
  (repeat' split) <;> simp [h]

theorem State.checked_keeps (s : State) (th : Nat) (t : Thread) (op : Op) {k : List Src → State}
    (h : ∀ l, (k l).time = s.time ∧ (k l).pending = s.pending) :
    (s.checked th t op k).time = s.time ∧ (s.checked th t op k).pending = s.pending := by
  unfold State.checked; dsimp only
  (repeat' split) <;> simp [h]

/-! ## Shared operations of the rows -/

@[simp] theorem State.admitQueue_keeps (s : State) (e : BitVec 512) (cls stb kib : Nat) (others : List Demand) (old : Option Demand)
    (d : Demand) (text : HostData) (plan : List Byte → Plan) {now : State → List Byte → State}
    (h : ∀ u b, (now u b).time = u.time ∧ (now u b).pending = u.pending) :
    (s.admitQueue e cls stb kib others old d text plan now).time = s.time
      ∧ (s.admitQueue e cls stb kib others old d text plan now).pending = s.pending := by
  unfold State.admitQueue; dsimp only
  (repeat' split) <;> simp [h]

@[simp] theorem State.ifOpened_keeps (s before : State) :
    (s.ifOpened before).time = s.time ∧ (s.ifOpened before).pending = s.pending := by
  unfold State.ifOpened
  split <;> simp

@[simp] theorem State.ideState_keeps (s : State) : s.ideState.time = s.time ∧ s.ideState.pending = s.pending := by
  unfold State.ideState; dsimp only
  split <;> simp

@[simp] theorem State.lockHalf_keeps (s : State) (half v : Bool) :
    (s.lockHalf half v).time = s.time ∧ (s.lockHalf half v).pending = s.pending := by
  unfold State.lockHalf
  refine ⟨foldl_keeps State.time _ ?_ _ _, foldl_keeps State.pending _ ?_ _ _⟩ <;> simp

/-- A segment for a piece is taken from the pool, or is held already. -/
theorem State.segFor_keeps {s t : State} {quad sch no pc x piece : Nat} {toMem : Bool} {who : WaitWho} {segs rest : List Nat}
    {n : Nat} (h : s.segFor quad sch no pc x piece toMem who segs = some (t, n, rest)) :
    t.time = s.time ∧ t.pending = s.pending := by
  unfold State.segFor at h; dsimp only at h
  (repeat' split at h) <;> simp at h <;> obtain ⟨rfl, -⟩ := h <;> simp

theorem State.allocAll_keeps {s t : State} {quad sch no pc x : Nat} {who : WaitWho} {pieces segs : List Nat}
    (h : s.allocAll quad sch no pc x who pieces segs = some t) : t.time = s.time ∧ t.pending = s.pending := by
  induction pieces generalizing s segs with
  | nil => obtain rfl := Option.some.inj h; exact ⟨rfl, rfl⟩
  | cons k pieces ih =>
    unfold State.allocAll at h
    split at h
    · cases h
    · rename_i hs
      obtain ⟨h1, h2⟩ := ih h
      obtain ⟨h3, h4⟩ := State.segFor_keeps hs
      exact ⟨h1.trans h3, h2.trans h4⟩

theorem State.deliver_keeps {n : Nat} {s t : State} {quad sch no pc x : Nat} {c : Cmd} {p : Piece} {off : Nat} {bs : List Byte}
    {bad : List (Nat × Nat)} {who : WaitWho} {segs : List Nat}
    (h : State.deliver n s quad sch no pc x c p off bs bad who segs = some t) : t.time = s.time ∧ t.pending = s.pending := by
  induction n generalizing s off bs segs with
  | zero => obtain rfl := Option.some.inj h; exact ⟨rfl, rfl⟩
  | succ n ih =>
    unfold State.deliver at h; dsimp only at h
    split at h
    · obtain rfl := Option.some.inj h; exact ⟨rfl, rfl⟩
    · split at h
      · cases h
      · rename_i hs
        obtain ⟨h1, h2⟩ := ih h
        obtain ⟨h3, h4⟩ := State.segFor_keeps hs
        refine ⟨h1.trans ?_, h2.trans ?_⟩ <;> split <;> simp [h3, h4]

@[simp] theorem State.serve_keeps (s : State) (who : ReqWho) :
    (s.serve who).time = s.time ∧ (s.serve who).pending = s.pending := by
  cases who <;> simp [State.serve]

@[simp] theorem State.portChanged_keeps (s before : State) (quad port : Nat) :
    (s.portChanged before quad port).time = s.time ∧ (s.portChanged before quad port).pending = s.pending := by
  simp [State.portChanged, apply_ite State.time, apply_ite State.pending]

@[simp] theorem State.loseLane_keeps (s : State) (quad port lane : Nat) :
    (s.loseLane quad port lane).time = s.time ∧ (s.loseLane quad port lane).pending = s.pending := by
  unfold State.loseLane; dsimp only
  (repeat' split) <;> simp

@[simp] theorem State.linkPower_keeps (s : State) (quad port : Nat) :
    (s.linkPower quad port).time = s.time ∧ (s.linkPower quad port).pending = s.pending := by
  simp [State.linkPower]

@[simp] theorem State.writeReg_keeps (s : State) (off : Nat) (half : Option Bool) (val : Word) :
    (s.writeReg off half val).time = s.time ∧ (s.writeReg off half val).pending = s.pending := by
  simp only [State.writeReg, apply_ite State.time, apply_ite State.pending]
  simp
  split
  · split <;> simp
  · split <;> simp
  · split <;> simp
  · simp

@[simp] theorem State.clearRc_keeps (s : State) (off : Nat) (lo hi : Bool) :
    (s.clearRc off lo hi).time = s.time ∧ (s.clearRc off lo hi).pending = s.pending := by
  simp only [State.clearRc, apply_ite State.time, apply_ite State.pending]
  simp
  split <;> simp [apply_ite State.time, apply_ite State.pending]

@[simp] theorem State.readBar0_keeps (s : State) (off size : Nat) :
    (s.readBar0 off size).time = s.time ∧ (s.readBar0 off size).pending = s.pending := by
  simp [State.readBar0, apply_ite State.time, apply_ite State.pending]

@[simp] theorem State.apertureReq_keeps (s : State) (quad port : Nat) (r : DevMemReq) (x off : Nat) :
    (s.apertureReq quad port r x off).time = s.time ∧ (s.apertureReq quad port r x off).pending = s.pending := by
  unfold State.apertureReq; dsimp only
  (repeat' split) <;> simp
  all_goals
    rename_i hd
    simpa [foldl_keeps State.time, foldl_keeps State.pending] using State.deliver_keeps hd

@[simp] theorem State.leavePaths_keeps (s : State) (pset : Nat) (ps : PathSet) :
    (s.leavePaths pset ps).time = s.time ∧ (s.leavePaths pset ps).pending = s.pending := by
  unfold State.leavePaths
  refine ⟨foldl_keeps State.time _ (fun t x => ?_) _ _, foldl_keeps State.pending _ (fun t x => ?_) _ _⟩ <;>
    split <;> simp

/-! ## Gates of the rows -/

theorem admRow_keeps (s : State) (opc : Nat) {f : BitVec 512 → State → AdmRes}
    (h : ∀ e, (f e s).st.time = s.time ∧ (f e s).st.pending = s.pending) : KeepsTimeAndQueue s (.next (s.admRun opc f)) :=
  (keepsTimeAndQueue_next _ _).2 (s.admRun_keeps opc h)

theorem spdmRow_keeps (s : State) (tr : Transport) (ready : Bool) {t : State → State}
    (h : ∀ u, (t u).time = u.time ∧ (t u).pending = u.pending) : KeepsTimeAndQueue s (.next (s.spdmServe tr ready t)) :=
  (keepsTimeAndQueue_next _ _).2 (s.spdmServe_keeps tr ready h)

theorem plnRow_keeps (s : State) (op : Nat) (pre : State → Option Nat) {f : Word → State → PlnRes}
    (h : ∀ w u, (f w u).s.time = u.time ∧ (f w u).s.pending = u.pending) : KeepsTimeAndQueue s (.next (s.plnLinked op pre f)) :=
  (keepsTimeAndQueue_next _ _).2 (s.plnLinked_keeps op pre h)

/-! ## Bundles -/

@[simp] theorem State.zeroBlock_keeps (s : State) (sch no : Nat) :
    (s.zeroBlock sch no).time = s.time ∧ (s.zeroBlock sch no).pending = s.pending := by
  simp only [State.zeroBlock, State.allocSeg_frame, and_self]

@[simp] theorem State.issueCmd_keeps (s : State) (th : Nat) (t : Thread) (c : Cmd) (zero : Bool) :
    (s.issueCmd th t c zero).time = s.time ∧ (s.issueCmd th t c zero).pending = s.pending := by
  unfold State.issueCmd; dsimp only
  (repeat' split) <;> simp

theorem State.issueX_keeps {s u : State} {th : Nat} {t : Thread} {w : XWords} {elem : GElem} {after : List TWord}
    (h : s.issueX th t w elem after = some u) : u.time = s.time ∧ u.pending = s.pending := by
  unfold State.issueX at h; dsimp only at h
  (repeat' split at h) <;> cases h <;> simp

@[simp] theorem State.xferGo_keeps (s : State) (th : Nat) (t : Thread) (w : XWords) (segs : List Seg) :
    (s.xferGo th t w segs).time = s.time ∧ (s.xferGo th t w segs).pending = s.pending := by
  unfold State.xferGo; dsimp only
  split
  · simp
  split
  · simp [apply_ite State.time, apply_ite State.pending]
  split
  · rename_i hu
    simpa [apply_ite State.time, apply_ite State.pending] using State.issueX_keeps hu
  · simp

@[simp] theorem State.opXfer_keeps (s : State) (th : Nat) (t : Thread) (op : Op) :
    (s.opXfer th t op).time = s.time ∧ (s.opXfer th t op).pending = s.pending := by
  refine State.checked_keeps _ _ _ _ fun l => ?_
  dsimp only
  (repeat' split) <;> simp

@[simp] theorem State.issueLong_keeps (s : State) (th : Nat) (t : Thread) (b : BitVec 128) (op : Op) :
    (s.issueLong th t b op).time = s.time ∧ (s.issueLong th t b op).pending = s.pending := by
  unfold State.issueLong; dsimp only
  (repeat' split) <;> simp

@[simp] theorem State.issue_keeps (s : State) (th : Nat) (t : Thread) (b : BitVec 128) :
    (s.issue th t b).time = s.time ∧ (s.issue th t b).pending = s.pending := by
  unfold State.issue; dsimp only
  (repeat' split) <;> simp

@[simp] theorem State.issueFabric_keeps (s : State) (th : Nat) (t : Thread) (b : BitVec 128) (k : Nat) :
    (s.issueFabric th t b k).time = s.time ∧ (s.issueFabric th t b k).pending = s.pending := by
  unfold State.issueFabric; dsimp only
  (repeat' split) <;> simp

@[simp] theorem State.issueBad_keeps (s : State) (th : Nat) (t : Thread) (b : BitVec 128) (bad : List BadWord) :
    (s.issueBad th t b bad).time = s.time ∧ (s.issueBad th t b bad).pending = s.pending := by
  unfold State.issueBad; dsimp only
  (repeat' split) <;> simp

/-- The issue of a bundle, which every opcode's row performs. -/
@[simp] theorem State.opRow_keeps (s : State) (th : Nat) (bad : List BadWord) (hit : Op → Bool) :
    KeepsTimeAndQueue s (s.opRow th bad hit) := by
  unfold State.opRow; dsimp only
  (repeat' split) <;> simp

/-! ## The rows -/

/-! ### Rows of Machine/Queues.lean -/

@[simp] theorem execWholePush_keeps (q : Nat) (entry : BitVec 512) (s : State) :
    KeepsTimeAndQueue s (execWholePush q entry s) := by
  unfold execWholePush
  (repeat' split) <;> simp

@[simp] theorem execTornPush_keeps (q : Nat) (be : BitVec 64) (s : State) : KeepsTimeAndQueue s (execTornPush q be s) := by
  unfold execTornPush
  (repeat' split) <;> simp

@[simp] theorem execSqDoorbell_keeps (q : Nat) (be : BitVec 8) (val : Word) (s : State) :
    KeepsTimeAndQueue s (execSqDoorbell q be val s) := by
  unfold execSqDoorbell; dsimp only
  (repeat' split) <;> simp

@[simp] theorem execCqDoorbell_keeps (q : Nat) (be : BitVec 8) (val : Word) (s : State) :
    KeepsTimeAndQueue s (execCqDoorbell q be val s) := by
  unfold execCqDoorbell; dsimp only
  (repeat' split) <;> simp

@[simp] theorem execRingFetch_keeps (q tag : Nat) (s : State) : KeepsTimeAndQueue s (execRingFetch q tag s) := by
  unfold execRingFetch
  (repeat' split) <;> simp

@[simp] theorem execRingFetchComplete_keeps (tag : Nat) (st : CplStatus) (found : Checked (List (BitVec 512))) (s : State) :
    KeepsTimeAndQueue s (execRingFetchComplete tag st found s) := by
  unfold execRingFetchComplete; dsimp only
  (repeat' split) <;> simp

@[simp] theorem execPhaseStaleReread_keeps (q tag : Nat) (data : SlotData) (s : State) :
    KeepsTimeAndQueue s (execPhaseStaleReread q tag data s) := by
  unfold execPhaseStaleReread; dsimp only
  (repeat' split) <;> simp

@[simp] theorem execNopEntry_keeps (q : Nat) (s : State) : KeepsTimeAndQueue s (execNopEntry q s) := by
  unfold execNopEntry
  split <;> simp

@[simp] theorem execStart_keeps (q : Nat) (ecc : Ecc) (s : State) : KeepsTimeAndQueue s (execStart q ecc s) := by
  unfold execStart; dsimp only
  (repeat' split) <;> simp

@[simp] theorem execResume_keeps (q : Nat) (s : State) : KeepsTimeAndQueue s (execResume q s) := by
  unfold execResume; dsimp only
  (repeat' split) <;> simp

@[simp] theorem execHalt_keeps (q : Nat) (s : State) : KeepsTimeAndQueue s (execHalt q s) := by
  unfold execHalt; dsimp only
  (repeat' split) <;> simp

@[simp] theorem execClear_keeps (q : Nat) (s : State) : KeepsTimeAndQueue s (execClear q s) := by
  unfold execClear; dsimp only
  (repeat' split) <;> simp

@[simp] theorem execFenceRelease_keeps (q : Nat) (s : State) : KeepsTimeAndQueue s (execFenceRelease q s) := by
  unfold execFenceRelease
  (repeat' split) <;> simp

@[simp] theorem execAggregationTimerExpiry_keeps (q : Nat) (s : State) :
    KeepsTimeAndQueue s (execAggregationTimerExpiry q s) := by
  unfold execAggregationTimerExpiry
  (repeat' split) <;> simp

@[simp] theorem execQevtRead_keeps (size : Nat) (s : State) : KeepsTimeAndQueue s (execQevtRead size s) := by
  unfold execQevtRead
  split <;> simp

@[simp] theorem execLegFifoRead_keeps (size : Checked Nat) (s : State) : KeepsTimeAndQueue s (execLegFifoRead size s) := by
  unfold execLegFifoRead
  (repeat' split) <;> simp

/-! ### Rows of Machine/Admin.lean -/

@[simp] theorem execAdminEnable_keeps (val : Word) (s : State) : KeepsTimeAndQueue s (execAdminEnable val s) := by
  unfold execAdminEnable
  split <;> simp

@[simp] theorem execAdminDisable_keeps (val : Word) (s : State) : KeepsTimeAndQueue s (execAdminDisable val s) := by
  unfold execAdminDisable
  split <;> simp

@[simp] theorem execAdminUndefinedOpcode_keeps (s : State) : KeepsTimeAndQueue s (execAdminUndefinedOpcode s) := by
  unfold execAdminUndefinedOpcode
  (repeat' split) <;> simp

@[simp] theorem execLoadSegmentTable_keeps (buf : HostData) (s : State) :
    KeepsTimeAndQueue s (execLoadSegmentTable buf s) := by
  refine admRow_keeps _ _ fun e => ?_
  dsimp only
  (repeat' split) <;> simp

@[simp] theorem execDeleteSegmentTable_keeps (s : State) : KeepsTimeAndQueue s (execDeleteSegmentTable s) := by
  refine admRow_keeps _ _ fun e => ?_
  dsimp only
  (repeat' split) <;> simp

@[simp] theorem execCreateSq_keeps (text : HostData) (s : State) : KeepsTimeAndQueue s (execCreateSq text s) := by
  unfold execCreateSq; dsimp only
  (repeat' split) <;> simp

@[simp] theorem execModifySq_keeps (text : HostData) (s : State) : KeepsTimeAndQueue s (execModifySq text s) := by
  unfold execModifySq; dsimp only
  (repeat' split) <;> simp

@[simp] theorem execCreateCq_keeps (s : State) : KeepsTimeAndQueue s (execCreateCq s) := by
  refine admRow_keeps _ _ fun e => ?_
  dsimp only
  (repeat' split) <;> simp

@[simp] theorem execDeleteQueue_keeps (s : State) : KeepsTimeAndQueue s (execDeleteQueue s) := by
  refine admRow_keeps _ _ fun e => ?_
  dsimp only
  (repeat' split) <;> simp

@[simp] theorem execResetQueue_keeps (s : State) : KeepsTimeAndQueue s (execResetQueue s) := by
  refine admRow_keeps _ _ fun e => ?_
  dsimp only
  (repeat' split) <;> simp

@[simp] theorem execPauseQueue_keeps (s : State) : KeepsTimeAndQueue s (execPauseQueue s) := by
  refine admRow_keeps _ _ fun e => ?_
  dsimp only
  (repeat' split) <;> simp

@[simp] theorem execQueryQueue_keeps (s : State) : KeepsTimeAndQueue s (execQueryQueue s) := by
  refine admRow_keeps _ _ fun e => ?_
  dsimp only
  split <;> simp

@[simp] theorem execConfigureSubchannel_keeps (s : State) : KeepsTimeAndQueue s (execConfigureSubchannel s) := by
  refine admRow_keeps _ _ fun e => ?_
  dsimp only
  (repeat' split) <;> simp

@[simp] theorem execQuerySubchannel_keeps (s : State) : KeepsTimeAndQueue s (execQuerySubchannel s) := by
  refine admRow_keeps _ _ fun e => ?_
  (repeat' split) <;> simp

@[simp] theorem execListDevices_keeps (w : ListRun) (s : State) : KeepsTimeAndQueue s (execListDevices w s) := by
  refine admRow_keeps _ _ fun e => ?_
  dsimp only
  (repeat' split) <;> simp

@[simp] theorem execCreateDevice_keeps (s : State) : KeepsTimeAndQueue s (execCreateDevice s) := by
  refine admRow_keeps _ _ fun e => ?_
  dsimp only
  (repeat' split) <;> simp

@[simp] theorem execDeletePathSet_keeps (s : State) : KeepsTimeAndQueue s (execDeletePathSet s) := by
  refine admRow_keeps _ _ fun e => ?_
  dsimp only
  (repeat' split) <;> simp

@[simp] theorem execDeleteDevice_keeps (s : State) : KeepsTimeAndQueue s (execDeleteDevice s) := by
  refine admRow_keeps _ _ fun e => ?_
  dsimp only
  (repeat' split) <;> simp

@[simp] theorem execSetLegacyFifo_keeps (s : State) : KeepsTimeAndQueue s (execSetLegacyFifo s) := by
  refine admRow_keeps _ _ fun e => ?_
  dsimp only
  (repeat' split) <;> simp [foldl_keeps State.time, foldl_keeps State.pending]

/-! ### Rows of Machine/Threads.lean -/

@[simp] theorem execDispatch_keeps (sch th : Nat) (ue : CtxFault) (s : State) :
    KeepsTimeAndQueue s (execDispatch sch th ue s) := by
  unfold execDispatch; dsimp only
  (repeat' split) <;> simp

@[simp] theorem execTextLineFetch_keeps (th tag : Nat) (s : State) : KeepsTimeAndQueue s (execTextLineFetch th tag s) := by
  unfold execTextLineFetch; dsimp only
  (repeat' split) <;> simp

@[simp] theorem execTextLineArrival_keeps (tag : Nat) (st : CplStatus) (line : Checked (BitVec 512)) (s : State) :
    KeepsTimeAndQueue s (execTextLineArrival tag st line s) := by
  unfold execTextLineArrival; dsimp only
  (repeat' split) <;> simp

@[simp] theorem execHostLoadReturn_keeps (tag : Nat) (st : CplStatus) (data : Checked (BitVec 128)) (s : State) :
    KeepsTimeAndQueue s (execHostLoadReturn tag st data s) := by
  unfold execHostLoadReturn; dsimp only
  (repeat' split) <;> simp

@[simp] theorem execThreadStop_keeps (th : Nat) (s : State) : KeepsTimeAndQueue s (execThreadStop th s) := by
  unfold execThreadStop
  (repeat' split) <;> simp

@[simp] theorem execAutoCommit_keeps (rel : Release) (s : State) : KeepsTimeAndQueue s (execAutoCommit rel s) := by
  unfold execAutoCommit
  (repeat' split) <;> simp

@[simp] theorem execFinalStatusPending_keeps (rel : Release) (s : State) :
    KeepsTimeAndQueue s (execFinalStatusPending rel s) := by
  unfold execFinalStatusPending; dsimp only
  (repeat' split) <;> simp

@[simp] theorem execThreadRestore_keeps (th th' : Nat) (fault : RestoreFault) (s : State) :
    KeepsTimeAndQueue s (execThreadRestore th th' fault s) := by
  unfold execThreadRestore
  (repeat' split) <;> simp

/-! ### Rows of Machine/Exchange.lean -/

@[simp] theorem execConnectionIdleClose_keeps (quad phy : Nat) (s : State) :
    KeepsTimeAndQueue s (execConnectionIdleClose quad phy s) := by
  unfold execConnectionIdleClose
  (repeat' split) <;> simp

@[simp] theorem execExchangeSend_keeps (sch idx : Nat) (s : State) : KeepsTimeAndQueue s (execExchangeSend sch idx s) := by
  unfold execExchangeSend; dsimp only
  (repeat' split) <;> simp

@[simp] theorem execExchangeReachedDevice_keeps (x : Nat) (s : State) :
    KeepsTimeAndQueue s (execExchangeReachedDevice x s) := by
  unfold execExchangeReachedDevice
  (repeat' split) <;> simp

@[simp] theorem execExchangeEnd_keeps (x : Nat) (ans : DevAnswer) (ecc : Ecc) (s : State) :
    KeepsTimeAndQueue s (execExchangeEnd x ans ecc s) := by
  unfold execExchangeEnd
  (repeat' split) <;> simp

@[simp] theorem execAbortAnswered_keeps (x : Nat) (s : State) : KeepsTimeAndQueue s (execAbortAnswered x s) := by
  unfold execAbortAnswered
  (repeat' split) <;> simp

@[simp] theorem execExchangeAbortTimeout_keeps (x : Nat) (s : State) :
    KeepsTimeAndQueue s (execExchangeAbortTimeout x s) := by
  unfold execExchangeAbortTimeout; dsimp only
  (repeat' split) <;> simp

@[simp] theorem execEscalationHardReset_keeps (x : Nat) (s : State) : KeepsTimeAndQueue s (execEscalationHardReset x s) := by
  unfold execEscalationHardReset
  (repeat' split) <;> simp

@[simp] theorem execTransportFailure_keeps (x : Nat) (s : State) : KeepsTimeAndQueue s (execTransportFailure x s) := by
  simp [execTransportFailure]

@[simp] theorem execPathFault_keeps (quad port : Nat) (kind : PathFaultKind) (s : State) :
    KeepsTimeAndQueue s (execPathFault quad port kind s) := by
  unfold execPathFault
  split <;> simp

@[simp] theorem execControllerFatal_keeps (quad : Nat) (at_ : PortCtrl) (s : State) :
    KeepsTimeAndQueue s (execControllerFatal quad at_ s) := by
  unfold execControllerFatal; dsimp only
  split <;> simp

@[simp] theorem execPmemReadCompletionTimeout_keeps (x : Nat) (s : State) :
    KeepsTimeAndQueue s (execPmemReadCompletionTimeout x s) := by
  unfold execPmemReadCompletionTimeout
  (repeat' split) <;> simp

@[simp] theorem execGhostDeath_keeps (g : Nat) (rdy0 : Bool) (pos : Option Nat) (s : State) :
    KeepsTimeAndQueue s (execGhostDeath g rdy0 pos s) := by
  unfold execGhostDeath; dsimp only
  (repeat' split) <;> simp

@[simp] theorem execSubchannelTimeout_keeps (sch : Nat) (s : State) : KeepsTimeAndQueue s (execSubchannelTimeout sch s) := by
  unfold execSubchannelTimeout; dsimp only
  (repeat' split) <;> simp

@[simp] theorem execTimeoutSpan_keeps (sch : Nat) (s : State) : KeepsTimeAndQueue s (execTimeoutSpan sch s) := by
  unfold execTimeoutSpan; dsimp only
  split <;> simp

/-! ### Rows of Machine/Move.lean -/

@[simp] theorem execDmaChannelGrant_keeps (d : Nat) (s : State) : KeepsTimeAndQueue s (execDmaChannelGrant d s) := by
  unfold execDmaChannelGrant; dsimp only
  (repeat' split) <;> simp

@[simp] theorem execDmaWriteIssue_keeps (d piece : Nat) (fault : PieceFault) (s : State) :
    KeepsTimeAndQueue s (execDmaWriteIssue d piece fault s) := by
  unfold execDmaWriteIssue; dsimp only
  (repeat' split) <;> simp [foldl_keeps State.time, foldl_keeps State.pending]

@[simp] theorem execDmaWriteVisible_keeps (d piece : Nat) (s : State) :
    KeepsTimeAndQueue s (execDmaWriteVisible d piece s) := by
  unfold execDmaWriteVisible; dsimp only
  (repeat' split) <;> simp [foldl_keeps State.time, foldl_keeps State.pending]

@[simp] theorem execSegmentAllocate_keeps (d piece : Nat) (segs : List Nat) (s : State) :
    KeepsTimeAndQueue s (execSegmentAllocate d piece segs s) := by
  unfold execSegmentAllocate; dsimp only
  (repeat' split) <;> simp
  rename_i ht
  exact State.allocAll_keeps ht

@[simp] theorem execDmaReadIssue_keeps (d piece tag : Nat) (seg : ReadSeg) (s : State) :
    KeepsTimeAndQueue s (execDmaReadIssue d piece tag seg s) := by
  unfold execDmaReadIssue; dsimp only
  (repeat' split) <;> simp [foldl_keeps State.time, foldl_keeps State.pending]
  all_goals
    rename_i ht _
    exact State.segFor_keeps ht

@[simp] theorem execDmaReadCompletion_keeps (tag : Nat) (st : CplStatus) (data : Checked (List Byte)) (s : State) :
    KeepsTimeAndQueue s (execDmaReadCompletion tag st data s) := by
  unfold execDmaReadCompletion; dsimp only
  (repeat' split) <;> simp

/-! ### Rows of Machine/Fifo.lean -/

@[simp] theorem execFrameReceive_keeps (quad : Nat) (fr : Frame) (s : State) :
    KeepsTimeAndQueue s (execFrameReceive quad fr s) := by
  unfold execFrameReceive; dsimp only
  (repeat' split) <;> simp

@[simp] theorem execFrameMove_keeps (quad : Nat) (found : BadFifo) (segs : List Nat) (s : State) :
    KeepsTimeAndQueue s (execFrameMove quad found segs s) := by
  unfold execFrameMove; dsimp only
  (repeat' split) <;> simp
  all_goals
    rename_i ht
    simpa [foldl_keeps State.time, foldl_keeps State.pending] using State.deliver_keeps ht

@[simp] theorem execFifoWatermarkWrite_keeps (quad : Nat) (hi4 : Option Bool) (val : Word) (s : State) :
    KeepsTimeAndQueue s (execFifoWatermarkWrite quad hi4 val s) := by
  unfold execFifoWatermarkWrite
  (repeat' split) <;> simp

@[simp] theorem execFrameTransmit_keeps (quad : Nat) (parityBad : Bool) (fault : FrameFault) (s : State) :
    KeepsTimeAndQueue s (execFrameTransmit quad parityBad fault s) := by
  unfold execFrameTransmit; dsimp only
  (repeat' split) <;> simp

@[simp] theorem execDeviceMemoryRequest_keeps (quad port : Nat) (req : DevMemReq) (s : State) :
    KeepsTimeAndQueue s (execDeviceMemoryRequest quad port req s) := by
  unfold execDeviceMemoryRequest
  (repeat' split) <;> simp

/-! ### Rows of Machine/Awake.lean -/

@[simp] theorem execClusterIdle_keeps (cluster : Nat) (s : State) : KeepsTimeAndQueue s (execClusterIdle cluster s) := by
  unfold execClusterIdle; dsimp only
  (repeat' split) <;> simp

@[simp] theorem execClusterWake_keeps (cluster : Nat) (s : State) : KeepsTimeAndQueue s (execClusterWake cluster s) := by
  unfold execClusterWake; dsimp only
  split <;> simp

@[simp] theorem execClusterWakeDone_keeps (cluster : Nat) (s : State) :
    KeepsTimeAndQueue s (execClusterWakeDone cluster s) := by
  unfold execClusterWakeDone
  split <;> simp

@[simp] theorem execMaxstateWrite_keeps (val : Word) (s : State) : KeepsTimeAndQueue s (execMaxstateWrite val s) := by
  unfold execMaxstateWrite
  split <;> simp

/-! ### Rows of Machine/Recover.lean -/

@[simp] theorem execSetPathSet_keeps (buf : HostData) (s : State) : KeepsTimeAndQueue s (execSetPathSet buf s) := by
  refine admRow_keeps _ _ fun e => ?_
  dsimp only
  (repeat' split) <;> simp

@[simp] theorem execTallyCheck_keeps (s : State) : KeepsTimeAndQueue s (execTallyCheck s) := by
  simp [execTallyCheck, apply_ite State.time, apply_ite State.pending, foldl_keeps State.time, foldl_keeps State.pending]

@[simp] theorem execTallyAudit_keeps (line : Nat) (s : State) : KeepsTimeAndQueue s (execTallyAudit line s) := by
  unfold execTallyAudit
  split <;> simp

@[simp] theorem execTallySnap_keeps (s : State) : KeepsTimeAndQueue s (execTallySnap s) := by
  unfold execTallySnap
  split <;> simp

@[simp] theorem execEngineFault_keeps (cluster engine : Nat) (s : State) :
    KeepsTimeAndQueue s (execEngineFault cluster engine s) := by
  simp [execEngineFault]

@[simp] theorem execEngineHang_keeps (cluster engine : Nat) (s : State) :
    KeepsTimeAndQueue s (execEngineHang cluster engine s) := by
  unfold execEngineHang
  split <;> simp

@[simp] theorem execClusterFault_keeps (cluster : Nat) (s : State) : KeepsTimeAndQueue s (execClusterFault cluster s) := by
  unfold execClusterFault; dsimp only
  split <;> simp

@[simp] theorem execControlCompareError_keeps (block : Nat) (s : State) :
    KeepsTimeAndQueue s (execControlCompareError block s) := by
  unfold execControlCompareError
  split <;> simp

/-! ### Rows of Machine/Meridian.lean -/

@[simp] theorem execMeridianGrant_keeps (res : Nat) (s : State) : KeepsTimeAndQueue s (execMeridianGrant res s) := by
  unfold execMeridianGrant
  split <;> simp

@[simp] theorem execMaquetteCommit_keeps (s : State) : KeepsTimeAndQueue s (execMaquetteCommit s) := by
  unfold execMaquetteCommit
  (repeat' split) <;> simp

@[simp] theorem execCostOverrun_keeps (sch : Nat) (s : State) : KeepsTimeAndQueue s (execCostOverrun sch s) := by
  unfold execCostOverrun; dsimp only
  split <;> simp

@[simp] theorem execFreezeDrained_keeps (s : State) : KeepsTimeAndQueue s (execFreezeDrained s) := by
  simp [execFreezeDrained]

@[simp] theorem execCapacityRetest_keeps (change : Nat) (s : State) : KeepsTimeAndQueue s (execCapacityRetest change s) := by
  unfold execCapacityRetest
  split <;> simp

@[simp] theorem execDeadlineWatchExpiry_keeps (sch : Nat) (s : State) :
    KeepsTimeAndQueue s (execDeadlineWatchExpiry sch s) := by
  unfold execDeadlineWatchExpiry; dsimp only
  split <;> simp

/-! ### Rows of Machine/Mailbox.lean -/

@[simp] theorem execMailboxSend_keeps (ch : Chan) (bit size : Nat) (word : Word) (s : State) :
    KeepsTimeAndQueue s (execMailboxSend ch bit size word s) := by
  unfold execMailboxSend
  (repeat' split) <;> simp

@[simp] theorem execPing_keeps (s : State) : KeepsTimeAndQueue s (execPing s) := by
  unfold execPing
  split <;> simp

@[simp] theorem execMailboxReceive_keeps (ch : Chan) (size : Nat) (s : State) :
    KeepsTimeAndQueue s (execMailboxReceive ch size s) := by
  unfold execMailboxReceive
  (repeat' split) <;> simp

@[simp] theorem execMailboxStatusWrite_keeps (reg : MbReg) (stat : Bool) (half : Option Bool) (val : Word) (s : State) :
    KeepsTimeAndQueue s (execMailboxStatusWrite reg stat half val s) := by
  unfold execMailboxStatusWrite
  split <;> simp

@[simp] theorem execIcAck_keeps (inst : IcInst) (owner : Bool) (s : State) :
    KeepsTimeAndQueue s (execIcAck inst owner s) := by
  unfold execIcAck
  (repeat' split) <;> simp

@[simp] theorem execIcEoi_keeps (inst : IcInst) (s : State) : KeepsTimeAndQueue s (execIcEoi inst s) := by
  unfold execIcEoi
  split <;> simp

@[simp] theorem execIcPendSet_keeps (inst : IcInst) (i : Nat) (val : Word) (s : State) :
    KeepsTimeAndQueue s (execIcPendSet inst i val s) := by
  unfold execIcPendSet
  split <;> simp

@[simp] theorem execIcPendClr_keeps (inst : IcInst) (i : Nat) (val : Word) (s : State) :
    KeepsTimeAndQueue s (execIcPendClr inst i val s) := by
  unfold execIcPendClr
  split <;> simp

@[simp] theorem execIcMaskSet_keeps (inst : IcInst) (i : Nat) (val : Word) (s : State) :
    KeepsTimeAndQueue s (execIcMaskSet inst i val s) := by
  unfold execIcMaskSet
  split <;> simp

@[simp] theorem execIcMaskClr_keeps (inst : IcInst) (i : Nat) (val : Word) (s : State) :
    KeepsTimeAndQueue s (execIcMaskClr inst i val s) := by
  unfold execIcMaskClr
  split <;> simp

@[simp] theorem execIcCntRead_keeps (inst : IcInst) (i : Nat) (owner : Bool) (s : State) :
    KeepsTimeAndQueue s (execIcCntRead inst i owner s) := by
  unfold execIcCntRead
  (repeat' split) <;> simp

/-! ### Rows of Machine/Quads.lean -/

@[simp] theorem execPresenceAssert_keeps (quad port : Nat) (s : State) :
    KeepsTimeAndQueue s (execPresenceAssert quad port s) := by
  unfold execPresenceAssert; dsimp only
  split <;> simp

@[simp] theorem execPresenceDebounced_keeps (quad port : Nat) (readbackOk : Bool) (i2cOk : Bool) (s : State) :
    KeepsTimeAndQueue s (execPresenceDebounced quad port readbackOk i2cOk s) := by
  unfold execPresenceDebounced
  (repeat' split) <;> simp

@[simp] theorem execPowerDelayExpiry_keeps (quad port : Nat) (readbackOk : Bool) (s : State) :
    KeepsTimeAndQueue s (execPowerDelayExpiry quad port readbackOk s) := by
  unfold execPowerDelayExpiry
  (repeat' split) <;> simp

@[simp] theorem execPresenceDeassert_keeps (quad : Nat) (i2c : PortTest) (s : State) :
    KeepsTimeAndQueue s (execPresenceDeassert quad i2c s) := by
  unfold execPresenceDeassert
  (repeat' split) <;> simp

@[simp] theorem execPwrenOffDelayExpiry_keeps (quad : Nat) (pwren : PortTest) (s : State) :
    KeepsTimeAndQueue s (execPwrenOffDelayExpiry quad pwren s) := by
  unfold execPwrenOffDelayExpiry; dsimp only
  (repeat' split) <;> simp

@[simp] theorem execNolinkRetry_keeps (quad port : Nat) (s : State) : KeepsTimeAndQueue s (execNolinkRetry quad port s) := by
  unfold execNolinkRetry
  (repeat' split) <;> simp

@[simp] theorem execSgpioFrame_keeps (quad : Nat) (readbackOk : Bool) (s : State) :
    KeepsTimeAndQueue s (execSgpioFrame quad readbackOk s) := by
  unfold execSgpioFrame
  (repeat' split) <;> simp

@[simp] theorem execMgmtPoll_keeps (quad port : Nat) (resp : Option (BitVec 24)) (s : State) :
    KeepsTimeAndQueue s (execMgmtPoll quad port resp s) := by
  unfold execMgmtPoll; dsimp only
  (repeat' split) <;> simp

@[simp] theorem execErrCorMessage_keeps (quad port : Nat) (s : State) :
    KeepsTimeAndQueue s (execErrCorMessage quad port s) := by
  unfold execErrCorMessage
  split <;> simp

@[simp] theorem execErrNonfatalMessage_keeps (quad port : Nat) (s : State) :
    KeepsTimeAndQueue s (execErrNonfatalMessage quad port s) := by
  unfold execErrNonfatalMessage
  split <;> simp

@[simp] theorem execNvmeAsyncEvent_keeps (quad port : Nat) (s : State) :
    KeepsTimeAndQueue s (execNvmeAsyncEvent quad port s) := by
  unfold execNvmeAsyncEvent
  split <;> simp

@[simp] theorem execSasBroadcastChange_keeps (quad port : Nat) (s : State) :
    KeepsTimeAndQueue s (execSasBroadcastChange quad port s) := by
  unfold execSasBroadcastChange
  split <;> simp

@[simp] theorem execPortLinkUp_keeps (quad port : Nat) (rate : LinkRate) (lanes : List TrainedLane) (s : State) :
    KeepsTimeAndQueue s (execPortLinkUp quad port rate lanes s) := by
  unfold execPortLinkUp; dsimp only
  (repeat' split) <;> simp

@[simp] theorem execLaneFault_keeps (quad lane : Nat) (code : LaneCode) (s : State) :
    KeepsTimeAndQueue s (execLaneFault quad lane code s) := by
  unfold execLaneFault
  (repeat' split) <;> simp

@[simp] theorem execDiscoveryRunStart_keeps (quad port : Nat) (ids : List IdentityRead) (s : State) :
    KeepsTimeAndQueue s (execDiscoveryRunStart quad port ids s) := by
  unfold execDiscoveryRunStart; dsimp only
  (repeat' split) <;> simp [foldl_keeps State.time, foldl_keeps State.pending]

@[simp] theorem execDiscoveryRunEnd_keeps (quad port : Nat) (found : List Finding) (s : State) :
    KeepsTimeAndQueue s (execDiscoveryRunEnd quad port found s) := by
  unfold execDiscoveryRunEnd; dsimp only
  (repeat' split) <;> simp [foldl_keeps State.time, foldl_keeps State.pending]

@[simp] theorem execQreset_keeps (quad : Nat) (s : State) : KeepsTimeAndQueue s (execQreset quad s) := by
  unfold execQreset
  split <;> simp

@[simp] theorem execQuadReset_keeps (test : QuadTest) (s : State) : KeepsTimeAndQueue s (execQuadReset test s) := by
  unfold execQuadReset; dsimp only
  (repeat' split) <;> simp

@[simp] theorem execSbretry_keeps (quad : Nat) (stillFaulty : BitVec 17) (s : State) :
    KeepsTimeAndQueue s (execSbretry quad stillFaulty s) := by
  unfold execSbretry
  split <;> simp

/-! ### Rows of Machine/Almanac.lean -/

@[simp] theorem execAlmanacWrite_keeps (s : State) : KeepsTimeAndQueue s (execAlmanacWrite s) := by
  unfold execAlmanacWrite
  split <;> simp

/-! ### Rows of Machine/Link.lean -/

@[simp] theorem execBusMasterEnableSet_keeps (cfg : HostCfg) (s : State) :
    KeepsTimeAndQueue s (execBusMasterEnableSet cfg s) := by
  unfold execBusMasterEnableSet; dsimp only
  (repeat' split) <;> simp

@[simp] theorem execBusMasterEnableCleared_keeps (s : State) : KeepsTimeAndQueue s (execBusMasterEnableCleared s) := by
  unfold execBusMasterEnableCleared
  split <;> simp

@[simp] theorem execMemorySpaceEnableCleared_keeps (s : State) : KeepsTimeAndQueue s (execMemorySpaceEnableCleared s) := by
  unfold execMemorySpaceEnableCleared
  split <;> simp

@[simp] theorem execMemorySpaceEnableSet_keeps (s : State) : KeepsTimeAndQueue s (execMemorySpaceEnableSet s) := by
  unfold execMemorySpaceEnableSet
  split <;> simp

@[simp] theorem execMsixUnmask_keeps (vec : Option Nat) (s : State) : KeepsTimeAndQueue s (execMsixUnmask vec s) := by
  unfold execMsixUnmask
  (repeat' split) <;> simp

@[simp] theorem execHostLinkRateChange_keeps (rate width : Nat) (flit : Bool) (s : State) :
    KeepsTimeAndQueue s (execHostLinkRateChange rate width flit s) := by
  unfold execHostLinkRateChange
  (repeat' split) <;> simp

@[simp] theorem execPoisonedTlpReceived_keeps (s : State) : KeepsTimeAndQueue s (execPoisonedTlpReceived s) := by
  unfold execPoisonedTlpReceived
  split <;> simp

@[simp] theorem execCorrectableLinkError_keeps (s : State) : KeepsTimeAndQueue s (execCorrectableLinkError s) := by
  unfold execCorrectableLinkError
  split <;> simp

@[simp] theorem execIdeCheckFailure_keeps (s : State) : KeepsTimeAndQueue s (execIdeCheckFailure s) := by
  unfold execIdeCheckFailure
  split <;> simp

@[simp] theorem execKeyProg_keeps (session : Nat) (sub : SubStream) (tx k1 : Bool) (key : BitVec 256) (s : State) :
    KeepsTimeAndQueue s (execKeyProg session sub tx k1 key s) := by
  unfold execKeyProg
  split <;> simp

@[simp] theorem execKeySetGo_keeps (session : Nat) (sub : SubStream) (tx k1 : Bool) (s : State) :
    KeepsTimeAndQueue s (execKeySetGo session sub tx k1 s) := by
  unfold execKeySetGo
  split <;> simp

@[simp] theorem execKeySetStop_keeps (session : Nat) (sub : SubStream) (tx k1 : Bool) (s : State) :
    KeepsTimeAndQueue s (execKeySetStop session sub tx k1 s) := by
  unfold execKeySetStop
  split <;> simp

@[simp] theorem execKeySetSwitch_keeps (sub : SubStream) (k1 : Bool) (s : State) :
    KeepsTimeAndQueue s (execKeySetSwitch sub k1 s) := by
  unfold execKeySetSwitch
  split <;> simp

@[simp] theorem execSpdmGetVersion_keeps (tr : Transport) (s : State) : KeepsTimeAndQueue s (execSpdmGetVersion tr s) := by
  refine spdmRow_keeps _ _ _ fun u => ?_
  simp

@[simp] theorem execSpdmGetCapabilities_keeps (tr : Transport) (s : State) :
    KeepsTimeAndQueue s (execSpdmGetCapabilities tr s) := by
  refine spdmRow_keeps _ _ _ fun u => ?_
  simp

@[simp] theorem execSpdmNegotiateAlgorithms_keeps (tr : Transport) (s : State) :
    KeepsTimeAndQueue s (execSpdmNegotiateAlgorithms tr s) := by
  refine spdmRow_keeps _ _ _ fun u => ?_
  simp

@[simp] theorem execSpdmGetDigests_keeps (tr : Transport) (s : State) : KeepsTimeAndQueue s (execSpdmGetDigests tr s) := by
  refine spdmRow_keeps _ _ _ fun u => ?_
  simp

@[simp] theorem execSpdmGetCertificate_keeps (tr : Transport) (slot off len : Nat) (s : State) :
    KeepsTimeAndQueue s (execSpdmGetCertificate tr slot off len s) := by
  refine spdmRow_keeps _ _ _ fun u => ?_
  (repeat' split) <;> simp [State.spdmError]

@[simp] theorem execSpdmChallenge_keeps (tr : Transport) (slot : Nat) (nonce : BitVec 256) (s : State) :
    KeepsTimeAndQueue s (execSpdmChallenge tr slot nonce s) := by
  refine spdmRow_keeps _ _ _ fun u => ?_
  (repeat' split) <;> simp [State.spdmError]

@[simp] theorem execSpdmGetMeasurements_keeps (tr : Transport) (index : Nat) (nonce : BitVec 256) (s : State) :
    KeepsTimeAndQueue s (execSpdmGetMeasurements tr index nonce s) := by
  refine spdmRow_keeps _ _ _ fun u => ?_
  dsimp only
  (repeat' split) <;> simp

@[simp] theorem execSpdmKeyExchange_keeps (tr : Transport) (id : Nat) (s : State) :
    KeepsTimeAndQueue s (execSpdmKeyExchange tr id s) := by
  refine spdmRow_keeps _ _ _ fun u => ?_
  (repeat' split) <;> simp [State.spdmError]

@[simp] theorem execSpdmFinish_keeps (tr : Transport) (id : Nat) (s : State) :
    KeepsTimeAndQueue s (execSpdmFinish tr id s) := by
  refine spdmRow_keeps _ _ _ fun u => ?_
  simp

@[simp] theorem execSpdmHeartbeat_keeps (tr : Transport) (id : Nat) (s : State) :
    KeepsTimeAndQueue s (execSpdmHeartbeat tr id s) := by
  refine spdmRow_keeps _ _ _ fun u => ?_
  simp

@[simp] theorem execSpdmKeyUpdate_keeps (tr : Transport) (id : Nat) (s : State) :
    KeepsTimeAndQueue s (execSpdmKeyUpdate tr id s) := by
  refine spdmRow_keeps _ _ _ fun u => ?_
  simp

@[simp] theorem execSpdmEndSession_keeps (tr : Transport) (id : Nat) (s : State) :
    KeepsTimeAndQueue s (execSpdmEndSession tr id s) := by
  refine spdmRow_keeps _ _ _ fun u => ?_
  simp

@[simp] theorem execSpdmUnsupportedRequest_keeps (tr : Transport) (code : Byte) (s : State) :
    KeepsTimeAndQueue s (execSpdmUnsupportedRequest tr code s) := by
  unfold execSpdmUnsupportedRequest
  split <;> simp

@[simp] theorem execDoeDiscovery_keeps (index : Nat) (s : State) : KeepsTimeAndQueue s (execDoeDiscovery index s) := by
  unfold execDoeDiscovery
  split <;> simp

@[simp] theorem execMctpControlMessage_keeps (setEid : Option Byte) (s : State) :
    KeepsTimeAndQueue s (execMctpControlMessage setEid s) := by
  unfold execMctpControlMessage
  split <;> simp

/-! ### Rows of Machine/Plinth.lean -/

@[simp] theorem execBoot_keeps (a b : Option (List Byte)) (start : BootTest) (s : State) :
    KeepsTimeAndQueue s (execBoot a b start s) := by
  unfold execBoot; dsimp only
  (repeat' split) <;> simp

@[simp] theorem execExtend_keeps (block : HostData) (s : State) : KeepsTimeAndQueue s (execExtend block s) := by
  refine plnRow_keeps _ _ _ fun w u => ?_
  dsimp only
  (repeat' split) <;> simp

@[simp] theorem execExtendLock_keeps (s : State) : KeepsTimeAndQueue s (execExtendLock s) := by
  refine (keepsTimeAndQueue_next _ _).2 (State.plnServe_keeps _ _ fun w u => ?_)
  dsimp only
  (repeat' split) <;> simp

@[simp] theorem execQuote_keeps (block : HostData) (s : State) : KeepsTimeAndQueue s (execQuote block s) := by
  refine plnRow_keeps _ _ _ fun w u => ?_
  dsimp only
  (repeat' split) <;> simp

@[simp] theorem execGetNonce_keeps (block : HostData) (s : State) : KeepsTimeAndQueue s (execGetNonce block s) := by
  refine plnRow_keeps _ _ _ fun w u => ?_
  dsimp only
  (repeat' split) <;> simp

@[simp] theorem execPlinthBadOp_keeps (s : State) : KeepsTimeAndQueue s (execPlinthBadOp s) := by
  unfold execPlinthBadOp
  (repeat' split) <;> simp

@[simp] theorem execFlashUpdate_keeps (block image : HostData) (s : State) :
    KeepsTimeAndQueue s (execFlashUpdate block image s) := by
  refine plnRow_keeps _ _ _ fun w u => ?_
  dsimp only
  (repeat' split) <;> simp

@[simp] theorem execFlashUpdateEnd_keeps (ok : Bool) (s : State) : KeepsTimeAndQueue s (execFlashUpdateEnd ok s) := by
  unfold execFlashUpdateEnd
  split <;> simp

@[simp] theorem execDecodeLoad_keeps (block body : HostData) (s : State) :
    KeepsTimeAndQueue s (execDecodeLoad block body s) := by
  refine (keepsTimeAndQueue_next _ _).2 (State.plnRead_keeps _ _ _ (by simp) fun w u => ?_)
  dsimp only
  (repeat' split) <;> simp

@[simp] theorem execDecodeRetireTimeout_keeps (s : State) : KeepsTimeAndQueue s (execDecodeRetireTimeout s) := by
  unfold execDecodeRetireTimeout
  (repeat' split) <;> simp

@[simp] theorem execGenerationSwitch_keeps (s : State) : KeepsTimeAndQueue s (execGenerationSwitch s) := by
  unfold execGenerationSwitch
  (repeat' split) <;> simp

@[simp] theorem execPlinthAccessRefused_keeps (requester : Nat) (write : Bool) (addr : Word) (s : State) :
    KeepsTimeAndQueue s (execPlinthAccessRefused requester write addr s) := by
  unfold execPlinthAccessRefused
  (repeat' split) <;> simp

@[simp] theorem execTamperAssert_keeps (s : State) : KeepsTimeAndQueue s (execTamperAssert s) := by
  unfold execTamperAssert
  (repeat' split) <;> simp

@[simp] theorem execTamperRelease_keeps (s : State) : KeepsTimeAndQueue s (execTamperRelease s) := by
  unfold execTamperRelease
  (repeat' split) <;> simp

/-! ### Rows of Machine/Resets.lean -/

@[simp] theorem execSupervisorLockstepMismatch_keeps (s : State) :
    KeepsTimeAndQueue s (execSupervisorLockstepMismatch s) := by
  unfold execSupervisorLockstepMismatch
  split <;> simp

@[simp] theorem execWatchdogWrite_keeps (s : State) : KeepsTimeAndQueue s (execWatchdogWrite s) := by
  unfold execWatchdogWrite
  split <;> simp

@[simp] theorem execWatchdogExpiry_keeps (s : State) : KeepsTimeAndQueue s (execWatchdogExpiry s) := by
  unfold execWatchdogExpiry
  (repeat' split) <;> simp

@[simp] theorem execSupervisorTimerExpiry_keeps (n : Nat) (s : State) :
    KeepsTimeAndQueue s (execSupervisorTimerExpiry n s) := by
  unfold execSupervisorTimerExpiry
  (repeat' split) <;> simp

@[simp] theorem execPlinthLockstepMismatch_keeps (s : State) : KeepsTimeAndQueue s (execPlinthLockstepMismatch s) := by
  unfold execPlinthLockstepMismatch; dsimp only
  (repeat' split) <;> simp

@[simp] theorem execFlr_keeps (s : State) : KeepsTimeAndQueue s (execFlr s) := by
  unfold execFlr; dsimp only
  split <;> simp

@[simp] theorem execD3hotEntry_keeps (s : State) : KeepsTimeAndQueue s (execD3hotEntry s) := by
  unfold execD3hotEntry; dsimp only
  (repeat' split) <;> simp

@[simp] theorem execPowerStateD0_keeps (s : State) : KeepsTimeAndQueue s (execPowerStateD0 s) := by
  unfold execPowerStateD0
  split <;> simp

@[simp] theorem execLinkResetEvent_keeps (s : State) : KeepsTimeAndQueue s (execLinkResetEvent s) := by
  unfold execLinkResetEvent
  split <;> simp

@[simp] theorem execPerstNWarmReset_keeps (s : State) : KeepsTimeAndQueue s (execPerstNWarmReset s) := by
  unfold execPerstNWarmReset
  split <;> simp

@[simp] theorem execPerstNDeassert_keeps (s : State) : KeepsTimeAndQueue s (execPerstNDeassert s) := by
  unfold execPerstNDeassert
  split <;> simp

@[simp] theorem execHostReferenceLoss_keeps (s : State) : KeepsTimeAndQueue s (execHostReferenceLoss s) := by
  unfold execHostReferenceLoss
  split <;> simp

@[simp] theorem execHostReferenceReturn_keeps (s : State) : KeepsTimeAndQueue s (execHostReferenceReturn s) := by
  unfold execHostReferenceReturn
  split <;> simp

@[simp] theorem execPortReferenceLoss_keeps (half : Bool) (s : State) :
    KeepsTimeAndQueue s (execPortReferenceLoss half s) := by
  simp [execPortReferenceLoss, apply_ite State.time, apply_ite State.pending, foldl_keeps State.time, foldl_keeps State.pending]

@[simp] theorem execPortReferenceReturn_keeps (half : Bool) (s : State) :
    KeepsTimeAndQueue s (execPortReferenceReturn half s) := by
  simp [execPortReferenceReturn, apply_ite State.time, apply_ite State.pending, foldl_keeps State.time, foldl_keeps State.pending]

theorem execPowerOn_keeps (s : State) (haon : s.pw.aon) (hrel : s.pw.released) : KeepsTimeAndQueue s (execPowerOn s) := by
  simp [execPowerOn, haon, hrel]

theorem execPwrokRise_keeps (s : State) (hrel : s.pw.released) : KeepsTimeAndQueue s (execPwrokRise s) := by
  unfold execPwrokRise; dsimp only
  (repeat' split) <;> simp_all

@[simp] theorem execPwrokFall_keeps (s : State) : KeepsTimeAndQueue s (execPwrokFall s) := by
  unfold execPwrokFall
  split <;> simp

theorem execRailOutOfRange_keeps (f : RailFault) (s : State) (hr : Rail.alwaysOn f.rail = false) :
    KeepsTimeAndQueue s (execRailOutOfRange f s) := by
  unfold execRailOutOfRange; dsimp only
  (repeat' split) <;> simp_all

theorem execRailReturn_keeps (rail : Rail) (s : State) (hr : Rail.alwaysOn rail = false) (hrel : s.pw.released) :
    KeepsTimeAndQueue s (execRailReturn rail s) := by
  unfold execRailReturn; dsimp only
  (repeat' split) <;> simp_all

@[simp] theorem execThermalTrip_keeps (s : State) : KeepsTimeAndQueue s (execThermalTrip s) := by
  unfold execThermalTrip
  split <;> simp

@[simp] theorem execCrystalLoss_keeps (s : State) : KeepsTimeAndQueue s (execCrystalLoss s) := by
  unfold execCrystalLoss
  (repeat' split) <;> simp

theorem execCrystalReturn_keeps (s : State) (hrel : s.pw.released) : KeepsTimeAndQueue s (execCrystalReturn s) := by
  unfold execCrystalReturn; dsimp only
  (repeat' split) <;> simp_all

@[simp] theorem execVcoreStep_keeps (up acked : Bool) (s : State) : KeepsTimeAndQueue s (execVcoreStep up acked s) := by
  unfold execVcoreStep; dsimp only
  (repeat' split) <;> simp

@[simp] theorem execAvsRetry_keeps (acked : Bool) (s : State) : KeepsTimeAndQueue s (execAvsRetry acked s) := by
  unfold execAvsRetry
  (repeat' split) <;> simp

@[simp] theorem execJtagInstruction_keeps (ir : JtagOp) (s : State) : KeepsTimeAndQueue s (execJtagInstruction ir s) := by
  unfold execJtagInstruction; dsimp only
  (repeat' split) <;> simp

@[simp] theorem execTestLogicReset_keeps (s : State) : KeepsTimeAndQueue s (execTestLogicReset s) := by
  simp [execTestLogicReset]

@[simp] theorem execClusterReset_keeps (cluster : Nat) (selfTestOk : Bool) (s : State) :
    KeepsTimeAndQueue s (execClusterReset cluster selfTestOk s) := by
  unfold execClusterReset; dsimp only
  (repeat' split) <;> simp

/-! ### Rows of Machine/Registers.lean -/

@[simp] theorem execRegisterReadClear_keeps (bar off size : Nat) (allBytes : Bool) (s : State) :
    KeepsTimeAndQueue s (execRegisterReadClear bar off size allBytes s) := by
  unfold execRegisterReadClear; dsimp only
  (repeat' split) <;> simp

@[simp] theorem execRegisterWrite_keeps (bar off size : Nat) (allBytes : Bool) (val : Word) (s : State) :
    KeepsTimeAndQueue s (execRegisterWrite bar off size allBytes val s) := by
  unfold execRegisterWrite
  (repeat' split) <;> simp

/-! ### A completion timeout, which ends a host read in the row of its reader -/

@[simp] theorem execHostCompletionTimeout_keeps (tag : Nat) (s : State) :
    KeepsTimeAndQueue s (execHostCompletionTimeout tag s) := by
  unfold execHostCompletionTimeout
  split <;> simp

/-! ## R24: device time runs on -/

/-- R24: every row but those of the always-on rails leaves device time as it is, once it runs; power-on, the rise of PWROK and the
return of the crystal, which release the chip, do so before it is released only. -/
theorem exec_keepsTimeAndQueue {c : Instr} {s : State} (hrel : s.pw.released) (haon : s.pw.aon)
    (hc : ¬Safety.alwaysOnEvent c) : KeepsTimeAndQueue s (exec c s) := by
  cases c
  case powerOn => exact execPowerOn_keeps s haon hrel
  case pwrokRise => exact execPwrokRise_keeps s hrel
  case crystalReturn => exact execCrystalReturn_keeps s hrel
  case railOutOfRange f =>
    exact execRailOutOfRange_keeps f s (Bool.eq_false_iff.2 fun h => hc ⟨f.rail, f.above, h, .inl rfl⟩)
  case railReturn rail =>
    exact execRailReturn_keeps rail s (Bool.eq_false_iff.2 fun h => hc ⟨rail, false, h, .inr rfl⟩) hrel
  case opNop | opEnd | opMove | opAdd | opSub | opMul | opDiv | opNeg | opAnd | opOr | opXor | opAndn | opShl | opShr
      | opSar | opCmp | opTst | opTtag | opGtag | opCvt | opOffs | opExts | opRdcc | opStat | opBcc | opBds | opBal |
      opLdh | opLdhr | opSth | opSthr | opLdg | opStg | opSegaddr | opDevh | opRpt | opMovb | opCmpb | opScnb | opFilb
      | opTas | opLrs | opScs | opCommit | opWaith | opWaitg | opRead | opWrite | opControl | opSense | opNvme |
      opScsi | opPmem | customerInstruction | undefinedOpcode | privilegedOpcode =>
    exact s.opRow_keeps _ _ _
  all_goals simp [exec]

end Sys2Proof.Machine

open Sys2Proof.Machine in
/-- Settles O58: a row that changes device time would be one of the always-on rails. -/
theorem deviceTimeRunsOn : Obligations.DeviceTimeRunsOn := by
  intro c s t hrel haon hc ht
  obtain ⟨u, hu, htime, -⟩ := exec_keepsTimeAndQueue hrel haon hc
  obtain rfl := Host.Outcome.next.inj (hu.symm.trans ht)
  exact htime

/-! # Sending an exchange (O17)

The next piece of a program on its way to its device: what the state is as the device command leaves, what the command is, and
what the requests of a PMEM read add. -/

namespace Sys2Proof.Machine

/-! ## Maps -/

/-- A value stored at an absent key, which a filter leaves out, does not change what the filter finds. -/
theorem AMap.filter_put_absent {α : Type} {m : AMap α} {k : Nat} {v : α} {f : Nat × α → Bool} (h : AMap.get? m k = none)
    (hv : f (k, v) = false) : (AMap.put m k v).filter f = m.filter f := by
  induction m with
  | nil => simp [AMap.put, hv]
  | cons e m ih =>
    obtain ⟨j, w⟩ := e
    have hj : j ≠ k := by
      rintro rfl
      simp [AMap.get?] at h
    have hm : AMap.get? m k = none := by simpa [AMap.get?, hj] using h
    simp only [AMap.put]
    split
    · simp [hv]
    · simp [hj.symm, List.filter_cons, ih hm]

theorem AMap.get?_upd_same {α : Type} {m : AMap α} {k : Nat} {v : α} (f : α → α) (h : AMap.get? m k = some v) :
    AMap.get? (AMap.upd m k f) k = some (f v) := by
  simp [AMap.upd, h]

theorem AMap.get?_eq_none_of_has {α : Type} {m : AMap α} {k : Nat} (h : AMap.has m k = false) : AMap.get? m k = none := by
  simpa [AMap.has] using h

/-! ## Commands and their pieces -/

theorem modAt_getElem?_same {α : Type} (l : List α) (k : Nat) (f : α → α) : (modAt l k f)[k]? = l[k]?.map f := by
  induction l generalizing k with
  | nil => rfl
  | cons a l ih =>
    cases k with
    | zero => rfl
    | succ k => exact ih k

theorem State.cmd?_modCmd (s : State) (sch no : Nat) {f : Cmd → Cmd} (hf : ∀ c, (f c).no = c.no) :
    (s.modCmd sch no f).cmd? sch no = (s.cmd? sch no).map f := by
  have hprog : (s.modCmd sch no f).progOf sch = (s.progOf sch).modCmd no f := by
    simp [State.modCmd, State.modProg, State.setProg, State.progOf, AMap.getD]
  have hpred : ∀ c : Cmd, decide ((if c.no = no then f c else c).no = no) = decide (c.no = no) := fun c => by
    split <;> simp [hf]
  rw [State.cmd?, hprog, Prog.cmd?, Prog.modCmd, List.find?_map, State.cmd?, Prog.cmd?]
  simp only [Function.comp_def, hpred]
  cases h : List.find? (fun c => decide (c.no = no)) (s.progOf sch).cmds with
  | none => rfl
  | some c =>
    have hc : c.no = no := by simpa using List.find?_some h
    simp [hc]

/-- The next piece of a program is in its table of commands. -/
theorem State.cmd?_of_nextSend {s : State} {sch i : Nat} {c : Cmd} {p : Piece} (h : s.nextSend sch = some (c, i, p)) :
    s.cmd? sch c.no = some c ∧ c.pieces[i]? = some p := by
  unfold State.nextSend at h
  split at h
  · cases h
  next no j hnext =>
    split at h
    · cases h
    next c' hc =>
      split at h
      · cases h
      next p' hp =>
        split at h
        · cases h
          have hno : c.no = no := by simpa using List.find?_some hc
          exact ⟨hno ▸ hc, hp⟩
        · cases h

/-! ## The exchange that takes its place -/

@[simp] theorem State.takeExch_exch (s : State) (x : Nat) (e : Exch) :
    (s.takeExch x e).dev.exch = AMap.put s.dev.exch x e := rfl

/-- An exchange that waits for room holds no place in the queue pairs of its controller (R361). -/
theorem State.inPair_takeExch {s : State} {x : Nat} {e : Exch} (hx : AMap.get? s.dev.exch x = none) (he : e.st = .queued)
    (quad port : Nat) (ctrl : Word) (pair : Nat) :
    (s.takeExch x e).inPair quad port ctrl pair = s.inPair quad port ctrl pair := by
  unfold State.inPair
  rw [State.takeExch_exch, AMap.filter_put_absent hx (by simp [he])]

theorem State.leastPair_takeExch {s : State} {x : Nat} {e : Exch} (hx : AMap.get? s.dev.exch x = none) (he : e.st = .queued)
    (quad port : Nat) (ctrl : Word) (n : Nat) :
    (s.takeExch x e).leastPair quad port ctrl n = s.leastPair quad port ctrl n := by
  fun_induction State.leastPair s quad port ctrl n with
  | case1 => rfl
  | case2 => rfl
  | case3 n i h ih => simp only [State.leastPair, ih, State.inPair_takeExch hx he]; simp [i, h]
  | case4 n i h ih => simp only [State.leastPair, ih, State.inPair_takeExch hx he]; simp [i, h]

/-- The exchange of a piece is the same one before and after it takes its place in the table. -/
theorem State.newExch_holdExch {s : State} {x sch i pi : Nat} {c : Cmd} {p : Piece} {pd : PathDesc}
    (hx : AMap.get? s.dev.exch x = none) :
    (s.holdExch x sch c i p pi pd).newExch sch c i p pi pd = s.newExch sch c i p pi pd := by
  have hpair : (s.holdExch x sch c i p pi pd).newPair (s.devOf sch) pd = s.newPair (s.devOf sch) pd :=
    State.leastPair_takeExch hx rfl _ _ _ _
  calc (s.holdExch x sch c i p pi pd).newExch sch c i p pi pd
      = { s.newExch sch c i p pi pd with
          pair := if s.devKind (s.devOf sch) = 1 then (s.holdExch x sch c i p pi pd).newPair (s.devOf sch) pd else 0 } := rfl
    _ = s.newExch sch c i p pi pd := by rw [hpair]; rfl

/-! ## The state as the device command leaves -/

@[simp] theorem State.modCtx_devs (s : State) (sch : Nat) (f : Ctx → Ctx) : (s.modCtx sch f).sub.devs = s.sub.devs := rfl
@[simp] theorem State.modCtx_prog (s : State) (sch : Nat) (f : Ctx → Ctx) : (s.modCtx sch f).sub.prog = s.sub.prog := rfl
@[simp] theorem State.modCmd_devs (s : State) (sch no : Nat) (f : Cmd → Cmd) : (s.modCmd sch no f).sub.devs = s.sub.devs := rfl
@[simp] theorem State.modCmd_ctx (s : State) (sch no : Nat) (f : Cmd → Cmd) : (s.modCmd sch no f).sub.ctx = s.sub.ctx := rfl
@[simp] theorem State.modExch_disc (s : State) (x : Nat) (f : Exch → Exch) : (s.modExch x f).dev.disc = s.dev.disc := rfl
@[simp] theorem State.modExch_quads (s : State) (x : Nat) (f : Exch → Exch) : (s.modExch x f).dev.quads = s.dev.quads := rfl
@[simp] theorem State.modExch_exch (s : State) (x : Nat) (f : Exch → Exch) :
    (s.modExch x f).dev.exch = AMap.upd s.dev.exch x f := rfl
@[simp] theorem State.withdraw_reqs (s : State) (who : ReqWho) :
    (s.withdraw who).md.reqs = s.md.reqs.filter fun r => r.who ≠ who := rfl

@[simp] theorem State.knowPos_q (s : State) (sch : Nat) (c : Cmd) : (s.knowPos sch c).q = s.q := by
  unfold State.knowPos; dsimp only
  split <;> rfl

@[simp] theorem State.knowPos_ctx (s : State) (sch : Nat) (c : Cmd) : (s.knowPos sch c).sub.ctx = s.sub.ctx := by
  unfold State.knowPos; dsimp only
  split <;> rfl

@[simp] theorem State.knowPos_devs (s : State) (sch : Nat) (c : Cmd) : (s.knowPos sch c).sub.devs = s.sub.devs := by
  unfold State.knowPos; dsimp only
  split <;> rfl

@[simp] theorem State.knowPos_exch (s : State) (sch : Nat) (c : Cmd) : (s.knowPos sch c).dev.exch = s.dev.exch := by
  unfold State.knowPos; dsimp only
  split <;> rfl

@[simp] theorem State.knowPos_quads (s : State) (sch : Nat) (c : Cmd) : (s.knowPos sch c).dev.quads = s.dev.quads := by
  unfold State.knowPos; dsimp only
  split <;> rfl

@[simp] theorem State.knowPos_disc (s : State) (sch : Nat) (c : Cmd) : (s.knowPos sch c).dev.disc = s.dev.disc := by
  unfold State.knowPos; dsimp only
  split <;> rfl

@[simp] theorem State.countRedrive_sub (s : State) (p : Piece) : (s.countRedrive p).sub = s.sub := by
  unfold State.countRedrive
  split <;> rfl

@[simp] theorem State.useConn_exch (s : State) (dev : Nat) (pd : PathDesc) : (s.useConn dev pd).dev.exch = s.dev.exch := by
  simp only [State.useConn, State.usePort, apply_ite State.dev, apply_ite Devices.exch, State.modPort, State.modQuad]
  simp [apply_ite State.dev]

@[simp] theorem State.useConn_disc (s : State) (dev : Nat) (pd : PathDesc) : (s.useConn dev pd).dev.disc = s.dev.disc := by
  simp only [State.useConn, State.usePort, apply_ite State.dev, apply_ite Devices.disc, State.modPort, State.modQuad]
  simp [apply_ite State.dev]

/-- A link that rests wakes for a frame (R386). -/
theorem State.useConn_out (s : State) (dev : Nat) (pd : PathDesc) :
    (s.useConn dev pd).out
      = s.out ++ if (s.portOf pd.quad pd.port).rests s.time then [Out.linkWake pd.quad pd.port] else [] := by
  simp only [State.useConn, State.usePort, apply_ite State.out, State.modPort, State.modQuad]
  simp only [State.onDev_out, ite_self]
  split <;> simp

@[simp] theorem State.wantRead_reqs (s : State) (sch no : Nat) (p : Piece) :
    (s.wantRead sch no p).md.reqs = s.md.reqs := by
  unfold State.wantRead
  refine foldl_keeps (fun t => t.md.reqs) _ (fun t e => ?_) _ _
  split
  · simp only [State.awaitChan, State.await]
    (repeat' split) <;> rfl
  · rfl

/-- `sendExch` up to the device command: the exchange is marked as sent in the table and in its piece. -/
def State.armExch (s : State) (x sch : Nat) (c : Cmd) (i : Nat) (p : Piece) (pi : Nat) (pd : PathDesc) : State :=
  let e := { s.newExch sch c i p pi pd with st := ExSt.sent }
  let s1 := ((s.withdraw (.exch sch)).knowPos sch c).countRedrive p
  let s2 := (s1.modCmd sch c.no fun c => { c with pieces := modAt c.pieces i fun p => { p with st := .sent x } }).modCtx sch
    fun k => { k with pgen := e.pgen, lpath := BitVec.ofNat 3 pi, lpd := some (pd.quad, pd.port) }
  let s3 := (((s2.modExch x fun _ => e).tallyIssue 1 e.slotUnits).mark 38).mark 39
  ((s3.inherit sch c.no i x).useConn e.dev pd).wantRead sch c.no p

section
variable (s : State) (x sch : Nat) (c : Cmd) (i : Nat) (p : Piece) (pi : Nat) (pd : PathDesc)

theorem State.sendExch_eq : s.sendExch x sch c i p pi pd
    = ((s.armExch x sch c i p pi pd).emitCmd x (s.devOf sch) pd c p).progress sch := rfl

theorem State.armExch_frame : (s.armExch x sch c i p pi pd).time = s.time ∧ (s.armExch x sch c i p pi pd).q = s.q
    ∧ (s.armExch x sch c i p pi pd).sx = s.sx ∧ (s.armExch x sch c i p pi pd).link = s.link
    ∧ (s.armExch x sch c i p pi pd).sub.devs = s.sub.devs ∧ (s.armExch x sch c i p pi pd).dev.disc = s.dev.disc := by
  refine ⟨?_, ?_, ?_, ?_, ?_, ?_⟩ <;> simp [State.armExch]


theorem State.armExch_exch (e : Exch) (hx : AMap.get? s.dev.exch x = some e) :
    AMap.get? (s.armExch x sch c i p pi pd).dev.exch x = some { s.newExch sch c i p pi pd with st := .sent } := by
  simp [State.armExch, AMap.get?_upd_same _ hx]

theorem State.knowPos_cmd? : ∃ q : Cmd → Option Nat,
    (s.knowPos sch c).cmd? sch c.no = (s.cmd? sch c.no).map fun c => { c with p0 := q c } := by
  unfold State.knowPos; dsimp only
  split
  · exact ⟨fun c => c.p0, by simp⟩
  · exact ⟨fun _ => _, State.cmd?_modCmd _ _ _ fun _ => rfl⟩

/-- The piece that the exchange carries is the one that it was sent for. -/
theorem State.armExch_pieceOf {c' : Cmd} {p' : Piece} (e : Exch) (hx : AMap.get? s.dev.exch x = some e)
    (hc : s.cmd? sch c.no = some c) (hp : c.pieces[i]? = some p)
    (h : (s.armExch x sch c i p pi pd).pieceOf x = some (c', p')) : p'.len = p.len := by
  have hprog : (s.armExch x sch c i p pi pd).sub.prog = (((s.withdraw (.exch sch)).knowPos sch c).modCmd sch c.no fun c =>
      { c with pieces := modAt c.pieces i fun p => { p with st := .sent x } }).sub.prog := by
    simp [State.armExch, State.modCmd, State.modProg, State.setProg, State.progOf]
  obtain ⟨q, hq⟩ := (s.withdraw (.exch sch)).knowPos_cmd? sch c
  have hcmd : (s.armExch x sch c i p pi pd).cmd? sch c.no = some { c with
      p0 := q c, pieces := modAt c.pieces i fun p => { p with st := .sent x } } := by
    have hw : (s.withdraw (.exch sch)).cmd? sch c.no = some c := hc
    rw [State.cmd?, State.progOf, hprog, ← State.progOf, ← State.cmd?, State.cmd?_modCmd _ _ _ (by simp), hq, hw]
    rfl
  unfold State.pieceOf at h
  rw [s.armExch_exch x sch c i p pi pd e hx] at h
  simp only [State.newExch] at h
  rw [hcmd] at h
  simp only [modAt_getElem?_same, hp, Option.map_some, if_true] at h
  cases h
  rfl

theorem State.armExch_out : (s.armExch x sch c i p pi pd).out
    = s.out ++ if (s.portOf pd.quad pd.port).rests s.time then [Out.linkWake pd.quad pd.port] else [] := by
  simp [State.armExch, State.useConn_out, State.portOf, State.quadOf]

theorem State.armExch_reqs :
    (s.armExch x sch c i p pi pd).md.reqs = s.md.reqs.filter fun r => r.who ≠ .exch sch := by
  simp [State.armExch]

theorem State.armExch_ctx : (s.armExch x sch c i p pi pd).sub.ctx = (s.modCtx sch fun k => { k with
    pgen := (s.newExch sch c i p pi pd).pgen, lpath := BitVec.ofNat 3 pi, lpd := some (pd.quad, pd.port) }).sub.ctx := by
  simp [State.armExch, State.modCtx, State.setCtx, State.ctxOf]

theorem State.armExch_ctxOf (h : AMap.wf s.sub.ctx Ctx.zero) :
    ((s.armExch x sch c i p pi pd).ctxOf sch).xout = (s.ctxOf sch).xout
      ∧ ∀ k, k ≠ sch → (s.armExch x sch c i p pi pd).ctxOf k = s.ctxOf k := by
  have hsort := ((AMap.wf_iff _ _).1 h).1
  simp only [State.ctxOf, State.armExch_ctx]
  exact ⟨(congrArg Ctx.xout (State.ctxOf_setCtx_same s sch _ hsort) :), fun k hk => AMap.getD_store_other _ _ _ hk⟩

end

/-! ## The device command, and the requests of a PMEM read -/

theorem State.request_granted (s : State) (res : Nat) (key : Bool × Time) (rix sch : Nat) (who w : ReqWho) :
    (s.request res key rix sch who).granted w = s.granted w := by
  unfold State.request
  split <;> simp [State.granted]

theorem State.withdraw_granted {s : State} (who : ReqWho) {w : ReqWho} (h : s.granted w = false) :
    (s.withdraw who).granted w = false := by
  simp only [State.granted, List.any_eq_false, State.withdraw_reqs] at h ⊢
  exact fun r hr => h r (List.mem_of_mem_filter hr)

theorem State.withdraw_granted_same (s : State) (who : ReqWho) : (s.withdraw who).granted who = false := by
  simp only [State.granted, List.any_eq_false, State.withdraw_reqs, List.mem_filter]
  simp +contextual

theorem State.sendRead_exch {s : State} {x : Nat} {e : Exch} (hx : AMap.get? s.dev.exch x = some e) (p : Piece) :
    AMap.get? (s.sendRead x e p).dev.exch x = some { e with sentOff := e.sentOff + (pmemRead p e.sentOff).2 } :=
  AMap.get?_upd_same _ hx

@[simp] theorem State.sendRead_out (s : State) (x : Nat) (e : Exch) (p : Piece) :
    (s.sendRead x e p).out = s.out ++ [.pmemRead x e.ctrl (pmemRead p e.sentOff).1 (pmemRead p e.sentOff).2] := by
  simp [State.sendRead, State.modExch]

theorem State.sendRead_pieceOf {s : State} {x : Nat} {e : Exch} (hx : AMap.get? s.dev.exch x = some e) (p : Piece) :
    (s.sendRead x e p).pieceOf x = s.pieceOf x := by
  unfold State.pieceOf
  rw [State.sendRead_exch hx p, hx]
  rfl

/-- What sending more requests of an exchange leaves: how far the exchange has come, the output, no grant. -/
theorem State.sendReads_keeps {x : Nat} {e : Exch} (n : Nat) {s : State} (hx : AMap.get? s.dev.exch x = some e) :
    (∃ m, AMap.get? (State.sendReads n s x).dev.exch x = some { e with sentOff := m })
      ∧ (∃ l, (State.sendReads n s x).out = s.out ++ l)
      ∧ ∀ k, s.granted (.exch k) = false → (State.sendReads n s x).granted (.exch k) = false := by
  induction n generalizing s e with
  | zero => exact ⟨⟨_, hx⟩, ⟨[], by simp [State.sendReads]⟩, fun _ h => h⟩
  | succ n ih =>
    unfold State.sendReads
    rw [hx]
    cases hp : s.pieceOf x with
    | none => exact ⟨⟨_, hx⟩, ⟨[], by simp⟩, fun _ h => h⟩
    | some q =>
      obtain ⟨c, p⟩ := q
      dsimp only
      split
      · exact ⟨⟨_, hx⟩, ⟨[], by simp⟩, fun _ h => h⟩
      split
      · obtain ⟨⟨m, hm⟩, ⟨l, hl⟩, hg⟩ := ih (State.sendRead_exch hx p)
        refine ⟨⟨m, hm⟩,
          ⟨.pmemRead x e.ctrl (pmemRead p e.sentOff).1 (pmemRead p e.sentOff).2 :: l, ?_⟩, fun k h => hg k ?_⟩
        · simp [hl]
        · exact State.withdraw_granted _ h
      · exact ⟨⟨_, by simpa using hx⟩, ⟨[], by simp⟩, fun k h => by rwa [State.request_granted]⟩

/-- The requests of a piece whose bytes have all been asked for are at an end. -/
theorem State.sendReads_done {x : Nat} {e : Exch} {s : State} (hx : AMap.get? s.dev.exch x = some e)
    (h : ∀ c p, s.pieceOf x = some (c, p) → p.len ≤ e.sentOff) (n : Nat) : State.sendReads n s x = s := by
  cases n with
  | zero => rfl
  | succ n =>
    unfold State.sendReads
    rw [hx]
    cases hp : s.pieceOf x with
    | none => rfl
    | some q => simp [h q.1 q.2 hp]

/-- What leaves as an exchange begins: its device command, or the first request of a PMEM read. -/
def State.openingOuts (s : State) (x dev : Nat) (ctrl : Word) (pd : PathDesc) (c : Cmd) (p : Piece) : List Out :=
  if s.devKind dev = 3 then if c.toMem then [Out.pmemRead x ctrl p.blk (min 512 p.len)] else []
  else [Out.devCmd x (s.targetOf dev pd) (s.cmdBytes dev (x % 4096) c p) (paramBytes (s.devKind dev) (s.blkOf dev) c p)
    (s.devKind dev = 2) p.st.again]

theorem State.openingOuts_congr {s u : State} (hdevs : u.sub.devs = s.sub.devs) (hdisc : u.dev.disc = s.dev.disc) (x dev : Nat)
    (ctrl : Word) (pd : PathDesc) (c : Cmd) (p : Piece) : u.openingOuts x dev ctrl pd c p = s.openingOuts x dev ctrl pd c p := by
  have hkind : u.devKind dev = s.devKind dev := by simp [State.devKind, hdevs]
  have htarget : u.targetOf dev pd = s.targetOf dev pd := by simp [State.targetOf, hdevs]
  have hbytes : u.cmdBytes dev (x % 4096) c p = s.cmdBytes dev (x % 4096) c p := by simp [State.cmdBytes, hdevs, hdisc]
  have hblk : u.blkOf dev = s.blkOf dev := by simp [State.blkOf, State.discOf, hdevs, hdisc]
  rw [State.openingOuts, hkind, htarget, hbytes, hblk, State.openingOuts]

/-- What wakes a link that rests (R386). -/
def State.wakeOuts (s : State) (pd : PathDesc) : List Out :=
  if (s.portOf pd.quad pd.port).rests s.time then [Out.linkWake pd.quad pd.port] else []

/-- The device command of an exchange that stands in the table, sent now; a PMEM read has a first request instead. -/
theorem State.emitCmd_sends {s : State} {x dev : Nat} {pd : PathDesc} {c : Cmd} {p : Piece} {e : Exch}
    (hx : AMap.get? s.dev.exch x = some e) (he : e.sentOff = 0)
    (hp : ∀ c' p', s.pieceOf x = some (c', p') → p'.len = p.len) :
    (∃ n, AMap.get? (s.emitCmd x dev pd c p).dev.exch x = some { e with sentOff := n }
        ∧ (s.devKind dev ≠ 3 ∨ c.toMem = false → n = 0))
      ∧ (∃ l, (s.emitCmd x dev pd c p).out = s.out ++ s.openingOuts x dev e.ctrl pd c p ++ l
          ∧ (s.devKind dev ≠ 3 ∨ c.toMem = false ∨ p.len ≤ 512 → l = []))
      ∧ ∀ k, s.granted (.exch k) = false → (s.emitCmd x dev pd c p).granted (.exch k) = false := by
  have hkind : ((AMap.get? s.sub.devs dev).map (·.kind)).getD 0 = s.devKind dev := rfl
  unfold State.emitCmd State.openingOuts
  dsimp only
  rw [hkind]
  by_cases h3 : s.devKind dev = 3
  · cases hm : c.toMem with
    | false => exact ⟨⟨0, by simp [h3, hx, ← he], by simp⟩, ⟨[], by simp [h3]⟩, by simp [h3]⟩
    | true =>
      have hx1 : AMap.get? (s.sendRead x e p).dev.exch x = some { e with sentOff := min 512 p.len } := by
        simpa [he, pmemRead] using State.sendRead_exch hx p
      obtain ⟨⟨n, hn⟩, ⟨l, hl⟩, hg⟩ := State.sendReads_keeps (p.len / 512 + 1) hx1
      simp only [h3, hx, Bool.not_true, Bool.false_eq_true, if_true, if_false]
      refine ⟨⟨n, hn, by simp⟩, ⟨l, by simp [hl, pmemRead, he], fun hlen => ?_⟩,
        fun k h => hg k (State.withdraw_granted _ h)⟩
      have hdone : State.sendReads (p.len / 512 + 1) (s.sendRead x e p) x = s.sendRead x e p :=
        State.sendReads_done hx1 (fun c' p' h => by
          have hlen' := hp c' p' (State.sendRead_pieceOf hx p ▸ h)
          simp at hlen
          dsimp only
          omega) _
      rw [hdone] at hl
      simpa using hl
  · simp only [h3, if_false]
    exact ⟨⟨0, by simp [hx, ← he], by simp⟩, ⟨[], by simp⟩, fun k h => h⟩

/-! ## What an issue leaves when its program goes on -/

theorem State.progress_of_xout {s : State} {sch : Nat} (h : (s.ctxOf sch).xout ≠ 0) :
    s.progress sch = s ∨ s.progress sch = (s.modProg sch fun p => { p with wait := .dispatch }).requeue sch := by
  unfold State.progress
  simp only [h, ne_eq, not_false_eq_true, if_true]
  (repeat' split) <;> simp

theorem State.requeue_granted (s : State) (sch : Nat) (w : ReqWho) : (s.requeue sch).granted w = s.granted w := by
  unfold State.requeue State.requeueAt
  dsimp only
  rw [State.request_granted]
  split <;> rfl

theorem State.requeue_ctx (s : State) (sch : Nat) :
    (s.requeue sch).sub.ctx = (s.modCtx sch fun c => { c with dreq := true, deadline := (s.stamp sch s.time).2 }).sub.ctx := by
  simp only [State.requeue, State.requeueAt, State.request_frame]
  split <;> rfl

section
variable {s : State} {sch : Nat} (hxout : (s.ctxOf sch).xout ≠ 0)
include hxout

/-- While commands are out, a program at most asks for its thread again. -/
theorem State.progress_granted (w : ReqWho) : (s.progress sch).granted w = s.granted w := by
  rcases State.progress_of_xout hxout with h | h <;> rw [h]
  rw [State.requeue_granted]
  rfl

theorem State.progress_ctxOf (hwf : AMap.wf s.sub.ctx Ctx.zero) :
    ((s.progress sch).ctxOf sch).xout = (s.ctxOf sch).xout ∧ ∀ k, k ≠ sch → (s.progress sch).ctxOf k = s.ctxOf k := by
  have hsort := ((AMap.wf_iff _ _).1 hwf).1
  rcases State.progress_of_xout hxout with h | h <;> rw [h]
  · exact ⟨rfl, fun _ _ => rfl⟩
  · simp only [State.ctxOf, State.requeue_ctx]
    exact ⟨(congrArg Ctx.xout (State.ctxOf_setCtx_same _ sch _ hsort) :), fun k hk => AMap.getD_store_other _ _ _ hk⟩

end

theorem State.armExch_ctx_wf (s : State) (x sch : Nat) (c : Cmd) (i : Nat) (p : Piece) (pi : Nat) (pd : PathDesc)
    (hwf : AMap.wf s.sub.ctx Ctx.zero) : AMap.wf (s.armExch x sch c i p pi pd).sub.ctx Ctx.zero := by
  rw [State.armExch_ctx]
  exact State.modCtx_wf _ _ _ hwf

/-- The command of an exchange that stands in the table leaves. -/
theorem State.sendExch_sends {s t : State} {x sch : Nat} {c : Cmd} {i : Nat} {p : Piece} (pi : Nat) (pd : PathDesc) {e : Exch}
    (hwf : AMap.wf s.sub.ctx Ctx.zero) (hx : AMap.get? s.dev.exch x = some e) (hc : s.cmd? sch c.no = some c)
    (hp : c.pieces[i]? = some p) (hxout : (s.ctxOf sch).xout ≠ 0) (ht : t = s.sendExch x sch c i p pi pd) :
    (∃ n, AMap.get? t.dev.exch x = some { s.newExch sch c i p pi pd with st := .sent, sentOff := n }
        ∧ (s.devKind (s.devOf sch) ≠ 3 ∨ c.toMem = false → n = 0))
      ∧ (∃ l, t.out = s.out
          ++ (s.wakeOuts pd ++ s.openingOuts x (s.devOf sch) (s.targetOf (s.devOf sch) pd) pd c p) ++ l
          ∧ (s.devKind (s.devOf sch) ≠ 3 ∨ c.toMem = false ∨ p.len ≤ 512 → l = []))
      ∧ t.granted (.exch sch) = false ∧ (t.ctxOf sch).xout = (s.ctxOf sch).xout ∧ (∀ k, k ≠ sch → t.ctxOf k = s.ctxOf k)
      ∧ t.q = s.q ∧ t.sx = s.sx ∧ t.link = s.link := by
  obtain ⟨-, hq, hsx, hlink, hdevs, hdisc⟩ := s.armExch_frame x sch c i p pi pd
  obtain ⟨hxo, hothers⟩ := s.armExch_ctxOf x sch c i p pi pd hwf
  have hemit := State.emitCmd_sends (dev := s.devOf sch) (pd := pd) (c := c)
    (s.armExch_exch x sch c i p pi pd e hx) rfl fun c' p' h => s.armExch_pieceOf x sch c i p pi pd e hx hc hp h
  have hout := s.armExch_out x sch c i p pi pd
  have hreqs := s.armExch_reqs x sch c i p pi pd
  have hwf' := s.armExch_ctx_wf x sch c i p pi pd hwf
  rw [ht, State.sendExch_eq]
  generalize s.armExch x sch c i p pi pd = u at *
  have hkind : u.devKind (s.devOf sch) = s.devKind (s.devOf sch) := by simp [State.devKind, hdevs]
  rw [hkind, State.openingOuts_congr hdevs hdisc, hout] at hemit
  obtain ⟨hn, ⟨l, hl, hl0⟩, hg⟩ := hemit
  have hctx : ∀ k, (u.emitCmd x (s.devOf sch) pd c p).ctxOf k = u.ctxOf k := fun k => by simp [State.ctxOf]
  have hne : ((u.emitCmd x (s.devOf sch) pd c p).ctxOf sch).xout ≠ 0 := by rwa [hctx, hxo]
  obtain ⟨hpx, hpk⟩ := State.progress_ctxOf hne (by simpa using hwf')
  refine ⟨by simpa using hn, ⟨l, ?_, hl0⟩, ?_, by rw [hpx, hctx, hxo], fun k hk => by rw [hpk k hk, hctx, hothers k hk],
    by simp [hq], by simp [hsx], by simp [hlink]⟩
  · calc ((u.emitCmd x (s.devOf sch) pd c p).progress sch).out = (u.emitCmd x (s.devOf sch) pd c p).out := by simp
      _ = _ := hl
      _ = _ := by rw [List.append_assoc s.out]; rfl
  · rw [State.progress_granted hne]
    refine hg sch ?_
    have hnone := State.withdraw_granted_same s (.exch sch)
    simpa [State.granted, hreqs] using hnone

/-! ## The step of an exchange -/

section
variable {s : State} {sch idx i : Nat} {c : Cmd} {p : Piece} (hnext : s.nextSend sch = some (c, i, p))
include hnext

/-- A new exchange whose path, connection, grant and place are there goes to its device, or waits there for room. -/
theorem exec_exchangeSend_new {pi : Nat} {pd : PathDesc} (hbar : s.barred sch c = false) (hqueued : s.queuedOf sch = none)
    (hpath : s.nextPath sch = some (pi, pd)) (hconn : s.connReady (s.devOf sch) pd)
    (hgrant : s.md.reqs.any (fun r => r.who = .exch sch && r.res = 3 + pd.quad && r.granted)) (hidx : idx < 4096)
    (habsent : AMap.has s.dev.exch (4096 * pd.quad + idx) = false) (hpool : s.poolFree (5 + pd.quad) (s.clsOf sch)) :
    exec (.exchangeSend sch idx) s = .next (if s.slotTurn (s.newExch sch c i p pi pd)
      then (s.holdExch (4096 * pd.quad + idx) sch c i p pi pd).sendExch (4096 * pd.quad + idx) sch c i p pi pd
      else (((s.holdExch (4096 * pd.quad + idx) sch c i p pi pd).withdraw (.exch sch)).waited
        (if s.devKind (s.devOf sch) = 1 then 38 else 39)).progress sch) := by
  have hidx' : ¬ 4096 ≤ idx := by omega
  change execExchangeSend sch idx s = _
  unfold execExchangeSend
  simp only [hnext, hbar, hqueued, hpath, hconn, hgrant, habsent, hpool, hidx', Bool.not_true, if_false,
    Bool.false_eq_true, decide_false, Bool.or_self]

/-- A queued exchange without its path gives its place up. -/
theorem exec_exchangeSend_noPath {x : Nat} {e : Exch} (hbar : s.barred sch c = false) (hqueued : s.queuedOf sch = some (x, e))
    (hpath : s.pathNow e = none ∨ s.usable e.dev e.pathDesc = false) :
    exec (.exchangeSend sch idx) s = .next (((s.dropExch x).withdraw (.exch sch)).wantSend sch) := by
  change execExchangeSend sch idx s = _
  unfold execExchangeSend
  simp only [hnext, hbar, hqueued, Bool.false_eq_true, if_false]
  cases hnow : s.pathNow e with
  | none => rfl
  | some pi =>
    have husable : s.usable e.dev e.pathDesc = false := by simpa [hnow] using hpath
    simp [husable]

/-- A queued exchange with its path and its grant goes when its connection and its room are there. -/
theorem exec_exchangeSend_queued {x pi : Nat} {e : Exch} (hbar : s.barred sch c = false)
    (hqueued : s.queuedOf sch = some (x, e)) (hnow : s.pathNow e = some pi) (husable : s.usable e.dev e.pathDesc)
    (hgrant : s.granted (.exch sch)) :
    exec (.exchangeSend sch idx) s = .next (if !s.connReady e.dev e.pathDesc then (s.withdraw (.exch sch)).wantSend sch
      else if !s.slotTurn e then s.withdraw (.exch sch) else s.sendExch x sch c i p pi e.pathDesc) := by
  change execExchangeSend sch idx s = _
  unfold execExchangeSend
  simp only [hnext, hbar, hqueued, hnow, husable, hgrant, Bool.not_true, Bool.false_eq_true, if_false]

/-- A piece that has no business at a lost position is not sent (R393). -/
theorem exec_exchangeSend_lost (hlost : (s.seqOf (s.devOf sch)).lost) (hop : c.op ≠ .control ∨ c.code ∉ [3, 7, 8]) :
    exec (.exchangeSend sch idx) s = .next (s.refuseSend sch c.no i) := by
  have hbar : s.barred sch c = true := by
    unfold State.barred
    rcases hop with hop | hcode
    · simp_all
    · simp_all
  change execExchangeSend sch idx s = _
  unfold execExchangeSend
  simp only [hnext, hbar, if_true]

end

section
variable (s : State) (x sch : Nat) (c : Cmd) (i : Nat) (p : Piece) (pi : Nat) (pd : PathDesc)

theorem State.holdExch_get :
    AMap.get? (s.holdExch x sch c i p pi pd).dev.exch x = some (s.newExch sch c i p pi pd) :=
  AMap.get?_put_same _ _ _

/-- The place in the table is all that a new exchange takes of what its command and its path are read from. -/
theorem State.holdExch_reads : (s.holdExch x sch c i p pi pd).time = s.time ∧ (s.holdExch x sch c i p pi pd).out = s.out
    ∧ (s.holdExch x sch c i p pi pd).q = s.q ∧ (s.holdExch x sch c i p pi pd).sx = s.sx
    ∧ (s.holdExch x sch c i p pi pd).link = s.link ∧ (s.holdExch x sch c i p pi pd).sub = s.sub
    ∧ (s.holdExch x sch c i p pi pd).dev.disc = s.dev.disc ∧ (s.holdExch x sch c i p pi pd).dev.quads = s.dev.quads :=
  by simp [State.holdExch, State.takeExch]

/-- What the command of a new exchange is made of, and where it goes, does not depend on its place in the table. -/
theorem State.holdExch_sources {u : State} (hu : u = s.holdExch x sch c i p pi pd) : u.devOf sch = s.devOf sch
    ∧ (∀ d, u.devKind d = s.devKind d) ∧ (∀ d, u.targetOf d pd = s.targetOf d pd)
    ∧ (∀ d ctrl, u.openingOuts x d ctrl pd c p = s.openingOuts x d ctrl pd c p) ∧ u.wakeOuts pd = s.wakeOuts pd
    ∧ ∀ k, u.ctxOf k = s.ctxOf k := by
  obtain ⟨htime, -, -, -, -, hsub, hdisc, hquads⟩ := s.holdExch_reads x sch c i p pi pd
  rw [← hu] at htime hsub hdisc hquads
  refine ⟨by simp [State.devOf, State.ctxOf, hsub], fun d => by simp [State.devKind, hsub],
    fun d => by simp [State.targetOf, hsub], fun d ctrl => State.openingOuts_congr (by rw [hsub]) hdisc _ _ _ _ _ _,
    by simp [State.wakeOuts, State.portOf, State.quadOf, hquads, htime], fun k => by simp [State.ctxOf, hsub]⟩

/-- An exchange for which its device has no room waits in the table. -/
theorem State.holdExch_waits (m : Nat) (hwf : AMap.wf s.sub.ctx Ctx.zero) (hxout : (s.ctxOf sch).xout ≠ 0) {t : State}
    (ht : t = (((s.holdExch x sch c i p pi pd).withdraw (.exch sch)).waited m).progress sch) :
    AMap.get? t.dev.exch x = some (s.newExch sch c i p pi pd) ∧ t.out = s.out ∧ t.granted (.exch sch) = false
      ∧ (∀ k, k ≠ sch → t.ctxOf k = s.ctxOf k) ∧ t.q = s.q ∧ t.sx = s.sx ∧ t.link = s.link := by
  have hget := s.holdExch_get x sch c i p pi pd
  obtain ⟨-, hout, hq, hsx, hlink, hsub, -, -⟩ := s.holdExch_reads x sch c i p pi pd
  generalize s.holdExch x sch c i p pi pd = u at *
  have hctx : ∀ k, ((u.withdraw (.exch sch)).waited m).ctxOf k = s.ctxOf k := fun k => by simp [State.ctxOf, hsub]
  have hne : (((u.withdraw (.exch sch)).waited m).ctxOf sch).xout ≠ 0 := by rwa [hctx]
  have hgrant : ((u.withdraw (.exch sch)).waited m).granted (.exch sch) = false := State.withdraw_granted_same u _
  obtain ⟨-, hothers⟩ := State.progress_ctxOf hne (by simpa [hsub] using hwf)
  rw [ht]
  refine ⟨by simpa using hget, by simp [hout], by rwa [State.progress_granted hne],
    fun k hk => (hothers k hk).trans (hctx k), by simp [hq], by simp [hsx], by simp [hlink]⟩

end

end Sys2Proof.Machine

open Sys2Proof.Machine in
/-- Settles O17. A new exchange takes its place and then goes as a queued one does (`State.sendExch_sends`), or stays for want of
room; the other clauses are the branches of the step. -/
theorem exchangeSend : Obligations.ExchangeSend := by
  unfold Obligations.ExchangeSend
  refine ⟨?_, fun s sch idx x i c p e hnext hbar hqueued hpath => exec_exchangeSend_noPath hnext hbar hqueued hpath, ?_,
    fun s sch idx i c p hnext hlost hop => exec_exchangeSend_lost hnext hlost hop⟩
  · intro s sch idx x i pi kind c p pd os hwf hnext hbar hqueued hpath hx hconn hgrant hidx habsent hpool hxout hkind hos
    subst hx hkind hos
    have hexec := exec_exchangeSend_new hnext hbar hqueued hpath hconn hgrant hidx habsent hpool
    obtain ⟨hcmd, hpiece⟩ := State.cmd?_of_nextSend hnext
    have hfree := AMap.get?_eq_none_of_has habsent
    have hmod : (4096 * pd.quad + idx) % 4096 = idx := by omega
    refine ⟨fun hturn => ⟨_, by rw [hexec, if_pos hturn], ?_⟩,
      fun hturn => ⟨_, by rw [hexec, if_neg (by simp [hturn])], s.holdExch_waits _ sch c i p pi pd _ hwf hxout rfl⟩⟩
    obtain ⟨-, hout, hq, hsx, hlink, hsub, -, -⟩ := s.holdExch_reads (4096 * pd.quad + idx) sch c i p pi pd
    obtain ⟨hdev, hkind, htarget, hopen, hwake, hctx⟩ := s.holdExch_sources (4096 * pd.quad + idx) sch c i p pi pd rfl
    have hsends := State.sendExch_sends (s := s.holdExch (4096 * pd.quad + idx) sch c i p pi pd) pi pd (hsub ▸ hwf)
      (s.holdExch_get _ sch c i p pi pd) (by rwa [State.cmd?, State.progOf, hsub]) hpiece (by rwa [hctx]) rfl
    rw [State.newExch_holdExch hfree] at hsends
    simp only [hdev, hkind, htarget, hopen, hwake, hctx, hout, hq, hsx, hlink] at hsends
    simpa only [State.openingOuts, State.wakeOuts, hmod] using hsends
  · intro s sch idx x i pi c p e hnext hbar hqueued hnow husable hgrant
    have hexec := exec_exchangeSend_queued (idx := idx) hnext hbar hqueued hnow husable hgrant
    refine ⟨fun hconn hturn => ?_, fun hconn hturn => ?_, fun hconn => ?_⟩ <;> rw [hexec]
    · simp [hconn, hturn]
    · simp [hconn, hturn]
    · simp [hconn]

/-! # The windows of a device (O25)

A request of no bytes at the upper end of the aperture starts at what would be exchange 4096 of its quad: the number
4096 * quad + 4096 is that of exchange 0 of the next quad. -/

namespace Sys2Proof.Machine

/-- The piece of a WRITE that exchange 0 of quad 9 carries. -/
def neighbourPiece : Piece := ⟨0, 512, 5, 1, .sent 36864⟩

/-- The command of exchange 0 of quad 9. -/
def neighbourCmd : Cmd where
  no := 0
  op := .write
  code := 0
  chc := false
  ist := false
  hlf := false
  count := 512
  toMem := false
  blk := 5
  entry := 0
  cdbLen := 0
  ext := []
  pieces := [neighbourPiece]
  fails := []
  p0 := none
  half := false
  full := false
  poison := false
  ended := false
  aborted := false

/-- Exchange 0 of quad 9, on port 1, at its NVMe device. -/
def neighbourExch : Exch where
  sch := 7
  cmd := 0
  pc := 0
  quad := 9
  port := 1
  path := 0
  pgen := 1
  dev := 6
  kind := 1
  pair := 0
  st := .reached
  abortDue := none
  escDue := none
  redrive := false
  lo := 5
  hi := 6
  sentOff := 0
  bg := false
  dl := 0
  ctrl := 0

/-- The links of quad 8 are up as PCIe ports; the one exchange that stands belongs to quad 9. -/
def neighbourState : State :=
  { State.reset with
    sub := { Subch.reset with prog := [(7, { Prog.zero with cmds := [neighbourCmd] })] }
    dev := { Devices.reset with
      exch := [(36864, neighbourExch)]
      quads := modAt Devices.reset.quads 8 fun _ =>
        { Quad.reset with cfg := { QuadRec.off with mode := 2 }, ports := List.replicate 4 { Port.reset with st := 2 } } } }

/-- A read of no bytes at the end of the aperture. -/
def emptyRead : DevMemReq where
  write := false
  addr := 0x300000000
  len := 0
  data := []
  segs := []
  fault := .sound
  bad := []
  fixed := 0

/-- The output of a state that a command leads to. -/
def stepOuts : Res → List Out
  | .next t => t.out
  | _ => []

theorem devWin_emptyRead : devWin emptyRead.addr.toNat emptyRead.len = .aperture 4096 0 := by decide

/-- The port of quad 8 is up, and the exchange of quad 9 is live with nothing to wait for. -/
theorem neighbourState_ready : neighbourState.portUp 8 1 ∧ isPcie (neighbourState.quadOf 8).cfg.mode
    ∧ (neighbourState.usePort 8 1).livePiece 36864 = some (neighbourExch, neighbourCmd, neighbourPiece)
    ∧ (neighbourState.usePort 8 1).readOut neighbourExch 36864 neighbourPiece 0 0 = some ([], false) := by decide +kernel

/-- EGRESS of quad 9 is free for the answer. -/
theorem neighbourState_egress :
    let v := (neighbourState.usePort 8 1).onDma fun d =>
      { d with devReads := d.devReads ++ [⟨36864, 1, 0x300000000, 0, 0, .sound, false⟩] }
    v.winsAs (3 + exchQuad 36864) (v.progKey 7) (32 + exchQuad 36864) 7 (.answer 36864) := by decide +kernel

/-- The request came in on quad 8, and its answer leaves on quad 9. -/
theorem emptyRead_answered :
    stepOuts (exec (.deviceMemoryRequest 8 1 emptyRead) neighbourState) = [.devMem 9 1 0x300000000 []] := by decide +kernel

end Sys2Proof.Machine

open Sys2Proof.Machine in
/-- Refutes O25: the answer to a read of no bytes at 3_0000_0000h, the end of the aperture, leaves on the port of the next
quad, whose exchange 0 has the number that the request computes; the statement says that it leaves where the request came in. -/
theorem not_deviceWindows : ¬ Obligations.DeviceWindows := by
  unfold Obligations.DeviceWindows
  intro h
  obtain ⟨hup, hpcie, hlive, hread⟩ := neighbourState_ready
  obtain ⟨-, -, haperture, -⟩ := h neighbourState _ 8 1 emptyRead hup hpcie rfl (.inl rfl)
  obtain ⟨hreads, -⟩ := haperture 4096 36864 0 neighbourExch neighbourCmd neighbourPiece devWin_emptyRead rfl hlive rfl
    (by decide) (by decide)
  obtain ⟨hanswer, -⟩ := hreads _ _ _ rfl rfl rfl rfl rfl
  obtain ⟨hsound, -⟩ := hanswer [] hread neighbourState_egress
  have houts := emptyRead_answered
  rw [hsound rfl] at houts
  exact absurd houts (by decide +kernel)

/-! # The issue of a bundle (O26)

A bundle of operations that act inside their thread always changes its thread: BUDGET falls, or the thread is gone. So it is
never held, and its row issues it. -/

namespace Sys2Proof.Machine

open Sys2Proof.Safety

theorem AMap.del_ne {α : Type} {m : AMap α} {k : Nat} {v : α} (h : AMap.get? m k = some v) : AMap.del m k ≠ m := by
  induction m with
  | nil => simp [AMap.get?] at h
  | cons e m ih =>
    obtain ⟨j, w⟩ := e
    by_cases hj : j = k
    · simp [AMap.del, hj]
    · have hm : AMap.get? m k = some v := by simpa [AMap.get?, hj] using h
      simpa [AMap.del, hj] using ih hm

/-! ## A bundle changes its thread -/

@[simp] theorem Thread.apply_budget (t : Thread) (p : PendW) : (t.apply p).budget = t.budget := by
  cases p with
  | mk loc val at_ => cases loc <;> rfl

@[simp] theorem Thread.apply_sch (t : Thread) (p : PendW) : (t.apply p).sch = t.sch := by
  cases p with
  | mk loc val at_ => cases loc <;> rfl

/-- What a pending result leaves as it reaches its place, the results due leave. -/
theorem Thread.settle_keeps {α : Type} (g : Thread → α) (happly : ∀ t p, g (Thread.apply t p) = g t)
    (hpend : ∀ (t : Thread) l, g { t with pend := l } = g t) (t : Thread) : g t.settle = g t := by
  have hfold : ∀ (l : List PendW) (t : Thread), g (l.foldl Thread.apply t) = g t := fun l => by
    induction l with
    | nil => exact fun _ => rfl
    | cons p l ih => exact fun t => (ih _).trans (happly t p)
  exact (hfold _ _).trans (hpend _ _)

@[simp] theorem Thread.settle_budget (t : Thread) : t.settle.budget = t.budget :=
  Thread.settle_keeps Thread.budget Thread.apply_budget (fun _ _ => rfl) t

@[simp] theorem Thread.settle_sch (t : Thread) : t.settle.sch = t.sch :=
  Thread.settle_keeps Thread.sch Thread.apply_sch (fun _ _ => rfl) t

@[simp] theorem Thread.keep_budget (t : Thread) (b : BitVec 128) : (t.keep b).budget = t.budget := by
  unfold Thread.keep
  split <;> rfl

theorem Thread.advance_budget (t : Thread) (j : Option (Option Word)) : (t.advance j).budget = t.budget - 1 := by
  unfold Thread.advance
  dsimp only
  split
  · split <;> rfl
  · split
    · rfl
    · split <;> rfl

theorem Thread.write_budget (t : Thread) (ws : List (Loc × TWord × Nat)) : (t.write ws).budget = t.budget := rfl

/-- A bundle that issues takes one from BUDGET. -/
theorem issued_ne (t : Thread) (b : BitVec 128) (ws : List (Loc × TWord × Nat)) (j : Option (Option Word)) :
    issued t b ws j ≠ t := by
  intro h
  have hbudget := congrArg Thread.budget h
  rw [issued, Thread.advance_budget, Thread.write_budget, Thread.settle_budget, Thread.keep_budget] at hbudget
  bv_omega

theorem State.dropThread_threads {s : State} {th : Nat} {t : Thread} (h : s.th? th = some t) :
    (s.dropThread th).sx.threads = AMap.del s.sx.threads th := by
  unfold State.dropThread
  rw [h]
  simp [State.delTh]

theorem State.programCheck_threads {s : State} {th : Nat} {t : Thread} (t' : Thread) (code : Nat) (h : s.th? th = some t) :
    (s.programCheck th t' code).sx.threads = AMap.del s.sx.threads th := by
  have hend : ∀ u : State, u.sx = s.sx → (u.endThread th t').sx.threads = AMap.del s.sx.threads th := fun u hu => by
    unfold State.endThread State.stopThread
    rw [(State.modProg_frame _ _ _).2.2.2.1, State.dropThread_threads (t := t)]
    · simp [hu]
    · simpa [State.th?, hu] using h
  unfold State.programCheck
  dsimp only
  split
  · rw [State.onSx_sx]
    exact hend _ (by simp)
  · exact hend _ (by simp)

theorem State.finish_threads {s : State} {th : Nat} {t : Thread} (t' : Thread) (h : s.th? th = some t) :
    (s.finish th t').sx.threads = AMap.del s.sx.threads th := by
  unfold State.finish State.release
  rw [(State.progress_frame _ _).2.2.2.1, (State.modProg_frame _ _ _).2.2.2.1, State.dropThread_threads (t := t)]
  · simp
  · simpa [State.th?] using h

/-- A bundle that acts inside its thread is never held (R205). -/
theorem State.issuePlain_heldAt {s : State} {th : Nat} {t : Thread} (b : BitVec 128) (ops : List Op) (h : s.th? th = some t) :
    (s.issuePlain th t b ops).heldAt s = false := by
  have hdel : AMap.del s.sx.threads th ≠ s.sx.threads := AMap.del_ne h
  have hset : ∀ ws j, (s.setTh th (Safety.issued t b ws j)).sx.threads ≠ s.sx.threads := fun ws j heq => by
    have hget := congrArg (AMap.get? · th) heq
    simp only [State.setTh, State.onSx_sx, AMap.get?_put_same] at hget
    exact issued_ne t b ws j (Option.some.inj (hget.trans h))
  unfold State.heldAt State.issuePlain
  rw [decide_eq_false_iff_not]
  split
  · rwa [State.programCheck_threads _ _ h]
  · dsimp only
    split
    · rwa [State.finish_threads _ h]
    · exact hset _ _

/-! ## Which bundles act inside their thread -/

/-- An opcode of an operation that acts inside its thread, or of a customer instruction. -/
def opcInside (opc : Nat) : Prop := opc < 0x200 ∨ opc = 0x210 ∨ opc = 0x211 ∨ 0x7C0 ≤ opc

theorem State.issueLong_inside (s : State) (th : Nat) (t : Thread) (b : BitVec 128) {op : Op} (h : opcInside op.opc) :
    s.issueLong th t b op = s.issuePlain th t b [op] := by
  unfold opcInside at h
  unfold State.issueLong
  dsimp only
  rw [if_neg (by simp; omega), if_neg (by simp; omega), if_neg (by omega), if_neg (by simp; omega), if_neg (by simp; omega),
    if_neg (by simp; omega), if_neg (by simp; omega)]

/-- A bundle that holds such an operation acts inside its thread: it is that one operation, or a pair. -/
theorem State.issue_inside (s : State) (th : Nat) {t : Thread} {b : BitVec 128} {ops : List Op} {hit : Op → Bool}
    (hops : decodeBundle b = ops) (hpair : pairCheck b ops = 0) (hbudget : t.budget ≠ 0) (hany : ops.any hit)
    (hin : ∀ op, hit op → opcInside op.opc) : s.issue th t b = s.issuePlain th t b ops := by
  unfold State.issue
  rw [hops]
  simp only [hbudget, if_false, hpair, ne_eq, not_true_eq_false]
  match ops, hany with
  | [op], hany => exact s.issueLong_inside th t b (hin op (by simpa using hany))
  | _ :: _ :: _, _ => rfl

/-! ## The row that issues a bundle -/

theorem State.corrected_zero (s : State) : s.corrected 0 = s := rfl

theorem State.issueBad_nil (s : State) (th : Nat) (t : Thread) (b : BitVec 128) : s.issueBad th t b [] = s.issue th t b := by
  simp [State.issueBad, State.corrected_zero]

/-- Words that the bundle does not read change nothing. -/
theorem State.issueBad_unread (s : State) (th : Nat) (t : Thread) (b : BitVec 128) {bad : List BadWord} (hcorr : .corrected ∉ bad)
    (hunread : ∀ w ∈ bad, w ∉ (decodeBundle b).flatMap (s.readsOf t)) : s.issueBad th t b bad = s.issue th t b := by
  have hcount : bad.count .corrected = 0 := List.count_eq_zero.2 hcorr
  have hnone : bad.filter ((decodeBundle b).flatMap (s.readsOf t)).contains = [] :=
    List.filter_eq_nil_iff.2 fun w hw => by simpa using hunread w hw
  unfold State.issueBad
  dsimp only
  rw [hcount, Nat.zero_min, State.corrected_zero, hnone]

/-- A frame word that the bundle reads is spoiled as its operations read it. -/
theorem State.issueBad_frame (s : State) (th : Nat) (t : Thread) (b : BitVec 128) {n : Nat}
    (hread : BadWord.frame n ∈ (decodeBundle b).flatMap (s.readsOf t)) : s.issueBad th t b [.frame n]
      = (s.memError 4 0 0 t.sch).issue th { t.settle with f := modAt t.settle.f n spoilWord } b := by
  have hone : [BadWord.frame n].filter ((decodeBundle b).flatMap (s.readsOf t)).contains = [.frame n] := by simpa using hread
  have hcount : [BadWord.frame n].count .corrected = 0 := by simp
  unfold State.issueBad
  dsimp only
  rw [hcount, Nat.zero_min, State.corrected_zero, hone]
  simp only [State.spoils, State.spoil, Thread.settle_sch]
  split <;> simp

section
variable {s : State} {th : Nat} {t : Thread} {b : BitVec 128} {ops : List Op} (hb : Bundle s th t b ops)
include hb

/-- The row of an operation that the bundle holds issues it, with the words that are found uncorrectable. -/
theorem State.opRow_inside {hit : Op → Bool} (bad : List BadWord) (hany : ops.any hit)
    (hin : ∀ op, hit op → opcInside op.opc) :
    s.opRow th bad hit = .next ((s.issueBad th t b bad).noteIssue th (s.routine t b)) := by
  obtain ⟨hth, hgen, hready, hfirst, hops, hpair, hbudget⟩ := hb
  have hadopt : s.adopt th t = (s, t) := by simp [State.adopt, hgen]
  have hheld : (s.issue th t b).heldAt s = false := by
    rw [s.issue_inside th hops hpair hbudget hany hin]
    exact State.issuePlain_heldAt b ops hth
  unfold State.opRow
  simp only [hth, hadopt, hready, hops, hany, hfirst, hheld, Bool.not_true, Bool.or_self, Bool.false_eq_true, if_false]

/-- Words that the bundle does not read change nothing of what a row does. -/
theorem State.opRow_unread (hit : Op → Bool) {bad : List BadWord} (hcorr : .corrected ∉ bad)
    (hunread : ∀ w ∈ bad, w ∉ ops.flatMap (s.readsOf t)) : s.opRow th bad hit = s.opRow th [] hit := by
  obtain ⟨hth, hgen, hready, hfirst, hops, hpair, hbudget⟩ := hb
  have hadopt : s.adopt th t = (s, t) := by simp [State.adopt, hgen]
  have hissue : s.issueBad th t b bad = s.issue th t b := s.issueBad_unread th t b hcorr (by rwa [hops])
  unfold State.opRow
  simp only [hth, hadopt, hready, hissue, State.issueBad_nil]

/-- A bundle whose slots pass, none of them END, leaves its results and moves IC. -/
theorem State.opRow_passes {hit : Op → Bool} (hany : ops.any hit) (hin : ∀ op, hit op → opcInside op.opc)
    {outs : List SlotOut} (houts : chkMap ops (s.slot t (s.env t)) = .ok outs) (hfin : outs.any (·.fin) = false) :
    s.opRow th [] hit = .next ((s.setTh th (Safety.issued t b (writes outs) (branches outs))).noteIssue th (s.routine t b)) := by
  rw [State.opRow_inside hb [] hany hin, State.issueBad_nil]
  obtain ⟨-, -, -, -, hops, hpair, hbudget⟩ := hb
  rw [s.issue_inside th hops hpair hbudget hany hin]
  simp only [State.issuePlain, houts, hfin, Bool.false_eq_true, if_false]
  rfl

/-- A bundle with a failing slot ends its program. -/
theorem State.opRow_fails {hit : Op → Bool} (hany : ops.any hit) (hin : ∀ op, hit op → opcInside op.opc) {code : Nat}
    (hcode : chkMap ops (s.slot t (s.env t)) = .error code) :
    s.opRow th [] hit = .next ((s.programCheck th t code).noteIssue th (s.routine t b)) := by
  rw [State.opRow_inside hb [] hany hin, State.issueBad_nil]
  obtain ⟨-, -, -, -, hops, hpair, hbudget⟩ := hb
  rw [s.issue_inside th hops hpair hbudget hany hin]
  simp only [State.issuePlain, hcode]

end

/-! ## The rows of the operations that act inside their thread -/

/-- The command of a row is `opRow` for its opcode. -/
theorem exec_insideRows (s : State) (th : Nat) (bad : List BadWord) :
    ∀ row ∈ insideRows th bad, exec row.2 s = s.opRow th bad (opIs row.1) := by
  simp only [insideRows, List.forall_mem_cons, List.not_mem_nil, false_imp_iff, implies_true, and_true]
  and_intros <;> rfl

theorem insideRows_inside (th : Nat) (bad : List BadWord) :
    ∀ row ∈ insideRows th bad, ∀ op, opIs row.1 op → opcInside op.opc := by
  have hrows : ∀ row ∈ insideRows th bad, opcInside row.1 := by simp [insideRows, opcInside]
  intro row hrow op hop
  rw [of_decide_eq_true hop]
  exact hrows row hrow

theorem Op.customer_inside (op : Op) (h : op.customer) : opcInside op.opc := by
  simp only [Op.customer, Bool.and_eq_true, decide_eq_true_eq] at h
  exact .inr (.inr (.inr h.1.2))

end Sys2Proof.Machine

open Sys2Proof.Machine Sys2Proof.Safety in
/-- Settles O26: a bundle that acts inside its thread is never held (`State.issuePlain_heldAt`), so each clause is its row's
issue. -/
theorem bundlesIssue : Obligations.BundlesIssue := by
  unfold Obligations.BundlesIssue
  intro s th t b ops hb
  refine ⟨fun row hrow hany => ?_, fun hany outs houts hfin => ?_, fun bad hcorr hunread row hrow row' hrow' hsame => ?_,
    fun n hread row hrow hany => ?_⟩
  · have hin := insideRows_inside th [] row hrow
    rw [exec_insideRows s th [] row hrow]
    exact ⟨fun outs houts hfin => State.opRow_passes hb hany hin houts hfin,
      fun code hcode => State.opRow_fails hb hany hin hcode⟩
  · exact State.opRow_passes hb hany Op.customer_inside houts hfin
  · rw [exec_insideRows s th bad row hrow, exec_insideRows s th [] row' hrow', ← hsame]
    exact State.opRow_unread hb _ hcorr hunread
  · rw [exec_insideRows s th _ row hrow, State.opRow_inside hb _ hany (insideRows_inside th _ row hrow)]
    obtain ⟨-, -, -, -, hops, -, -⟩ := hb
    rw [s.issueBad_frame th t b (by rwa [hops])]

/-! # Pushes and doorbells (O1)

A completion that could not go at once waits for its queue's grant of HOST-WRITE beside the held list (R325). A valid head
doorbell sends what waits before it drains the held list. -/

namespace Sys2Proof.Machine

open Sys2Proof.Safety

/-- Completion queue 5, with its eight slots free. -/
def idleCq : CQ := { admCq 3 0 [] with ien := false }

/-- An admin completion. -/
def waitingComp : Comp := ⟨3, 0, 0, 0, 0, 0, 0, 0, 7⟩

/-- The function serves the host, HOST-WRITE is free, and a completion of queue 5 waits for it. -/
def waitingState : State :=
  { State.reset with
    link := { Link.reset with ep := .normal, bme := true, mse := true }
    q := { Queues.reset with cqs := [(5, idleCq)], waiting := [(5, .comp waitingComp)] } }

/-- The head that a doorbell of value 0 names is the one that queue 5 has. -/
theorem idleCq_doorbell : dbReserved 0 = 0 ∧ dbIndex 0 < idleCq.size
    ∧ ringDist idleCq.size idleCq.head (bellPos idleCq.size 0) ≤ ringDist idleCq.size idleCq.head idleCq.tail := by decide

/-- The doorbell sends the completion that waits. -/
theorem waitingState_doorbell :
    (stepOuts (exec (.cqDoorbell 5 (BitVec.allOnes 8) 0) waitingState)).length = 1 := by decide +kernel

/-- The held list of queue 5 is empty, so that draining it sends nothing. -/
theorem waitingState_drained :
    let u := ((waitingState.setCq 5 { idleCq with head := bellPos idleCq.size 0 }).drainAll 5).admSettle
    ((u.q.sqs.filter fun e => e.2.cqid = 5).foldl (fun t e => t.pump e.1) u).out = [] := by decide +kernel

end Sys2Proof.Machine

open Sys2Proof.Machine in
/-- Refutes O1: a valid head doorbell to a queue whose completion waits for HOST-WRITE sends that completion; the statement
has the doorbell drain the held list alone. -/
theorem not_pushesAndDoorbells : ¬ Obligations.PushesAndDoorbells := by
  unfold Obligations.PushesAndDoorbells
  rintro ⟨-, hbells, -⟩
  obtain ⟨hres, hidx, hdist⟩ := idleCq_doorbell
  have hvalid := (hbells waitingState _ 5 idleCq 0 (by decide) rfl rfl (by decide)).1 hres hidx hdist rfl
  have hsent := waitingState_doorbell
  rw [hvalid] at hsent
  exact absurd (hsent.symm.trans (congrArg List.length waitingState_drained)) (by decide)

/-! # Completions of host reads (R56, R65, R534) -/

namespace Sys2Proof.Machine

@[simp] theorem State.countCpl_ok (s : State) : s.countCpl .ok = s := rfl

@[simp] theorem State.eccFix_sound (s : State) : s.eccFix .sound = s := rfl

/-- A read that was issued ends as its completion says. -/
theorem State.cplOf_issued {s : State} {tag : Nat} (h : s.link.noIssue.contains tag = false) (st : CplStatus) :
    s.cplOf tag st = st := by
  unfold State.cplOf
  rw [h]
  rfl

/-- A stream that is not discarding drops no completion. -/
theorem Link.drops_kept {l : Link} (h : l.ide.discarding = false) (st : CplStatus) : l.drops st = false := by
  simp [Link.drops, h]

end Sys2Proof.Machine

/-! # Text lines and host loads (O38) -/

namespace Sys2Proof.Machine

/-! ## The fetch of a line -/

section
variable {s : State} {th : Nat} {t : Thread} (tag : Nat) (hth : s.th? th = some t) (hruns : s.runs th t)
include hth hruns

/-- A thread without a bundle at IC, in no repetition either, reads its line (R154). -/
theorem exec_textLineFetch_reads (hbundle : s.bundle th t = none) (hcheck : fetchCheck (s.segsOf t.stb) t.ic = 0)
    (hfree : s.tagFree tag) (hturn : s.readTurn th t.sch (.text th))
    (hnew : s.link.reads.any (fun e => e.2 = .text th (lineAddr (s.segsOf t.stb) t.ic)) = false) :
    exec (.textLineFetch th tag) s
      = .next (((s.unwait 2 (.text th)).takeRead tag (.text th (lineAddr (s.segsOf t.stb) t.ic))).hostRead tag
          (BitVec.ofNat 64 (64 * lineAddr (s.segsOf t.stb) t.ic)) ((s.segsOf t.stb).getD 0 Seg.none).who 64) := by
  have hcur : t.cur = none := by
    cases hc : t.cur with
    | none => rfl
    | some b => simp [State.bundle, hc] at hbundle
  change execTextLineFetch th tag s = _
  simp only [execTextLineFetch, hth, hruns, hcur, hbundle, hcheck, hfree, hturn, hnew, Seg.who]
  simp

theorem exec_textLineFetch_unsound (hcur : t.cur = none) (hcheck : fetchCheck (s.segsOf t.stb) t.ic ≠ 0) :
    exec (.textLineFetch th tag) s = .next (s.programCheck th t (fetchCheck (s.segsOf t.stb) t.ic)) := by
  change execTextLineFetch th tag s = _
  simp [execTextLineFetch, hth, hruns, hcur, hcheck]

end

/-! ## The arrival of a line -/

section
variable {s : State} {th tag a : Nat} {t : Thread} (line : BitVec 512) (hread : AMap.get? s.link.reads tag = some (.text th a))
  (hth : s.th? th = some t) (hissued : s.link.noIssue.contains tag = false) (hkept : s.link.ide.discarding = false)
include hread hth hissued hkept

theorem exec_textLineArrival_sound : exec (.textLineArrival tag .ok ⟨line, .sound⟩) s
    = .next (((s.dropRead tag).nowReady th).setTh th { t with lines := t.lines ++ [⟨a, line⟩] }) := by
  change execTextLineArrival tag .ok ⟨line, .sound⟩ s = _
  simp [execTextLineArrival, hread, hth, Link.drops_kept hkept, State.cplOf_issued hissued, Checked.ue]

theorem exec_textLineArrival_bad : exec (.textLineArrival tag .ok ⟨line, .bad⟩) s
    = .next ((((s.dropRead tag).memError 3 0 0 t.sch).poisoned t.sch).endThread th t) := by
  change execTextLineArrival tag .ok ⟨line, .bad⟩ s = _
  simp [execTextLineArrival, hread, hth, Link.drops_kept hkept, State.cplOf_issued hissued, Checked.ue, State.readFailed]

end

/-! ## The return of a load -/

section
variable {s : State} {th tag id : Nat} {t : Thread} (data : BitVec 128)
  (hread : AMap.get? s.link.reads tag = some (.load th id)) (hth : s.th? th = some t)
  (hissued : s.link.noIssue.contains tag = false) (hkept : s.link.ide.discarding = false)
include hread hth hissued hkept

theorem exec_hostLoadReturn_sound : exec (.hostLoadReturn tag .ok ⟨data, .sound⟩) s
    = .next (((s.dropRead tag).nowReady th).setTh th { t with loads := t.loads.map fun x =>
        if x.id = id then { x with got := some (hostWord x.raw false data) } else x }) := by
  change execHostLoadReturn tag .ok ⟨data, .sound⟩ s = _
  simp [execHostLoadReturn, hread, hth, Link.drops_kept hkept, State.cplOf_issued hissued, Checked.ue]

theorem exec_hostLoadReturn_poison : exec (.hostLoadReturn tag .poison ⟨data, .sound⟩) s
    = .next (((((s.dropRead tag).countCpl .poison).poisoned t.sch).nowReady th).setTh th { t with loads := t.loads.map fun x =>
        if x.id = id then { x with got := some ⟨tagPoison, data.extractLsb' 0 64⟩ } else x }) := by
  change execHostLoadReturn tag .poison ⟨data, .sound⟩ s = _
  simp [execHostLoadReturn, hread, hth, Link.drops_kept hkept, State.cplOf_issued hissued, Checked.ue, hostWord]

theorem exec_hostLoadReturn_bad : exec (.hostLoadReturn tag .ok ⟨data, .bad⟩) s
    = .next ((((s.dropRead tag).memError 3 0 0 t.sch).nowReady th).setTh th { t with loads := t.loads.map fun x =>
        if x.id = id then { x with got := some ⟨tagPoison, data.extractLsb' 0 64⟩ } else x }) := by
  change execHostLoadReturn tag .ok ⟨data, .bad⟩ s = _
  simp [execHostLoadReturn, hread, hth, Link.drops_kept hkept, State.cplOf_issued hissued, Checked.ue, hostWord]

/-- A failed read marks its load. -/
theorem exec_hostLoadReturn_ur : exec (.hostLoadReturn tag .ur ⟨data, .sound⟩) s
    = .next ((((s.dropRead tag).countCpl .ur).nowReady th).setTh th { t with loads := t.loads.map fun x =>
        if x.id = id then { x with fail := true } else x }) := by
  change execHostLoadReturn tag .ur ⟨data, .sound⟩ s = _
  simp [execHostLoadReturn, hread, hth, Link.drops_kept hkept, State.cplOf_issued hissued]

end

/-- A slot whose tag is INT loads as it stands (R198). -/
theorem hostWord_int (data : BitVec 128) (h : data.extractLsb' 64 4 = tagInt) :
    hostWord false false data = intW (data.extractLsb' 0 64) := by
  simp [hostWord, loadedWord, intW, h, tagInt, tagHaddr, tagSaddr, tagHandle]

end Sys2Proof.Machine

open Sys2Proof.Machine in
/-- Settles O38: each clause is one way through the row of its fetch or completion. -/
theorem textAndHostLoads : Obligations.TextAndHostLoads := by
  unfold Obligations.TextAndHostLoads
  refine ⟨⟨fun s th tag t hth hruns => ⟨exec_textLineFetch_reads tag hth hruns, exec_textLineFetch_unsound tag hth hruns⟩,
    fun s th tag a t line hread hth hissued hkept => ⟨exec_textLineArrival_sound line hread hth hissued hkept,
      exec_textLineArrival_bad line hread hth hissued hkept⟩⟩, fun s th tag id t l data hread hth _ hissued hkept => ?_⟩
  exact ⟨exec_hostLoadReturn_sound data hread hth hissued hkept, exec_hostLoadReturn_poison data hread hth hissued hkept,
    exec_hostLoadReturn_bad data hread hth hissued hkept, exec_hostLoadReturn_ur data hread hth hissued hkept, rfl, hostWord_int data⟩

/-! # Keys and state of Link IDE (O40) -/

namespace Sys2Proof.Machine

/-! ## Records -/

/-- A record changes the Almanac alone (R437). -/
theorem State.record_eq_onPl (s : State) (type source : Nat) (payload : List Byte) (len : Nat) :
    ∃ f, s.record type source payload len = s.onPl f := by
  unfold State.record
  dsimp only
  split
  · exact ⟨_, rfl⟩
  · split
    · exact ⟨_, rfl⟩
    · exact ⟨_, rfl⟩

/-- An event that finds room in the writer's queue adds one record to it. -/
theorem State.event_queue_length {s : State} (source block code a0 a1 a2 a3 : Nat) (h : s.pl.alm.queue.length < 256) :
    (s.event source block code a0 a1 a2 a3).pl.alm.queue.length = s.pl.alm.queue.length + 1 := by
  simp [State.event, State.record, h]

/-! ## The state of the stream -/

/-- Where the link lets through nothing new, nothing that waits for it goes on (R64). -/
theorem State.ifOpened_of_closed {s : State} (before : State) (h : s.link.mayIssue = true → before.link.mayIssue = true) :
    s.ifOpened before = s := by
  unfold State.ifOpened
  cases hs : s.link.mayIssue with
  | false => rfl
  | true => simp [h hs]

/-- A stream that its keys leave Insecure opens nothing (R55). -/
theorem State.ideState_insecure {s : State} (h : s.link.ide.complete = false) : s.ideState.link.ide.secure = false := by
  unfold State.ideState
  dsimp only
  split
  · exact h
  · rw [State.ifOpened_of_closed]
    · exact h
    · simp only [State.irq, State.onIc_link, State.onLink_link, Link.mayIssue, h]
      simp only [Bool.and_eq_true, Bool.or_eq_true]
      rintro ⟨⟨⟨⟨hep, hbme⟩, hd0⟩, hreq⟩, hkept⟩
      simp_all

/-- A stream whose keys are complete becomes Secure and discards nothing (R54, R56). -/
theorem State.ideState_secure {s : State} (h : s.link.ide.complete) (hbme : s.link.bme = false) :
    s.ideState.link.ide.secure = true ∧ s.ideState.link.ide.discarding = false := by
  unfold State.ideState
  dsimp only
  split
  · exact ⟨h, by simp [h]⟩
  · rw [State.ifOpened_of_closed]
    · exact ⟨h, by simp [State.irq, h]⟩
    · simp [State.irq, Link.mayIssue, hbme]

/-! ## Check failures -/

/-- What a check failure leaves (R56): the stream Insecure and discarding, its keys inactive, and one record. -/
theorem State.ideFail_leaves (s : State) : ∃ f, s.ideFail = ((s.onLink fun l => { l with
    ide := { l.ide with secure := false, discarding := true, keys := l.ide.keys.map fun k => { k with active := false } },
    aer := { l.aer with ide := true } }).onPl f).irq 18 := by
  unfold State.ideFail
  dsimp only
  obtain ⟨f, hf⟩ := State.record_eq_onPl _ _ _ _ _
  exact ⟨f, congrArg (State.irq · 18) hf⟩

theorem State.ideFail_queue_length {s : State} (h : s.pl.alm.queue.length < 256) :
    s.ideFail.pl.alm.queue.length = s.pl.alm.queue.length + 1 :=
  State.event_queue_length (s := s.onLink _) _ _ _ _ _ _ _ h

end Sys2Proof.Machine

open Sys2Proof.Machine in
/-- Settles O40: each request of IDE_KM is the branch of its row that finds the session; a stream that becomes Insecure opens
nothing (`State.ideState_insecure`), and one that becomes Secure without Bus Master Enable neither. -/
theorem linkIde : Obligations.LinkIde := by
  unfold Obligations.LinkIde
  intro s
  refine ⟨fun id sub tx k1 key x hx => ?_, fun id sub tx k1 x hx => ?_, fun id sub tx k1 x hx => ?_,
    fun h hbme => State.ideState_secure h hbme, fun h => State.ideState_insecure h, fun sub k1 hsec hkey => ?_, fun hsec => ?_⟩
  · have hexec : exec (.keyProg id sub tx k1 key) s = .next ((s.onLink fun l => { l with ide := { l.ide with
        keys := (l.ide.keys.filter fun k => !k.named sub tx k1) ++ [⟨sub, tx, k1, key, false⟩] } }).spdmSay x.tr 0x7E) := by
      change execKeyProg id sub tx k1 key s = _
      rw [execKeyProg, hx]
    exact ⟨_, hexec, rfl, rfl⟩
  · change execKeySetGo id sub tx k1 s = _
    rw [execKeySetGo, hx]
    rfl
  · change execKeySetStop id sub tx k1 s = _
    rw [execKeySetStop, hx]
    rfl
  · change execKeySetSwitch sub k1 s = _
    rw [execKeySetSwitch, if_pos (by simp [hsec, hkey])]
    rfl
  · obtain ⟨f, hf⟩ := s.ideFail_leaves
    have hlen : s.pl.alm.queue.length < 256 → _ := State.ideFail_queue_length (s := s)
    refine ⟨s.ideFail, congrArg _ (if_pos hsec), ?_⟩
    rw [hf] at hlen ⊢
    exact ⟨rfl, rfl, rfl, by simp [State.irq], by simp [State.irq, Link.mayIssue], rfl, rfl, rfl, rfl, rfl, hlen⟩

/-! # The SPDM, DOE and MCTP responders (O41) -/

namespace Sys2Proof.Machine

@[simp] theorem State.heard_link (s : State) (tr : Transport) : (s.heard tr).link = s.link := rfl
@[simp] theorem State.heard_out (s : State) (tr : Transport) : (s.heard tr).out = s.out := rfl
@[simp] theorem State.heard_fresh (s : State) (tr : Transport) : (s.heard tr).fresh = s.fresh := rfl
@[simp] theorem State.heard_conn (s : State) (tr o : Transport) : (s.heard tr).conn o = s.conn o := rfl
@[simp] theorem State.heard_certChain (s : State) (tr : Transport) (slot : Nat) : (s.heard tr).certChain slot = s.certChain slot := rfl
@[simp] theorem State.heard_quoteBody (s : State) (tr : Transport) (nonce : List Byte) :
    (s.heard tr).quoteBody nonce = s.quoteBody nonce := rfl

/-! ## Connections -/

theorem State.setConn_conn (s : State) (tr o : Transport) (c : SpdmConn) :
    (s.setConn tr c).conn o = if o = tr then c else s.conn o := by
  cases tr <;> cases o <;> rfl

@[simp] theorem State.setConn_out (s : State) (tr : Transport) (c : SpdmConn) : (s.setConn tr c).out = s.out := rfl
@[simp] theorem State.setConn_fresh (s : State) (tr : Transport) (c : SpdmConn) : (s.setConn tr c).fresh = s.fresh := rfl

@[simp] theorem State.emit_conn (s : State) (o : Out) (tr : Transport) : (s.emit o).conn tr = s.conn tr := rfl
@[simp] theorem State.spdmSay_conn (s : State) (tr o : Transport) (code : Byte) : (s.spdmSay tr code).conn o = s.conn o := rfl
@[simp] theorem State.spdmSay_link (s : State) (tr : Transport) (code : Byte) : (s.spdmSay tr code).link = s.link := rfl
@[simp] theorem State.spdmSay_out (s : State) (tr : Transport) (code : Byte) :
    (s.spdmSay tr code).out = s.out ++ [.spdm tr code (Config.spdmBody s.fresh code)] := rfl

/-! ## Serving a request -/

section
variable {s : State} {tr : Transport} {ready : Bool} (t : State → State) (hup : s.spdmUp)
include hup

/-- A request for which its connection is ready is served (R52). -/
theorem State.spdmServe_ready (hready : ready) : s.spdmServe tr ready t = t (s.heard tr) := by
  simp [State.spdmServe, hup, hready]

theorem exec_served {c : Instr} {t : State → State} (hc : exec c s = .next (s.spdmServe tr ready t)) (hready : ready) :
    exec c s = .next (t (s.heard tr)) := by
  rw [hc, State.spdmServe_ready t hup hready]

/-- A request out of order is answered with ERROR. -/
theorem State.spdmServe_early (hready : ready = false) : s.spdmServe tr ready t = (s.heard tr).spdmError tr 0x04 := by
  simp [State.spdmServe, hup, hready]

end

@[simp] theorem State.sramRead_out (s : State) : s.sramRead.out = s.out := by
  unfold State.sramRead
  split <;> rfl

/-- The slots in use while the customer has installed no chain (R418). -/
theorem State.chains_of_slot0 {s : State} (h : s.certChain 1 = none) : [0, 1].filterMap s.certChain = [Config.chain0] := by
  have h0 : s.certChain 0 = some Config.chain0 := rfl
  simp [h, h0]

end Sys2Proof.Machine

open Sys2Proof Sys2Proof.Machine in
/-- Settles O41: a request finds its connection ready (`State.spdmServe_ready`) or is out of order; what is left is the answer to
each request. -/
theorem responders : Obligations.Responders := by
  unfold Obligations.Responders
  intro s tr hup
  refine ⟨⟨_, exec_served (c := .spdmGetVersion tr) hup rfl rfl, ?_, ?_, fun o ho => ?_⟩,
    fun h => ⟨_, exec_served (c := .spdmGetCapabilities tr) hup rfl h, ?_, rfl⟩, fun h => congrArg _ (State.spdmServe_early _ hup h),
    fun h => ⟨_, exec_served (c := .spdmNegotiateAlgorithms tr) hup rfl h, ?_, ?_⟩, fun h hslot => ?_, fun slot off len c h hslot => ?_,
    fun slot nonce c h hslot => ?_, fun index nonce d h hindex hd => ?_, fun nonce h => ?_, fun id h hnew hroom => ?_,
    fun id h hfull => ?_, fun id h => ⟨_, exec_served (c := .spdmFinish tr id) hup rfl h, rfl, rfl⟩,
    fun id h => ⟨_, exec_served (c := .spdmHeartbeat tr id) hup rfl h, rfl, rfl⟩,
    fun id h => ⟨_, exec_served (c := .spdmKeyUpdate tr id) hup rfl h, rfl, rfl⟩,
    fun id h => ⟨_, exec_served (c := .spdmEndSession tr id) hup rfl h, rfl, rfl⟩, fun code => ?_, ?_, fun e => ?_⟩
  · simp [State.setConn_conn]
  · simp
  · simp [State.setConn_conn, ho]
  · simp [State.setConn_conn]
  · simp [State.setConn_conn]
  · simp [spdmAlgSet]
  · rw [exec_served (c := .spdmGetDigests tr) hup rfl h]
    dsimp only
    rw [State.chains_of_slot0 (by simpa using hslot)]
    simp [leBytes]
  · rw [exec_served (c := .spdmGetCertificate tr slot off len) hup rfl h]
    simp [hslot, chainPart]
  · refine ⟨_, exec_served (c := .spdmChallenge tr slot nonce) hup rfl h, ?_⟩
    simp [hslot]
  · rw [exec_served (c := .spdmGetMeasurements tr index nonce) hup rfl h]
    have hd' : (s.heard tr).measurement index = some d := hd
    simp [hindex, hd']
  · refine ⟨_, exec_served (c := .spdmGetMeasurements tr 0x40 nonce) hup rfl h, ?_⟩
    simp [State.makeQuote]
  · refine ⟨_, exec_served (c := .spdmKeyExchange tr id) hup rfl h, ?_⟩
    simp [hnew, hroom.not_ge]
  · refine ⟨_, exec_served (c := .spdmKeyExchange tr id) hup rfl h, ?_⟩
    dsimp only
    split
    · rfl
    · rw [if_pos (by exact hfull)]
      rfl
  · change execSpdmUnsupportedRequest tr code s = _
    simp [execSpdmUnsupportedRequest, hup]
  · change execDoeDiscovery 1 s = _
    simp [execDoeDiscovery, hup, doeEntry]
  · have hexec : exec (.mctpControlMessage (some e)) s = .next (({ (s.heard .mctp).onLink (fun l => { l with eid := e }) with
        fresh := s.fresh + 1 } : State).emit (.mctp (Config.mctpBody s.fresh))) := by
      change execMctpControlMessage (some e) s = _
      rw [execMctpControlMessage, if_neg (by simp [hup])]
      rfl
    exact ⟨_, hexec, rfl, rfl⟩

/-! # Register access (O6) -/

namespace Sys2Proof.Machine

open Sys2Proof.Safety

/-! ## What a function that serves the host lets through (R38) -/

section
variable {s : State} (h : Serves s)
include h

theorem State.bar0Read_serves {size : Nat} (off : Nat) (t : State) (hsize : size = 8) : s.bar0Read off size t = t := by
  obtain ⟨hep, hopens, hkept⟩ := h
  simp [State.bar0Read, hep, hopens, hkept, hsize]

/-- An aligned access of one half or the whole of a register of BAR0 is a write of that register (R503). -/
theorem exec_registerWrite_serves {off size : Nat} (v : Word) (halign : aligned off size true) :
    exec (.registerWrite 0 off size true v) s = .next (s.writeReg (off - off % 8) (halfOf off size) v) := by
  obtain ⟨hep, hopens, hkept⟩ := h
  change execRegisterWrite 0 off size true v s = _
  simp [execRegisterWrite, hep, hopens, hkept, halign, State.hasBlock]

theorem exec_registerReadClear_serves {off size : Nat} (halign : aligned off size true) :
    exec (.registerReadClear 0 off size true) s = .next (s.readBar0 off size) := by
  obtain ⟨hep, hopens, hkept⟩ := h
  change execRegisterReadClear 0 off size true s = _
  simp [execRegisterReadClear, hep, hopens, hkept, halign]

/-- A write of another size is discarded and counts (R65). -/
theorem exec_registerWrite_refused {bar off size : Nat} (v : Word) (hbar : bar = 0 ∨ bar = 4) (hsize : size ≠ 4 ∧ size ≠ 8) :
    exec (.registerWrite bar off size true v) s = .next s.urSent := by
  obtain ⟨hep, hopens, hkept⟩ := h
  have halign : aligned off size true = false := by simp [aligned, hsize]
  change execRegisterWrite bar off size true v s = _
  obtain rfl | rfl := hbar
  · simp [execRegisterWrite, hep, hkept, halign]
  · simp [execRegisterWrite, hep, hkept, halign]

theorem State.hasBlock_serves (off : Nat) : s.hasBlock off = true := by
  obtain ⟨hep, -, -⟩ := h
  simp [State.hasBlock, hep]

/-- A read of a register that has no row of its own returns it and clears the halves it reaches (R502). -/
theorem State.readBar0_register {off size : Nat} (hoff : off % 8 = 0)
    (hrow : off ∉ [qevtOff, legFifoOff, 0x01C00100, 0x01C01100]) :
    s.readBar0 off size = (s.clearRc off (reaches (halfOf off size) false) (reaches (halfOf off size) true)).emit
      (.readData 0 off size (cutHalf (halfOf off size) (s.regWord off))) := by
  simp only [List.mem_cons, List.not_mem_nil, or_false, not_or] at hrow
  obtain ⟨hqevt, hleg, hsup, hpln⟩ := hrow
  simp [State.readBar0, State.hasBlock_serves h, hoff, hqevt, hleg, hsup, hpln]

end

/-! ## The error counters of the link -/

theorem State.regWord_errors (s : State) :
    s.regWord 0x10 = pack4 s.link.urSent s.link.cplErr s.link.cplTimeout s.link.poisonRx := rfl

theorem State.regWord_time (s : State) : s.regWord 0x02400000 = s.time.toNat := rfl

theorem State.clearRc_time (s : State) (lo hi : Bool) : s.clearRc 0x02400000 lo hi = s := rfl

/-! ## Private maps (R504) -/

theorem exec_privRead_sup {s : State} (h : s.pw.supUp) {off : Nat} (halign : aligned off 8 true) :
    exec (.registerReadClear 6 off 8 true) s = .next (s.privRead .sup 6 off 8) := by
  change execRegisterReadClear 6 off 8 true s = _
  simp [execRegisterReadClear, State.icUp, h, halign]

theorem State.privRead_errors (s : State) : s.privRead .sup 6 0x10 8
    = s.emit (.readData 6 0x10 8 (BitVec.ofNat 64 (pack4 s.link.urSent s.link.cplErr s.link.cplTimeout s.link.poisonRx))) := rfl

theorem State.privWord_qevt {s : State} {e : QEvent} {rest : List QEvent} (h : s.q.qevt = e :: rest) :
    s.privWord .sup qevtOff = (e.word s.q.qevtLost).toNat := by
  rw [State.privWord, if_pos rfl, h, List.head?_cons, Option.map_some, Option.getD_some]

theorem State.privRead_qevt {s : State} {e : QEvent} {rest : List QEvent} (h : s.q.qevt = e :: rest) :
    s.privRead .sup 6 0x00400020 8 = s.emit (.readData 6 0x00400020 8 (e.word s.q.qevtLost)) := by
  have hbase : 0x00400020 - 0x00400020 % 8 = qevtOff := rfl
  have hhalf : halfOf 0x00400020 8 = none := rfl
  have hcnt : arrIdx 0x01800300 32 qevtOff = none := rfl
  simp only [State.privRead, hbase, hhalf, hcnt, cutHalf, State.privWord_qevt h, BitVec.ofNat_toNat, BitVec.setWidth_eq]
  rfl

/-! ## QM_QEVT and QM_LEG_FIFO (R95, R117) -/

theorem exec_qevtRead_serves {s : State} (h : Serves s) : exec (.qevtRead 8) s = .next s.qevtTake := by
  obtain ⟨hep, -, -⟩ := id h
  change execQevtRead 8 s = _
  simp [execQevtRead, State.bar0Read_serves h, hep]

theorem exec_legFifoRead_empty {s : State} (h : Serves s) (ecc : Ecc) (hnext : legNext s.q.leg = none) :
    exec (.legFifoRead ⟨8, ecc⟩) s = .next s.legTake := by
  obtain ⟨hep, -, -⟩ := id h
  change execLegFifoRead ⟨8, ecc⟩ s = _
  simp [execLegFifoRead, State.bar0Read_serves h, hep, hnext]

theorem exec_legFifoRead_next {s : State} (h : Serves s) (ecc : Ecc) {e : LegEntry} (hnext : legNext s.q.leg = some e) :
    exec (.legFifoRead ⟨8, ecc⟩) s = .next (if ecc = .bad then s.memError 6 0 0 e.sch else s.eccFix ecc).legTake := by
  obtain ⟨hep, -, -⟩ := id h
  change execLegFifoRead ⟨8, ecc⟩ s = _
  simp [execLegFifoRead, State.bar0Read_serves h, hep, hnext, Checked.ue]

/-- The only completion that the FIFO holds is the next one, whatever its class (R117). -/
theorem legNext_singleton {e : LegEntry} (h : e.cls < 8) : legNext [e] = some e := by
  have hsome : ∀ l : List Nat, e.cls ∈ l → firstSome (fun c => [e].find? fun x => x.cls = c) l = some e := fun l => by
    induction l with
    | nil => simp
    | cons c l ih =>
      intro hmem
      by_cases hc : e.cls = c
      · simp [firstSome, hc]
      · simpa [firstSome, hc] using ih (List.mem_of_ne_of_mem hc hmem)
  exact hsome _ (List.mem_range.2 h)

theorem legNext_nil : legNext [] = none := rfl

theorem State.legTake_empty {s : State} (h : s.q.leg = []) :
    s.legTake = s.emit (.readData 0 0x00400040 8 0x8000000000000000#64) := by
  simp [State.legTake, h, legNext_nil, legFifoOff]

/-- Without a legacy-routed queue nothing follows into the FIFO (R116). -/
theorem State.drainLegacy_of_noLegacy {s : State} (h : ∀ c ∈ s.q.cqs, c.2.legacy = false) : s.drainLegacy = s := by
  have hhead : s.legHead = none := by
    rw [State.legHead, List.foldl_ext _ (fun a _ => a) none fun a c hc => by simp [h c hc], List.foldl_fixed]
    rfl
  have hfill : ∀ n, s.fillLegacy n = s := fun n => by
    cases n with
    | zero => rfl
    | succ n =>
      unfold State.fillLegacy
      simp [hhead]
  exact hfill _

/-- A read takes the only completion out of the FIFO. -/
theorem State.legTake_singleton {s : State} {e : LegEntry} (hleg : s.q.leg = [e]) (hcls : e.cls < 8)
    (hnone : ∀ c ∈ s.q.cqs, c.2.legacy = false) :
    s.legTake = { s with q := { s.q with leg := [] } }.emit (.readData 0 0x00400040 8 e.word) := by
  have hlegacy : s.q.cqs.filter (fun c => c.2.legacy) = [] := List.filter_eq_nil_iff.2 fun c hc => by simp [hnone c hc]
  unfold State.legTake
  simp only [hleg, legNext_singleton hcls]
  rw [State.drainLegacy_of_noLegacy (by exact hnone)]
  simp [hlegacy, hleg, legRemove, State.onQ, legFifoOff]

end Sys2Proof.Machine

open Sys2Proof.Machine in
/-- Settles O6: an access that the function serves is that of its register (`exec_registerWrite_serves`,
`exec_registerReadClear_serves`) or of its FIFO. -/
theorem registerAccess : Obligations.RegisterAccess := by
  unfold Obligations.RegisterAccess
  refine ⟨fun s h => ⟨fun v => exec_registerWrite_serves h v rfl, fun v hoff => ?_,
    fun bar off size v hbar hsize => exec_registerWrite_refused h v hbar hsize, ?_, ?_, ?_⟩, fun s h => ⟨?_, fun e rest he => ?_⟩,
    fun s h => ⟨fun he => ?_, fun e rest he => ?_, fun he ecc => ?_, fun e he hcls hnone => ⟨?_, ?_⟩⟩⟩
  · rw [exec_registerWrite_serves h v rfl]
    exact congrArg _ (if_neg (by simp [hoff]) : State.writeReg s 0x00400008 none v = _)
  · rw [exec_registerReadClear_serves h rfl, State.readBar0_register h rfl (by decide)]
    rfl
  · rw [exec_registerReadClear_serves h rfl, State.readBar0_register h rfl (by decide)]
    rfl
  · rw [exec_registerReadClear_serves h rfl, State.readBar0_register h rfl (by decide)]
    rfl
  · rw [exec_privRead_sup h rfl, State.privRead_errors]
  · rw [exec_privRead_sup h rfl, State.privRead_qevt he]
  · rw [exec_qevtRead_serves h, State.qevtTake, he]
    rfl
  · rw [exec_qevtRead_serves h, State.qevtTake, he]
    rfl
  · rw [exec_legFifoRead_empty h ecc (by rw [he, legNext_nil]), State.legTake_empty he]
  · rw [exec_legFifoRead_next h .sound (by rw [he, legNext_singleton hcls])]
    exact congrArg _ (State.legTake_singleton he hcls hnone)
  · exact exec_legFifoRead_next h .bad (by rw [he, legNext_singleton hcls])

/-! # Admin commands of queues (O13) -/

namespace Sys2Proof.Machine

open Sys2Proof.Safety

section
variable {s : State} {opc : Nat} {e : BitVec 512} {f : BitVec 512 → State → AdmRes} (h : Admin s opc e)
include h

/-- A command that is not locked and sound in form, and that its own checks complete (R109). -/
theorem State.admRun_done {t : State} {status : Nat} {result : Word} (hf : f e s = admDone t status result) :
    s.admRun opc f = t.admPost (entryCid e) status result := by
  obtain ⟨hentry, hopc, hlock, hsound⟩ := h
  simp [State.admRun, hentry, hopc, hlock, hsound, hf, admDone]

/-- A command that goes on after its row. -/
theorem State.admRun_wait {t : State} (hf : f e s = admWait t) : s.admRun opc f = t := by
  obtain ⟨hentry, hopc, hlock, hsound⟩ := h
  simp [State.admRun, hentry, hopc, hlock, hsound, hf, admWait]

end

/-! ## CREATE_CQ and QUERY_QUEUE (R49, R112) -/

theorem exec_createCq_lowVector {s : State} {e : BitVec 512} (h : Admin s 0x02 e) (hien : aField e 1 20 1 = 1) (hvec : aField e 6 0 11 < 8) :
    exec .createCq s = .next (s.admPost (entryCid e) 2 0) := by
  refine congrArg _ (State.admRun_done h ?_)
  rw [if_pos (by simp [hien, hvec])]
  rfl

theorem exec_queryQueue_reports {s : State} {e : BitVec 512} {r : SQ} (h : Admin s 0x07 e) (hr : s.sq? (aField e 1 0 18) = some r) :
    exec .queryQueue s = .next (s.admPost (entryCid e) 0 (sqResult r)) := by
  refine congrArg _ (State.admRun_done h ?_)
  simp [hr]

section
variable {s : State} {e : BitVec 512} (hq : 1 < aField e 1 0 18)
include hq

theorem exec_createCq_creates (h : Admin s 0x02 e) (hbase : aField e 2 0 12 = 0) (hpasid : aField e 1 18 1 = 0)
    (hvec : aField e 1 20 1 = 1 → 8 ≤ aField e 6 0 11) (hlow : 1 ≤ aField e 4 0 5) (hhigh : aField e 4 0 5 ≤ 16)
    (hsq : s.sq? (aField e 1 0 18) = none) (hcq : s.cq? (aField e 1 0 18) = none) :
    exec .createCq s = .next ((s.setCq (aField e 1 0 18) { admCq (aField e 4 0 5) (BitVec.ofNat 64 (aField e 2 0 64)) [] with
      pasid := none, legacy := decide (aField e 1 19 1 = 1), ien := decide (aField e 1 20 1 = 1), vector := aField e 6 0 11,
      aggCount := aField e 7 0 8, aggTime := aField e 7 8 16 }).admPost (entryCid e) 0 0) := by
  refine congrArg _ (State.admRun_done h ?_)
  have hok : ¬(aField e 1 20 1 = 1 ∧ aField e 6 0 11 < 8) := fun ⟨hien, hlt⟩ => absurd (hvec hien) (by omega)
  have hlog : ¬(aField e 4 0 5 = 0 ∨ 16 < aField e 4 0 5) := by omega
  simp [hbase, hpasid, hok, hlog, hsq, hcq, hq.not_ge, admOk]

/-! ## PAUSE_QUEUE, RESET_QUEUE and DELETE_QUEUE of a submission queue (R91, R94, R345) -/

variable {r : SQ} (hr : s.sq? (aField e 1 0 18) = some r)
include hr

theorem exec_pauseQueue_pauses (h : Admin s 0x06 e) (hst : r.st = .active) (hpause : aField e 1 18 1 = 1) :
    exec .pauseQueue s = .next (((s.withdraw (.ring (aField e 1 0 18))).setSq (aField e 1 0 18)
      { r with st := .paused }).admPost (entryCid e) 0 0) := by
  refine congrArg _ (State.admRun_done h ?_)
  simp [hq.not_ge, hr, hst, hpause, admOk]

theorem exec_resetQueue_resets (h : Admin s 0x04 e) (hst : r.st = .error) (hremain : r.remain = 0) :
    exec .resetQueue s = .next ((s.setSq (aField e 1 0 18) { r with
      st := .active, cause := 0, latched := 0, t := r.latched, c := r.latched, past := 0, tries := 0, capture := [],
      reading := [], block := none, ahead := false }).admPost (entryCid e) 0 0) := by
  refine congrArg _ (State.admRun_done h ?_)
  simp [hq.not_ge, hr, hst, hremain, admOk]

theorem exec_deleteQueue_refuses (h : Admin s 0x03 e) (hsettled : r.settled) (hleft : r.unconsumed ≠ 0)
    (hforce : aField e 1 18 1 = 0) :
    exec .deleteQueue s = .next (s.admPost (entryCid e) 7 (BitVec.ofNat 64 r.unconsumed)) := by
  refine congrArg _ (State.admRun_done h ?_)
  simp [hq.not_ge, hr, hsettled, hleft, hforce]

variable (h : Admin s 0x03 e) (hsettled : r.settled) (hmay : r.unconsumed = 0 ∨ aField e 1 18 1 = 1)
include h hsettled hmay

theorem exec_deleteQueue_deletes (hcls : r.cls = 7) :
    exec .deleteQueue s = .next ((s.delSq (aField e 1 0 18) r).admPost (entryCid e) 0 0) := by
  refine congrArg _ (State.admRun_done h ?_)
  simp only [hq.not_ge, hr, hsettled, hcls]
  obtain hnone | hforce := hmay
  · simp [hnone, admOk]
  · simp [hforce, admOk]

/-- The demand of a queue of classes 0 to 6 leaves at a commit (R345). -/
theorem exec_deleteQueue_plans (hcls : r.cls < 7) :
    exec .deleteQueue s = .next ((s.delSq (aField e 1 0 18) r).plan e .remove) := by
  refine congrArg _ (State.admRun_wait h ?_)
  simp only [hq.not_ge, hr, hsettled, hcls]
  obtain hnone | hforce := hmay
  · simp [hnone]
  · simp [hforce]

end

end Sys2Proof.Machine

open Sys2Proof.Machine in
/-- Settles O13: each clause is an outcome of the checks of its command, which `State.admRun_done` completes. -/
theorem queueCommands : Obligations.QueueCommands := by
  unfold Obligations.QueueCommands
  rintro s e _ rfl hq
  exact ⟨fun h hbase hpasid => ⟨exec_createCq_lowVector h, exec_createCq_creates hq h hbase hpasid⟩,
    fun r h hr => exec_queryQueue_reports h hr, fun r h hr hst hpause => exec_pauseQueue_pauses hq hr h hst hpause,
    fun r h hr hst hremain => exec_resetQueue_resets hq hr h hst hremain,
    fun r h hr hsettled hmay => ⟨exec_deleteQueue_deletes hq hr h hsettled hmay, exec_deleteQueue_plans hq hr h hsettled hmay⟩,
    fun r h hr hsettled hleft hforce => exec_deleteQueue_refuses hq hr h hsettled hleft hforce⟩

/-! # Ring reads (O4) -/

namespace Sys2Proof.Machine

/-! ## The slots of a block -/

/-- A value stored above every key stands at the end. -/
theorem AMap.put_above {α : Type} {m : AMap α} {k : Nat} (v : α) (h : ∀ e ∈ m, e.1 < k) : AMap.put m k v = m ++ [(k, v)] := by
  induction m with
  | nil => rfl
  | cons e m ih =>
    obtain ⟨j, w⟩ := e
    have hj : j < k := h (j, w) List.mem_cons_self
    simp only [AMap.put, hj.not_gt, hj.ne', if_false, List.cons_append]
    rw [ih fun e he => h e (List.mem_cons_of_mem _ he)]

/-- Values stored one after the other from a key above every other on. -/
theorem AMap.foldl_put_above {α : Type} (pos : Nat) (l : List α) (i : Nat) {m : AMap α} (h : ∀ e ∈ m, e.1 < pos + i) :
    (l.zipIdx i).foldl (fun m e => AMap.put m (pos + e.2) e.1) m = m ++ (l.zipIdx i).map fun e => (pos + e.2, e.1) := by
  induction l generalizing i m with
  | nil => simp
  | cons v l ih =>
    rw [List.zipIdx_cons, List.foldl_cons, AMap.put_above v h, ih, List.map_cons, List.append_assoc, List.singleton_append]
    intro e he
    obtain he | he := List.mem_append.1 he
    · exact Nat.lt_succ_of_lt (h e he)
    · rw [List.mem_singleton.1 he]
      exact Nat.lt_succ_self _

theorem AMap.get?_zipIdx {α : Type} (pos : Nat) (l : List α) (i j : Nat) :
    AMap.get? ((l.zipIdx i).map fun e => (pos + e.2, e.1)) (pos + i + j) = l[j]? := by
  induction l generalizing i j with
  | nil => rfl
  | cons v l ih =>
    rw [List.zipIdx_cons, List.map_cons, AMap.get?]
    cases j with
    | zero => simp
    | succ j =>
      rw [if_neg (by omega), show pos + i + (j + 1) = pos + (i + 1) + j by omega, ih]
      rfl

section
variable {pos n k : Nat} (slots : List (BitVec 512))

theorem Block.fill_empty : ((⟨pos, n, k, []⟩ : Block).fill pos slots).got = slots.zipIdx.map fun e => (pos + e.2, e.1) :=
  AMap.foldl_put_above pos slots 0 (by simp)

/-- A block that arrives whole holds its slots from the slot at C on (R82). -/
theorem Block.from_fill {i : Nat} (hlen : slots.length = n) (hpos : pos ≤ i) :
    ((⟨pos, n, k, []⟩ : Block).fill pos slots).from i = slots.drop (i - pos) := by
  have hget : ∀ j, AMap.get? ((⟨pos, n, k, []⟩ : Block).fill pos slots).got (pos + j) = slots[j]? := fun j => by
    rw [Block.fill_empty]
    exact AMap.get?_zipIdx pos slots 0 j
  refine List.ext_getElem ?_ fun j hj hj' => ?_
  · simp only [Block.from, Block.fill, List.length_map, List.length_range, List.length_drop]
    omega
  · simp only [Block.from, List.getElem_map, List.getElem_range, List.getElem_drop, AMap.getD]
    rw [show i + j = pos + (i - pos + j) by omega, hget, List.getElem?_eq_getElem]
    rfl

end

/-! ## Requests (R33, R81) -/

theorem exec_ringFetch_reads {s : State} {q tag n : Nat} {r : SQ} {b : Block} (hq : s.sq? q = some r) (hwants : s.wantsFetch q r)
    (hgrant : s.granted (.ring q)) (hissue : s.link.mayIssue) (hfree : s.tagFree tag) (hpool : s.poolFree 2 r.cls)
    (hb : b = r.block.getD r.newBlock) (hn : n = min (b.n - b.asked) (min 512 s.link.mrrs / 64)) :
    exec (.ringFetch q tag) s = .next (((((s.withdraw (.ring q)).setSq q { r with
      reading := r.reading ++ [tag], block := some { b with asked := b.asked + n } }).takeRead tag
        (.ring q (b.start + b.asked) n)).hostRead tag (r.base + BitVec.ofNat 64 (64 * (b.start + b.asked))) r.pasid
          (64 * n)).wantRing q) := by
  subst hb hn
  change execRingFetch q tag s = _
  simp [execRingFetch, hq, hwants, hgrant, hissue, hfree, hpool, Block.next]

/-! ## Completions (R82) -/

section
variable {s : State} {q tag pos n : Nat} {r : SQ} {b : Block} {slots : List (BitVec 512)}
  (hread : AMap.get? s.link.reads tag = some (.ring q pos n)) (hq : s.sq? q = some r)
  (hblock : r.block = some b) (hissued : s.link.noIssue.contains tag = false) (hkept : s.link.ide.discarding = false)
include hread hq hblock hissued hkept

/-- The last slots of a block have arrived: its entries are taken from C on. -/
theorem exec_ringFetchComplete_last (hreading : r.reading = [tag]) (hlen : slots.length = n) (hn : n ≠ 0)
    (hall : (b.fill pos slots).got.length = b.n) :
    exec (.ringFetchComplete tag .ok ⟨slots, .sound⟩) s = .next ((((s.dropRead tag).setSq q { r with
      reading := [], block := none }).takeLoop (b.n + 5) q ((b.fill pos slots).from (r.c % r.size))).wantRing q) := by
  have hfill : (b.fill pos slots).n = b.n := rfl
  change execRingFetchComplete tag .ok ⟨slots, .sound⟩ s = _
  simp [execRingFetchComplete, hread, hq, hblock, Link.drops_kept hkept, State.cplOf_issued hissued, Checked.ue,
    State.ringFabric, hreading, hlen, hn, hall, hfill]

/-- Some slots have arrived: the read stays open for the rest (R534). -/
theorem exec_ringFetchComplete_more (hreading : tag ∈ r.reading) (hlen : slots.length < n) (hne : slots ≠ [])
    (hmore : (b.fill pos slots).got.length ≠ b.n) :
    exec (.ringFetchComplete tag .ok ⟨slots, .sound⟩) s = .next ((s.onLink fun l => { l with
      reads := AMap.put l.reads tag (.ring q (pos + slots.length) (n - slots.length)) }).setSq q { r with
        block := some (b.fill pos slots) }) := by
  have hfill : (b.fill pos slots).n = b.n := rfl
  change execRingFetchComplete tag .ok ⟨slots, .sound⟩ s = _
  simp [execRingFetchComplete, hread, hq, hblock, Link.drops_kept hkept, State.cplOf_issued hissued, Checked.ue,
    State.ringFabric, hreading, hlen, hlen.not_gt, hne, hmore, hfill]

end

/-! ## The read again of a stale slot (R84) -/

theorem exec_phaseStaleReread_slot {s u : State} {q tag : Nat} {r : SQ} (slot : BitVec 512) (hq : s.sq? q = some r)
    (hpasid : r.pasid = none) (htries : r.tries ≠ 0) (hdue : reached s.time r.staleDue) (hissue : s.link.mayIssue)
    (htake : s.mayTake q r) (hfree : s.tagFree tag) (hissued : s.link.noIssue.contains tag = false)
    (hturn : s.turn 2 (s.rereadKey q r) 3 0 r.cls (.reread q)) (hwins : s.wins 1 (s.rereadKey q r) 3 0)
    (hu : u = (((s.unwait 2 (.reread q)).takeRead tag (.ring q (r.c % r.size) 1)).hostRead tag
      (r.base + BitVec.ofNat 64 (64 * (r.c % r.size))) none 64).dropRead tag) :
    exec (.phaseStaleReread q tag ⟨.ok, ⟨slot, .sound⟩⟩) s = .next ((u.takeLoop 6 q [slot]).wantRing q) := by
  have hcpl : (((s.unwait 2 (.reread q)).takeRead tag (.ring q (r.c % r.size) 1)).hostRead tag
      (r.base + BitVec.ofNat 64 (64 * (r.c % r.size))) none 64).cplOf tag .ok = .ok := State.cplOf_issued hissued _
  subst hu
  change execPhaseStaleReread q tag ⟨.ok, ⟨slot, .sound⟩⟩ s = _
  simp [execPhaseStaleReread, hq, hpasid, htries, hdue, hissue, htake, hfree, hturn, hwins, hcpl, Checked.ue, State.ringFabric]

/-! ## The slot at C (R82, R84) -/

section
variable {s : State} {q : Nat} {r : SQ} {e : BitVec 512} (l : List (BitVec 512)) (n : Nat) (hq : s.sq? q = some r)
  (htake : s.mayTake q r) (hcapture : AMap.get? r.capture r.c = none) (hremain : r.remain ≠ 0)
include hq htake hcapture hremain

theorem State.takeLoop_match (hphase : entryPhase e = ringPhase r.size r.c) : s.takeLoop (n + 1) q (e :: l)
    = if (s.takeEntry q r e).2 then (s.takeEntry q r e).1.takeLoop n q l else (s.takeEntry q r e).1 := by
  rw [State.takeLoop]
  simp [hq, htake, hcapture, hremain, hphase]

theorem State.takeLoop_stale (hphase : entryPhase e ≠ ringPhase r.size r.c) : s.takeLoop (n + 1) q (e :: l)
    = if 63 ≤ r.tries then s.sqError q 3 r.c else s.setSq q { r with tries := r.tries + 1, staleDue := addNs s.time 250 } := by
  rw [State.takeLoop]
  simp [hq, htake, hcapture, hremain, hphase]

end

end Sys2Proof.Machine

open Sys2Proof.Machine in
/-- Settles O4: a block that arrives whole holds its slots (`Block.from_fill`), so that taking goes on with those from C on; the
other clauses are branches of their rows. -/
theorem ringReads : Obligations.RingReads := by
  unfold Obligations.RingReads
  refine ⟨fun s q tag n r b hq hwants hgrant hissue hfree hpool hb hn =>
      exec_ringFetch_reads hq hwants hgrant hissue hfree hpool hb hn, fun s q tag pos n k r slots hread hq hreading hblock hlen hn
      hpos hissued hkept => ?_, fun s q tag pos n r b slots hread hq hreading hblock hlen hne hmore hissued hkept =>
      exec_ringFetchComplete_more hread hq hblock hissued hkept hreading hlen hne hmore,
    fun s u q tag r slot hq hpasid htries hdue hissue htake hfree hissued hturn hwins hu =>
      exec_phaseStaleReread_slot slot hq hpasid htries hdue hissue htake hfree hissued hturn hwins hu,
    fun s q r e l n hq htake hcapture hremain => ⟨State.takeLoop_match l n hq htake hcapture hremain, fun hphase htries => ?_,
      fun hphase htries => ?_⟩⟩
  · rw [exec_ringFetchComplete_last hread hq hblock hissued hkept hreading hlen hn
      (by rw [Block.fill_empty, List.length_map, List.length_zipIdx, hlen]), Block.from_fill slots hlen hpos]
  · rw [State.takeLoop_stale l n hq htake hcapture hremain hphase, if_neg htries.not_ge]
  · rw [State.takeLoop_stale l n hq htake hcapture hremain hphase, if_pos htries]

/-! # The enables and messages of the function (O7)

Completions, messages and ring requests that go on when the link opens change pending bits and counters of the link, and none
of its settings. -/

namespace Sys2Proof.Machine

/-! ## The settings of the link -/

/-- The link without its pending bits, its count of refused requests and its error bits. -/
def Link.settings (l : Link) : Link := { l with pba := [], urSent := 0, aer := ⟨false, false, false, false, false⟩ }

@[simp] theorem State.urSent_settings (s : State) : s.urSent.link.settings = s.link.settings := rfl

/-! ### Messages and queue events -/

@[simp] theorem State.sendMsix_settings (s : State) (v : Nat) : (s.sendMsix v).link.settings = s.link.settings := rfl

@[simp] theorem State.message_settings (s : State) (v : Nat) : (s.message v).link.settings = s.link.settings := by
  unfold State.message
  dsimp only
  split
  · rfl
  · split
    · rw [(State.request_frame _ _ _ _ _ _).2.1]
      rfl
    · rfl

@[simp] theorem State.signal_settings (s : State) (v : Nat) : (s.signal v).link.settings = s.link.settings := by
  simp only [State.signal, State.signalNow]
  (repeat' split) <;> simp

@[simp] theorem State.queueEvent_settings (s : State) (q : Nat) (full : Bool) (cause index : Nat) (wrap : Bool) :
    (s.queueEvent q full cause index wrap).link.settings = s.link.settings := by
  unfold State.queueEvent
  dsimp only
  split <;> simp

/-! ### Completions -/

@[simp] theorem State.announceAt_settings (s : State) (q : Nat) : (s.announceAt q).link.settings = s.link.settings := by
  unfold State.announceAt
  (repeat' split) <;> simp

@[simp] theorem State.writeComp_settings (s : State) (q : Nat) (r : CQ) (c : Comp) :
    (s.writeComp q r c).link.settings = s.link.settings := by
  unfold State.writeComp
  dsimp only
  (repeat' split) <;> simp

@[simp] theorem State.hold_settings (s : State) (q : Nat) (r : CQ) (h : Held) : (s.hold q r h).link.settings = s.link.settings := by
  simp only [State.hold, State.ringFullEvent]
  (repeat' split) <;> simp

@[simp] theorem State.writeSub_settings (s : State) (q : Nat) (r : CQ) (sch : Nat) :
    (s.writeSub q r sch).1.link.settings = s.link.settings := by
  unfold State.writeSub
  dsimp only
  (repeat' split) <;> simp

@[simp] theorem State.drain_settings (n : Nat) (s : State) (q : Nat) : (s.drain n q).link.settings = s.link.settings := by
  induction n generalizing s with
  | zero => rfl
  | succ n ih =>
    unfold State.drain
    dsimp only
    (repeat' split) <;> simp [ih]

@[simp] theorem State.drainAll_settings (s : State) (q : Nat) : (s.drainAll q).link.settings = s.link.settings := by
  unfold State.drainAll
  split <;> simp

@[simp] theorem State.sendOne_settings (n : Nat) (s : State) (q : Nat) (h : Held) :
    (s.sendOne n q h).1.link.settings = s.link.settings := by
  induction n generalizing s with
  | zero => rfl
  | succ n ih =>
    unfold State.sendOne
    dsimp only
    (repeat' split) <;> simp [ih]

@[simp] theorem State.sendAll_settings (l : List Held) (s : State) (q : Nat) :
    (s.sendAll l q).link.settings = s.link.settings := by
  induction l generalizing s with
  | nil => rfl
  | cons h l ih =>
    unfold State.sendAll
    dsimp only
    split <;> simp [ih]

@[simp] theorem State.sendComps_settings (s : State) (q : Nat) : (s.sendComps q).link.settings = s.link.settings := by
  simp only [State.sendComps, State.unpark]
  split <;> simp

/-! ### Entries of submission queues -/

@[simp] theorem State.sqError_settings (s : State) (q cause pos : Nat) :
    (s.sqError q cause pos).link.settings = s.link.settings := by
  unfold State.sqError
  dsimp only
  (repeat' split) <;> simp

@[simp] theorem State.takeEntry_settings (s : State) (q : Nat) (r : SQ) (e : BitVec 512) :
    (s.takeEntry q r e).1.link.settings = s.link.settings := by
  unfold State.takeEntry
  dsimp only
  (repeat' split) <;> simp

@[simp] theorem State.takeLoop_settings (n : Nat) (s : State) (q : Nat) (slots : List (BitVec 512)) :
    (s.takeLoop n q slots).link.settings = s.link.settings := by
  induction n generalizing s slots with
  | zero => rfl
  | succ n ih =>
    unfold State.takeLoop
    dsimp only
    (repeat' split) <;> simp [ih]

@[simp] theorem State.pump_settings (s : State) (q : Nat) : (s.pump q).link.settings = s.link.settings := by
  simp [State.pump]

/-! ### The link opens -/

theorem State.resumes_settings (s : State) : s.resumes.link.settings = s.link.settings := by
  have hprog : (s.sub.prog.foldl (fun t e => t.progress e.1) s).link.settings = s.link.settings :=
    foldl_keeps (fun t => t.link.settings) _ (fun t e => by simp) _ _
  have hcomps : ∀ u : State, u.postWaiting.link.settings = u.link.settings := fun u =>
    foldl_keeps (fun t => t.link.settings) _ (fun t e => by simp) _ _
  have hmsgs : ∀ u : State, u.sendPending.link.settings = u.link.settings := fun u =>
    foldl_keeps (fun t => t.link.settings) _ (fun t v => by split <;> simp) _ _
  have hrings : ∀ u : State, u.pumpAll.link.settings = u.link.settings := fun u =>
    foldl_keeps (fun t => t.link.settings) _ (fun t e => by simp) _ _
  rw [State.resumes, hrings, State.linkResumes, hmsgs, (State.admSettle_frame _).2.1, hcomps, hprog]

theorem State.ifOpened_settings (s before : State) : (s.ifOpened before).link.settings = s.link.settings := by
  unfold State.ifOpened
  split
  · exact s.resumes_settings
  · rfl

/-! ## The rows of the function (R32, R50, R64, R65) -/

/-- A released endpoint serves its configuration requests (R57). -/
theorem State.config_released {s : State} (h : s.link.ep ≠ .held) (t : State) : s.config t = t := if_pos h

/-- Setting Bus Master Enable takes the tags from the host's configuration, and nothing that goes on then changes them. -/
theorem exec_busMasterEnableSet_settings {s : State} (h : s.link.ep ≠ .held) (hbme : s.link.bme = false) (c : HostCfg) :
    ∃ t, exec (.busMasterEnableSet c) s = .next t ∧ t.link.settings = (s.link.bindTags c).settings := by
  refine ⟨_, congrArg Host.Outcome.next (State.config_released h _), ?_⟩
  rw [if_neg (by simp [hbme]), State.ifOpened_settings]
  split
  · rfl
  · rfl

theorem exec_powerStateD0_settings {s : State} (h : s.link.ep ≠ .held) (hd3 : s.link.d3 = true) :
    ∃ t, exec .powerStateD0 s = .next t ∧ t.link.settings = { s.link with d3 := false }.settings := by
  refine ⟨_, congrArg Host.Outcome.next (State.config_released h _), ?_⟩
  rw [if_neg (by simp [hd3]), State.ifOpened_settings]
  rfl

/-- A pending vector that is unmasked sends its message once HOST-WRITE is its own, and asks for it until then (R50, R325). -/
theorem State.message_pending {s : State} {v : Nat} (hpba : s.link.pba = [v]) (hgo : s.link.deliverable v) :
    s.message v = if s.winsAs 2 (s.vecKey v) 3 0 (.msix v) then s.sendMsix v else s.request 2 (s.vecKey v) 3 0 (.msix v) := by
  have hsame : (if s.link.pba.contains v then s.link.pba else s.link.pba ++ [v]) = s.link.pba := if_pos (by simp [hpba])
  have hkept : (s.onLink fun l => { l with pba := if l.pba.contains v then l.pba else l.pba ++ [v] }) = s := by
    simp only [State.onLink, hsame]
  unfold State.message
  dsimp only
  rw [hkept, hgo]
  simp

theorem Link.vec_put_same (l : Link) (v : Nat) (e : VecEntry) : ({ l with vecs := AMap.put l.vecs v e } : Link).vec v = e := by
  simp [Link.vec, AMap.getD]

theorem exec_msixUnmask_pending {s u : State} {v : Nat} (hep : s.link.ep ≠ .held) (hpba : s.link.pba = [v]) (hv : v < 2048)
    (hissue : s.link.mayIssue) (hen : s.link.msixEn) (hfmask : s.link.fmask = false) (hnormal : s.link.ep ≠ .recovery)
    (hkept : s.link.ide.discarding = false) (hmse : s.link.mse) (hd3 : s.link.d3 = false)
    (hu : u = { s with link := { s.link with vecs := AMap.put s.link.vecs v { s.link.vec v with masked := false } } }) :
    exec (.msixUnmask (some v)) s = .next (if u.winsAs 2 (u.vecKey v) 3 0 (.msix v) then u.sendMsix v
      else u.request 2 (u.vecKey v) 3 0 (.msix v)) := by
  have hgo : u.link.deliverable v := by
    have hvec : (u.link.vec v).masked = false := by rw [hu, Link.vec_put_same]
    have hlink : u.link.mayIssue ∧ u.link.msixEn ∧ u.link.fmask = false := by
      rw [hu]
      exact ⟨hissue, hen, hfmask⟩
    obtain ⟨hissue', hen', hfmask'⟩ := hlink
    simp [Link.deliverable, hissue', hen', hfmask', hvec]
  have hupba : u.link.pba = [v] := by rw [hu]; exact hpba
  have hpending : u.sendPending = u.message v := by
    simp [State.sendPending, hupba, hgo]
  have hexec : exec (.msixUnmask (some v)) s = .next u.sendPending := by
    change execMsixUnmask (some v) s = _
    simp [execMsixUnmask, hep, hkept, Link.opens4, hmse, hd3, hv, hnormal, hu, State.onLink]
  rw [hexec, hpending, State.message_pending hupba hgo]

theorem State.mem_retests_capacity (s : State) (change : Nat) : change ∈ (s.capacity change).md.retests := by
  simp only [State.capacity, State.onMd_md]
  split
  · next h => simpa using h
  · simp

theorem State.mem_retests_of_mem {s : State} {k : Nat} (change : Nat) (h : k ∈ s.md.retests) : k ∈ (s.capacity change).md.retests := by
  simp only [State.capacity, State.onMd_md]
  split
  · exact h
  · exact List.mem_append_left _ h

/-- A change of rate or width falls to a re-test of both directions of the host link (R346). -/
theorem exec_hostLinkRateChange_changes {s : State} {rate width : Nat} (flit : Bool) (hep : s.link.ep ≠ .held) (href : s.pw.hrefOk)
    (hlow : 3 ≤ rate) (hhigh : rate ≤ 6) (hwidth : width ∈ [1, 2, 4, 8, 16]) (hnew : s.link.rate ≠ rate ∨ s.link.width ≠ width) :
    ∃ t, exec (.hostLinkRateChange rate width flit) s = .next t
      ∧ t.link = { s.link with rate := rate, width := width, flit := s.link.flitAt rate flit, linkUp := true }
      ∧ 1 ∈ t.md.retests ∧ 2 ∈ t.md.retests := by
  have hok : ¬(s.link.ep = .held || !s.pw.hrefOk || rate < 3 || 6 < rate || !([1, 2, 4, 8, 16].contains width)) = true := by
    have hw : [1, 2, 4, 8, 16].contains width = true := List.contains_iff_mem.mpr hwidth
    simp only [hw, href, hep, hlow.not_gt, hhigh.not_gt, decide_false, Bool.not_true, Bool.or_self, Bool.false_eq_true, not_false_eq_true]
  have hold : ¬(s.link.rate = rate && s.link.width = width) = true := by
    simpa [imp_iff_not_or] using hnew
  refine ⟨_, congrArg Host.Outcome.next ((if_neg hok).trans (if_neg hold)), ?_,
    State.mem_retests_of_mem _ (State.mem_retests_capacity _ 1), State.mem_retests_capacity _ 2⟩
  obtain ⟨f, hf⟩ := State.record_eq_onPl (s.onLink fun l =>
    { l with rate := rate, width := width, flit := l.flitAt rate flit, linkUp := true }) _ _ _ _
  rw [(State.capacity_frame _ _).2.1, (State.capacity_frame _ _).2.1, (State.irq_frame _ _).2.1, State.event, hf]
  rfl

/-- A timed-out read that its queue wants no more is dropped and counted. -/
theorem exec_hostCompletionTimeout_unowned {s : State} {tag q pos n : Nat} {r : SQ}
    (hread : AMap.get? s.link.reads tag = some (.ring q pos n)) (hq : s.sq? q = some r) (hreading : tag ∉ r.reading)
    (hissued : s.link.noIssue.contains tag = false) :
    exec (.hostCompletionTimeout tag) s = .next ((s.dropRead tag).countCpl .timeout) := by
  have hkept : s.link.drops .timeout = false := by simp [Link.drops]
  have hrow : exec (.hostCompletionTimeout tag) s = execRingFetchComplete tag .timeout ⟨[], .sound⟩ s := by
    change execHostCompletionTimeout tag s = _
    simp only [execHostCompletionTimeout, hread]
  rw [hrow]
  simp [execRingFetchComplete, hread, hkept, State.cplOf_issued hissued, hq, hreading, State.ringFabric]

end Sys2Proof.Machine

open Sys2Proof.Machine in
/-- Settles O7: what goes on when the link opens keeps its settings (`State.ifOpened_settings`); the other clauses are branches of
their rows. -/
theorem functionControls : Obligations.FunctionControls := by
  unfold Obligations.FunctionControls
  intro s hep
  refine ⟨fun hkept => ?_, congrArg _ (if_neg hep), fun hbme c => ?_, fun hbme => ?_, fun hmse => ?_, fun hmse => ?_, fun hd3 => ?_,
    fun v u hpba _ _ hv hissue hen hfmask hnormal hkept hmse hd3 hu => ?_,
    fun rate width flit href hlow hhigh hwidth hnew => ?_, fun tag q pos n r hread hq hreading hissued =>
      exec_hostCompletionTimeout_unowned hread hq hreading hissued⟩
  · exact congrArg Host.Outcome.next (if_neg (by simp [hep, hkept]))
  · obtain ⟨t, ht, hset⟩ := exec_busMasterEnableSet_settings hep hbme c
    exact ⟨t, ht, congrArg Link.bme hset, congrArg Link.rdLimit hset, congrArg Link.pasidEn hset, congrArg Link.mps hset⟩
  · exact congrArg Host.Outcome.next ((State.config_released hep _).trans (if_neg (by simp [hbme])))
  · exact congrArg Host.Outcome.next ((State.config_released hep _).trans (if_neg (by simp [hmse])))
  · exact congrArg Host.Outcome.next ((State.config_released hep _).trans (if_neg (by simp [hmse])))
  · obtain ⟨t, ht, hset⟩ := exec_powerStateD0_settings hep hd3
    exact ⟨t, ht, congrArg Link.d3 hset⟩
  · have hexec := exec_msixUnmask_pending hep hpba hv hissue hen hfmask hnormal hkept hmse hd3 hu
    exact ⟨fun hwins => hexec.trans (congrArg _ (if_pos hwins)), fun hwins => hexec.trans (congrArg _ (if_neg (by simp [hwins])))⟩
  · obtain ⟨t, ht, hlink, h1, h2⟩ := exec_hostLinkRateChange_changes flit hep href hlow hhigh hwidth hnew
    exact ⟨t, ht, congrArg Link.rate hlink, congrArg Link.width hlink, congrArg Link.linkUp hlink, h1, h2⟩

/-! # The DMA engines (O21) -/

namespace Sys2Proof.Machine

/-! ## What a request without a fault leaves as it is -/

@[simp] theorem State.bufferUe_zero (s : State) (seg : Nat) : s.bufferUe 0 seg = s := rfl

@[simp] theorem State.fabricUe_zero (s : State) (sch : Nat) : s.fabricUe 0 sch = s := rfl

@[simp] theorem bitsSet_zero : bitsSet 0#8 = 0 := by simp [bitsSet, countBelow]

/-- A segment without a poisoned word has no poisoned run. -/
@[simp] theorem poisonRuns_zero (a n : Nat) : poisonRuns 0#8 a n = [] := by simp [poisonRuns]

/-- No word is among the failing ones when none fails. -/
theorem filter_contains_nil (l : List Nat) : l.filter ([] : List Nat).contains = [] :=
  List.filter_eq_nil_iff.2 fun _ _ => by simp

/-- Bytes of sound words set no poison flag. -/
theorem foldl_flags_sound {l : List (Byte × Bool)} (h : ∀ b ∈ l, b.2 = false) (f : BitVec 8 → Nat → BitVec 8) (m : BitVec 8)
    (i : Nat) : (l.zipIdx i).foldl (fun m b => if b.1.2 = true then f m b.2 else m) m = m := by
  induction l generalizing i with
  | nil => rfl
  | cons b l ih => simp [h b List.mem_cons_self, ih fun c hc => h c (List.mem_cons_of_mem _ hc)]

/-! ## Channels -/

section
variable {s : State} {d n rix : Nat} {x : Desc} (hd : AMap.get? s.dma.descs d = some x) (hchan : x.chan = false) (hwork : s.hasWork d x)
  (hn : n = (if x.rd then 3 else 4)) (hrix : rix = (if x.rd then 4 else 5))
include hd hchan hwork hn hrix

theorem exec_dmaChannelGrant_takes (hturn : s.turn n (s.progKey x.sch) rix x.sch (s.clsOf x.sch) (.chan d)) :
    exec (.dmaChannelGrant d) s = .next (((s.unwait n (.chan d)).takeChan d x.rd).wantDma d) := by
  subst hn hrix
  change execDmaChannelGrant d s = _
  simp only [execDmaChannelGrant, hd]
  simp [hchan, hwork, hturn]

theorem exec_dmaChannelGrant_waits (hturn : s.turn n (s.progKey x.sch) rix x.sch (s.clsOf x.sch) (.chan d) = false) :
    exec (.dmaChannelGrant d) s = .next (s.await n (s.progKey x.sch) rix x.sch (s.clsOf x.sch) (.chan d)) := by
  subst hn hrix
  change execDmaChannelGrant d s = _
  simp only [execDmaChannelGrant, hd]
  simp [hchan, hwork, hturn]

end

/-! ## The write engine -/

/-- The descriptor of a write after a request of `r.n` bytes of its piece `q`, out of a segment that holds `h`. -/
def Desc.wrote (y : Desc) (q : DmaPiece) (h : HeldSeg) (r : WriteReq) (bad : List Nat) : Desc :=
  { y with
    poison := y.poison || false, badWords := bad, pieces := y.pieces.map fun p => if p = q then { p with
      asked := p.asked + r.n, issued := decide (sumBy (fun g => g.2 - g.1) (maskSpans h.mask) ≤ p.asked + r.n) } else p }

theorem exec_dmaWriteIssue_sound {s : State} {d piece n : Nat} {x : Desc} {q : DmaPiece} {h : HeldSeg} {r : WriteReq}
    (hd : AMap.get? s.dma.descs d = some x) (hnext : x.nextWrite = some q) (hreq : s.nextReq x q = some (n, h, r)) (hrd : x.rd = false)
    (hchan : x.chan) (hidx : q.idx = piece)
    (hhost : r.e.host && !r.e.skip → s.granted (.write d) ∧ s.link.mayIssue ∧ s.refusesWrite r.e.pasid = false) (hsound : h.poison = 0) :
    exec (.dmaWriteIssue d piece ⟨0, 0, [], 0⟩) s = .next (((((s.modSeg n fun g => { g with poison := g.poison ||| 0 }).writeOut r
      (slice h.data (r.a % 512) r.n) false x.badWords).withdraw (.write d)).modDesc d (·.wrote q h r x.badWords)).onward d) := by
  change execDmaWriteIssue d piece ⟨0, 0, [], 0⟩ s = _
  simp only [execDmaWriteIssue, hd, hnext, hreq]
  cases hto : r.e.host && !r.e.skip with
  | false => simp [hrd, hchan, hidx, hsound, Desc.wrote, State.corrected_zero]
  | true =>
    obtain ⟨hgrant, hissue, hpasid⟩ := hhost hto
    simp [hrd, hchan, hidx, hsound, hgrant, hissue, hpasid, Desc.wrote, State.corrected_zero]

theorem exec_dmaWriteVisible_frees {s u : State} {d piece n : Nat} {x : Desc} {q : DmaPiece} {h : HeldSeg}
    (hd : AMap.get? s.dma.descs d = some x) (hrd : x.rd = false) (hq : (x.pieces.find? fun p => p.issued && p.idx = piece) = some q)
    (hu : u = s.modDesc d fun y => { y with pieces := y.pieces.erase q })
    (hseg : u.segOf (.xfer x.sch x.cmd q.pc q.x) piece = some n) (hh : AMap.get? u.dma.segs n = some h) :
    exec (.dmaWriteVisible d piece) s = .next ((((maskSpans h.mask).foldl (fun t g =>
      t.descMoved d (512 * piece + g.1) (512 * piece + g.2)) u).releaseSeg n (.xfer x.sch x.cmd q.pc q.x)).onward d) := by
  subst hu
  change execDmaWriteVisible d piece s = _
  simp only [execDmaWriteVisible, hd, hq, hseg, hh]
  simp [hrd]

/-! ## The requests of the read engine -/

section
variable {s u v : State} {d tag seg o n : Nat} {x : Desc} {f : Fill} {c : Cmd} {p : Piece} {e : Extent} {rest : List Nat}
  (hd : AMap.get? s.dma.descs d = some x) (hnext : s.nextFill x = some f) (hc : s.cmd? x.sch x.cmd = some c)
  (he : extAt c.ext f.a = some (e, o)) (hp : c.pieces[f.pc]? = some p) (hrd : x.rd) (hchan : x.chan) (hsmall : p.large = false)
  (hseg : s.segFor (exchQuad f.x) x.sch x.cmd f.pc f.x f.k false (.seg d f.k) [seg] = some (u, seg, rest))
  (hv : v = (u.modDesc d fun y => y.ask f.k f.pc f.x n).flowSync (exchQuad f.x))
include hd hnext hc he hp hrd hchan hsmall hseg hv

theorem exec_dmaReadIssue_host (hhost : e.host) (hgrant : s.granted (.read d)) (hissue : s.link.mayIssue) (hfree : s.tagFree tag)
    (hpool : s.poolFree 2 (s.clsOf x.sch)) (hn : n = reqLen (e.addr.toNat + o) (min (f.b - f.a) (e.len - o)) s.link.mrrs) :
    exec (.dmaReadIssue d f.k tag ⟨seg, [], [], 0⟩) s = .next ((((v.withdraw (.read d)).takeRead tag (.dma d f.k f.a n)).hostRead tag
      (BitVec.ofNat 64 (e.addr.toNat + o)) e.pasid n).onward d) := by
  subst hv hn
  change execDmaReadIssue d f.k tag ⟨seg, [], [], 0⟩ s = _
  simp only [execDmaReadIssue, hd, hnext, hc, he, hp, hseg]
  simp [hrd, hchan, hsmall, hhost, hgrant, hissue, hfree, hpool]

theorem exec_dmaReadIssue_scratchpad (hhost : e.host = false) (hn : n = min (f.b - f.a) (e.len - o))
    (hsound : ∀ b ∈ v.gsFetch (e.addr.toNat + o) n, b.2 = false) :
    exec (.dmaReadIssue d f.k tag ⟨seg, [], [], 0⟩) s = .next ((v.filled d f.pc f.x f.k f.a
      ((v.gsFetch (e.addr.toNat + o) n).map (·.1)) 0).onward d) := by
  subst hv hn
  have hflags := foldl_flags_sound hsound (fun m i => m ||| wordsOf f.k (f.a + i) (f.a + i + 1)) 0#8 0
  change execDmaReadIssue d f.k tag ⟨seg, [], [], 0⟩ s = _
  simp only [execDmaReadIssue, hd, hnext, hc, he, hp, hseg]
  simp [hrd, hchan, hsmall, hhost, filter_contains_nil, hflags, State.corrected_zero]

end

/-! ## The completions of the read engine -/

/-- A read that ends leaves every command as it is. -/
@[simp] theorem State.cmd?_dropRead (s : State) (tag sch no : Nat) : (s.dropRead tag).cmd? sch no = s.cmd? sch no := by
  simp [State.cmd?, State.progOf]

@[simp] theorem State.cmd?_countCpl (s : State) (st : CplStatus) (sch no : Nat) : (s.countCpl st).cmd? sch no = s.cmd? sch no := by
  simp [State.cmd?, State.progOf]

section
variable {s : State} {tag d k a n : Nat} {x : Desc} {c : Cmd} {q : DmaPiece} {data : List Byte}
  (hread : AMap.get? s.link.reads tag = some (.dma d k a n)) (hd : AMap.get? s.dma.descs d = some x) (hc : s.cmd? x.sch x.cmd = some c)
  (hissued : s.link.noIssue.contains tag = false) (hkept : s.link.ide.discarding = false)
  (hq : (x.pieces.find? fun q => q.idx = k && decide (c.pieceAt a = q.pc)) = some q)
include hread hd hc hissued hkept hq

theorem exec_dmaReadCompletion_part (hdata : data ≠ []) (hpart : data.length < n) :
    exec (.dmaReadCompletion tag .ok ⟨data, .sound⟩) s
      = .next (((s.onLink fun l => { l with reads := AMap.put l.reads tag (.dma d k (a + data.length) (n - data.length)) }).filled
          d q.pc q.x k a (fit data.length data) 0).onward d) := by
  have hc' (f : Link → Link) : (s.onLink f).cmd? x.sch x.cmd = some c := hc
  change execDmaReadCompletion tag .ok ⟨data, .sound⟩ s = _
  simp [execDmaReadCompletion, hread, hd, hc', hq, Link.drops_kept hkept, State.cplOf_issued hissued, hdata, hpart, Checked.ue]

theorem exec_dmaReadCompletion_ur : exec (.dmaReadCompletion tag .ur ⟨data, .sound⟩) s
    = .next ((((s.dropRead tag).countCpl .ur).fillFailed d a .ur).onward d) := by
  change execDmaReadCompletion tag .ur ⟨data, .sound⟩ s = _
  simp [execDmaReadCompletion, hread, hd, hc, hq, Link.drops_kept hkept, State.cplOf_issued hissued]

variable (hwhole : data = [] ∨ n ≤ data.length)
include hwhole

omit hread hd hc hissued hkept hq in
/-- No byte is left to come. -/
theorem not_part_of_whole : ¬(¬data = [] ∧ data.length < n) := by
  rintro ⟨hdata, hpart⟩
  exact hwhole.elim hdata hpart.not_ge

theorem exec_dmaReadCompletion_sound : exec (.dmaReadCompletion tag .ok ⟨data, .sound⟩) s
    = .next (((s.dropRead tag).filled d q.pc q.x k a (fit n data) 0).onward d) := by
  change execDmaReadCompletion tag .ok ⟨data, .sound⟩ s = _
  simp [execDmaReadCompletion, hread, hd, hc, hq, Link.drops_kept hkept, State.cplOf_issued hissued, Checked.ue,
    eq_false (not_part_of_whole hwhole)]

/-- The words that poisoned data fills are poisoned. -/
theorem exec_dmaReadCompletion_poison : exec (.dmaReadCompletion tag .poison ⟨data, .sound⟩) s
    = .next (((((s.dropRead tag).countCpl .poison).filled d q.pc q.x k a (fit n data) (wordsOf k a (a + n))).fillFailed d a
        .poison).onward d) := by
  change execDmaReadCompletion tag .poison ⟨data, .sound⟩ s = _
  simp [execDmaReadCompletion, hread, hd, hc, hq, Link.drops_kept hkept, State.cplOf_issued hissued, Checked.ue,
    eq_false (not_part_of_whole hwhole)]

/-- So are those that Armature brings uncorrectable (R14). -/
theorem exec_dmaReadCompletion_bad : exec (.dmaReadCompletion tag .ok ⟨data, .bad⟩) s
    = .next ((((s.dropRead tag).memError 3 0 0 x.sch).filled d q.pc q.x k a (fit n data) (wordsOf k a (a + n))).onward d) := by
  change execDmaReadCompletion tag .ok ⟨data, .bad⟩ s = _
  simp [execDmaReadCompletion, hread, hd, hc, hq, Link.drops_kept hkept, State.cplOf_issued hissued, Checked.ue,
    eq_false (not_part_of_whole hwhole)]

end

/-! ## Segments of the read engine -/

section
variable {s : State} {d : Nat} {x : Desc} {f : Fill} {p : Piece} {segs : List Nat} (hd : AMap.get? s.dma.descs d = some x)
  (hnext : s.nextFill x = some f) (hp : ((s.cmd? x.sch x.cmd).bind fun c => c.pieces[f.pc]?) = some p) (hrd : x.rd)
  (hnone : s.segOf (.xfer x.sch x.cmd f.pc f.x) f.k = none)
include hd hnext hp hrd hnone

theorem exec_segmentAllocate_takes {u : State} (hall : s.allocAll (exchQuad f.x) x.sch x.cmd f.pc f.x (.seg d f.k)
    (if p.large then p.all else [f.k]) segs = some u) :
    exec (.segmentAllocate d f.k segs) s = .next (u.flowSync (exchQuad f.x)) := by
  change execSegmentAllocate d f.k segs s = _
  simp only [execSegmentAllocate, hd, hnext, hp, hall]
  simp [hrd, hnone]

theorem exec_segmentAllocate_waits (hall : s.allocAll (exchQuad f.x) x.sch x.cmd f.pc f.x (.seg d f.k)
    (if p.large then p.all else [f.k]) segs = none) :
    exec (.segmentAllocate d f.k segs) s = .next ((s.segWait (exchQuad f.x) x.sch (.seg d f.k)).flowSync (exchQuad f.x)) := by
  change execSegmentAllocate d f.k segs s = _
  simp only [execSegmentAllocate, hd, hnext, hp, hall]
  simp [hrd, hnone]

end

/-! ## The length of a request -/

theorem reqLen_within (addr left max : Nat) : reqLen addr left max ≤ left ∧ addr % 4096 + reqLen addr left max ≤ 4096
    ∧ (addr % 64 = 0 → reqLen addr left max ≤ max) ∧ (addr % 64 ≠ 0 → addr % 64 + reqLen addr left max ≤ 64)
    ∧ (0 < left → 0 < max → 0 < reqLen addr left max) := by
  unfold reqLen
  split
  · next h => simp only [h]; omega
  · next h => omega

end Sys2Proof.Machine

open Sys2Proof.Machine in
/-- Settles O21: each row of the engines under the conditions of its clause. -/
theorem dmaEngines : Obligations.DmaEngines := by
  unfold Obligations.DmaEngines
  refine ⟨fun s d n rix x hd hchan hwork hn hrix => ⟨?_, ?_⟩, ?_, ?_, ?_, ?_, ?_, reqLen_within⟩
  · exact exec_dmaChannelGrant_takes hd hchan hwork hn hrix
  · exact exec_dmaChannelGrant_waits hd hchan hwork hn hrix
  · intro s d piece n x q h r
    exact exec_dmaWriteIssue_sound
  · intro s u d piece n x q h
    exact exec_dmaWriteVisible_frees
  · intro s u v d tag seg o n x f c p e rest hd hnext hc he hp hrd hchan hsmall hseg
    refine ⟨fun hhost hgrant hissue hfree hpool hn hv => ?_, fun hhost hn hv hsound => ?_⟩
    · exact exec_dmaReadIssue_host hd hnext hc he hp hrd hchan hsmall hseg hv hhost hgrant hissue hfree hpool hn
    · exact exec_dmaReadIssue_scratchpad hd hnext hc he hp hrd hchan hsmall hseg hv hhost hn hsound
  · intro s tag d k a n x c q data hread hd hc hissued hkept hq
    refine ⟨?_, ?_, fun hwhole => ⟨?_, ?_, ?_⟩⟩
    · exact exec_dmaReadCompletion_part hread hd hc hissued hkept hq
    · exact exec_dmaReadCompletion_ur hread hd hc hissued hkept hq
    · exact exec_dmaReadCompletion_sound hread hd hc hissued hkept hq hwhole
    · exact exec_dmaReadCompletion_poison hread hd hc hissued hkept hq hwhole
    · exact exec_dmaReadCompletion_bad hread hd hc hissued hkept hq hwhole
  · intro s d x f p segs hd hnext hp hrd hnone
    exact ⟨fun u => exec_segmentAllocate_takes hd hnext hp hrd hnone, exec_segmentAllocate_waits hd hnext hp hrd hnone⟩

/-! # Rings (O2)

The statement has a completion ring whose head and tail lie in range full exactly when their indices are equal and their wrap
bits differ. A ring that holds more entries than it has slots is out of room too; no valid doorbell leaves one, but nothing in
the statement keeps it out. -/

namespace Sys2Proof.Machine

/-- A completion queue of two slots with its head one position beyond its tail, as if it held three entries. -/
def overfullCq : CQ := { admCq 1 0 [] with head := 1 }

theorem overfullCq_noRoom : overfullCq.room = false ∧ overfullCq.head % overfullCq.size ≠ overfullCq.tail % overfullCq.size := by
  decide

end Sys2Proof.Machine

open Sys2Proof.Machine in
/-- Refutes O2: a completion ring of two slots with its head at 1 and its tail at 0 is out of room, and their indices differ. -/
theorem not_ringFull : ¬ Obligations.RingFull := by
  unfold Obligations.RingFull
  rintro ⟨hcq, -⟩
  obtain ⟨hnoRoom, hidx⟩ := overfullCq_noRoom
  obtain ⟨hfull, -⟩ := hcq overfullCq (by decide) (by decide)
  exact hidx (hfull.1 hnoRoom).1

/-! # Errors of completion queues (O5)

QM_QEVT tells an entry into ERROR from a ring-full event by FULL, which is 0 for the first (R95). The statement has FULL 1 in the
event of a completion queue that enters ERROR. -/

namespace Sys2Proof.Machine

/-- Completion queue 5 is ACTIVE, and nothing waits for it. -/
def quietState : State := { State.reset with q := { Queues.reset with cqs := [(5, idleCq)] } }

/-- The event of queue 5 as it enters ERROR is no ring-full event. -/
theorem quietState_event : (quietState.cqError 5).q.qevt = [⟨5, false, 4, 0, false⟩] := by decide +kernel

end Sys2Proof.Machine

open Sys2Proof.Machine in
/-- Refutes O5: completion queue 5 enters ERROR with an event whose FULL is 0, where the statement has 1. -/
theorem not_queueErrors : ¬ Obligations.QueueErrors := by
  unfold Obligations.QueueErrors
  rintro ⟨hcq, -⟩
  obtain ⟨-, hevent, -⟩ := hcq quietState 5 idleCq rfl (by decide) (by decide) (by simp [quietState, Queues.reset])
  exact absurd (quietState_event.symm.trans hevent) (by decide)

/-! # Failed reads of ring memory (O3)

A queue event signals vector 3, whose message may go out at once and then restarts the announcement of its completion queues
(R103, R474). All else of the queues it leaves as it is. -/

namespace Sys2Proof.Machine

open Sys2Proof.Safety

/-! ## What an event and a message leave -/

@[simp] theorem State.event_q (s : State) (source block code a0 a1 a2 a3 : Nat) :
    (s.event source block code a0 a1 a2 a3).q = s.q := by
  obtain ⟨f, hf⟩ := s.record_eq_onPl _ _ _ _
  rw [State.event, hf, State.onPl_q]

@[simp] theorem State.event_sub (s : State) (source block code a0 a1 a2 a3 : Nat) :
    (s.event source block code a0 a1 a2 a3).sub = s.sub := by
  obtain ⟨f, hf⟩ := s.record_eq_onPl _ _ _ _
  rw [State.event, hf, State.onPl_sub]

/-- A completion queue without what R103 counts for its next message. -/
def CQ.uncounted (r : CQ) : CQ := { r with unann := 0, aggDue := none }

/-- The queues without what R103 counts. -/
def Queues.uncounted (x : Queues) : Queues := { x with cqs := x.cqs.map fun e => (e.1, e.2.uncounted) }

theorem AMap.get?_map {α β : Type} (f : α → β) (m : AMap α) (k : Nat) :
    AMap.get? (m.map fun e => (e.1, f e.2)) k = (AMap.get? m k).map f := by
  induction m with
  | nil => rfl
  | cons e m ih =>
    obtain ⟨j, v⟩ := e
    simp only [List.map_cons, AMap.get?]
    split
    · rfl
    · exact ih

theorem Queues.uncounted_announce (x : Queues) (v : Nat) : { x with cqs := announce v x.cqs }.uncounted = x.uncounted := by
  have hcq : ∀ e : Nat × CQ, (if e.2.ien && e.2.vector = v then (e.1, { e.2 with unann := 0, aggDue := none }) else e).2.uncounted
      = e.2.uncounted := fun e => by split <;> rfl
  have hkey : ∀ e : Nat × CQ, (if e.2.ien && e.2.vector = v then (e.1, { e.2 with unann := 0, aggDue := none }) else e).1 = e.1 :=
    fun e => by split <;> rfl
  simp only [Queues.uncounted, announce, List.map_map, Function.comp_def, hcq, hkey]

@[simp] theorem State.message_uncounted (s : State) (v : Nat) : (s.message v).q.uncounted = s.q.uncounted := by
  unfold State.message
  dsimp only
  split
  · exact s.q.uncounted_announce v
  · split
    · rw [(State.request_frame _ _ _ _ _ _).2.2.1]
      rfl
    · rfl

@[simp] theorem State.signal_uncounted (s : State) (v : Nat) : (s.signal v).q.uncounted = s.q.uncounted := by
  simp only [State.signal, State.signalNow]
  (repeat' split) <;> simp

@[simp] theorem State.signal_sub (s : State) (v : Nat) : (s.signal v).sub = s.sub := by
  simp only [State.signal, State.signalNow]
  (repeat' split) <;> simp

@[simp] theorem State.signal_sqs (s : State) (v : Nat) : (s.signal v).q.sqs = s.q.sqs :=
  (congrArg Queues.sqs (s.signal_uncounted v) :)

@[simp] theorem State.signal_qevt (s : State) (v : Nat) : (s.signal v).q.qevt = s.q.qevt :=
  (congrArg Queues.qevt (s.signal_uncounted v) :)

/-- What a queue is, up to what R103 counts, is seen from the queues up to it. -/
theorem State.cq?_uncounted {s t : State} (h : s.q.uncounted = t.q.uncounted) (q : Nat) :
    (s.cq? q).map CQ.uncounted = (t.cq? q).map CQ.uncounted := by
  rw [State.cq?, State.cq?, ← AMap.get?_map, ← AMap.get?_map]
  exact congrArg (AMap.get? · q) (congrArg Queues.cqs h)

/-- A queue event leaves the submission queues as they are. -/
@[simp] theorem State.queueEvent_sqs (s : State) (q : Nat) (full : Bool) (cause index : Nat) (wrap : Bool) :
    (s.queueEvent q full cause index wrap).q.sqs = s.q.sqs := by
  simp only [State.queueEvent, State.signal_sqs, (State.irq_frame _ _).2.2.1]
  split <;> rfl

/-! ## The error (R93) -/

/-- A submission queue that has entered ERROR, latched at a position. -/
def SQ.failed (r : SQ) (cause pos : Nat) : SQ :=
  { r with
    st := .error, cause := cause, latched := pos, ahead := false, tries := if pos = r.c then 0 else r.tries,
    capture := r.capture.filter fun e => decide (ringDist r.size e.1 pos ≠ 0) && decide (ringDist r.size e.1 pos ≤ r.size) }

theorem State.sq?_sqError {s : State} {q : Nat} {r : SQ} (cause pos : Nat) (hr : s.sq? q = some r) (hst : r.st ≠ .error) :
    (s.sqError q cause pos).sq? q = some (r.failed cause pos) := by
  have hset : (s.sqError q cause pos).q.sqs = AMap.put s.q.sqs q (r.failed cause pos) := by
    simp [State.sqError, hr, hst, SQ.failed, State.setSq]
  rw [State.sq?, hset, AMap.get?_put_same]

theorem ringDist_self (size p : Nat) : ringDist size p p = 0 := by
  have hdiv := Nat.div_add_mod p (2 * size)
  rw [ringDist, show p + 2 * size - p % (2 * size) = 2 * size * (p / (2 * size) + 1) by rw [Nat.mul_add]; omega]
  exact Nat.mul_mod_right _ _

/-- A queue that is latched at C has nothing left to take before it. -/
theorem SQ.failed_remain (r : SQ) (cause : Nat) : (r.failed cause r.c).remain = 0 := by
  unfold SQ.remain
  split
  · rfl
  · exact ringDist_self _ _

theorem State.mayTake_failed (s : State) (q : Nat) (r : SQ) (cause : Nat) : s.mayTake q (r.failed cause r.c) = false := by
  rw [State.mayTake, SQ.failed_remain]
  rfl

/-- A queue from which nothing may be taken stays as it is. -/
theorem State.pump_of_closed {s : State} {q : Nat} {r : SQ} (hr : s.sq? q = some r) (h : s.mayTake q r = false) : s.pump q = s := by
  have hloop : s.takeLoop 5 q [] = s := by simp [State.takeLoop, hr, h]
  rw [State.pump, hloop]
  simp [State.wantRing, hr, State.wantsFetch, h]

/-- Queue `q` is in ERROR with HOST-READ-ERROR, latched at the C of its record `r`, and holds what it had taken (R86). -/
def ReadFailed (q : Nat) (r : SQ) (t : State) : Prop :=
  ∃ u, t.sq? q = some u ∧ u.st = .error ∧ u.cause = 8 ∧ u.latched = r.c ∧ u.c = r.c ∧ u.taken = r.taken

theorem State.sqFails_readFailed {s : State} {q : Nat} {r : SQ} (hr : s.sq? q = some r) (hst : r.st ≠ .error) :
    ReadFailed q r (s.sqFails q 8 r.c) := by
  have hq := State.sq?_sqError 8 r.c hr hst
  rw [State.sqFails, State.pump_of_closed hq (State.mayTake_failed _ _ _ _)]
  exact ⟨_, hq, rfl, rfl, rfl, rfl, rfl⟩

/-! ## The end of a read -/

@[simp] theorem State.ringFabric_q (s : State) (st : CplStatus) (e : Ecc) : (s.ringFabric st e).q = s.q := by
  unfold State.ringFabric
  (repeat' split) <;> simp [State.memError]

theorem State.cplOf_failed {s : State} {tag : Nat} {st : CplStatus} (h : st ≠ .ok) : s.cplOf tag st ≠ .ok := by
  unfold State.cplOf
  split
  · decide
  · exact h

theorem State.sq?_setSq (s : State) (q : Nat) (r : SQ) : (s.setSq q r).sq? q = some r := AMap.get?_put_same _ _ _

section
variable {s : State} {q tag : Nat} {r : SQ} {st : CplStatus} (hr : s.sq? q = some r) (hst : r.st ≠ .error)
include hr hst

/-- A completion that fails, or that Armature brings uncorrectable, ends the block read. -/
theorem exec_ringFetchComplete_fails {pos n : Nat} {b : Block} {slots : Checked (List (BitVec 512))}
    (hread : AMap.get? s.link.reads tag = some (.ring q pos n)) (hreading : tag ∈ r.reading) (hblock : r.block = some b)
    (hbad : st ≠ .ok ∨ slots.ecc = .bad) (hkept : s.link.drops st = false) :
    Leads (.ringFetchComplete tag st slots) s (ReadFailed q r) := by
  have hfails : (s.cplOf tag st ≠ .ok || slots.ue || slots.val.length = 0 || n < slots.val.length) = true := by
    rcases hbad with h | h
    · simp [State.cplOf_failed h]
    · simp [Checked.ue, h]
  have hreading' : (!r.reading.contains tag) = false := by simp [hreading]
  have hexec : ∃ u : State, execRingFetchComplete tag st slots s
      = .next ((u.setSq q { r with reading := [], block := none }).sqFails q 8 r.c) := by
    simp only [execRingFetchComplete, hread, hkept, hr, hblock, hfails, hreading', if_true, if_false, Bool.false_eq_true]
    exact ⟨_, rfl⟩
  obtain ⟨u, hu⟩ := hexec
  exact ⟨_, hu, State.sqFails_readFailed (r := { r with reading := [], block := none }) (u.sq?_setSq q _) hst⟩

omit hr hst in
/-- A completion timeout is a failed completion without slots. -/
theorem exec_hostCompletionTimeout_ring {pos n : Nat} (hread : AMap.get? s.link.reads tag = some (.ring q pos n)) :
    exec (.hostCompletionTimeout tag) s = exec (.ringFetchComplete tag .timeout ⟨[], .sound⟩) s := by
  change execHostCompletionTimeout tag s = _
  simp only [execHostCompletionTimeout, hread]
  rfl

/-- So does a read again of a stale slot. -/
theorem exec_phaseStaleReread_fails {slot : Checked (BitVec 512)} (hbad : st ≠ .ok ∨ slot.ecc = .bad) (htries : r.tries ≠ 0)
    (hdue : reached s.time r.staleDue) (hissue : s.link.mayIssue) (htake : s.mayTake q r) (hfree : s.tagFree tag)
    (hturn : s.turn 2 (s.rereadKey q r) 3 0 r.cls (.reread q)) (hwins : s.wins 1 (s.rereadKey q r) 3 0) :
    Leads (.phaseStaleReread q tag ⟨st, slot⟩) s (ReadFailed q r) := by
  have hfails : ∀ u : State, (u.cplOf tag st ≠ .ok || slot.ue) = true := fun u => by
    rcases hbad with h | h
    · simp [State.cplOf_failed h]
    · simp [Checked.ue, h]
  have hgo : (r.tries = 0 || !reached s.time r.staleDue || !s.link.mayIssue || !s.mayTake q r || !s.tagFree tag) = false := by
    simp [htries, hdue, hissue, htake, hfree]
  have hserved : (!(s.turn 2 (s.rereadKey q r) 3 0 r.cls (.reread q) && s.wins 1 (s.rereadKey q r) 3 0)) = false := by
    simp [hturn, hwins]
  have hexec : ∃ u : State, execPhaseStaleReread q tag ⟨st, slot⟩ s = .next (u.sqFails q 8 r.c) ∧ u.q = s.q := by
    simp only [execPhaseStaleReread, hr, hgo, hserved, hfails, if_true, if_false, Bool.false_eq_true]
    exact ⟨_, rfl, by simp⟩
  obtain ⟨u, hu, hq⟩ := hexec
  exact ⟨_, hu, State.sqFails_readFailed (by rwa [State.sq?, hq]) hst⟩

end

end Sys2Proof.Machine

open Sys2Proof.Machine in
/-- Settles O3: the read ends in an error latched at C, before which the queue has nothing left to take (`SQ.failed_remain`). -/
theorem ringReadError : Obligations.RingReadError := by
  unfold Obligations.RingReadError
  rintro s q r st _ hr hst rfl
  refine ⟨fun tag pos n slots b hread hreading hblock hbad hkept => ⟨?_, fun htimeout => ?_⟩,
    fun tag slot hbad htries hdue hissue htake hfree hturn hwins => ?_⟩
  · exact exec_ringFetchComplete_fails hr hst hread hreading hblock hbad hkept
  · subst htimeout
    rw [Sys2Proof.Safety.Leads, exec_hostCompletionTimeout_ring hread]
    exact exec_ringFetchComplete_fails hr hst hread hreading hblock (.inl (by decide)) hkept
  · exact exec_phaseStaleReread_fails hr hst hbad htries hdue hissue htake hfree hturn hwins

/-! # Presented entries (O8) -/

namespace Sys2Proof.Machine

open Sys2Proof.Safety

theorem exec_nopEntry_completes {s : State} {q : Nat} {r : SQ} {e : BitVec 512} (h : Fronts s q 0 r e) : exec (.nopEntry q) s
    = .next (((s.shift q r).postComp r.cqid ⟨5, 0, entryCid e, 0, q, 0, 0, s.time, r.cls⟩).pump q) := by
  change execNopEntry q s = _
  rw [execNopEntry, h]

/-! ## START (R126) -/

section
variable {s : State} {q : Nat} {r : SQ} {e : BitVec 512} (h : Fronts s q 1 r e)
include h

theorem exec_start_unbound (hbound : (s.ctxOf (entrySch e)).bound q = false) :
    exec (.start q .sound) s = .next (((s.shift q r).rejectEntry q r e 1).pump q) := by
  change execStart q .sound s = _
  simp [execStart, h, hbound]

variable (hbound : (s.ctxOf (entrySch e)).bound q = true)
include hbound

theorem exec_start_idle (hst : (s.ctxOf (entrySch e)).state = .idle) :
    exec (.start q .sound) s = .next ((s.startAccepted q r e).pump q) := by
  change execStart q .sound s = _
  simp [execStart, h, hbound, hst]

theorem exec_start_disabled (hst : (s.ctxOf (entrySch e)).state = .disabled) :
    exec (.start q .sound) s = .next (((s.shift q r).rejectEntry q r e 3).pump q) := by
  change execStart q .sound s = _
  simp [execStart, h, hbound, hst]

theorem exec_start_busy (hdis : (s.ctxOf (entrySch e)).state ≠ .disabled) (hidle : (s.ctxOf (entrySch e)).state ≠ .idle) :
    exec (.start q .sound) s = .next ((((s.shift q r).waited 0).rejectEntry q r e 2).pump q) := by
  change execStart q .sound s = _
  simp [execStart, h, hbound, hdis, hidle]

end

/-! ## RESUME (R126, R129) -/

/-- A subchannel that takes no RESUME and no HALT is BUSY (R127). -/
def SchState.busy (t : SchState) : Prop := t = .idle ∨ t = .statusPending ∨ t = .haltPending ∨ t = .clearPending

section
variable {s : State} {q : Nat} {r : SQ} {e : BitVec 512} (h : Fronts s q 2 r e)
include h

theorem exec_resume_unbound (hbound : (s.ctxOf (entrySch e)).bound q = false) :
    exec (.resume q) s = .next (((s.shift q r).rejectEntry q r e 1).pump q) := by
  change execResume q s = _
  simp [execResume, h, hbound]

variable (hbound : (s.ctxOf (entrySch e)).bound q = true)
include hbound

theorem exec_resume_suspended (hst : (s.ctxOf (entrySch e)).state = .suspended) :
    exec (.resume q) s = .next ((((s.shift q r).modCtx (entrySch e) fun x =>
      { x.resumeTimer s.time with state := .waiting }).requeue (entrySch e)).pump q) := by
  change execResume q s = _
  simp [execResume, h, hbound, hst]

theorem exec_resume_running (hst : (s.ctxOf (entrySch e)).state = .startPending ∨ (s.ctxOf (entrySch e)).state = .active
      ∨ (s.ctxOf (entrySch e)).state = .waiting) :
    exec (.resume q) s = .next ((((s.shift q r).modCtx (entrySch e) fun x =>
      { x with resreq := true }).progress (entrySch e)).pump q) := by
  change execResume q s = _
  obtain hst | hst | hst := hst <;> simp [execResume, h, hbound, hst]

theorem exec_resume_busy (hst : (s.ctxOf (entrySch e)).state.busy) :
    exec (.resume q) s = .next (((s.shift q r).rejectEntry q r e 2).pump q) := by
  change execResume q s = _
  obtain hst | hst | hst | hst := hst <;> simp [execResume, h, hbound, hst]

theorem exec_resume_disabled (hst : (s.ctxOf (entrySch e)).state = .disabled) :
    exec (.resume q) s = .next (((s.shift q r).rejectEntry q r e 3).pump q) := by
  change execResume q s = _
  simp [execResume, h, hbound, hst]

end

/-! ## HALT (R126, R130) -/

section
variable {s : State} {q : Nat} {r : SQ} {e : BitVec 512} (h : Fronts s q 3 r e)
include h

theorem exec_halt_foreign (hpasid : (s.ctxOf (entrySch e)).samePasid r = false) :
    exec (.halt q) s = .next (((s.shift q r).rejectEntry q r e 1).pump q) := by
  change execHalt q s = _
  simp [execHalt, h, hpasid]

variable (hpasid : (s.ctxOf (entrySch e)).samePasid r = true)
include hpasid

theorem exec_halt_atOnce (hst : (s.ctxOf (entrySch e)).state = .startPending ∨ (s.ctxOf (entrySch e)).state = .suspended) :
    exec (.halt q) s = .next ((((s.shift q r).modCtx (entrySch e) fun x => { x with haltreq := true }).endAtOnce (entrySch e)).pump
      q) := by
  change execHalt q s = _
  obtain hst | hst := hst <;> simp [execHalt, h, hpasid, hst]

theorem exec_halt_running (hst : (s.ctxOf (entrySch e)).state = .active ∨ (s.ctxOf (entrySch e)).state = .waiting) :
    exec (.halt q) s = .next (((((s.shift q r).modCtx (entrySch e) fun x =>
      { x with haltreq := true, state := .haltPending }).dropStores (entrySch e)).undispatch (entrySch e)).pump q) := by
  change execHalt q s = _
  obtain hst | hst := hst <;> simp [execHalt, h, hpasid, hst]

theorem exec_halt_busy (hst : (s.ctxOf (entrySch e)).state.busy) :
    exec (.halt q) s = .next (((s.shift q r).rejectEntry q r e 2).pump q) := by
  change execHalt q s = _
  obtain hst | hst | hst | hst := hst <;> simp [execHalt, h, hpasid, hst]

theorem exec_halt_disabled (hst : (s.ctxOf (entrySch e)).state = .disabled) :
    exec (.halt q) s = .next (((s.shift q r).rejectEntry q r e 3).pump q) := by
  change execHalt q s = _
  simp [execHalt, h, hpasid, hst]

end

/-! ## CLEAR (R126, R131) -/

section
variable {s : State} {q : Nat} {r : SQ} {e : BitVec 512} (h : Fronts s q 4 r e)
include h

theorem exec_clear_foreign (hpasid : (s.ctxOf (entrySch e)).samePasid r = false) :
    exec (.clear q) s = .next (((s.shift q r).rejectEntry q r e 1).pump q) := by
  change execClear q s = _
  simp [execClear, h, hpasid]

variable (hpasid : (s.ctxOf (entrySch e)).samePasid r = true)
include hpasid

theorem exec_clear_atOnce (hst : (s.ctxOf (entrySch e)).state = .startPending ∨ (s.ctxOf (entrySch e)).state = .suspended) :
    exec (.clear q) s = .next ((((s.shift q r).modCtx (entrySch e) fun x => { x.wipe with clrreq := true }).endAtOnce
      (entrySch e)).pump q) := by
  change execClear q s = _
  obtain hst | hst := hst <;> simp [execClear, h, hpasid, hst]

theorem exec_clear_running (hst : (s.ctxOf (entrySch e)).state = .active ∨ (s.ctxOf (entrySch e)).state = .waiting
      ∨ (s.ctxOf (entrySch e)).state = .haltPending) :
    exec (.clear q) s = .next (((if (s.shift q r).hasThread (entrySch e) then s.shift q r
      else (s.shift q r).modCtx (entrySch e) Ctx.wipe).cut (entrySch e)).pump q) := by
  change execClear q s = _
  obtain hst | hst | hst := hst <;> simp [execClear, h, hpasid, hst]

theorem exec_clear_busy (hst : (s.ctxOf (entrySch e)).state = .idle ∨ (s.ctxOf (entrySch e)).state = .statusPending
      ∨ (s.ctxOf (entrySch e)).state = .clearPending) :
    exec (.clear q) s = .next (((s.shift q r).rejectEntry q r e 2).pump q) := by
  change execClear q s = _
  obtain hst | hst | hst := hst <;> simp [execClear, h, hpasid, hst]

theorem exec_clear_disabled (hst : (s.ctxOf (entrySch e)).state = .disabled) :
    exec (.clear q) s = .next (((s.shift q r).rejectEntry q r e 3).pump q) := by
  change execClear q s = _
  simp [execClear, h, hpasid, hst]

end

end Sys2Proof.Machine

open Sys2Proof.Machine in
/-- Settles O8: each row by the state of the subchannel that its entry names. -/
theorem presentedEntries : Obligations.PresentedEntries := by
  unfold Obligations.PresentedEntries
  rintro s q r e _ rfl
  refine ⟨exec_nopEntry_completes, fun h => ⟨exec_start_idle h, exec_start_unbound h, exec_start_disabled h, exec_start_busy h⟩,
    fun h hbound => ⟨exec_resume_suspended h hbound, exec_resume_running h hbound, exec_resume_busy h hbound,
      exec_resume_disabled h hbound⟩, exec_resume_unbound,
    fun h hpasid => ⟨exec_halt_atOnce h hpasid, exec_halt_running h hpasid, exec_halt_busy h hpasid, exec_halt_disabled h hpasid⟩,
    fun h hpasid => ⟨exec_clear_atOnce h hpasid, exec_clear_running h hpasid, exec_clear_busy h hpasid,
      exec_clear_disabled h hpasid⟩, fun hpasid => ⟨fun h => exec_halt_foreign h hpasid, fun h => exec_clear_foreign h hpasid⟩⟩

/-! # Fences, final statuses and the aggregation timer (O10) -/

namespace Sys2Proof.Machine

/-- The fence of a queue opens once no program that it started runs on (R78). -/
theorem exec_fenceRelease_opens {s : State} {q : Nat} {r : SQ} {e : BitVec 512} {l : List (BitVec 512)} (hr : s.sq? q = some r)
    (htaken : r.taken = e :: l) (hfence : entryFence e) (hnone : ∀ p ∈ s.sub.prog, p.2.sq ≠ q) :
    exec (.fenceRelease q) s = .next (s.setSq q { r with fenceOk := true }) := by
  have hquiet : s.sub.prog.any (fun p => p.2.sq = q) = false := by simpa using hnone
  change execFenceRelease q s = _
  simp only [execFenceRelease, hr, htaken, hfence, hquiet]
  rfl

/-! ## The final status (R133, R134, R188) -/

/-- The stores that END held leave before the final status; without any, the program is as it was. -/
def State.afterEndStores (s : State) (rel : Release) : State :=
  if s.endStores rel.of_ then ((s.releaseFaults rel.of_ (s.progOf rel.of_).stores rel).releaseStores rel.of_
    (s.progOf rel.of_).stores).modProg rel.of_ fun p => { p with stores := [] } else s

theorem exec_finalStatusPending_final {s u v : State} {rel : Release}
    (hgo : s.endStores rel.of_ = true → s.canRelease rel.of_ (s.progOf rel.of_).stores) (hv : v = s.afterEndStores rel)
    (hu : u = if (v.progOf rel.of_).ending then v.progress rel.of_ else v) (hready : u.finalReady rel.of_) :
    exec (.finalStatusPending rel) s = .next (u.makeFinal rel.of_) := by
  have hheld : ¬(s.endStores rel.of_ && !s.canRelease rel.of_ (s.progOf rel.of_).stores) = true := by simpa using hgo
  calc exec (.finalStatusPending rel) s = .next (if u.finalReady rel.of_ then u.makeFinal rel.of_ else u) := by
        subst hu hv
        exact congrArg Host.Outcome.next (if_neg hheld)
    _ = .next (u.makeFinal rel.of_) := by rw [if_pos hready]

/-- Stores that may not leave ask for HOST-WRITE, and the final status waits. -/
theorem exec_finalStatusPending_waits {s : State} {rel : Release} (hend : s.endStores rel.of_)
    (hheld : s.canRelease rel.of_ (s.progOf rel.of_).stores = false) :
    exec (.finalStatusPending rel) s = .next (s.storeWait rel.of_) :=
  congrArg Host.Outcome.next (if_pos (by simp [hend, hheld]))

/-- A context that differs from that of an unused subchannel is read back as it was stored. -/
theorem State.ctxOf_modCtx_nonzero {s : State} {sch : Nat} {f : Ctx → Ctx} (h : f (s.ctxOf sch) ≠ Ctx.zero) :
    (s.modCtx sch f).ctxOf sch = f (s.ctxOf sch) := by
  have hstore : (s.modCtx sch f).sub.ctx = AMap.put s.sub.ctx sch (f (s.ctxOf sch)) := if_neg h
  rw [State.ctxOf, hstore, AMap.getD, AMap.get?_put_same, Option.getD_some]

/-- A context whose final status has been written (R134). -/
def Ctx.finalOut (c : Ctx) : Ctx :=
  if c.disend then { c.unbind with state := .disabled, held := false } else { c with state := .idle, held := false }

theorem Ctx.finalOut_nonzero {c : Ctx} (h : c.disend → c.gen ≠ 0) : c.finalOut ≠ Ctx.zero := by
  unfold Ctx.finalOut
  split
  · next hdisend => exact fun hz => h hdisend (congrArg Ctx.gen hz)
  · exact fun hz => nomatch (congrArg Ctx.state hz : SchState.idle = .disabled)

theorem State.ctxOf_finalWritten {s : State} {sch : Nat} (h : (s.ctxOf sch).disend → (s.ctxOf sch).gen ≠ 0) :
    (s.finalWritten sch).ctxOf sch = (s.ctxOf sch).finalOut :=
  State.ctxOf_modCtx_nonzero (f := Ctx.finalOut) (Ctx.finalOut_nonzero h)

/-! ## The aggregation timer (R103) -/

theorem exec_aggregationTimerExpiry_signals {s : State} {q : Nat} {r : CQ} {due : Time} (hr : s.cq? q = some r)
    (hdue : r.aggDue = some due) (hien : r.ien) (hacts : s.aggTimer q due) :
    exec (.aggregationTimerExpiry q) s = .next (((s.late due).setCq q { r with aggDue := none }).signal r.vector) := by
  change execAggregationTimerExpiry q s = _
  simp [execAggregationTimerExpiry, hr, hdue, hien, hacts]

end Sys2Proof.Machine

open Sys2Proof.Machine in
/-- Settles O10: the stores that END held leave first (`State.afterEndStores`), and a context whose final status has been written
reads IDLE, or DISABLED without its bindings. -/
theorem fenceFinalAndAggregation : Obligations.FenceFinalAndAggregation := by
  unfold Obligations.FenceFinalAndAggregation
  refine ⟨fun s q r e l => exec_fenceRelease_opens, fun s u v rel => exec_finalStatusPending_final,
    fun s rel => exec_finalStatusPending_waits, fun s q r due => exec_aggregationTimerExpiry_signals,
    fun s sch _ => ⟨fun hdisend => ?_, fun hdisend hgen => ?_⟩⟩
  · rw [State.ctxOf_finalWritten (by simp [hdisend]), Ctx.finalOut, if_neg (by simp [hdisend])]
  · rw [State.ctxOf_finalWritten fun _ => hgen, Ctx.finalOut, if_pos hdisend]
    exact ⟨rfl, rfl, rfl⟩

/-! # Completions and held lists (O11) -/

namespace Sys2Proof.Machine

theorem State.cq?_setCq (s : State) (q : Nat) (r : CQ) : (s.setCq q r).cq? q = some r := AMap.get?_put_same _ _ _

/-! ## A request of Meridian -/

theorem State.request_asked (s : State) (res : Nat) (key : Bool × Time) (rix sch : Nat) (who : ReqWho) :
    (s.request res key rix sch who).md.reqs.any (fun x => x.who = who) = true := by
  unfold State.request
  split
  · assumption
  · simp

/-- A queue that owes a completion and has room for it asks for HOST-WRITE (R325). -/
theorem State.wantComp_asks {s : State} {q : Nat} {r : CQ} {h : Held} (hr : s.cq? q = some r) (hnext : s.nextComp q r = some h)
    (hring : r.toLegacy s.q.legOn = false) (hst : r.st = .active) (hroom : r.room) :
    (s.wantComp q).md.reqs.any (fun x => x.who = .comp q) = true := by
  have hask : s.wantComp q = s.request 2 (s.heldKey h) 3 h.sch (.comp q) := by
    simp [State.wantComp, hr, hnext, hring, hst, hroom]
  rw [hask, State.request_asked]

/-! ## Posting (R97, R98) -/

section
variable {s : State} {q : Nat} {r : CQ} {c : Comp}

/-- With nothing before it, a completion is sent at once. -/
theorem State.postComp_sends (hr : s.cq? q = some r) (hwait : ∀ e ∈ s.q.waiting, e.1 ≠ q) :
    s.postComp q c = State.sendAll [.comp c] s q := by
  have hnone : s.q.waiting.any (fun e => e.1 = q) = false := by simpa using hwait
  simp [State.postComp, State.sendHeld, hr, hnone]

theorem State.mustHold_ring (hring : r.toLegacy s.q.legOn = false) :
    s.mustHold r = true ↔ r.st ≠ .active ∨ r.held ≠ [] ∨ r.room = false := by
  simp [State.mustHold, State.hasRoom, hring, or_assoc]

theorem State.canWrite_ring (hring : r.toLegacy s.q.legOn = false) (h : Held) :
    s.canWrite q r h = (s.link.mayIssue && s.winsAs 2 (s.heldKey h) 3 h.sch (.comp q)) := by
  simp [State.canWrite, hring]

variable (hr : s.cq? q = some r)
include hr

theorem State.sendAll_holds (hhold : s.mustHold r) : State.sendAll [.comp c] s q = s.hold q r (.comp c) := by
  simp [State.sendAll, State.sendOne, hr, hhold]

theorem State.sendAll_parks (hhold : s.mustHold r = false) (hwrite : s.canWrite q r (.comp c) = false) :
    State.sendAll [.comp c] s q = s.parkComps q [.comp c] := by
  simp [State.sendAll, State.sendOne, hr, hhold, hwrite]

theorem State.sendAll_writes (hhold : s.mustHold r = false) (hwrite : s.canWrite q r (.comp c)) :
    State.sendAll [.comp c] s q = s.writeComp q r c := by
  simp [State.sendAll, State.sendOne, hr, hhold, hwrite]

end

/-- A completion that waits for its grant has asked for it (R325). -/
theorem State.parkComps_asks {s : State} {q : Nat} {r : CQ} {h : Held} (hr : s.cq? q = some r) (hwait : ∀ e ∈ s.q.waiting, e.1 ≠ q)
    (hring : r.toLegacy s.q.legOn = false) (hst : r.st = .active) (hroom : r.room) :
    (s.parkComps q [h]).md.reqs.any (fun x => x.who = .comp q) = true := by
  have hnone : s.q.waiting.find? (fun e => e.1 = q) = none := by simpa using hwait
  refine State.wantComp_asks (h := h) hr ?_ hring hst hroom
  simp [State.nextComp, List.find?_append, hnone]

/-- A queue without interrupts announces nothing (R103). -/
theorem State.announceAt_silent {s : State} {q : Nat} {r : CQ} (hr : s.cq? q = some r) (hien : r.ien = false) : s.announceAt q = s := by
  simp [State.announceAt, hr, hien]

/-- The entry of a completion at the tail of its ring, and the queue as it counts it (R79, R97). -/
def State.putEntry (s : State) (q : Nat) (r : CQ) (c : Comp) : State :=
  (({ s with fresh := s.fresh + 1 }.withdraw (.comp q)).setCq q { r.counted s.time (s.heldKey (.comp c)) with
    tail := ringNext r.size r.tail }).emit (.cqe q (r.tail % r.size) (r.base + BitVec.ofNat 64 (32 * (r.tail % r.size))) r.pasid
      (cqeBits c (s.sqhd c.sqid) (ringPhase r.size r.tail)))

theorem State.writeComp_ring {s : State} {q : Nat} {r : CQ} (c : Comp) (hring : r.toLegacy s.q.legOn = false)
    (hpasid : r.pasid = none) (hien : r.ien = false) : ∃ f, s.writeComp q r c = (s.putEntry q r c).onIc f := by
  have hquiet : (s.putEntry q r c).announceAt q = s.putEntry q r c :=
    State.announceAt_silent (r := { r.counted s.time (s.heldKey (.comp c)) with tail := ringNext r.size r.tail })
      (AMap.get?_put_same _ _ _) hien
  have hexec : s.writeComp q r c = if q = 1 && !s.hasRoom { r with tail := ringNext r.size r.tail }
      then (s.putEntry q r c).irq 2 else s.putEntry q r c := by
    unfold State.writeComp
    dsimp only
    rw [if_neg (by simp [hring]), if_neg (by simp [hpasid]), ← State.putEntry, hquiet]
  rw [hexec]
  split
  · exact ⟨_, rfl⟩
  · exact ⟨id, rfl⟩

/-! ## Draining (R100) -/

/-- Queue `q` is ACTIVE and writes its ring. -/
def State.Rings (s : State) (q : Nat) : Prop := ∃ r, s.cq? q = some r ∧ r.st = .active ∧ r.toLegacy s.q.legOn = false

theorem State.Rings.setCq {s : State} {q : Nat} {r : CQ} (hst : r.st = .active) (hring : r.toLegacy s.q.legOn = false) :
    (s.setCq q r).Rings q := ⟨r, s.cq?_setCq q r, hst, hring⟩

/-- What R103 counts is none of what a queue rings by. -/
theorem State.Rings.of_uncounted {s t : State} {q : Nat} (hs : s.Rings q) (h : t.q.uncounted = s.q.uncounted) : t.Rings q := by
  obtain ⟨r, hr, hst, hring⟩ := hs
  have hrec := State.cq?_uncounted h q
  rw [hr] at hrec
  obtain ⟨u, hu, hsame⟩ := Option.map_eq_some_iff.1 hrec
  have hleg : t.q.legOn = s.q.legOn := (congrArg Queues.legOn h :)
  have hst' : u.st = r.st := (congrArg CQ.st hsame :)
  have hlegacy : u.legacy = r.legacy := (congrArg CQ.legacy hsame :)
  exact ⟨u, hu, hst'.trans hst, by rwa [CQ.toLegacy, hlegacy, hleg, ← CQ.toLegacy]⟩

theorem State.announceAt_uncounted (s : State) (q : Nat) : (s.announceAt q).q.uncounted = s.q.uncounted := by
  unfold State.announceAt
  (repeat' split) <;> simp

/-- Writing an entry stores the record of its queue, and counts. -/
theorem State.writeComp_uncounted {s : State} {q : Nat} {r : CQ} (c : Comp) (hring : r.toLegacy s.q.legOn = false) :
    ∃ v, v.st = r.st ∧ v.legacy = r.legacy ∧ (s.writeComp q r c).q.uncounted = (s.setCq q v).q.uncounted := by
  unfold State.writeComp
  dsimp only
  rw [if_neg (by simp [hring])]
  split
  · exact ⟨{ r with tail := ringNext r.size r.tail }, rfl, rfl, rfl⟩
  · refine ⟨{ r.counted s.time (s.heldKey (.comp c)) with tail := ringNext r.size r.tail }, rfl, rfl, ?_⟩
    split
    · exact State.announceAt_uncounted _ _
    · exact State.announceAt_uncounted _ _

section
variable {s : State} {q : Nat} {r : CQ} (hst : r.st = .active) (hring : r.toLegacy s.q.legOn = false)
include hst hring

theorem State.writeComp_rings (c : Comp) : (s.writeComp q r c).Rings q := by
  obtain ⟨v, hv, hlegacy, hsame⟩ := State.writeComp_uncounted c hring
  exact (State.Rings.setCq (r := v) (s := s) (hv.trans hst) (by rwa [CQ.toLegacy, hlegacy, ← CQ.toLegacy])).of_uncounted hsame

theorem State.writeSub_rings (hr : s.cq? q = some r) (sch : Nat) : (s.writeSub q r sch).1.Rings q := by
  unfold State.writeSub
  dsimp only
  split
  · exact (State.writeComp_rings hst hring _).of_uncounted rfl
  · split
    · exact (State.writeComp_rings hst hring _).of_uncounted (congrArg Queues.uncounted (State.finalWritten_frame _ _).2.2.1)
    · exact ⟨r, hr, hst, hring⟩

end

/-- Leaving the held list changes nothing else of a queue. -/
theorem State.Rings.setHeld {s : State} {q : Nat} {r : CQ} (hs : s.Rings q) (hr : s.cq? q = some r) (l : List Held) :
    (s.setCq q { r with held := l }).Rings q := by
  obtain ⟨r', hr', hst, hring⟩ := hs
  obtain rfl := Option.some.inj (hr.symm.trans hr')
  exact State.Rings.setCq hst hring

theorem State.drain_rings (n : Nat) {s : State} {q : Nat} (hs : s.Rings q) : (s.drain n q).Rings q := by
  induction n generalizing s with
  | zero => exact hs
  | succ n ih =>
    obtain ⟨r, hr, hst, hring⟩ := hs
    have hs : s.Rings q := ⟨r, hr, hst, hring⟩
    unfold State.drain
    rw [hr]
    dsimp only
    split
    · exact hs
    next h rest _ =>
      split
      · cases h with
        | comp c => exact ih (State.writeComp_rings (r := { r with held := rest }) hst hring c)
        | sub sch =>
          have hsub := State.writeSub_rings hst hring hr sch
          dsimp only
          refine ih ?_
          split
          · exact hsub
          · split
            next r1 hr1 => exact (hsub.setHeld hr1 rest).of_uncounted rfl
            next => exact hsub
      · exact hs

/-- What a drain leaves on the list of a ring with room has asked for HOST-WRITE (R100, R325). -/
theorem State.drainAll_ends {s : State} {q : Nat} (hs : s.Rings q) : ∃ u, (s.drainAll q).cq? q = some u
    ∧ (u.held = [] ∨ u.room = false ∨ (s.drainAll q).md.reqs.any fun x => x.who = .comp q) := by
  obtain ⟨r, hr, -⟩ := id hs
  have hall : s.drainAll q = (s.drain (2 * r.held.length) q).wantComp q := by simp [State.drainAll, hr]
  obtain ⟨u, hu, hst, hring⟩ := State.drain_rings (2 * r.held.length) hs
  rw [hall]
  generalize s.drain (2 * r.held.length) q = t at *
  refine ⟨u, by simpa [State.cq?] using hu, ?_⟩
  cases hheld : u.held with
  | nil => exact .inl rfl
  | cons h l =>
    cases hroom : u.room with
    | false => exact .inr (.inl rfl)
    | true =>
      obtain ⟨h', hnext⟩ : ∃ h', t.nextComp q u = some h' := by
        unfold State.nextComp
        split
        · exact ⟨_, rfl⟩
        · exact ⟨h, by rw [hheld]; rfl⟩
      exact .inr (.inr (State.wantComp_asks hu hnext hring hst hroom))

end Sys2Proof.Machine

open Sys2Proof.Machine in
/-- Settles O11: a completion that is sent is held, parked or written; a drain keeps its queue on its ring
(`State.drain_rings`), so that what is left asks. -/
theorem completionsAndHeldLists : Obligations.CompletionsAndHeldLists := by
  unfold Obligations.CompletionsAndHeldLists
  refine ⟨fun s q r c hr hring hwait => ?_, fun s q r hr hst hring _ => State.drainAll_ends ⟨r, hr, hst, hring⟩⟩
  have hfree : r.st = .active → r.held = [] → r.room → s.mustHold r = false := fun hst hheld hroom =>
    Bool.eq_false_iff.2 fun h => by simpa [hst, hheld, hroom] using (State.mustHold_ring hring).1 h
  rw [State.postComp_sends hr hwait]
  refine ⟨fun hissue hwins hst hheld hroom hpasid hien => ?_, fun hhold => ?_, fun hno hst hheld hroom => ?_⟩
  · rw [State.sendAll_writes hr (hfree hst hheld hroom) (by simp [State.canWrite_ring hring, hissue, hwins, Held.sch])]
    obtain ⟨f, hf⟩ := State.writeComp_ring c hring hpasid hien
    rw [hf]
    refine ⟨?_, _, AMap.get?_put_same _ _ _, rfl, hheld, rfl⟩
    simp [State.putEntry, hpasid]
  · exact State.sendAll_holds hr ((State.mustHold_ring hring).2 hhold)
  · rw [State.sendAll_parks hr (hfree hst hheld hroom) (by
      rcases hno with h | h <;> simp [State.canWrite_ring hring, h, Held.sch])]
    refine ⟨?_, ?_, ?_⟩
    · simp [State.parkComps]
    · simp
    · exact State.parkComps_asks hr hwait hring hst hroom

/-! # The admin pair and the checks of its commands (O12) -/

namespace Sys2Proof.Machine

open Sys2Proof.Safety

/-! ## The common checks (R109) -/

/-- A row of the admin commands ends as the first of the common checks that it fails says. -/
def ChecksFirst (s : State) (e : BitVec 512) (row : Nat × Instr) : Prop :=
  aOpc e = row.1 → (s.admLocked row.1 → exec row.2 s = .next (s.admPost (entryCid e) 0x000A 0))
    ∧ (s.admLocked row.1 = false → aSound e = false → exec row.2 s = .next (s.admPost (entryCid e) 0x0002 0))

section
variable {s : State} {e : BitVec 512} (hentry : s.admEntry = some e)
include hentry

theorem exec_adminUndefinedOpcode_refuses (hopc : aKnown (aOpc e) = false) :
    exec .adminUndefinedOpcode s = .next (s.admPost (entryCid e) 1 0) := by
  change execAdminUndefinedOpcode s = _
  simp [execAdminUndefinedOpcode, hentry, hopc]

/-- A row that `State.admRun` runs. -/
theorem admRun_checksFirst {c : Instr} {opc : Nat} {f : BitVec 512 → State → AdmRes} (hc : exec c s = .next (s.admRun opc f)) :
    ChecksFirst s e (opc, c) := by
  refine fun hopc => ⟨fun hlock => hc.trans ?_, fun hlock hsound => hc.trans ?_⟩
  · simp only [State.admRun, hentry, hopc, hlock]
    simp
  · simp only [State.admRun, hentry, hopc, hlock, hsound]
    simp

theorem createSq_checksFirst (text : HostData) : ChecksFirst s e (0x01, .createSq text) := by
  refine fun hopc => ⟨fun hlock => ?_, fun hlock hsound => ?_⟩
  · change execCreateSq text s = _
    simp only [execCreateSq, hentry, hopc, hlock]
    simp
  · change execCreateSq text s = _
    simp only [execCreateSq, hentry, hopc, hlock, hsound]
    simp

theorem modifySq_checksFirst (text : HostData) : ChecksFirst s e (0x05, .modifySq text) := by
  refine fun hopc => ⟨fun hlock => ?_, fun hlock hsound => ?_⟩
  · change execModifySq text s = _
    simp only [execModifySq, hentry, hopc, hlock]
    simp
  · change execModifySq text s = _
    simp only [execModifySq, hentry, hopc, hlock, hsound]
    simp

theorem adminRows_checkFirst (buf : HostData) (cut : ListRun) : ∀ row ∈ adminRows buf cut, ChecksFirst s e row := by
  have hrun {c : Instr} {opc : Nat} {f : BitVec 512 → State → AdmRes} (hc : exec c s = .next (s.admRun opc f)) :
      ChecksFirst s e (opc, c) := admRun_checksFirst hentry hc
  simp only [adminRows, List.forall_mem_cons]
  exact ⟨createSq_checksFirst hentry buf, hrun rfl, hrun rfl, hrun rfl, modifySq_checksFirst hentry buf, hrun rfl, hrun rfl,
    hrun rfl, hrun rfl, hrun rfl, hrun rfl, hrun rfl, hrun rfl, hrun rfl, hrun rfl, hrun rfl, hrun rfl, by simp⟩

end

/-! ## ENABLE (R104) -/

section
variable {s : State} (h : Serves s)
include h

theorem State.bar0Write_serves (t : State) : s.bar0Write 8 true t = t := by
  obtain ⟨hep, hopens, hkept⟩ := h
  simp [State.bar0Write, hep, hopens, hkept]

theorem exec_adminEnable_starts {v : Word} (hv : v.getLsbD 0) (hoff : s.q.admEnable = false) :
    exec (.adminEnable v) s = .next (s.admStart v) := by
  change execAdminEnable v s = _
  rw [execAdminEnable, State.bar0Write_serves h, if_neg (by simp [hoff, hv, h.1])]

theorem exec_adminDisable_stops {v : Word} (hv : v.getLsbD 0 = false) (hon : s.q.admEnable) :
    exec (.adminDisable v) s = .next s.admStop := by
  change execAdminDisable v s = _
  rw [execAdminDisable, State.bar0Write_serves h, if_neg (by simpa [hon, h.1] using hv)]

end

/-- A ring that holds nothing drains nothing. -/
theorem State.drainAll_empty {s : State} {q : Nat} {r : CQ} (hr : s.cq? q = some r) (hheld : r.held = []) :
    s.drainAll q = s.wantComp q := by
  simp [State.drainAll, State.drain, hr, hheld]

/-- Both queues of the admin pair, at index 0. -/
def State.admPair (s : State) (v : Word) : State :=
  (((((s.onQ fun x => { x with admEnable := true, admSqLog2 := bits v.toNat 2 4, admCqLog2 := bits v.toNat 6 4 }).withdraw
    (.ring 0)).setSq 0 (admSq (bits v.toNat 2 4) s.q.admSqBase [])).setCq 1 (admCq (bits v.toNat 6 4) s.q.admCqBase [])).onQ
      fun x => { x with admReady := true })

theorem State.admStart_inRange {s : State} {v : Word} (hsq : s.sq? 0 = none) (hcq : s.cq? 1 = none)
    (ha : admLog2Ok (bits v.toNat 2 4)) (hb : admLog2Ok (bits v.toNat 6 4)) : s.admStart v = (s.admPair v).wantComp 1 := by
  have hpair : (s.admPair v).cq? 1 = some (admCq (bits v.toNat 6 4) s.q.admCqBase []) := AMap.get?_put_same _ _ _
  rw [← State.drainAll_empty hpair rfl]
  simp [State.admStart, State.admPair, Queues.admOn, ha, hb, hsq, hcq]

theorem State.admSettle_notReady {s : State} (h : s.q.admReady = false) : s.admSettle = s := by
  simp [State.admSettle, h]

theorem State.admSettle_admEnable (s : State) : s.admSettle.q.admEnable = s.q.admEnable :=
  (apply_ite (fun t : State => t.q.admEnable) _ _ _).trans (ite_self _)

/-- A size out of range starts nothing (R104). -/
theorem State.admStart_outOfRange {s : State} {v : Word} (hready : s.q.admReady = false)
    (hbad : ¬(admLog2Ok (bits v.toNat 2 4) && admLog2Ok (bits v.toNat 6 4)) = true) : s.admStart v
      = s.onQ fun x => { x with admEnable := true, admSqLog2 := bits v.toNat 2 4, admCqLog2 := bits v.toNat 6 4 } := by
  unfold State.admStart
  dsimp only
  rw [if_neg (by simpa [Queues.admOn] using hbad)]
  exact State.admSettle_notReady hready

theorem State.admStop_off (s : State) : s.admStop.q.admEnable = false := State.admSettle_admEnable _

end Sys2Proof.Machine

open Sys2Proof.Machine in
/-- Settles O12: every row of the admin commands runs the common checks first (`adminRows_checkFirst`); ENABLE starts the pair
of `State.admPair`. -/
theorem adminPairAndChecks : Obligations.AdminPairAndChecks := by
  unfold Obligations.AdminPairAndChecks
  refine ⟨fun s e buf cut hentry => ⟨exec_adminUndefinedOpcode_refuses hentry, adminRows_checkFirst hentry buf cut⟩,
    fun s h => ⟨fun v hv hoff hsq hcq hlow hhigh hlow' hhigh' => ?_, fun v hv hoff hbad hready => ?_,
      fun v hv hon => ⟨exec_adminDisable_stops h hv hon, s.admStop_off⟩⟩⟩
  · refine ⟨_, exec_adminEnable_starts h hv hoff, ?_⟩
    rw [State.admStart_inRange hsq hcq (by simp [admLog2Ok, hlow, hhigh]) (by simp [admLog2Ok, hlow', hhigh'])]
    simp only [State.sq?, State.cq?, State.wantComp_frame]
    exact ⟨rfl, rfl, AMap.get?_put_same _ _ _, AMap.get?_put_same _ _ _, rfl, rfl, rfl⟩
  · refine ⟨_, exec_adminEnable_starts h hv hoff, ?_⟩
    rw [State.admStart_outOfRange hready (by simp only [admLog2Ok, Bool.and_eq_true, decide_eq_true_eq]; omega)]
    exact ⟨rfl, hready⟩

/-! # Admission of queues (O14)

CREATE_SQ and MODIFY_SQ end in the same test and commit (`State.admitQueue`), whose outcomes are stated once. -/

namespace Sys2Proof.Machine

open Sys2Proof.Safety

/-! ## Reads of the supervisor (R302) -/

/-- What a read brings whose requests may leave: its bytes, once every completion of it is sound. -/
theorem State.supRead_brings {s : State} (addr : Word) {pasid : Option (BitVec 20)} (len : Nat) (d : HostData)
    (hpasid : (pasid.isSome && !s.link.pasidEn) = false) :
    (s.supRead addr pasid len d).2 = if d.ok then some (fit len d.data) else none := by
  have hown : (s.ownRead 1 addr pasid len d).2 = if d.ok then some (fit len d.data) else none := by
    have hleaves : ¬(pasid.isSome && !(s.withdraw (.own 1)).link.pasidEn) = true := by simpa using hpasid
    unfold State.ownRead
    dsimp only
    rw [if_neg hleaves]
  rw [← hown]
  unfold State.supRead
  cases h : (s.ownRead 1 addr pasid len d).2 with
  | none => simp [h]
  | some b => simp [h]

theorem State.supRead_whole {s : State} {addr : Word} {len : Nat} {d : HostData} (hok : d.ok) :
    (s.supRead addr none len d).2 = some (fit len d.data) := by
  rw [State.supRead_brings addr len d rfl, if_pos hok]

theorem State.supRead_failed {s : State} {addr : Word} {len : Nat} {d : HostData} (hbad : d.ok = false) :
    (s.supRead addr none len d).2 = none := by
  rw [State.supRead_brings addr len d rfl, hbad]
  rfl

/-- The same of the resident text of a queue, which is read with the PASID of its segment (R45). -/
theorem State.readText_brings {s : State} {stb : Nat} {g : Seg} {rest : List Seg} (kib : Nat) (text : HostData)
    (hseg : s.segTab stb = some (g :: rest)) (hpasid : g.pv = false ∨ s.link.pasidEn) :
    (s.readText stb kib text).2 = if text.ok then some (fit (1024 * kib) text.data) else none := by
  have hg : (s.segTab stb).bind (·[0]?) = some g := by rw [hseg]; rfl
  unfold State.readText
  rw [hg]
  exact State.supRead_brings _ _ _ (by rcases hpasid with h | h <;> simp [h])

/-! ## The test and what follows it (R344, R345, R349) -/

section
variable {s : State} {e : BitVec 512} {cls stb kib : Nat} {others : List Demand} {old : Option Demand} {d : Demand} {text : HostData}
  {plan : List Byte → Plan} {now : State → List Byte → State}

/-- A failed Maquette refuses the command. -/
theorem State.admitQueue_refuses {x : Refuse} (hcls : cls ≠ 7) (hpassed : s.md.passed = false)
    (hfails : s.maquette others old d = some x) :
    s.admitQueue e cls stb kib others old d text plan now = (s.admRefuse x).admPost (entryCid e) 6 x.result := by
  simp [State.admitQueue, hcls, hpassed, hfails]

/-- A queue of class 7 that stays in its class has no demand to test. -/
theorem State.admitQueue_atOnce (hold : ∀ o, old = some o → o.cls = 7) :
    s.admitQueue e 7 stb kib others old d text plan now = (now s []).admPost (entryCid e) 0 0 := by
  cases old with
  | none => simp [State.admitQueue]
  | some o => simp [State.admitQueue, hold o rfl]

variable (htest : s.md.passed ∨ cls = 7 ∨ s.maquette others old d = none)
include htest

theorem admission_passes : (if cls = 7 || s.md.passed then none else s.maquette others old d) = none := by
  rcases htest with h | h | h <;> simp [h]

/-- A passed Maquette without a text waits for its boundary. -/
theorem State.admitQueue_plans (hcls : cls ≠ 0) (hnew : cls = 7 → ∃ o, old = some o ∧ o.cls ≠ 7) :
    s.admitQueue e cls stb kib others old d text plan now = s.plan e (plan []) := by
  unfold State.admitQueue
  rw [admission_passes htest]
  by_cases h : cls = 7
  · obtain ⟨o, rfl, ho⟩ := hnew h
    simp [h, ho]
  · simp [hcls, h]

/-- The text of class 0 is read once the test has passed and channel S has its turn. -/
theorem State.admitQueue_text {b : List Byte} (hcls : cls = 0) (hready : s.ownReady true 1) (hb : (s.readText stb kib text).2 = some b) :
    s.admitQueue e cls stb kib others old d text plan now = (s.readText stb kib text).1.plan e (plan b) := by
  unfold State.admitQueue
  rw [admission_passes htest]
  simp [hcls, hready, hb]

theorem State.admitQueue_textFails (hcls : cls = 0) (hready : s.ownReady true 1) (hb : (s.readText stb kib text).2 = none) :
    s.admitQueue e cls stb kib others old d text plan now = (s.readText stb kib text).1.admPost (entryCid e) 0xD 0 := by
  unfold State.admitQueue
  rw [admission_passes htest]
  simp [hcls, hready, hb]

/-- Until its turn, the test stands. -/
theorem State.admitQueue_textWaits (hcls : cls = 0) (hready : s.ownReady true 1 = false) :
    s.admitQueue e cls stb kib others old d text plan now = (s.waitText stb kib).onMd fun m => { m with passed := true } := by
  unfold State.admitQueue
  rw [admission_passes htest]
  simp [hcls, hready]

end

theorem State.waitText_q (s : State) (stb kib : Nat) : (s.waitText stb kib).q = s.q := by
  unfold State.waitText
  split
  · rfl
  · simp [State.supWait]

/-! ## The checks of CREATE_SQ and MODIFY_SQ (R111) -/

/-- A CREATE_SQ whose fields and queues pass their checks goes to its test. -/
theorem exec_createSq_admits {s : State} {e : BitVec 512} {q cls : Nat} {text : HostData} (h : Admin s 0x01 e)
    (hqid : q = aField e 1 0 18) (hq : 1 < q) (hbase : aField e 2 0 12 = 0) (hcls : cls = aField e 1 18 3) (hfields : classFields e cls)
    (hpasid : aField e 1 22 1 = 0) (hlow : 1 ≤ aField e 4 0 5) (hhigh : aField e 4 0 5 ≤ 16) (hsq : s.sq? q = none)
    (hcq : s.cq? q = none) (hpair : aField e 6 0 18 ≠ 1) (hthere : (s.cq? (aField e 6 0 18)).isSome)
    (hpush : cls = 0 → aField e 1 21 1 = 1) (htext : cls = 0 → s.textOk (aField e 11 0 14) (aField e 11 16 16))
    (hpushes : aField e 1 21 1 = 1 → (s.q.sqs.filter fun x => x.2.push).length < 4096) :
    exec (.createSq text) s = .next (s.admitQueue e cls (aField e 11 0 14) (aField e 11 16 16) (demandsOf s.q.sqs) none
      (newSq e s.time []).demand text (fun b => .create q (newSq e s.time b)) fun u b => u.setSq q (newSq e u.time b)) := by
  obtain ⟨hentry, hopc, hlock, hsound⟩ := h
  have hopen : (s.cq? (aField e 6 0 18)).isNone = false := by simpa [Option.isSome_iff_ne_none] using hthere
  have hsize : ¬(aField e 4 0 5 = 0 ∨ 16 < aField e 4 0 5) := by omega
  have hpush' : ¬(cls = 0 ∧ aField e 1 21 1 = 0) := fun ⟨h0, hno⟩ => by simp [hpush h0] at hno
  have htext' : ¬(cls = 0 ∧ s.textOk (aField e 11 0 14) (aField e 11 16 16) = false) := fun ⟨h0, hno⟩ => by simp [htext h0] at hno
  have hroom : ¬(aField e 1 21 1 = 1 ∧ 4096 ≤ (s.q.sqs.filter fun x => x.2.push).length) := fun ⟨h1, hfull⟩ =>
    absurd (hpushes h1) (by omega)
  subst hqid hcls
  change execCreateSq text s = _
  simp [execCreateSq, hentry, hopc, hlock, hsound, hbase, hfields, hpasid, hsize, hsq, hcq, hpair, hopen, hq.not_ge, hpush', htext', hroom]

/-- A MODIFY_SQ of an existing queue, to another class than 0, goes to its test. -/
theorem exec_modifySq_admits {s : State} {e : BitVec 512} {q cls : Nat} {r : SQ} {text : HostData} (h : Admin s 0x05 e)
    (hqid : q = aField e 1 0 18) (hq : 1 < q) (hr : s.sq? q = some r) (hcls : cls = aField e 1 18 3) (hfields : classFields e cls)
    (hnot0 : cls ≠ 0) :
    exec (.modifySq text) s = .next (s.admitQueue e cls (aField e 11 0 14) (aField e 11 16 16) (demandsOf (AMap.del s.q.sqs q))
      (some r.demand) (r.params e cls []).demand text (fun b => .modify q (r.params e cls b)) fun u b =>
        u.setSq q (r.params e cls b)) := by
  obtain ⟨hentry, hopc, hlock, hsound⟩ := h
  subst hqid hcls
  change execModifySq text s = _
  simp [execModifySq, hentry, hopc, hlock, hsound, hfields, hr, hq.not_ge, hnot0]

/-! ## The commit (R345) -/

theorem State.install_create {s : State} {q : Nat} {r : SQ} (hcls : r.cls ≠ 0) : s.install (.create q r) = s.setSq q r := by
  simp [State.install, hcls]

/-- A change of class to 6 sets the virtual clock (R328). -/
theorem State.install_modify {s : State} {q : Nat} {r o : SQ} (ho : s.sq? q = some o) (hcls : r.cls ≠ 0) :
    s.install (.modify q r) = s.setSq q { o with
      cls := r.cls, deadline := r.deadline, rate := r.rate, burst := r.burst, cost := r.cost, textStb := r.textStb,
      textKib := r.textKib, text := r.text, vclock := if r.cls = 6 ∧ o.cls ≠ 6 then s.time else o.vclock } := by
  simp [State.install, ho, hcls]

theorem exec_maquetteCommit_installs {s u : State} {p : Plan} {cid : BitVec 16} (hcommit : s.md.commit = some ⟨p, some cid⟩)
    (hu : u = { s.install p with md := { (s.install p).md with
      commit := none, gen := ((s.install p).md.gen + 1) % 2 ^ 24, commits := inc16 (s.install p).md.commits } }.recomputeAwake) :
    exec .maquetteCommit s = .next ({ u with q := { u.q with admWait := none } }.admPost cid 0 0) := by
  subst hu
  change execMaquetteCommit s = _
  rw [execMaquetteCommit, hcommit]
  rfl

end Sys2Proof.Machine

open Sys2Proof.Machine in
/-- Settles O14: each clause is an outcome of the test (`State.admitQueue`) of a command that has passed its checks, or of the
commit. -/
theorem queueAdmission : Obligations.QueueAdmission := by
  unfold Obligations.QueueAdmission
  refine ⟨?_, ?_, ?_, ?_, ?_⟩
  · intro s e q h hqid hq hbase hfields hnot0 hpasid hpush hlow hhigh hsq hcq hpair hthere text
    rw [exec_createSq_admits h hqid hq hbase rfl hfields hpasid hlow hhigh hsq hcq hpair hthere (fun h0 => absurd h0 hnot0)
      (fun h0 => absurd h0 hnot0) (fun h1 => by simp [hpush] at h1)]
    refine ⟨fun h7 => ?_, fun hnot7 htest => ?_, fun x hnot7 hpassed hfails => ?_⟩
    · rw [h7, State.admitQueue_atOnce (by simp)]
    · rw [State.admitQueue_plans (htest.imp_right .inr) hnot0 (fun h7 => absurd h7 hnot7)]
    · rw [State.admitQueue_refuses hnot7 hpassed hfails]
      rfl
  · intro s e q kib stb text g rest h hqid hq hstb hseg hpv hkib hbase hfields h0 hpasid hpush hlow hhigh hsq hcq hpair hthere htext
      hpushes htest
    subst hstb hkib
    have hexec := exec_createSq_admits (text := text) h hqid hq hbase h0.symm hfields hpasid hlow hhigh hsq hcq hpair hthere
      (fun _ => hpush) (fun _ => htext) (fun _ => hpushes)
    have hread := State.readText_brings (aField e 11 16 16) text hseg hpv
    refine ⟨fun hready hok => ?_, fun hready hbad => ?_, fun hwait => ⟨_, hexec, ?_⟩⟩
    · rw [hexec, State.admitQueue_text (htest.imp_right .inr) rfl hready (by rw [hread, if_pos hok])]
    · rw [hexec, State.admitQueue_textFails (htest.imp_right .inr) rfl hready (by rw [hread, if_neg (by simp [hbad])])]
    · rw [State.admitQueue_textWaits (htest.imp_right .inr) rfl hwait]
      exact ⟨rfl, State.waitText_q _ _ _⟩
  · intro s e q r h hqid hq hr hfields h7 hcls text
    rw [exec_modifySq_admits h hqid hq hr h7.symm hfields (by decide), State.admitQueue_atOnce (by simp [SQ.demand, hcls])]
  · intro s e q cls r h hqid hq hr hcls hfields hnot0 hdemand text
    rw [exec_modifySq_admits h hqid hq hr hcls hfields hnot0]
    refine ⟨fun htest => ?_, fun x hnot7 hpassed hfails => ?_⟩
    · rw [State.admitQueue_plans htest hnot0 fun h7 => ⟨_, rfl, hdemand.resolve_left (not_not_intro h7)⟩]
    · rw [State.admitQueue_refuses hnot7 hpassed hfails]
      rfl
  · rintro s u p q r v cid hcommit hnot0 (⟨rfl, rfl⟩ | ⟨rfl, o, ho, rfl⟩) hu
    · exact exec_maquetteCommit_installs hcommit (by rw [hu, State.install_create hnot0]; rfl)
    · exact exec_maquetteCommit_installs hcommit (by rw [hu, State.install_modify ho hnot0]; rfl)

/-! # Admin commands of subchannels and segment tables (O15) -/

namespace Sys2Proof.Machine

open Sys2Proof.Safety

/-! ## Segment tables (R113, R207, R208) -/

section
variable {s u : State} {e : BitVec 512} {buf : HostData} (h : Admin s 0x10 e) (hlen : aBufLen e = 256)
  (hnew : aField e 1 14 1 = 0) (hfree : s.segTab (aField e 1 0 14) = none) (hready : s.ownReady true 1)
  (hu : u = (s.supRead (aBuf e) none 256 buf).1)
include h hlen hnew hfree hready hu

theorem exec_loadSegmentTable_stores {b : List Byte} (hb : b = fit 256 buf.data) (hok : buf.ok)
    (hpv : (readSegs b).any (·.pv) = false) (hsegs : segsOk b) : exec (.loadSegmentTable buf) s
      = .next ({ u with sx := { u.sx with segTabs := AMap.put u.sx.segTabs (aField e 1 0 14) (readSegs b) } }.admPost (entryCid e) 0 0) := by
  subst hu hb
  refine congrArg Host.Outcome.next (State.admRun_done h ?_)
  simp only [hlen, hnew, hfree, hready, State.supRead_whole hok, hpv, hsegs, Bool.and_false]
  rfl

theorem exec_loadSegmentTable_readFails (hbad : buf.ok = false) :
    exec (.loadSegmentTable buf) s = .next (u.admPost (entryCid e) 0xD 0) := by
  subst hu
  refine congrArg Host.Outcome.next (State.admRun_done h ?_)
  simp [hlen, hnew, hfree, hready, State.supRead_failed hbad]
  rfl

end

theorem exec_deleteSegmentTable_removes {s : State} {e : BitVec 512} {t : List Seg} (h : Admin s 0x11 e)
    (ht : s.segTab (aField e 1 0 14) = some t) (hctx : ∀ x ∈ s.sub.ctx, x.2.names (aField e 1 0 14) = false)
    (hsqs : ∀ x ∈ s.q.sqs, x.2.cls ≠ 0) : exec .deleteSegmentTable s
      = .next ({ s with sx := { s.sx with segTabs := AMap.del s.sx.segTabs (aField e 1 0 14) } }.admPost (entryCid e) 0 0) := by
  have hnames : s.sub.ctx.any (fun x => x.2.names (aField e 1 0 14)) = false := by
    simpa only [List.any_eq_false, Bool.not_eq_true] using hctx
  have htexts : s.q.sqs.any (fun x => x.2.cls = 0 && x.2.textStb = aField e 1 0 14) = false := by
    simp only [List.any_eq_false]
    exact fun x hx => by simp [hsqs x hx]
  refine congrArg Host.Outcome.next (State.admRun_done h ?_)
  simp only [ht, hnames, htexts]
  rfl

/-! ## Subchannels (R121, R137) -/

section
variable {s : State} {e : BitVec 512} {rs : SQ} {rc : CQ} (h : Admin s 0x12 e) (hen : aField e 1 20 1 = 1)
  (hsq0 : aField e 2 0 18 ≠ 0) (hcq1 : aField e 3 0 18 ≠ 1) (hsq : s.sq? (aField e 2 0 18) = some rs)
  (hcq : s.cq? (aField e 3 0 18) = some rc) (hleg : rc.legacy = false) (htab : (s.segTab (aField e 4 0 14)).isSome)
  (hpset : AMap.has s.sub.psets (aField e 5 0 16))
include h hen hsq0 hcq1 hsq hcq hleg htab hpset

theorem exec_configureSubchannel_binds (hfree : (s.ctxOf (aField e 1 0 20)).state = .idle
      ∨ (s.ctxOf (aField e 1 0 20)).state = .disabled) :
    exec .configureSubchannel s = .next ((s.setCtx (aField e 1 0 20) { s.ctxOf (aField e 1 0 20) with
      sqid := aField e 2 0 18, cqid := aField e 3 0 18, stb := aField e 4 0 14, pset := aField e 5 0 16,
      tmoDef := BitVec.ofNat 32 (aField e 6 0 32), sqv := true, cqv := true, stv := true, psv := true, kpasid := rs.pasid,
      disend := false, state := .idle }).admPost (entryCid e) 0 0) := by
  have htab' : (s.segTab (aField e 4 0 14)).isNone = false := by simpa [Option.isSome_iff_ne_none] using htab
  refine congrArg Host.Outcome.next (State.admRun_done h ?_)
  rcases hfree with hstate | hstate <;>
  · simp [hen, hsq0, hcq1, hsq, hcq, hleg, htab', hpset, hstate]
    rfl

/-- A subchannel in use is refused. -/
theorem exec_configureSubchannel_refuses (hactive : (s.ctxOf (aField e 1 0 20)).state = .active) :
    exec .configureSubchannel s = .next (s.admPost (entryCid e) 9 0) := by
  have htab' : (s.segTab (aField e 4 0 14)).isNone = false := by simpa [Option.isSome_iff_ne_none] using htab
  refine congrArg Host.Outcome.next (State.admRun_done h ?_)
  simp [hen, hsq0, hcq1, hsq, hcq, hleg, htab', hpset, hactive]
  rfl

end

theorem exec_querySubchannel_writes {s : State} {e : BitVec 512} (h : Admin s 0x13 e) (hlen : 256 ≤ aBufLen e)
    (hready : s.ownReady false 1) : exec .querySubchannel s
      = .next (({ s with fresh := s.fresh + 1 }.supWrite (aBuf e) 256 (s.ctxBytes (aField e 1 0 20))
          (eccOf (Config.bufferUpset s.fresh))).admPost (entryCid e) 0 0) := by
  refine congrArg Host.Outcome.next (State.admRun_done h ?_)
  simp [hlen.not_gt, hready]
  rfl

theorem leBytes_length (n v : Nat) : (leBytes n v).length = n := by
  induction n generalizing v with
  | zero => rfl
  | succ n ih => simp [leBytes, ih]

theorem flatMap_leBytes_length {α : Type} (f : α → Nat) (l : List α) (n : Nat) :
    (l.flatMap fun x => leBytes n (f x)).length = l.length * n := by
  simp [List.length_flatMap, leBytes_length]

theorem State.ctxWords_length (s : State) (sch : Nat) : (s.ctxWords sch).length = 16 := by
  unfold State.ctxWords
  simp only [List.length_cons, List.length_nil]

/-- Sixteen quadwords stand before the sixteen words of the frame (R121). -/
theorem State.ctxBytes_length (s : State) (sch : Nat) : (s.ctxBytes sch).length = 256 := by
  rw [State.ctxBytes, List.length_append, flatMap_leBytes_length, State.ctxWords_length, flatMap_leBytes_length, List.length_range]

/-! ## The legacy FIFO (R116) -/

theorem exec_setLegacyFifo_on {s : State} {e : BitVec 512} (h : Admin s 0x30 e) (hon : aField e 1 0 1 = 1)
    (hnone : ∀ c ∈ s.q.cqs, c.2.legacy = false) :
    exec .setLegacyFifo s = .next ({ s with q := { s.q with legOn := true } }.admPost (entryCid e) 0 0) := by
  have hqueues : s.q.cqs.filter (fun x => x.2.legacy) = [] := by simpa using hnone
  refine congrArg Host.Outcome.next (State.admRun_done h ?_)
  simp only [hon, State.onQ, hqueues, List.foldl_nil]
  rw [State.drainLegacy_of_noLegacy (by exact hnone)]
  rfl

end Sys2Proof.Machine

open Sys2Proof.Machine in
/-- Settles O15: one lemma per command, each the commit of its row (R109, R113). -/
theorem subchannelCommands : Obligations.SubchannelCommands := by
  unfold Obligations.SubchannelCommands
  refine fun s e => ⟨?load, ?delete, ?configure, exec_querySubchannel_writes, State.ctxBytes_length s _, exec_setLegacyFifo_on⟩
  case load =>
    exact fun buf b u h hlen hnew hfree hready hb hu =>
      ⟨exec_loadSegmentTable_stores h hlen hnew hfree hready hu hb, exec_loadSegmentTable_readFails h hlen hnew hfree hready hu⟩
  case delete => exact fun t => exec_deleteSegmentTable_removes
  case configure =>
    intro sch sq cq rs rc h hsch hen hsqid hcqid hsq0 hcq1 hsq hcq hleg htab hpset
    subst hsch hsqid hcqid
    exact ⟨exec_configureSubchannel_binds h hen hsq0 hcq1 hsq hcq hleg htab hpset,
      exec_configureSubchannel_refuses h hen hsq0 hcq1 hsq hcq hleg htab hpset⟩

/-! # Admin commands of devices and path sets (O16) -/

namespace Sys2Proof.Machine

open Sys2Proof.Safety

/-! ## A read of the supervisor leaves the subchannels -/

@[simp] theorem State.mismatch_sub (s : State) (line : Nat) (diff : Word) : (s.mismatch line diff).sub = s.sub := by
  unfold State.mismatch
  dsimp only
  split <;> simp

@[simp] theorem State.releaseSeg_sub (s : State) (n : Nat) (o : SegOwner) : (s.releaseSeg n o).sub = s.sub := by
  unfold State.releaseSeg
  split <;> simp

@[simp] theorem State.supSegment_sub (s : State) (rd : Bool) (i : Nat) : (s.supSegment rd i).sub = s.sub := by
  simp [State.supSegment]

@[simp] theorem State.supPieces_sub (n : Nat) (s : State) (rd : Bool) (i : Nat) : (State.supPieces n s rd i).sub = s.sub := by
  induction n generalizing s i with
  | zero => rfl
  | succ n ih => rw [State.supPieces, ih, State.supSegment_sub]

@[simp] theorem State.chanMove_sub (s : State) (rd : Bool) (e : Extent) (moved : Nat) : (s.chanMove rd e moved).sub = s.sub := by
  unfold State.chanMove
  dsimp only
  (repeat' split) <;> simp

@[simp] theorem State.bufferUe_sub (s : State) (n seg : Nat) : (s.bufferUe n seg).sub = s.sub := by
  unfold State.bufferUe
  split <;> simp

@[simp] theorem State.foldl_countCpl_sub (l : List CplStatus) (s : State) : (l.foldl State.countCpl s).sub = s.sub := by
  induction l generalizing s with
  | nil => rfl
  | cons st l ih => rw [List.foldl_cons, ih, (State.countCpl_frame _ _).2.2.1]

@[simp] theorem State.ownRead_sub (s : State) (addr : Word) (pasid : Option (BitVec 20)) (len : Nat) (d : HostData) :
    (s.ownRead 1 addr pasid len d).1.sub = s.sub := by
  unfold State.ownRead
  dsimp only
  split <;> simp

@[simp] theorem State.supRead_sub (s : State) (addr : Word) (pasid : Option (BitVec 20)) (len : Nat) (d : HostData) :
    (s.supRead addr pasid len d).1.sub = s.sub := by
  unfold State.supRead
  dsimp only
  (repeat' split) <;> simp

/-! ## Devices (R113, R372) -/

theorem exec_createDevice_makes {s : State} {e : BitVec 512} {d : DiscRec} (h : Admin s 0x21 e)
    (hfree : AMap.has s.sub.devs (aField e 1 0 14) = false) (hd : AMap.get? s.dev.disc (aField e 2 0 64 % 2 ^ 32) = some d)
    (hgen : d.dgen.toNat = aField e 2 0 64 / 2 ^ 32) (hreason : d.reason = 0) (hnone : d.dev = none) :
    exec .createDevice s = .next ({ s with
      sub := { s.sub with devs := AMap.put s.sub.devs (aField e 1 0 14) (d.entry (aField e 2 0 64 % 2 ^ 32) (aField e 2 0 64)) },
      dev := { s.dev with disc := AMap.put s.dev.disc (aField e 2 0 64 % 2 ^ 32) { d with dev := some (aField e 1 0 14) } }
      }.admPost (entryCid e) 0 0) := by
  refine congrArg Host.Outcome.next (State.admRun_done h ?_)
  simp only [hfree, hd, hgen, hreason, hnone, ne_eq, not_true_eq_false, decide_false, Bool.or_self, Option.isSome_none]
  rfl

theorem exec_deleteDevice_removes {s : State} {e : BitVec 512} {d : DevEntry} (h : Admin s 0x24 e)
    (hd : AMap.get? s.sub.devs (aField e 1 0 14) = some d) (hunused : ∀ p ∈ s.sub.psets, p.2.dev ≠ aField e 1 0 14) :
    exec .deleteDevice s = .next ({ s with
      sub := { s.sub with devs := AMap.del s.sub.devs (aField e 1 0 14) },
      dev := { s.dev with disc := AMap.upd s.dev.disc d.disc fun r => { r with dev := none } } }.admPost (entryCid e) 0 0) := by
  have hnone : s.sub.psets.any (fun x => x.2.dev = aField e 1 0 14) = false := by simpa using hunused
  refine congrArg Host.Outcome.next (State.admRun_done h ?_)
  simp only [hd, hnone]
  rfl

/-! ## Path sets (R145, R146) -/

theorem nextPgen_fresh (g : BitVec 16) : nextPgen g ≠ 0 ∧ nextPgen g ≠ g := by
  unfold nextPgen
  split
  case isTrue hlast =>
    obtain rfl : g = -1 := eq_neg_of_add_eq_zero_left hlast
    decide
  case isFalse hmore => exact ⟨hmore, by simp⟩

theorem exec_deletePathSet_removes {s : State} {e : BitVec 512} (h : Admin s 0x23 e) (hp : AMap.has s.sub.psets (aField e 1 0 16))
    (hunused : ∀ x ∈ s.sub.ctx, x.2.psv = false ∨ x.2.pset ≠ aField e 1 0 16) : exec .deletePathSet s
      = .next ({ s with sub := { s.sub with psets := AMap.del s.sub.psets (aField e 1 0 16) } }.admPost (entryCid e) 0 0) := by
  have hnone : s.sub.ctx.any (fun x => x.2.psv && x.2.pset = aField e 1 0 16) = false := by
    simp only [List.any_eq_false]
    exact fun x hx => by rcases hunused x hx with hv | hv <;> simp [hv]
  refine congrArg Host.Outcome.next (State.admRun_done h ?_)
  simp only [hp, hnone]
  rfl

/-- The path set that SET_PATH_SET stores: one that is there counts its generation on. -/
def newPathSet (old : AMap PathSet) (p dev n : Nat) (b : List Byte) : PathSet :=
  ⟨match AMap.get? old p with
    | some o => nextPgen o.gen
    | none => 1, dev, (List.range n).map (readPath b)⟩

section
variable {s u : State} {e : BitVec 512} {n : Nat} {buf : HostData} (h : Admin s 0x22 e) (hn : n = aField e 1 16 4) (hpos : 1 ≤ n)
  (hmax : n ≤ 8) (hlen : aBufLen e = 8 * n) (hdev : AMap.has s.sub.devs (aField e 2 0 14)) (hready : s.ownReady true 1)
  (hu : u = (s.supRead (aBuf e) none (8 * n) buf).1)
include h hn hpos hmax hlen hdev hready hu

theorem exec_setPathSet_stores {b : List Byte} {ps : PathSet} (hb : b = fit (8 * n) buf.data) (hok : buf.ok)
    (hpaths : (List.range n).all (u.pathOk (aField e 2 0 14) b))
    (hps : ps = newPathSet s.sub.psets (aField e 1 0 16) (aField e 2 0 14) n b) : exec (.setPathSet buf) s
      = .next ((({ u with sub := { u.sub with psets := AMap.put u.sub.psets (aField e 1 0 16) ps } }.leavePaths
          (aField e 1 0 16) ps).wantAll).admPost (entryCid e) 0 0) := by
  have hsub : u.sub = s.sub := by rw [hu, State.supRead_sub]
  have hrange : (decide (n = 0) || decide (8 < n)) = false := by simp; omega
  rw [← hsub] at hps
  subst hu hb hps
  refine congrArg Host.Outcome.next (State.admRun_done h ?_)
  simp only [← hn, hrange, hlen, hdev, hready, State.supRead_whole hok, hpaths, ne_eq, not_true_eq_false, if_false]
  rfl

theorem exec_setPathSet_readFails (hbad : buf.ok = false) :
    exec (.setPathSet buf) s = .next (u.admPost (entryCid e) 0xD 0) := by
  have hrange : (decide (n = 0) || decide (8 < n)) = false := by simp; omega
  subst hu
  refine congrArg Host.Outcome.next (State.admRun_done h ?_)
  simp only [← hn, hrange, hlen, hdev, hready, State.supRead_failed hbad, ne_eq, not_true_eq_false, if_false]
  rfl

end

/-! ## LIST_DEVICES (R371) -/

/-- A buffer with room for every record takes them all. -/
theorem exec_listDevices_writes {s : State} {e : BitVec 512} (h : Admin s 0x20 e) (hlen : 256 ≤ aBufLen e)
    (hready : s.ownReady false 1) (hroom : s.dev.disc.length ≤ aBufLen e / 256) (ecc : Ecc) : exec (.listDevices ⟨none, ecc⟩) s
      = .next ((s.supWrite (aBuf e) (256 * s.dev.disc.length) (s.dev.disc.flatMap fun r => r.2.bytes r.1) ecc).admPost
          (entryCid e) 0 (BitVec.ofNat 64 (s.dev.disc.length + (s.dev.disc.length + s.dev.unlisted) * 2 ^ 32))) := by
  refine congrArg Host.Outcome.next (State.admRun_done h ?_)
  simp only [Nat.min_eq_right hroom, hlen.not_gt, hready, List.take_length, Bool.not_true, Bool.and_false]
  rfl

end Sys2Proof.Machine

open Sys2Proof.Machine in
/-- Settles O16: one lemma per command, each the commit of its row (R109, R113); a read of its buffer leaves the path sets as they are
(`State.supRead_sub`). -/
theorem deviceCommands : Obligations.DeviceCommands := by
  unfold Obligations.DeviceCommands
  refine fun s e => ⟨?create, ?delete, ?deletePaths, ?setPaths, nextPgen_fresh, ?list⟩
  case create =>
    intro dev id d h hdev hid
    subst hdev hid
    exact exec_createDevice_makes h
  case delete =>
    intro dev d h hdev
    subst hdev
    exact exec_deleteDevice_removes h
  case deletePaths =>
    intro p h hp
    subst hp
    exact exec_deletePathSet_removes h
  case setPaths =>
    intro p n dev b buf u h hp hn hdev hpos hmax hlen hhas hready hb hu
    subst hp hdev
    exact ⟨fun hok hpaths ps hps => exec_setPathSet_stores h hn hpos hmax hlen hhas hready hu hb hok hpaths hps,
      exec_setPathSet_readFails h hn hpos hmax hlen hhas hready hu⟩
  case list => exact fun h hlen hready hroom => ⟨_, rfl, exec_listDevices_writes h hlen hready hroom⟩

/-! # The timers of programs (O20) -/

namespace Sys2Proof.Machine

/-! ## The timeout of a subchannel (R144) -/

/-- A subchannel whose timeout has fired: TMOUT stands in its context, and the timeout counts. -/
def State.timedOut (s : State) (sch : Nat) : State :=
  ((s.late (s.ctxOf sch).expiry).modCtx sch fun c => { c with tmout := true }).onSub fun b => { b with timeouts := inc16 b.timeouts }

section
variable {s : State} {sch : Nat}

/-- An earlier due time, or a lower number due at the same time, holds the timer of a subchannel back (R480). -/
theorem State.subTimer_held (h : reached s.time (s.ctxOf sch).expiry = false
      ∨ ∃ e ∈ s.sub.ctx, e.1 < sch ∧ e.2.armed ∧ e.2.expiry = (s.ctxOf sch).expiry) :
    s.subTimer sch (s.ctxOf sch).expiry = false := by
  unfold State.subTimer
  rcases h with hearly | ⟨e, hmem, hlow, harmed, hsame⟩
  · rw [hearly, Bool.false_and]
  · have hany : s.sub.ctx.any (fun e => e.1 < sch && e.2.armed && e.2.expiry = (s.ctxOf sch).expiry) = true :=
      List.any_eq_true.2 ⟨e, hmem, by simp [hlow, harmed, hsame]⟩
    rw [hany, Bool.not_true, Bool.and_false]

/-- A timer that does not act leaves everything as it is. -/
theorem exec_timeouts_held (h : s.subTimer sch (s.ctxOf sch).expiry = false) :
    exec (.subchannelTimeout sch) s = .next s ∧ exec (.timeoutSpan sch) s = .next s := by
  constructor <;> refine congrArg Host.Outcome.next (if_pos ?_) <;> simp [h]

variable (harmed : (s.ctxOf sch).armed) (hdue : s.subTimer sch (s.ctxOf sch).expiry)
include harmed hdue

/-- The last span of a timeout is over: the program is cut, or ends where it stands. -/
theorem exec_subchannelTimeout_fires (hlast : (s.ctxOf sch).elaps = 0) :
    exec (.subchannelTimeout sch) s = .next
      (if (s.ctxOf sch).state = .startPending then (s.timedOut sch).endAtOnce sch else (s.timedOut sch).cut sch) :=
  congrArg Host.Outcome.next (if_neg (by simp [harmed, hdue, hlast]))

/-- A span of a timeout is over, and the next one starts. -/
theorem exec_timeoutSpan_goesOn (hmore : (s.ctxOf sch).elaps ≠ 0) :
    exec (.timeoutSpan sch) s = .next ((s.late (s.ctxOf sch).expiry).modCtx sch fun c =>
      { c with elaps := c.elaps - 1, expiry := addNs c.expiry spanNs }) :=
  congrArg Host.Outcome.next (if_neg (by simpa [harmed, hdue] using hmore))

end

/-! ## Idle connections (R365) -/

theorem exec_connectionIdleClose_closes {s : State} {quad phy : Nat} {target : Word} {due : Time}
    (hconn : (s.quadOf quad).conns = [⟨phy, target, false, some due⟩]) (hdue : s.quadTimer quad due) :
    exec (.connectionIdleClose quad phy) s = .next (((s.late due).modQuad quad fun q =>
      { q with conns := q.conns.filter fun c => c.phy ≠ phy }).emit (.closeConn quad phy)) := by
  have hfind : (s.quadOf quad).conns.find? (fun c => c.phy = phy) = some ⟨phy, target, false, some due⟩ := by
    simp [hconn]
  refine congrArg Host.Outcome.next ?_
  simp only [hfind, hdue, if_true]

/-! ## Arming and pausing (R143) -/

section
variable (c : Ctx) (now : Time) {n : Nat}

/-- EXPIRY lies the rest of a span ahead. -/
theorem Ctx.arm_expiry : ((c.arm now n).expiry - now).toNat = n % 2 ^ 46 := by
  have hrest : n % 2 ^ 46 < 2 ^ 46 := Nat.mod_lt _ (by decide)
  simp only [Ctx.arm, spanNs, addNs]
  bv_omega

/-- EXPIRY is reached once the rest of a span has passed. -/
theorem Ctx.arm_reached {d : Nat} (hd : d < 2 ^ 46) :
    reached (addNs now d) (c.arm now n).expiry = decide (n % 2 ^ 46 ≤ d) := by
  have hrest : n % 2 ^ 46 < 2 ^ 46 := Nat.mod_lt _ (by decide)
  unfold reached
  rw [decide_eq_decide]
  simp only [Ctx.arm, spanNs, addNs]
  bv_omega

variable (hn : n < 2 ^ 62)
include hn

/-- ELAPS counts the whole spans. -/
theorem Ctx.arm_elaps : (c.arm now n).elaps.toNat = n / 2 ^ 46 := by
  simp only [Ctx.arm, spanNs, BitVec.toNat_ofNat]
  omega

/-- The spans and the rest make up the time that the timer was armed with. -/
theorem Ctx.arm_left : (c.arm now n).elaps.toNat * spanNs + ((c.arm now n).expiry - now).toNat = n := by
  rw [c.arm_elaps now hn, c.arm_expiry now, spanNs]
  omega

/-- A timer that is paused as it is armed goes on, at any later time, as if it were armed then. -/
theorem Ctx.resumeTimer_pauseTimer_arm (htmo : c.tmoCur ≠ 0) (later : Time) :
    ((c.arm now n).pauseTimer now).resumeTimer later = c.arm later n := by
  have harm : (c.arm now n).tmoCur ≠ 0 := htmo
  have hspans : n / spanNs % 2 ^ 16 = n / spanNs := by rw [spanNs]; omega
  have hrest : n % spanNs % 2 ^ 48 = n % spanNs := by rw [spanNs]; omega
  rw [Ctx.pauseTimer, if_neg harm, c.arm_left now hn, Ctx.resumeTimer, if_neg harm]
  simp only [BitVec.toNat_ofNat, hspans, hrest, Nat.div_add_mod']
  rfl

end

end Sys2Proof.Machine

open Sys2Proof.Machine in
/-- Settles O20: what is left of a timer is what it was armed with (`Ctx.arm_left`), whether it runs or is paused; a timer that acts
is one branch of its step. -/
theorem timersOfPrograms : Obligations.TimersOfPrograms := by
  unfold Obligations.TimersOfPrograms
  refine ⟨fun s u sch hu => ⟨fun harmed hdue hlast => ?fires, fun harmed hdue hmore => ?span,
    fun hheld => exec_timeouts_held (State.subTimer_held hheld),
    fun quad phy target due hconn hdue => exec_connectionIdleClose_closes hconn hdue⟩,
    fun c now n hn htmo => ⟨c.arm_left now hn, ?atOnce, fun d hd => c.arm_reached now hd,
      c.resumeTimer_pauseTimer_arm now hn htmo now, c.resumeTimer_pauseTimer_arm now hn htmo⟩⟩
  case fires =>
    subst hu
    rw [exec_subchannelTimeout_fires harmed hdue hlast]
    exact ⟨fun hstate => by simp only [hstate, if_false]; rfl, fun hstate => by simp only [hstate, if_true]; rfl⟩
  case span =>
    subst hu
    exact exec_timeoutSpan_goesOn harmed hdue hmore
  case atOnce =>
    have hnow : addNs now 0 = now := by simp [addNs]
    simpa [hnow] using c.arm_reached now (n := n) (d := 0) (by decide)

/-! # Answers, aborts and their timeouts (O18) -/

namespace Sys2Proof.Machine

theorem exec_exchangeReachedDevice_sent {s : State} {x : Nat} {e : Exch} (hx : AMap.get? s.dev.exch x = some e)
    (hst : e.st = .sent) :
    exec (.exchangeReachedDevice x) s = .next ((s.modExch x fun e => { e with st := .reached }).wantSend e.sch) := by
  refine congrArg Host.Outcome.next ?_
  simp only [hx, hst, if_true]

/-- The completion of an Abort command makes room for another. -/
theorem exec_abortAnswered_frees {s : State} {x : Nat} {a : AbortCmd} (haborts : s.dev.aborts = [a]) (ha : a.x = x) :
    exec (.abortAnswered x) s = .next ({ s with dev := { s.dev with aborts := [] } }.nextAbort a) := by
  refine congrArg Host.Outcome.next ?_
  simp [haborts, ha, State.onDev]

/-! ## The answer (R183, R184) -/

theorem State.keepSense_nil (s : State) (quad sch : Nat) : s.keepSense quad sch [] = s := rfl

/-- An answer that leaves no sense data needs no segment. -/
theorem State.exchAnswer_noSense {s : State} {x : Nat} {e : Exch} {a : DevAnswer} {c : Cmd} {p : Piece}
    (hpiece : s.pieceOf x = some (c, p)) (hsense : keptSense a p.len = []) : s.exchAnswer x e a
      = (((s.seqEnd e.dev c (answerStatus a p.len) a.pos).answered x (answerStatus a p.len) (min a.moved p.len))).wantAll := by
  simp [State.exchAnswer, hpiece, hsense, State.keepSense_nil]

section
variable {s : State} {x : Nat} {e : Exch} (hx : AMap.get? s.dev.exch x = some e)
include hx

theorem exec_exchangeEnd_lost (hst : e.st = .lost) (a : DevAnswer) (ecc : Ecc) :
    exec (.exchangeEnd x a ecc) s = .next (s.dropExch x) := by
  refine congrArg Host.Outcome.next ?_
  simp only [hx, hst, if_true]

theorem exec_exchangeEnd_answers (hst : e.st = .reached) (hframes : s.framesWait x e = false) {a : DevAnswer}
    (hpmem : a.st = .pmemDone → s.writesLeft x e = false) : exec (.exchangeEnd x a .sound) s = .next (s.exchAnswer x e a) := by
  have hwrites : (decide (a.st = .pmemDone) && s.writesLeft x e) = false := by simpa using hpmem
  refine congrArg Host.Outcome.next ?_
  simp [hx, hst, hframes, hwrites]

theorem exec_exchangeEnd_aborted (hst : e.st = .aborting) (hframes : s.framesWait x e = false) (a : DevAnswer) :
    exec (.exchangeEnd x a .sound) s = .next (s.abortDone x a.pos) := by
  refine congrArg Host.Outcome.next ?_
  simp [hx, hst, hframes]

/-! ## The answer to an abort (R366) -/

/-- Away from an NVMe controller the device answers the abort itself. -/
theorem exec_abortAnswered_ends (hnone : ∀ a ∈ s.dev.aborts, a.x ≠ x) (hkind : e.kind ≠ 1) (hst : e.st = .aborting) :
    exec (.abortAnswered x) s = .next ({ s with fresh := s.fresh + 1 }.abortDone x (Config.readPosition s.fresh)) := by
  have hfind : s.dev.aborts.find? (fun a => a.x = x) = none := by simpa using hnone
  refine congrArg Host.Outcome.next ?_
  simp [hx, hfind, hkind, hst, State.readPos]

/-! ## Aborts that go unanswered (R367) -/

theorem exec_exchangeAbortTimeout_nvme {due : Time} (hdue : e.abortDue = some due) (hst : e.st = .aborting)
    (hacts : s.quadTimer e.quad due) (hkind : e.kind = 1) (hclr : (s.ctxOf e.sch).clrreq = false ∨ s.pieceOf x = none) :
    exec (.exchangeAbortTimeout x) s = .next ((((s.late due).abortDone x none).escalate x e).wantAll) := by
  have hkeep : ((s.late due).ctxOf e.sch).clrreq = false ∨ (s.late due).pieceOf x = none := hclr
  have hnot : (((s.late due).ctxOf e.sch).clrreq && ((s.late due).pieceOf x).isSome) = false := by
    rcases hkeep with h | h <;> simp [h]
  refine congrArg Host.Outcome.next ?_
  simp [hx, hdue, hst, hacts, hkind, hnot]

/-- The expander resets the phy of its target; a directly attached target is reset by its link, which drops. -/
theorem exec_escalationHardReset_acts {due : Time} {u : State} (hdue : e.escDue = some due) (hacts : s.quadTimer e.quad due)
    (hu : u = (s.late due).modExch x fun f => { f with escDue := none }) : exec (.escalationHardReset x) s = .next
    (if (s.portOf e.quad e.port).expander then u.emit (.phyReset e.quad e.port e.ctrl)
     else ((u.emit (.linkReset e.quad e.port)).linkLost e.quad e.port 1).signal 4) := by
  subst hu
  refine congrArg Host.Outcome.next ?_
  simp only [hx, hdue, hacts, Bool.not_true, Bool.false_eq_true, if_false]

theorem exec_pmemReadCompletionTimeout_fails (hkind : e.kind = 3) (hst : e.st = .reached) :
    exec (.pmemReadCompletionTimeout x) s = .next ((s.linkLost e.quad e.port 1).signal 4) := by
  refine congrArg Host.Outcome.next ?_
  simp [hx, hkind, hst]

end

/-! ## The device status (R184) -/

/-- The status GOOD of SCSI and of NVMe leaves the bytes moved to decide. -/
theorem answerStatus_good (a : DevAnswer) (len : Nat) (h : a.st = .scsi 0 0 0 false false false ∨ a.st = .nvme 0 0 false) :
    answerStatus a len = byMoved a len := by
  rcases h with h | h <;> simp [answerStatus, h, scsiStatus, nvmeStatus]

end Sys2Proof.Machine

open Sys2Proof.Machine in
/-- Settles O18: each clause on an exchange is a branch of its step, and the status of an answer is its row of R184. -/
theorem exchangeAnswers : Obligations.ExchangeAnswers := by
  unfold Obligations.ExchangeAnswers
  refine ⟨fun s x e hx => ⟨exec_exchangeReachedDevice_sent hx, fun a ecc hst => exec_exchangeEnd_lost hx hst a ecc,
    fun a c p hst hframes hpiece hsense hpmem => ?answers, fun a hst hframes => exec_exchangeEnd_aborted hx hst hframes a,
    fun hnone hkind hst => exec_abortAnswered_ends hx hnone hkind hst, fun a haborts ha => exec_abortAnswered_frees haborts ha,
    fun due hdue hst hacts hkind hclr => exec_exchangeAbortTimeout_nvme hx hdue hst hacts hkind hclr,
    fun due u hdue hacts hu => ?escalates, fun hkind hst => exec_pmemReadCompletionTimeout_fails hx hkind hst⟩,
    fun moved len sense pos => ⟨fun hall => ?good, fun hless => ?short, ?long, fun hall => ?nvme, fun asc fm eom ili more => rfl,
      fun fm eom ili more => rfl, fun dnr more => rfl, fun more => rfl⟩⟩
  case answers => rw [exec_exchangeEnd_answers hx hst hframes hpmem, State.exchAnswer_noSense hpiece hsense]
  case escalates =>
    rw [exec_escalationHardReset_acts hx hdue hacts hu]
    exact ⟨fun hexp => by rw [if_pos hexp], fun hexp => by rw [if_neg (by simp [hexp])]⟩
  case good => simp [answerStatus_good, byMoved, dsGood, hall]
  case short => simp [answerStatus_good, byMoved, hless]
  case long => simp [answerStatus_good, byMoved]
  case nvme => simp [answerStatus_good, byMoved, dsGood, hall]

/-! # Dispatch, stop and restore of a thread (O37) -/

namespace Sys2Proof.Machine

/-! ## A thread takes its place (R205, R226) -/

/-- A thread takes a place as `t`, and a checkpoint record holds it as `r`. -/
def State.placed (s : State) (th : Nat) (t r : Thread) : State := (s.takeThread th t).record_ th ⟨r, [], .none, true⟩

section
variable (s : State) (th : Nat) (t r : Thread)

theorem State.placed_th? : (s.placed th t r).th? th = some t := by
  simp [State.placed, State.record_, State.takeThread, State.nowReady, State.setTh, State.th?]

theorem State.placed_record : (AMap.get? (s.placed th t r).sx.ckpt th).bind CkPair.rec_ = some ⟨r, [], .none, true⟩ := by
  simp only [State.placed, State.record_, State.onSx_sx, AMap.get?_put_same, Option.bind_some]
  split <;> simp [CkPair.rec_]

theorem State.placed_gs : (s.placed th t r).sx.gs = s.sx.gs := by
  simp [State.placed, State.record_, State.takeThread, State.nowReady, State.setTh]

theorem State.placed_ctxOf (k : Nat) : (s.placed th t r).ctxOf k = s.ctxOf k := by simp [State.placed, State.ctxOf]

theorem State.placed_frame : (s.placed th t r).md = s.md ∧ (s.placed th t r).q = s.q ∧ (s.placed th t r).dev = s.dev
    ∧ (s.placed th t r).link = s.link ∧ (s.placed th t r).out = s.out := by
  simp [State.placed]

end

/-! ## Dispatch (R126, R205) -/

/-- A program whose dispatch request is served: its request has left Meridian, and its context is ACTIVE. -/
def State.dispatched (s : State) (sch : Nat) : State :=
  (s.withdraw (.dispatch sch)).modCtx sch fun c => { c with state := .active, dreq := false }

section
variable (s : State) (sch : Nat)

theorem State.dispatched_ctxOf : (s.dispatched sch).ctxOf sch = { s.ctxOf sch with state := .active, dreq := false } :=
  State.ctxOf_modCtx_nonzero (f := fun c => { c with state := .active, dreq := false }) fun hz =>
    nomatch (congrArg Ctx.state hz : SchState.active = .disabled)

theorem State.dispatched_ctxOf_other {k : Nat} (hk : k ≠ sch) : (s.dispatched sch).ctxOf k = s.ctxOf k :=
  State.ctxOf_setCtx_other _ _ hk

theorem State.dispatched_frame : (s.dispatched sch).out = s.out ∧ (s.dispatched sch).sx.gs = s.sx.gs
    ∧ (s.dispatched sch).q = s.q ∧ (s.dispatched sch).dev = s.dev :=
  ⟨rfl, rfl, rfl, rfl⟩

end

/-- A dispatch gives the program a thread that starts from its context. -/
theorem exec_dispatch_starts {s : State} {sch : Nat} (th : Nat) (hleast : s.leastGranted sch)
    (hst : (s.ctxOf sch).state = .startPending ∨ (s.ctxOf sch).state = .waiting) (hpool : s.poolFree 1 (s.ctxOf sch).cls)
    (hfree : s.threadFree th (s.ctxOf sch).cls) (hstopped : s.sx.stopped.any (fun e => e.2.sch = sch) = false) :
    exec (.dispatch sch th .sound) s = .next (((s.dispatched sch).modProg sch fun p =>
      { p with resumed := false, wait := .dispatch }).placed th ((s.dispatched sch).newThread sch) ((s.dispatched sch).newThread sch)) := by
  refine congrArg Host.Outcome.next ((if_neg ?_).trans rfl)
  rcases hst with hst | hst <;> simp [hleast, hst, hpool, hfree, hstopped]

/-! ## Stopping, and the commits that are added (R228, R401) -/

theorem exec_threadStop_stops {s : State} {th : Nat} {t : Thread} (hth : s.th? th = some t) (hstopping : s.stopping t.sch)
    (hpoint : t.stopPoint) (hup : s.engineUp th) : exec (.threadStop th) s = .next (s.stopThread th t) := by
  refine congrArg Host.Outcome.next ?_
  simp [hth, hstopping, hpoint, hup]

theorem exec_autoCommit_commits {s : State} {th : Nat} {t : Thread} (hth : s.th? th = some t) (hsince : 256 ≤ t.since)
    (hdelay : t.delay = false) (hup : s.engineUp th) (hrelease : s.canRelease t.sch t.sbuf) (bad : List Nat) (fixed : Nat) :
    exec (.autoCommit ⟨th, bad, fixed⟩) s = .next ((s.releaseFaults t.sch t.sbuf ⟨th, bad, fixed⟩).commit th t) := by
  refine congrArg Host.Outcome.next ?_
  simp [hth, hsince, hdelay, hup, hrelease]

/-! ## Restoring (R227, R403) -/

/-- The load of a global word as it is issued again. -/
def Load.again (l : Load) (s : State) : Load := { l with got := some (loadedWord (s.gsRead l.addr)) }

/-- The loads of global words that are issued again change nothing but their thread, where they stand with their words. -/
theorem State.reissue_global (th : Nat) (l : List Load) (hl : ∀ a ∈ l, a.host = false) {s : State} {t : Thread}
    (hth : s.th? th = some t) :
    (s.reissue th [] l).th? th = some { t with loads := t.loads ++ l.map fun a => a.again s }
      ∧ ∃ m, s.reissue th [] l = s.onSx (fun x => { x with threads := m }) := by
  induction l generalizing s t with
  | nil => exact ⟨hth.trans (by simp), s.sx.threads, rfl⟩
  | cons a l ih =>
    obtain ⟨ha, hl⟩ := List.forall_mem_cons.1 hl
    have hset : s.reissue th [] (a :: l) = (s.setTh th { t with loads := t.loads ++ [a.again s] }).reissue th [] l := by
      rw [State.reissue, hth]
      simp [ha, Load.again]
    obtain ⟨hget, m, hm⟩ := ih hl (s := s.setTh th { t with loads := t.loads ++ [a.again s] }) (AMap.get?_put_same _ _ _)
    refine ⟨(congrArg (State.th? · th) hset).trans (hget.trans ?_), m, hset.trans hm⟩
    simp [Load.again, State.gsRead, State.setTh]

/-- A stopped thread leaves its place, and the request to dispatch its program leaves Meridian. -/
def State.leaveStopped (s : State) (th sch : Nat) : State :=
  (((s.unwait 2 (.restore th)).onSx fun x => { x with stopped := AMap.del x.stopped th }).withdraw (.dispatch sch)).modCtx sch
    fun c => { c with dreq := false }

/-- A stopped thread as it goes on: without its reservation, its buffered stores and its text. -/
def Thread.restored (t : Thread) : Thread := { t with resv := none, sbuf := [], lines := [] }

theorem exec_threadRestore_goesOn {s : State} {th th' : Nat} {t : Thread} (hth : AMap.get? s.sx.stopped th = some t)
    (hmay : s.mayRestore th th' t) (hhost : ∀ l ∈ t.loads, l.host = false) : exec (.threadRestore th th' ⟨.sound, []⟩) s
      = .next (((s.leaveStopped th t.sch).placed th' { t.restored with loads := [] } t.restored).reissue th' []
          (t.loads.filter fun l => l.dst < 64)) := by
  have hany : t.loads.any (·.host) = false := by simpa using hhost
  have hnone : t.reloads = 0 := by
    simp only [Thread.reloads, List.length_eq_zero_iff, List.filter_eq_nil_iff]
    exact fun l hl => by simp [Load.of, hhost l hl]
  have htags : s.restoreTags th th' t := by simp [State.restoreTags, hnone]
  refine congrArg Host.Outcome.next ?_
  simp only [hth]
  rw [if_neg (by simp [hmay, hany]), if_neg (by simp [htags]), if_neg (by decide)]
  rfl

section
variable (s : State) (th sch : Nat)

theorem State.leaveStopped_dreq (hwf : AMap.wf s.sub.ctx Ctx.zero) : ((s.leaveStopped th sch).ctxOf sch).dreq = false :=
  congrArg Ctx.dreq (AMap.getD_store_same sch _ Ctx.zero ((AMap.wf_iff _ _).1 hwf).1)

theorem State.leaveStopped_frame : (s.leaveStopped th sch).sx.gs = s.sx.gs ∧ (s.leaveStopped th sch).out = s.out
    ∧ (s.leaveStopped th sch).link = s.link :=
  ⟨rfl, rfl, rfl⟩

end

end Sys2Proof.Machine

open Sys2Proof.Machine in
/-- Settles O37. A thread that is dispatched or restored takes its place with a record of itself (`State.placed_record`); the loads
of a restored one find the words of the bank again (`State.reissue_global`). -/
theorem threadsStartStopAndRestore : Obligations.ThreadsStartStopAndRestore := by
  unfold Obligations.ThreadsStartStopAndRestore
  refine ⟨fun s sch th hleast hst hpool hfree hstopped => ⟨_, exec_dispatch_starts th hleast hst hpool hfree hstopped, ?dispatch⟩,
    fun s th t hth hstopping hpoint hup => exec_threadStop_stops hth hstopping hpoint hup,
    fun s th t hth hsince hdelay hup hrelease => exec_autoCommit_commits hth hsince hdelay hup hrelease,
    fun s th th' t l hwf hth hmay hloads => ?restore⟩
  case dispatch =>
    obtain ⟨hout, hgs, hq, hdev⟩ := s.dispatched_frame sch
    have hctx := s.dispatched_ctxOf sch
    have hgrant : (s.dispatched sch).granted (.dispatch sch) = false := s.withdraw_granted_same _
    generalize ht : (s.dispatched sch).newThread sch = t
    generalize hw : (s.dispatched sch).modProg sch (fun p => { p with resumed := false, wait := .dispatch }) = w
    have hkeep : ∀ k, (w.placed th t t).ctxOf k = (s.dispatched sch).ctxOf k := fun k => by rw [State.placed_ctxOf, ← hw]; rfl
    obtain ⟨hmd', hq', hdev', -, hout'⟩ := w.placed_frame th t t
    subst hw
    refine ⟨by rw [hkeep, hctx], by rw [hkeep, hctx], ?_, ⟨t, State.placed_th? _ _ _ _, ?_⟩,
      fun k hk => (hkeep k).trans (s.dispatched_ctxOf_other sch hk), hout'.trans hout, (State.placed_gs _ _ _ _).trans hgs,
      hq'.trans hq, hdev'.trans hdev⟩
    · rw [State.granted, hmd']
      exact hgrant
    · subst ht
      simp [State.newThread, hctx, State.placed_record]
  case restore =>
    have hhost : ∀ a ∈ t.loads, a.host = false := by
      rcases hloads with hnone | ⟨hone, hl, -⟩
      · simp [hnone]
      · simp [hone, hl]
    have hall : t.loads.filter (fun l => l.dst < 64) = t.loads := by
      rcases hloads with hnone | ⟨hone, -, hl⟩
      · simp [hnone]
      · simp [hone, hl]
    obtain ⟨hgs, hout, hlink⟩ := s.leaveStopped_frame th t.sch
    have hdreq := s.leaveStopped_dreq th t.sch hwf
    refine ⟨_, exec_threadRestore_goesOn hth hmay hhost, ?_⟩
    rw [hall]
    generalize s.leaveStopped th t.sch = v at *
    have hth' := v.placed_th? th' { t.restored with loads := [] } t.restored
    have hrec := v.placed_record th' { t.restored with loads := [] } t.restored
    have hgs' := (v.placed_gs th' { t.restored with loads := [] } t.restored).trans hgs
    have hctx' := v.placed_ctxOf th' { t.restored with loads := [] } t.restored t.sch
    obtain ⟨-, -, -, hlink', hout'⟩ := v.placed_frame th' { t.restored with loads := [] } t.restored
    generalize v.placed th' { t.restored with loads := [] } t.restored = w at *
    obtain ⟨hget, m, hm⟩ := State.reissue_global th' t.loads hhost hth'
    refine ⟨hget.trans ?_, ?_⟩
    · simp [State.gsRead, hgs', Load.again, Thread.restored]
    · rw [hm]
      exact ⟨hrec, (congrArg Ctx.dreq hctx').trans hdreq, hgs', hout'.trans hout, hlink'.trans hlink⟩

/-! # Transfer commands (O35)

A command that ends its thread's turn puts the thread into the table as it commits, and takes it out as it releases it. Where the
keys of the table are not in order, the thread goes in before its old entry, and the table ends as it began: the row takes the
bundle for a held one (`State.heldAt`). The statement speaks of every state, and does not say that the table is in order. -/

namespace Sys2Proof.Machine

open Sys2Proof.Safety

/-- CONTROL of F0, F1 and F2, without flags or condition (R164). -/
def controlBundle : BitVec 128 := BitVec.ofNat 128 (0x602 * 2 ^ 116 + 2 ^ 32 + 2)

/-- The operation of the bundle. -/
def controlOp : Op := (decodeBundle controlBundle).headD ⟨true, 0, 0, 0, []⟩

/-- TEST-READY on device 6 of path set 4: F0 the handle, F1 the code, F2 the count. -/
def controlThread : Thread :=
  { State.reset.newThread 7 with
    f := [⟨tagHandle, BitVec.ofNat 64 (4 + 6 * 2 ^ 16)⟩, intW 1, countW 0], budget := 1, cur := some controlBundle }

/-- Thread 0 of subchannel 7 stands in the table after thread 32, which is on another engine. -/
def disorderedState : State :=
  { State.reset with
    sub := { Subch.reset with
      ctx := [(7, { Ctx.zero with state := .active, pset := 4, psv := true })]
      prog := [(7, Prog.zero)]
      psets := [(4, ⟨1, 6, []⟩)]
      devs := [(6, ⟨0, 0, 1, false, [], 0, 0⟩)] }
    sx := { Sirax.reset with threads := [(32, State.reset.newThread 8), (0, controlThread)] }
    pw := { Power.reset with clusters := [⟨.run, true, false, true, true, []⟩] } }

/-- When an engine issued last, as a command leaves it. -/
def issuedAt (eng : Nat) : Res → Option Time
  | .next t => AMap.get? t.sx.lastIssue eng
  | .fault _ => none
  | .refused _ => none

theorem State.noteIssue_issuedAt (s : State) (th : Nat) (routine : Option Nat) :
    AMap.get? (s.noteIssue th routine).sx.lastIssue (th / 32) = some s.time := by
  simp [State.noteIssue]

/-- The words of the command. -/
def controlWords : XWords := words disorderedState controlThread controlOp 0 1 2

theorem controlThread_transfers : Transfers disorderedState 0 controlThread controlBundle controlOp 0x602 0 1 2 := by decide +kernel

theorem controlWords_pass : transferCheck disorderedState controlThread controlWords = 0 ∧ controlWords.spn = false
    ∧ controlWords.chd = false ∧ controlWords.op ≠ .sense ∧ disorderedState.canRelease 7 controlThread.sbuf := by
  decide +kernel

theorem disorderedState_turn (rix : Nat) :
    disorderedState.turn 37 (disorderedState.progKey 7) rix 7 (disorderedState.clsOf 7) (.own 7) := by
  rfl

/-- The row does not note the issue. -/
theorem controlThread_unnoted : issuedAt 0 (exec (.opControl ⟨0, []⟩) disorderedState) = none := by decide +kernel

end Sys2Proof.Machine

open Sys2Proof.Machine Sys2Proof.Safety in
/-- Refutes O35: with thread 0 behind thread 32 in the table, a CONTROL that passes its checks issues, but its row does not note the
issue of engine 0; the statement says that it does. -/
theorem not_transferCommands : ¬ Obligations.TransferCommands := by
  unfold Obligations.TransferCommands
  intro h
  obtain ⟨hcheck, hspn, hchd, hsense, hrelease⟩ := controlWords_pass
  obtain ⟨-, -, -, hpasses, -⟩ := h disorderedState 0 controlThread controlBundle controlOp 0 1 2 controlWords _
    (0x602, .opControl ⟨0, []⟩) (by simp [transferRows]) rfl rfl
  obtain ⟨-, hissues, -⟩ := hpasses controlThread_transfers hcheck (.inl hspn)
  obtain ⟨u, -, hexec⟩ := hissues hchd hrelease (fun hop => absurd hop hsense) disorderedState_turn
  have hnoted := u.noteIssue_issuedAt 0 (disorderedState.routine controlThread controlBundle)
  have hheld := controlThread_unnoted
  rw [hexec] at hheld
  exact absurd (hnoted.symm.trans hheld) (by simp)

/-! # Branches (O29) -/

namespace Sys2Proof.Machine

open Sys2Proof.Safety

/-! ## What a branch slot does (R244 to R246) -/

theorem Op.customer_of_lt {op : Op} (h : op.opc < 0x7C0) : op.customer = false := by
  simp only [Op.customer, Bool.and_eq_false_iff, decide_eq_false_iff_not]
  exact .inl (.inr (by omega))

theorem Op.info_branch {op : Op} (h : op.opc = 0x030 ∨ op.opc = 0x031 ∨ op.opc = 0x032) :
    ∃ i, op.info = some i ∧ i.kind = .branch := by
  rcases h with h | h | h <;> simp [Op.info, shortInfo, h]

/-- A branch slot whose static checks pass is evaluated on its operands. -/
theorem State.slot_branch {s : State} {t : Thread} {op : Op} {opc : Nat} {srcs : List Src} (v : Env)
    (hopc : opc = 0x030 ∨ opc = 0x031 ∨ opc = 0x032) (h : BranchSlot t op opc srcs) :
    s.slot t v op = evalBranch v op srcs := by
  obtain ⟨rfl, hstatic, hsrcs⟩ := h
  have hcust : op.customer = false := Op.customer_of_lt (by omega)
  obtain ⟨i, hinfo, hkind⟩ := Op.info_branch hopc
  have hops : op.operands i = some srcs := by simpa [hinfo] using hsrcs
  simp [State.slot, evalSlot, hcust, hstatic, hinfo, hops, hkind]

section
variable {v : Env} {x : Src} {a : Word} (h : Target v x a)
include h

/-- The operand of a branch passes its checks: it is read, and its tag is INT (R201, R244). -/
theorem Target.checked : x.base v = .ok () ∧ ∃ p, x.place v 8 true false = .ok p ∧ (v.at_ p).tag = tagInt := by
  rcases h with ⟨d, rfl, -⟩ | ⟨n, rfl, htag, -⟩
  · exact ⟨rfl, _, rfl, rfl⟩
  · exact ⟨rfl, _, rfl, htag⟩

theorem Target.branchTarget_eq : branchTarget v x = a := by
  rcases h with ⟨d, rfl, rfl⟩ | ⟨n, rfl, -, rfl⟩ <;> rfl

theorem Target.useSrc_check : (useSrc x (· = tagInt)).check v 8 = .ok () := by
  obtain ⟨hbase, p, hplace, htag⟩ := Target.checked h
  simp [Use.check, useSrc, hbase, hplace, tagCheck, htag, tagInt, tagPoison]

theorem evalBranch_conditional (op : Op) : evalBranch v op [x]
    = .ok ⟨[], some (if (if op.opc = 0x030 then ccCond (op.modN % 16) v.cc
        else dsCond (if op.long then op.cond else op.modN % 16) v.ds) then some a else none), false⟩ := by
  obtain ⟨-, p, hplace, -⟩ := Target.checked h
  have hpass : operandChecks v 8 [useSrc x (· = tagInt)] = .ok [p] := by
    simp only [operandChecks, chkAll, Target.useSrc_check h, chkMap]
    simp [useSrc, hplace]
  simp only [evalBranch, hpass, Target.branchTarget_eq h]

theorem evalBranch_link (op : Op) (n : Nat) : evalBranch v op [.frame n, x]
    = .ok ⟨[(.frame n, intW (v.ic + 32), 2)], some (some a), false⟩ := by
  obtain ⟨-, p, hplace, -⟩ := Target.checked h
  have hdst : (useDst (.frame n)).check v 8 = .ok () := rfl
  have hframe : (useDst (.frame n)).src.place v 8 (useDst (.frame n)).r (useDst (.frame n)).w = .ok (.frame n) := rfl
  have hpass : operandChecks v 8 [useDst (.frame n), useSrc x (· = tagInt)] = .ok [.frame n, p] := by
    simp only [operandChecks, chkAll, hdst, Target.useSrc_check h, chkMap, hframe]
    simp [useSrc, hplace]
  simp only [evalBranch, hpass, Target.branchTarget_eq h]
  rfl

end

/-- The sixteen conditions of BCC, in order of their codes. -/
theorem ccCond_table (n z c v : Bool) : (List.range 16).map (fun k => ccCond k (mkCC n z c v))
    = [z, !z, n, !n, c, !c, v, !v, !z && n = v, n = v, n ≠ v, z || n ≠ v, !c && !z, c || z, true, false] := by
  revert n z c v
  decide

/-! ## The delay bundle (R216) -/

theorem Thread.advance_taken {t : Thread} (hrpt : t.rptAct = false) (hdelay : t.delay = false) (j : Option Word) :
    (t.advance (some j)).ic = t.ic + 16 ∧ (t.advance (some j)).delay = true ∧ (t.advance (some j)).pbr = j := by
  simp [Thread.advance, hrpt, hdelay]

theorem Thread.advance_plain {t : Thread} (hrpt : t.rptAct = false) (hdelay : t.delay = false) :
    (t.advance none).ic = t.ic + 16 ∧ (t.advance none).delay = false := by
  simp [Thread.advance, hrpt, hdelay]

theorem Thread.advance_delayed {t : Thread} (hrpt : t.rptAct = false) (hdelay : t.delay = true) (j : Option (Option Word)) :
    (t.advance j).ic = t.pbr.getD (t.ic + 16) ∧ (t.advance j).delay = false ∧ (t.advance j).pbr = none := by
  simp [Thread.advance, hrpt, hdelay]

/-- The results of a bundle leave alone where the thread stands among its bundles. -/
theorem Thread.written_control (t : Thread) (b : BitVec 128) (ws : List (Loc × TWord × Nat)) :
    let u := (t.keep b).settle.write ws
    u.rptAct = t.rptAct ∧ u.delay = t.delay ∧ u.ic = t.ic ∧ u.pbr = t.pbr := by
  have happly : ∀ (t : Thread) (p : PendW), let u := t.apply p
      (u.rptAct, u.delay, u.ic, u.pbr) = (t.rptAct, t.delay, t.ic, t.pbr) := fun t p => by
    cases p with
    | mk loc val at_ => cases loc <;> rfl
  have hsettle := Thread.settle_keeps (fun u => (u.rptAct, u.delay, u.ic, u.pbr)) happly (fun _ _ => rfl) (t.keep b)
  have hkeep : ((t.keep b).rptAct, (t.keep b).delay, (t.keep b).ic, (t.keep b).pbr) = (t.rptAct, t.delay, t.ic, t.pbr) := by
    unfold Thread.keep
    split <;> rfl
  simpa [Thread.write] using hsettle.trans hkeep

end Sys2Proof.Machine

open Sys2Proof.Machine Sys2Proof.Safety in
/-- Settles O29: a branch slot is its evaluation on a target that passes its checks (`State.slot_branch`, `Target.checked`), and IC
moves as `Thread.advance` says once the results are written. -/
theorem branches : Obligations.Branches := by
  unfold Obligations.Branches
  refine ⟨fun s t op x a hx => ⟨fun h => ?bcc, fun h => ?bds, fun n h => ?bal⟩, ccCond_table,
    fun t b ws hrpt => ⟨fun j hdelay => ?taken, fun hdelay => ?plain, fun hdelay => ?delayed⟩⟩
  case bcc =>
    rw [State.slot_branch _ (by simp) h, evalBranch_conditional hx, h.1]
    rfl
  case bds =>
    rw [State.slot_branch _ (by simp) h, evalBranch_conditional hx, h.1]
    rfl
  case bal =>
    rw [State.slot_branch _ (by simp) h, evalBranch_link hx]
    rfl
  all_goals
    obtain ⟨hrpt', hdelay', hic, hpbr⟩ := t.written_control b ws
    rw [hrpt] at hrpt'
    rw [hdelay] at hdelay'
    simp only [issued, ← hic, ← hpbr]
  case taken => exact Thread.advance_taken hrpt' hdelay' j
  case plain => exact Thread.advance_plain hrpt' hdelay'
  case delayed => exact Thread.advance_delayed hrpt' hdelay' none

/-! # Commit points and END (O33)

A commit point puts its thread back with a smaller BUDGET, and its stores end reservations alone: so its bundle is never held, and
the record that it wrote stays. -/

namespace Sys2Proof.Machine

open Sys2Proof.Safety

/-! ## What the release of stores leaves of Sirax (R224, R263) -/

/-- A thread as a write to word `w` of the global scratchpad leaves it (R263). -/
def Thread.unreserved (t : Thread) (w : Nat) : Thread := if t.resv = some w then { t with resv := none } else t

theorem Thread.unreserved_eq (t : Thread) (w : Nat) : ∃ r, t.unreserved w = { t with resv := r } := by
  unfold Thread.unreserved
  split
  · exact ⟨none, rfl⟩
  · exact ⟨t.resv, rfl⟩

theorem State.gsWrite_threads (s : State) (w : Nat) (v : TWord) :
    (s.gsWrite w v).sx.threads = s.sx.threads.map fun e => (e.1, e.2.unreserved w) :=
  List.map_congr_left fun e _ => by
    unfold Thread.unreserved
    split <;> rfl

/-- A write to the scratchpad takes a reservation from a thread, and nothing else. -/
theorem State.gsWrite_th? {s : State} {th : Nat} {t : Thread} (w : Nat) (v : TWord) (h : s.th? th = some t) :
    ∃ r, (s.gsWrite w v).th? th = some { t with resv := r } := by
  obtain ⟨r, hr⟩ := t.unreserved_eq w
  refine ⟨r, ?_⟩
  rw [State.th?, State.gsWrite_threads, AMap.get?_map (Thread.unreserved · w), ← State.th?, h, Option.map_some, hr]

theorem State.releaseStore_th? {s : State} {th : Nat} {t : Thread} (e : Store) (h : s.th? th = some t) :
    ∃ r, (s.releaseStore e).th? th = some { t with resv := r } := by
  unfold State.releaseStore
  split
  · exact ⟨t.resv, by simpa [State.th?] using h⟩
  · exact ⟨t.resv, by simpa [State.th?] using h⟩
  all_goals exact State.gsWrite_th? _ _ h

theorem State.foldl_releaseStore_th? {s : State} {th : Nat} {t : Thread} (l : List Store) (h : s.th? th = some t) :
    ∃ r, (l.foldl State.releaseStore s).th? th = some { t with resv := r } := by
  induction l generalizing s t with
  | nil => exact ⟨t.resv, h⟩
  | cons e l ih =>
    obtain ⟨r, hr⟩ := State.releaseStore_th? e h
    obtain ⟨r', hr'⟩ := ih hr
    exact ⟨r', hr'⟩

/-- A refused store ends its program, but leaves the threads and their records to the step that stops them. -/
theorem State.releaseStores_sx (s : State) (sch : Nat) (l : List Store) :
    (s.releaseStores sch l).sx = (l.foldl State.releaseStore s).sx := by
  unfold State.releaseStores
  dsimp only
  split <;> simp

theorem State.releaseStores_th? {s : State} {th : Nat} {t : Thread} (sch : Nat) (l : List Store) (h : s.th? th = some t) :
    ∃ r, (s.releaseStores sch l).th? th = some { t with resv := r } := by
  rw [State.th?, State.releaseStores_sx]
  exact State.foldl_releaseStore_th? l h

theorem State.releaseStores_ckpt (s : State) (sch : Nat) (l : List Store) :
    (s.releaseStores sch l).sx.ckpt = s.sx.ckpt := by
  have hone : ∀ (s : State) (e : Store), (s.releaseStore e).sx.ckpt = s.sx.ckpt := fun s e => by
    unfold State.releaseStore
    split <;> simp [State.gsWrite]
  rw [State.releaseStores_sx]
  exact foldl_keeps (fun s => s.sx.ckpt) State.releaseStore hone l s

/-! ## A commit point (R224, R226) -/

/-- After a commit point the thread stands with an empty store buffer; a reservation of its own may have gone. -/
theorem State.commit_th? (s : State) (th : Nat) (u : Thread) :
    ∃ r, (s.commit th u).th? th = some { u with sbuf := [], since := 0, resv := r } := by
  have hput : ((s.setTh th { u with sbuf := [], since := 0 }).record_ th
      ⟨{ u with sbuf := [], since := 0 }, u.sbuf, .none, false⟩).th? th = some { u with sbuf := [], since := 0 } :=
    AMap.get?_put_same _ _ _
  obtain ⟨r, hr⟩ := State.releaseStores_th? u.sch u.sbuf hput
  exact ⟨r, hr⟩

/-- After a commit point the valid record holds the thread as it was put back, and the stores that were released. -/
theorem State.commit_record (s : State) (th : Nat) (u : Thread) :
    (AMap.get? (s.commit th u).sx.ckpt th).bind CkPair.rec_
      = some ⟨{ u with sbuf := [], since := 0 }, u.sbuf, .none, true⟩ := by
  simp only [State.commit, State.commitFor, State.amend, State.onSx_sx, State.releaseStores_ckpt, State.record_,
    AMap.get?_upd_same _ (AMap.get?_put_same _ _ _), Option.bind_some]
  cases (AMap.getD (s.setTh th { u with sbuf := [], since := 0 }).sx.ckpt th ⟨false, none, none⟩).valid <;> simp [CkPair.rec_]

/-- A commit point of a thread that has spent a bundle changes the table of the threads. -/
theorem State.commit_heldAt {s : State} {th : Nat} {t u : Thread} (h : s.th? th = some t) (hbudget : u.budget ≠ t.budget) :
    (s.commit th u).heldAt s = false := by
  rw [State.heldAt, decide_eq_false_iff_not]
  intro heq
  obtain ⟨r, hr⟩ := s.commit_th? th u
  have hsame := hr.symm.trans ((congrArg (AMap.get? · th) heq).trans h)
  have hspent := congrArg Thread.budget (Option.some.inj hsame)
  exact hbudget hspent

theorem State.storeWait_heldAt (s : State) (sch : Nat) : (s.storeWait sch).heldAt s := by simp [State.heldAt]

/-! ## The rows of COMMIT, WAITH and WAITG (R252) -/

theorem Thread.advance_budget_ne {t u : Thread} (h : u.budget = t.budget) (j : Option (Option Word)) :
    (u.advance j).budget ≠ t.budget := by
  rw [Thread.advance_budget, h]
  bv_omega

theorem State.issueLong_commit (s : State) (th : Nat) (t : Thread) (b : BitVec 128) {op : Op}
    (h : 0x250 ≤ op.opc ∧ op.opc ≤ 0x252) : s.issueLong th t b op = s.opCommit th t op := by
  unfold State.issueLong
  dsimp only
  rw [if_neg (by simp; omega), if_neg (by simp; omega), if_neg (by omega), if_neg (by simp; omega), if_neg (by simp; omega),
    if_pos (by simpa using h)]

/-- An operation whose static checks pass goes on with its operands. -/
theorem State.checked_passes (s : State) (th : Nat) {t : Thread} {op : Op} {srcs : List Src} (k : List Src → State)
    (hstatic : op.static t.delay t.rptAct none = 0) (hsrcs : op.info.bind (fun i => op.operands i) = some srcs) :
    s.checked th t op k = k srcs := by
  obtain ⟨i, hinfo, hops⟩ := Option.bind_eq_some_iff.1 hsrcs
  simp [State.checked, hstatic, hinfo, hops]

section
variable {s : State} {th : Nat} {t : Thread} {b : BitVec 128} {op : Op} {opc : Nat} {srcs : List Src}
  (h : LongOp s th t b op opc srcs)
include h

/-- The row of an operation in long form issues it, and notes the issue unless the bundle is held. -/
theorem State.opRow_long : s.opRow th [] (opIs opc)
    = .next (if (s.issueLong th t b op).heldAt s then s.issueLong th t b op
        else (s.issueLong th t b op).noteIssue th (s.routine t b)) := by
  obtain ⟨⟨hth, hgen, hready, hfirst, hops, hpair, hbudget⟩, rfl, -, -⟩ := h
  have hadopt : s.adopt th t = (s, t) := by simp [State.adopt, hgen]
  have hissue : s.issue th t b = s.issueLong th t b op := by
    simp only [State.issue, hops, hpair, hbudget, if_false, ne_eq, not_true_eq_false]
  unfold State.opRow
  simp [hth, hadopt, hready, hops, hfirst, opIs, State.issueBad_nil, hissue]

/-- A commit point whose stores may leave notes its issue. -/
theorem State.opRow_commits {u : Thread} (hopc : 0x250 ≤ opc ∧ opc ≤ 0x252) (hbudget : u.budget = t.budget)
    (hcommit : s.opCommit th t op = s.commit th (u.advance none)) :
    s.opRow th [] (opIs opc) = .next ((s.commit th (u.advance none)).noteIssue th (s.routine t b)) := by
  obtain ⟨⟨hth, -⟩, rfl, -⟩ := id h
  rw [State.opRow_long h, s.issueLong_commit th t b hopc, hcommit,
    State.commit_heldAt hth (Thread.advance_budget_ne hbudget none)]
  rfl

end

/-- A wait whose loads have all come makes them visible, and commits. -/
theorem State.opCommit_wait {s : State} {th : Nat} {t : Thread} {op : Op} {srcs : List Src} (host : Bool)
    (hstatic : op.static t.delay t.rptAct none = 0) (hsrcs : op.info.bind (fun i => op.operands i) = some srcs)
    (hopc : op.opc ≠ 0x250) (hhost : decide (op.opc = 0x251) = host) (hreturned : t.returned host) (hsound : t.failed host = false)
    (hrelease : s.canRelease t.sch t.sbuf) : s.opCommit th t op = s.commit th ((t.settle.deliver host).advance none) := by
  rw [State.opCommit, s.checked_passes th _ hstatic hsrcs, if_neg hopc]
  simp [hhost, hreturned, hsound, hrelease]

/-! ## END (R188) -/

theorem issued_sch (t : Thread) (b : BitVec 128) (ws : List (Loc × TWord × Nat)) (j : Option (Option Word)) :
    (issued t b ws j).sch = t.sch := by
  have hkeep : (t.keep b).sch = t.sch := by
    unfold Thread.keep
    split <;> rfl
  have hadvance : ∀ u : Thread, (u.advance j).sch = u.sch := fun u => by
    unfold Thread.advance
    dsimp only
    (repeat' split) <;> rfl
  rw [issued, hadvance]
  exact (Thread.settle_sch _).trans hkeep

/-- A bundle that holds END, and whose slots pass, ends its program. -/
theorem State.opRow_ends {s : State} {th : Nat} {t : Thread} {b : BitVec 128} {ops : List Op} {outs : List SlotOut}
    (hb : Bundle s th t b ops) (hany : ops.any (opIs 0x001)) (houts : chkMap ops (s.slot t (s.env t)) = .ok outs)
    (hfin : outs.any (·.fin)) : s.opRow th [] (opIs 0x001)
      = .next ((s.finish th (Safety.issued t b (writes outs) (Safety.branches outs))).noteIssue th (s.routine t b)) := by
  have hin : ∀ op, opIs 0x001 op → opcInside op.opc := fun op hop => by
    rw [of_decide_eq_true hop]
    simp [opcInside]
  rw [State.opRow_inside hb [] hany hin, State.issueBad_nil]
  obtain ⟨-, -, -, -, hops, hpair, hbudget⟩ := hb
  rw [s.issue_inside th hops hpair hbudget hany hin]
  simp only [State.issuePlain, houts, hfin, if_true]
  rfl

end Sys2Proof.Machine

open Sys2Proof.Machine Sys2Proof.Safety in
/-- Settles O33: a commit point is never held (`State.commit_heldAt`), so that its row notes it; what it leaves is
`State.commit_th?` and `State.commit_record`. END ends its program wherever it stands in its bundle (`State.opRow_ends`). -/
theorem commitPointsAndEnd : Obligations.CommitPointsAndEnd := by
  unfold Obligations.CommitPointsAndEnd
  refine ⟨fun s th t b op hheld h => ?held, fun s th t b op hrelease => ⟨fun h => ?commit, fun h hreturned hsound => ?waith,
    fun h hreturned hsound => ?waitg, fun u _ => ?after⟩, fun s th t b ops outs hb hany houts hfin => ?ends⟩
  case held =>
    obtain ⟨-, hopc, hstatic, hsrcs⟩ := id h
    have hwait : s.opCommit th t op = s.storeWait t.sch := by
      rw [State.opCommit, s.checked_passes th _ hstatic hsrcs, if_pos hopc, if_neg (by simp [hheld])]
    refine (State.opRow_long h).trans ?_
    rw [s.issueLong_commit th t b (by omega), hwait, if_pos (s.storeWait_heldAt _)]
  case commit =>
    obtain ⟨-, hopc, hstatic, hsrcs⟩ := id h
    exact State.opRow_commits h (by omega) t.settle_budget (by
      rw [State.opCommit, s.checked_passes th _ hstatic hsrcs, if_pos hopc, if_pos hrelease])
  case waith =>
    obtain ⟨-, hopc, hstatic, hsrcs⟩ := id h
    exact State.opRow_commits h (by omega) t.settle_budget
      (State.opCommit_wait true hstatic hsrcs (by omega) (by simp [hopc]) hreturned hsound hrelease)
  case waitg =>
    obtain ⟨-, hopc, hstatic, hsrcs⟩ := id h
    exact State.opRow_commits h (by omega) t.settle_budget
      (State.opCommit_wait false hstatic hsrcs (by omega) (by simp [hopc]) hreturned hsound hrelease)
  case after =>
    obtain ⟨r, hr⟩ := s.commit_th? th u
    exact ⟨_, hr, rfl, rfl, rfl, rfl, s.commit_record th u⟩
  case ends =>
    refine (State.opRow_ends hb hany houts hfin).trans ?_
    rw [State.finish, issued_sch]

/-! # Arithmetic and logic (O27)

A slot whose checks pass is its operation on the words of its sources. What remains is arithmetic: that the flags, which the
model takes from the bits of its operands, say what the true result is. -/

namespace Sys2Proof.Machine

open Sys2Proof.Safety

/-! ## A data operation on two sources (R234, R237 to R239) -/

/-- ADD to DIV, the logic and the shifts name a destination and two sources. -/
theorem Op.info_three {op : Op} (h : 0x010 ≤ op.opc ∧ op.opc ≤ 0x013 ∨ 0x018 ≤ op.opc ∧ op.opc ≤ 0x01E) :
    ∃ i, op.info = some i ∧ i.roles.head? = some .dst ∧ i.kind = .plain := by
  have hcases : op.opc = 0x010 ∨ op.opc = 0x011 ∨ op.opc = 0x012 ∨ op.opc = 0x013 ∨ op.opc = 0x018 ∨ op.opc = 0x019
      ∨ op.opc = 0x01A ∨ op.opc = 0x01B ∨ op.opc = 0x01C ∨ op.opc = 0x01D ∨ op.opc = 0x01E := by omega
  unfold Op.info
  rcases hcases with h | h | h | h | h | h | h | h | h | h | h <;> rw [h] <;> exact ⟨_, rfl, rfl, rfl⟩

/-- The places of a slot that names a destination are those of the destination and of its sources. -/
theorem slotPlaces_dst {v : Env} {op : Op} {i : OpInfo} {p : Place} {ps : List Place} (hinfo : op.info = some i)
    (hhead : i.roles.head? = some .dst) (h : slotPlaces v op = .ok (p :: ps)) :
    ∃ d srcs, op.operands i = some (d :: srcs)
      ∧ operandChecks v 8 (useDst d :: srcUses v op.opc srcs) = .ok (p :: ps) := by
  simp only [slotPlaces, hinfo] at h
  split at h
  · simp at h
  · next srcs hsrcs =>
    rw [splitDst, if_pos hhead] at h
    cases srcs with
    | nil => simp [srcUses, operandChecks, chkAll, chkMap] at h
    | cons d srcs => exact ⟨d, srcs, hsrcs, h⟩

theorem evalData_sets {v : Env} {d : Src} {f : TWord → TWord → Chk Alu} {us : List Use} {p pa pb : Place} {w : TWord}
    {cc : Option (BitVec 4)} (hchecks : operandChecks v 8 (useDst d :: us) = .ok [p, pa, pb])
    (hf : f (v.at_ pa) (v.at_ pb) = .ok ⟨some w, cc⟩) : evalData v (some d) f us = sets p w cc := by
  unfold evalData
  dsimp only [List.singleton_append]
  rw [hchecks]
  simp [hf, sets]

section
variable {s : State} {t : Thread} {op : Op} {p pa pb : Place} (h : Slot s t op [p, pa, pb])
include h

/-- A slot that passes its checks performs its operation on the words of its sources. -/
theorem State.slot_three {w : TWord} {cc : BitVec 4}
    (hopc : 0x010 ≤ op.opc ∧ op.opc ≤ 0x013 ∨ 0x018 ≤ op.opc ∧ op.opc ≤ 0x01E)
    (halu : alu (s.env t) op ((s.env t).at_ pa) ((s.env t).at_ pb) = aluSet w cc) :
    s.slot t (s.env t) op = sets p w (some cc) := by
  obtain ⟨hstatic, hplaces⟩ := h
  obtain ⟨i, hinfo, hhead, hkind⟩ := Op.info_three hopc
  obtain ⟨d, srcs, hsrcs, hchecks⟩ := slotPlaces_dst hinfo hhead hplaces
  have hcust : op.customer = false := Op.customer_of_lt (by omega)
  have hslot : s.slot t (s.env t) op = evalData (s.env t) (some d) (alu (s.env t) op) (srcUses (s.env t) op.opc srcs) := by
    simp [State.slot, evalSlot, hcust, hstatic, hinfo, hsrcs, hkind, splitDst, hhead]
  rw [hslot]
  exact evalData_sets hchecks halu

variable {a b w : TWord} {cc : BitVec 4} (ha : (s.env t).at_ pa = a) (hb : (s.env t).at_ pb = b)
include ha hb

theorem State.slot_add (hopc : op.opc = 0x010) (hadd : aluAdd false a b = aluSet w cc) :
    s.slot t (s.env t) op = sets p w (some cc) :=
  State.slot_three h (by omega) (by simpa [alu, hopc, ha, hb] using hadd)

theorem State.slot_sub (hopc : op.opc = 0x011) (hsub : aluAdd true a b = aluSet w cc) :
    s.slot t (s.env t) op = sets p w (some cc) :=
  State.slot_three h (by omega) (by simpa [alu, hopc, ha, hb] using hsub)

theorem State.slot_mul (hopc : op.opc = 0x012) (hmul : aluMul a b = aluSet w cc) :
    s.slot t (s.env t) op = sets p w (some cc) :=
  State.slot_three h (by omega) (by simpa [alu, hopc, ha, hb] using hmul)

theorem State.slot_div (hopc : op.opc = 0x013) (hdiv : aluDiv (op.modN % 2 = 1) a b = aluSet w cc) :
    s.slot t (s.env t) op = sets p w (some cc) :=
  State.slot_three h (by omega) (by simpa [alu, hopc, ha, hb] using hdiv)

theorem State.slot_logic {opc : Nat} (hrange : 0x018 ≤ opc ∧ opc ≤ 0x01B) (hopc : op.opc = opc)
    (hlogic : aluLogic opc a b = aluSet w cc) : s.slot t (s.env t) op = sets p w (some cc) := by
  refine State.slot_three h (by omega) ?_
  unfold alu
  dsimp only
  rw [if_neg (by omega), if_neg (by omega), if_neg (by omega), if_neg (by omega), if_neg (by omega), if_neg (by omega),
    if_pos (by simpa [hopc] using hrange), hopc, ha, hb, hlogic]

theorem State.slot_shift {opc : Nat} (hrange : 0x01C ≤ opc ∧ opc ≤ 0x01E) (hopc : op.opc = opc)
    (hshift : aluShift opc a b = aluSet w cc) : s.slot t (s.env t) op = sets p w (some cc) := by
  refine State.slot_three h (by omega) ?_
  unfold alu
  dsimp only
  rw [if_neg (by omega), if_neg (by omega), if_neg (by omega), if_neg (by omega), if_neg (by omega), if_neg (by omega),
    if_neg (by simp; omega), if_pos (by simpa [hopc] using hrange), hopc, ha, hb, hshift]

end

/-! ## INT words (R202, R236, R238) -/

@[simp] theorem ccOf_intW (x : Word) (c v : Bool) : ccOf (intW x) c v = mkCC x.msb (x = 0) c v := rfl

@[simp] theorem numOf_intW (x : Word) : numOf (intW x) = x.toInt := rfl

theorem bmod_word (i : Int) :
    i.bmod (2 ^ 64) = if i % 2 ^ 64 < 2 ^ 63 then i % 2 ^ 64 else i % 2 ^ 64 - 2 ^ 64 := by
  rfl

/-- A true result does not fit into a word where it lies outside its signed range. -/
theorem bmod_word_ne_iff (i : Int) : i.bmod (2 ^ 64) ≠ i ↔ i < -2 ^ 63 ∨ 2 ^ 63 ≤ i := by
  rw [bmod_word]
  omega

theorem add_overflow (x y : Word) :
    (decide (x.msb = y.msb) && decide ((x + y).msb ≠ x.msb)) = decide ((x + y).toInt ≠ x.toInt + y.toInt) := by
  have hx := x.le_toInt
  have hx' := x.toInt_lt
  have hy := y.le_toInt
  have hy' := y.toInt_lt
  rw [Bool.eq_iff_iff]
  simp only [BitVec.msb_eq_toInt, BitVec.toInt_add, bmod_word, Bool.and_eq_true, decide_eq_true_eq, decide_eq_decide, ne_eq]
  omega

theorem sub_overflow (x y : Word) :
    (decide (x.msb ≠ y.msb) && decide ((x - y).msb ≠ x.msb)) = decide ((x - y).toInt ≠ x.toInt - y.toInt) := by
  have hx := x.le_toInt
  have hx' := x.toInt_lt
  have hy := y.le_toInt
  have hy' := y.toInt_lt
  rw [Bool.eq_iff_iff]
  simp only [BitVec.msb_eq_toInt, BitVec.toInt_sub, bmod_word, Bool.and_eq_true, decide_eq_true_eq, decide_eq_decide, ne_eq]
  omega

theorem aluAdd_int (x y : Word) : aluAdd false (intW x) (intW y)
    = aluSet (intW (x + y)) (mkCC (x + y).msb (x + y = 0) (2 ^ 64 ≤ x.toNat + y.toNat) ((x + y).toInt ≠ x.toInt + y.toInt)) := by
  rw [← add_overflow]
  rfl

theorem aluSub_int (x y : Word) : aluAdd true (intW x) (intW y)
    = aluSet (intW (x - y)) (mkCC (x - y).msb (x - y = 0) (x.toNat < y.toNat) ((x - y).toInt ≠ x.toInt - y.toInt)) := by
  rw [← sub_overflow]
  rfl

theorem aluMul_int (x y : Word) : aluMul (intW x) (intW y)
    = aluSet (intW (x * y)) (mkCC (x * y).msb (x * y = 0) false ((x * y).toInt ≠ x.toInt * y.toInt)) := by
  have hprod : wordOfInt (x.toInt * y.toInt) = x * y := by
    rw [wordOfInt, BitVec.ofInt_mul, BitVec.ofInt_toInt, BitVec.ofInt_toInt]
  have hv : (decide (x.toInt * y.toInt < -2 ^ 63) || decide ((2 ^ 63 : Int) ≤ x.toInt * y.toInt))
      = decide ((x * y).toInt ≠ x.toInt * y.toInt) := by
    rw [BitVec.toInt_mul, ← Bool.decide_or]
    exact decide_eq_decide.2 (bmod_word_ne_iff _).symm
  rw [← hv, ← hprod]
  rfl

theorem aluDiv_int (rem : Bool) {x y z : Word} (hy : y ≠ 0) (hz : z = if rem then x.srem y else x.sdiv y) :
    aluDiv rem (intW x) (intW y)
      = aluSet (intW z) (mkCC z.msb (z = 0) false (x = BitVec.intMin 64 && y = -1)) := by
  have hy0 : y.toInt ≠ 0 := fun h => hy (BitVec.toInt_inj.1 h)
  have hword : wordOfInt (if rem then Int.tmod x.toInt y.toInt else Int.tdiv x.toInt y.toInt) = z := by
    subst hz
    cases rem
    · exact BitVec.eq_of_toInt_eq (by simp [wordOfInt, BitVec.toInt_ofInt, BitVec.toInt_sdiv])
    · simp only [if_true, wordOfInt, ← BitVec.toInt_srem, BitVec.ofInt_toInt]
  have hmin : x.toInt = -(2 ^ 63) ↔ x = BitVec.intMin 64 := BitVec.toInt_inj (y := BitVec.intMin 64)
  have hone : y.toInt = -1 ↔ y = -1 := BitVec.toInt_inj (y := -1)
  rw [← hword, ← decide_eq_decide.2 hmin, ← decide_eq_decide.2 hone]
  simp only [aluDiv, numOf_intW, hy0, if_false, decide_false, Bool.false_or]
  rfl

theorem aluDiv_zero (rem : Bool) (x : Word) : aluDiv rem (intW x) (intW 0) = aluSet (intW 0) (mkCC false true false true) := by
  have hy : (0 : Word).toInt = 0 := rfl
  simp only [aluDiv, numOf_intW, hy, if_true, decide_true, Bool.true_or]
  change aluSet (intW (wordOfInt 0)) (ccOf (intW (wordOfInt 0)) false true) = _
  decide

/-! ## COUNT words (R199, R202, R238) -/

@[simp] theorem countW_tag (n : Nat) : (countW n).tag = tagCount := rfl

theorem countW_toNat (m : BitVec 32) : countW m.toNat = ⟨tagCount, m.setWidth 64⟩ := by
  rw [countW, Nat.mod_eq_of_lt m.isLt, BitVec.ofNat_toNat]

@[simp] theorem low32_countW (n : Nat) : low32 (countW n).pay = n % 2 ^ 32 := by
  simp only [low32, countW, BitVec.toNat_ofNat]
  omega

@[simp] theorem numOf_countW (m : BitVec 32) : numOf (countW m.toNat) = m.toNat := by
  rw [numOf, if_pos (countW_tag _), low32_countW, Nat.mod_eq_of_lt m.isLt]

/-- A COUNT keeps 32 bits of a result. -/
theorem countW_congr {n : Nat} {m : BitVec 32} (h : n % 2 ^ 32 = m.toNat) : countW n = countW m.toNat := by
  rw [countW, countW, h, Nat.mod_eq_of_lt m.isLt]

theorem ccOf_countW (m : BitVec 32) (c v : Bool) : ccOf (countW m.toNat) c v = mkCC false (m = 0) c v := by
  have hz : (m.toNat % 2 ^ 32 = 0) ↔ m = 0 := by
    rw [Nat.mod_eq_of_lt m.isLt]
    exact BitVec.toNat_inj (y := 0)
  rw [ccOf, if_pos (countW_tag _)]
  change mkCC false (decide (low32 (countW m.toNat).pay = 0)) c v = _
  rw [low32_countW, decide_eq_decide.2 hz]

section
variable (m n : BitVec 32)

theorem aluAdd_count : aluAdd false (countW m.toNat) (countW n.toNat)
    = aluSet (countW (m + n).toNat)
        (mkCC false (m + n = 0) (2 ^ 32 ≤ m.toNat + n.toNat) (2 ^ 32 ≤ m.toNat + n.toNat)) := by
  have hsum : (m.toNat + n.toNat) % 2 ^ 32 = (m + n).toNat := (BitVec.toNat_add m n).symm
  have hv : outside32 ((m.toNat : Int) + n.toNat) = decide (2 ^ 32 ≤ m.toNat + n.toNat) := by
    simp only [outside32, ← Bool.decide_or, decide_eq_decide]
    omega
  change aluSet (addCount false _ _).1 (addCount false _ _).2 = _
  simp only [addCount, low32_countW, numOf_countW, Nat.mod_eq_of_lt m.isLt, Nat.mod_eq_of_lt n.isLt, Bool.false_eq_true, if_false,
    countW_congr hsum, ccOf_countW, hv]

theorem aluSub_count : aluAdd true (countW m.toNat) (countW n.toNat)
    = aluSet (countW (m - n).toNat) (mkCC false (m - n = 0) (m.toNat < n.toNat) (m.toNat < n.toNat)) := by
  have hdiff : (m.toNat + 2 ^ 32 - n.toNat) % 2 ^ 32 = (m - n).toNat := by bv_omega
  have hv : outside32 ((m.toNat : Int) - n.toNat) = decide (m.toNat < n.toNat) := by
    simp only [outside32, ← Bool.decide_or, decide_eq_decide]
    omega
  change aluSet (addCount true _ _).1 (addCount true _ _).2 = _
  simp only [addCount, low32_countW, numOf_countW, Nat.mod_eq_of_lt m.isLt, Nat.mod_eq_of_lt n.isLt, if_true,
    countW_congr hdiff, ccOf_countW, hv]

theorem aluMul_count : aluMul (countW m.toNat) (countW n.toNat)
    = aluSet (countW (m * n).toNat) (mkCC false (m * n = 0) false (2 ^ 32 ≤ m.toNat * n.toNat)) := by
  have hprod : (((m.toNat : Int) * n.toNat) % (2 ^ 32 : Int)).toNat % 2 ^ 32 = (m * n).toNat := by
    rw [BitVec.toNat_mul]
    omega
  have hv : outside32 ((m.toNat : Int) * n.toNat) = decide (2 ^ 32 ≤ m.toNat * n.toNat) := by
    simp only [outside32, ← Bool.decide_or, decide_eq_decide]
    omega
  change aluSet (countW _) (ccOf (countW _) false (outside32 _)) = _
  simp only [numOf_countW, countW_congr hprod, ccOf_countW, hv]

theorem aluDiv_count : aluDiv false (countW m.toNat) (countW n.toNat)
    = aluSet (countW (m / n).toNat) (mkCC false (m / n = 0) false (n = 0)) := by
  have hzero : ((n.toNat : Int) = 0) ↔ n = 0 := by
    rw [Int.natCast_eq_zero]
    exact BitVec.toNat_inj (y := 0)
  have hquot : (if (n.toNat : Int) = 0 then 0 else Int.tdiv m.toNat n.toNat).toNat % 2 ^ 32 = (m / n).toNat := by
    rw [BitVec.toNat_udiv, ← Int.ofNat_tdiv]
    split
    · simp_all
    · rw [Int.toNat_natCast, Nat.mod_eq_of_lt ((Nat.div_le_self _ _).trans_lt m.isLt)]
  have hv : (decide ((n.toNat : Int) = 0) || (decide (tagCount = tagInt) && decide ((m.toNat : Int) = -2 ^ 63)
      && decide ((n.toNat : Int) = -1))) = decide (n = 0) := by
    rw [decide_eq_decide.2 hzero]
    exact Bool.or_false _
  rw [← ccOf_countW, ← hv, ← countW_congr hquot]
  simp only [aluDiv, numOf_countW, countW_tag]
  rfl

end

/-! ## Addresses (R202) -/

theorem ccV_mkCC (n z c v : Bool) : ccV (mkCC n z c v) = v := by
  revert n z c v
  decide

theorem ccC_mkCC (n z c v : Bool) : ccC (mkCC n z c v) = c := by
  revert n z c v
  decide

/-- The word of segment `g` at offset `n`: what its fields read. -/
theorem addrWord_fields (g n : Nat) (hg : g < 8) (hn : n < 2 ^ 48) :
    bits (BitVec.ofNat 64 (g * 2 ^ 48 + n)).toNat 48 3 = g ∧ (BitVec.ofNat 64 (g * 2 ^ 48 + n)).toNat % 2 ^ 48 = n := by
  simp only [bits, BitVec.toNat_ofNat]
  omega

/-- An INT added to an address moves it modulo 2^48 within its segment. -/
theorem aluAdd_addr {k : BitVec 4} (hk : isAddr k) (a y : Word) :
    ∃ w cc, aluAdd false ⟨k, a⟩ (intW y) = aluSet w cc ∧ w.tag = k ∧ bits w.pay.toNat 48 3 = bits a.toNat 48 3
      ∧ ((w.pay.toNat % 2 ^ 48 : Nat) : Int) = (((a.toNat % 2 ^ 48 : Nat) : Int) + y.toInt) % 2 ^ 48
      ∧ (ccV cc ↔ ((w.pay.toNat % 2 ^ 48 : Nat) : Int) ≠ ((a.toNat % 2 ^ 48 : Nat) : Int) + y.toInt) ∧ ccC cc = false := by
  have hpair : addPair false k tagInt := by
    rcases (by simpa [isAddr] using hk : k = tagHaddr ∨ k = tagSaddr) with rfl | rfl <;> rfl
  have hadd : aluAdd false ⟨k, a⟩ (intW y) = aluSet (addAddr false ⟨k, a⟩ (intW y)).1 (addAddr false ⟨k, a⟩ (intW y)).2 := by
    simp [aluAdd, intW, hpair, hk]
  refine ⟨_, _, hadd, rfl, ?_⟩
  obtain ⟨hseg, hoff⟩ := addrWord_fields (bits a.toNat 48 3) (((a.toNat % 2 ^ 48 : Nat) + y.toInt) % 2 ^ 48).toNat
    (Nat.mod_lt _ (by decide)) (by omega)
  simp only [addAddr, Bool.false_eq_true, if_false, ccV_mkCC, ccC_mkCC, intW, hoff, hseg, Bool.or_eq_true, decide_eq_true_eq,
    true_and, and_true]
  omega

/-! ## Logic and shifts (R239) -/

theorem aluLogic_same {k : BitVec 4} (hk : k = tagInt ∨ k = tagBytes) (opc : Nat) (x y : Word) :
    aluLogic opc ⟨k, x⟩ ⟨k, y⟩ = (let v := if opc = 0x018 then x &&& y else if opc = 0x019 then x ||| y
        else if opc = 0x01A then x ^^^ y else x &&& ~~~y
      aluSet ⟨k, v⟩ (mkCC v.msb (v = 0) false false)) := by
  rcases hk with rfl | rfl <;> rfl

theorem shiftPair_passes {opc : Nat} {k j : BitVec 4} (hsar : opc ≠ 0x01E ∨ k = tagInt) (hk : k = tagInt ∨ k = tagBytes)
    (hj : j = tagInt ∨ j = tagCount) : shiftPair opc k j := by
  have hnum : isNum j := by simpa [isNum] using hj
  have hfirst : k = tagInt ∨ opc ≠ 0x01E ∧ k = tagBytes := by tauto
  simpa [shiftPair, hnum] using hfirst

theorem aluShift_pair {opc : Nat} {k j : BitVec 4} (h : shiftPair opc k j) (x y : Word) :
    aluShift opc ⟨k, x⟩ ⟨j, y⟩ = (let n := y.toNat % 64
      let v := if opc = 0x01C then x <<< n else if opc = 0x01D then x >>> n else x.sshiftRight n
      let c := n ≠ 0 && (if opc = 0x01C then x.getLsbD (64 - n) else x.getLsbD (n - 1))
      aluSet ⟨k, v⟩ (mkCC v.msb (v = 0) c false)) := by
  simp [aluShift, h]

end Sys2Proof.Machine

open Sys2Proof.Machine Sys2Proof.Safety in
/-- Settles O27: a slot whose checks pass performs its operation on the words of its sources (`State.slot_three`), and one
lemma for each operation and tag says what that computes. -/
theorem arithmeticAndLogic : Obligations.ArithmeticAndLogic := by
  unfold Obligations.ArithmeticAndLogic
  refine ⟨fun s t op p pa pb x y h ha hb => ?int,
    fun s t op p pa pb h => ⟨fun m n ha hb => ?count, fun k a y hk ha hb hopc => ?addr⟩,
    fun s t op p pa pb k x y h ha => ⟨fun hk hb => ?logic, fun hk j n hj hb hn => ?shift⟩⟩
  case int =>
    refine ⟨fun hopc => State.slot_add h ha hb hopc (aluAdd_int x y), fun hopc => State.slot_sub h ha hb hopc (aluSub_int x y),
      fun hopc => State.slot_mul h ha hb hopc (aluMul_int x y), fun hopc hmod hy => State.slot_div h ha hb hopc ?_,
      fun hopc hmod hy => State.slot_div h ha hb hopc ?_, fun hopc hy => State.slot_div h ha hb hopc ?_⟩
    · rw [decide_eq_false (by omega)]
      exact aluDiv_int false hy rfl
    · rw [decide_eq_true hmod]
      exact aluDiv_int true hy rfl
    · rw [hy]
      exact aluDiv_zero _ x
  case count =>
    rw [← countW_toNat] at ha hb
    simp only [← countW_toNat]
    refine ⟨fun hopc => State.slot_add h ha hb hopc (aluAdd_count m n), fun hopc => State.slot_sub h ha hb hopc (aluSub_count m n),
      fun hopc => State.slot_mul h ha hb hopc (aluMul_count m n), fun hopc hmod => State.slot_div h ha hb hopc ?_⟩
    rw [decide_eq_false (by omega)]
    exact aluDiv_count m n
  case addr =>
    obtain ⟨w, cc, hadd, hw⟩ := aluAdd_addr hk a y
    exact ⟨w, cc, State.slot_add h ha hb hopc hadd, hw⟩
  case logic =>
    exact ⟨fun hopc => State.slot_logic h ha hb (by decide) hopc (aluLogic_same hk _ x y),
      fun hopc => State.slot_logic h ha hb (by decide) hopc (aluLogic_same hk _ x y),
      fun hopc => State.slot_logic h ha hb (by decide) hopc (aluLogic_same hk _ x y),
      fun hopc => State.slot_logic h ha hb (by decide) hopc (aluLogic_same hk _ x y)⟩
  case shift =>
    subst hn
    exact ⟨fun hopc => State.slot_shift h ha hb (by decide) hopc (aluShift_pair (shiftPair_passes (.inl (by decide)) hk hj) x y),
      fun hopc => State.slot_shift h ha hb (by decide) hopc (aluShift_pair (shiftPair_passes (.inl (by decide)) hk hj) x y),
      fun hopc hint => State.slot_shift h ha hb (by decide) hopc (aluShift_pair (shiftPair_passes (.inr hint) hk hj) x y)⟩

/-! # The distance of a frame word (O30) -/

namespace Sys2Proof.Machine

open Sys2Proof.Safety

/-! ## What results leave of their thread as they reach their places -/

/-- Results change the frame, CC and the local window alone. -/
theorem Thread.foldl_apply_eq (l : List PendW) (t : Thread) :
    ∃ f cc win, l.foldl Thread.apply t = { t with f := f, cc := cc, win := win } ∧ f.length = t.f.length := by
  induction l generalizing t with
  | nil => exact ⟨_, _, _, rfl, rfl⟩
  | cons p l ih =>
    have happly : ∃ f cc win, t.apply p = { t with f := f, cc := cc, win := win } ∧ f.length = t.f.length := by
      unfold Thread.apply
      split
      · exact ⟨_, _, _, rfl, List.length_set⟩
      · exact ⟨_, _, _, rfl, rfl⟩
      · exact ⟨_, _, _, rfl, rfl⟩
    obtain ⟨f, cc, win, heq, hlen⟩ := happly
    obtain ⟨f', cc', win', heq', hlen'⟩ := ih (t.apply p)
    refine ⟨f', cc', win', ?_, ?_⟩
    · rw [List.foldl_cons, heq', heq]
    · rw [hlen', heq, hlen]

theorem Thread.settle_eq (t : Thread) : ∃ f cc win, t.settle
    = { t with f := f, cc := cc, win := win, pend := t.pend.filter fun p => t.issue < p.at_ } ∧ f.length = t.f.length :=
  Thread.foldl_apply_eq _ _

theorem Thread.settle_length (t : Thread) : t.settle.f.length = t.f.length := by
  obtain ⟨f, cc, win, heq, hlen⟩ := t.settle_eq
  rw [heq, hlen]

/-- Results that are not for a frame word leave it alone. -/
theorem Thread.foldl_apply_frame {l : List PendW} {n : Nat} (h : ∀ p ∈ l, p.loc ≠ .frame n) (t : Thread) :
    (l.foldl Thread.apply t).f[n]? = t.f[n]? := by
  induction l generalizing t with
  | nil => rfl
  | cons p l ih =>
    have happly : (t.apply p).f[n]? = t.f[n]? := by
      have hp := h p (by simp)
      unfold Thread.apply
      split
      · next m hm => exact List.getElem?_set_ne (fun heq => hp (by rw [hm, heq]))
      · rfl
      · rfl
    exact (ih (fun q hq => h q (by simp [hq])) _).trans happly

/-- A frame word stays as long as no result for it is due. -/
theorem Thread.settle_frame {t : Thread} {n : Nat} (h : ∀ p ∈ t.pend, p.at_ ≤ t.issue → p.loc ≠ .frame n) :
    t.settle.f[n]? = t.f[n]? :=
  Thread.foldl_apply_frame (fun p hp => h p (List.mem_of_mem_filter hp) (by simpa using List.of_mem_filter hp)) _

/-- The last result due for a frame word is the word. -/
theorem Thread.settle_frame_due {t : Thread} {l : List PendW} {n k : Nat} {w : TWord} (hpend : t.pend = l ++ [⟨.frame n, w, k⟩])
    (hdue : k ≤ t.issue) (hn : n < t.f.length) : t.settle.f[n]? = some w := by
  obtain ⟨f, cc, win, heq, hlen⟩ := Thread.foldl_apply_eq (l.filter fun p => p.at_ ≤ t.issue)
    { t with pend := t.pend.filter fun p => t.issue < p.at_ }
  have hlast : (t.pend.filter fun p => p.at_ ≤ t.issue) = l.filter (fun p => p.at_ ≤ t.issue) ++ [⟨.frame n, w, k⟩] := by
    simp [hpend, hdue]
  rw [Thread.settle, hlast, List.foldl_append, heq]
  exact List.getElem?_set_self (hlen ▸ hn)

/-! ## A thread outside every repetition (R218) -/

/-- It sees what has reached its place, and nothing early (R220, R257). -/
theorem Thread.seen_eq_settle {t : Thread} (hrpt : t.rptAct = false) (hblock : t.inBlock = false) : t.seen = t.settle := by
  obtain ⟨f, cc, win, heq, -⟩ := t.settle_eq
  have hearly : t.settle.early = fun _ => false := by
    rw [heq]
    funext p
    simp only [Thread.early, hrpt, Bool.false_and, Bool.false_or, Bool.and_eq_false_iff]
    exact .inl (.inl hblock)
  simp [Thread.seen, hearly]

/-- Where the frame and the results of a thread stand after a bundle. -/
theorem issued_frame {t : Thread} (hrpt : t.rptAct = false) (b : BitVec 128) (ws : List (Loc × TWord × Nat))
    (j : Option (Option Word)) :
    let u := issued t b ws j
    u.rptAct = false ∧ u.inBlock = t.inBlock ∧ u.issue = t.issue + 1 ∧ u.f = t.settle.f
      ∧ u.pend = (t.pend.filter fun p => t.issue < p.at_) ++ ws.map fun w => ⟨w.1, w.2.1, t.issue + w.2.2⟩ := by
  have hkeep : t.keep b = t := by simp [Thread.keep, hrpt]
  obtain ⟨f, cc, win, heq, -⟩ := t.settle_eq
  simp only [issued, hkeep, heq, Thread.write, Thread.advance, hrpt]
  cases t.delay
  · cases j <;> exact ⟨rfl, rfl, rfl, rfl, rfl⟩
  · exact ⟨rfl, rfl, rfl, rfl, rfl⟩

end Sys2Proof.Machine

open Sys2Proof.Machine Sys2Proof.Safety in
/-- Settles O30: the result waits while the bundle after next is not reached (`Thread.settle_frame`), and is then the last one due
for its word (`Thread.settle_frame_due`). -/
theorem frameWordDistance : Obligations.FrameWordDistance := by
  unfold Obligations.FrameWordDistance
  intro t b b' n w j j' hrpt hblock hn hpend
  obtain ⟨hrpt1, hblock1, hissue1, hf1, hpend1⟩ := issued_frame hrpt b [(.frame n, w, 2)] j
  obtain ⟨hrpt2, hblock2, hissue2, hf2, hpend2⟩ := issued_frame hrpt1 b' [] j'
  generalize issued t b [(.frame n, w, 2)] j = u at *
  generalize issued u b' [] j' = v at *
  rw [Thread.seen_eq_settle hrpt1 (hblock1.trans hblock), Thread.seen_eq_settle hrpt2 (hblock2.trans (hblock1.trans hblock))]
  simp only [List.getD_eq_getElem?_getD]
  have hwaits : ∀ p ∈ u.pend, p ∈ t.pend ∨ p = ⟨.frame n, w, t.issue + 2⟩ := fun p hp => by
    rw [hpend1, List.mem_append] at hp
    exact hp.imp List.mem_of_mem_filter (by simp)
  refine ⟨?before, ?due, fun m hm hnone => ?others⟩
  case before =>
    rw [Thread.settle_frame, hf1, Thread.settle_frame fun p hp _ => hpend p hp]
    intro p hp hdue
    rcases hwaits p hp with hold | rfl
    · exact hpend p hold
    · simp only [hissue1] at hdue
      omega
  case due =>
    have hlast : v.pend = ((t.pend.filter fun p => t.issue < p.at_).filter fun p => u.issue < p.at_)
        ++ [⟨.frame n, w, t.issue + 2⟩] := by
      rw [hpend2, hpend1, List.filter_append]
      simp [hissue1]
    have hlen : n < v.f.length := by rwa [hf2, Thread.settle_length, hf1, Thread.settle_length]
    rw [Thread.settle_frame_due hlast (by omega) hlen, Option.getD_some]
  case others =>
    have hnew : ∀ p ∈ u.pend, p.loc ≠ .frame m := fun p hp => by
      rcases hwaits p hp with hold | rfl
      · simp [hnone] at hold
      · simpa using hm.symm
    have hleft : ∀ p ∈ v.pend, p.loc ≠ .frame m := fun p hp => by
      rw [hpend2, List.map_nil, List.append_nil] at hp
      exact hnew p (List.mem_of_mem_filter hp)
    rw [Thread.settle_frame fun p hp _ => hleft p hp, hf2, Thread.settle_frame fun p hp _ => hnew p hp, hf1,
      Thread.settle_frame (by simp [hnone])]

/-! # Loads and stores (O31)

A load and a buffered store spend a bundle of their thread's BUDGET, so that their row never takes them for held. -/

namespace Sys2Proof.Machine

open Sys2Proof.Safety

/-! ## The rows of operations in long form that change their thread -/

/-- A thread whose BUDGET has moved is not held. -/
theorem State.heldAt_of_budget {s u : State} {th : Nat} {t v : Thread} (h : s.th? th = some t) (hu : u.th? th = some v)
    (hbudget : v.budget ≠ t.budget) : u.heldAt s = false := by
  rw [State.heldAt, decide_eq_false_iff_not]
  intro heq
  have hsame : some v = some t := hu.symm.trans ((congrArg (AMap.get? · th) heq).trans h)
  exact hbudget (congrArg Thread.budget (Option.some.inj hsame))

theorem State.setTh_th? (s : State) (th : Nat) (t : Thread) : (s.setTh th t).th? th = some t := AMap.get?_put_same _ _ _

/-- A program check takes the thread from the table. -/
theorem State.programCheck_heldAt {s : State} {th : Nat} {t : Thread} (u : Thread) (code : Nat) (h : s.th? th = some t) :
    (s.programCheck th u code).heldAt s = false := by
  rw [State.heldAt, decide_eq_false_iff_not, State.programCheck_threads u code h]
  exact AMap.del_ne h

section
variable {s u : State} {th : Nat} {t : Thread} {b : BitVec 128} {op : Op} {opc : Nat} {srcs : List Src}
  (h : LongOp s th t b op opc srcs)
include h

/-- The row of an operation that leaves its thread with one bundle less notes the issue. -/
theorem State.opRow_issues {v : Thread} (hissue : s.issueLong th t b op = u) (hu : u.th? th = some v)
    (hbudget : v.budget = t.budget - 1) : s.opRow th [] (opIs opc) = .next (u.noteIssue th (s.routine t b)) := by
  obtain ⟨⟨hth, -⟩, -⟩ := id h
  have hheld : u.heldAt s = false := State.heldAt_of_budget hth hu (by rw [hbudget]; bv_omega)
  rw [State.opRow_long h, hissue, hheld]
  rfl

theorem State.opRow_sets {v : Thread} (hissue : s.issueLong th t b op = s.setTh th v) (hbudget : v.budget = t.budget - 1) :
    s.opRow th [] (opIs opc) = .next ((s.setTh th v).noteIssue th (s.routine t b)) :=
  State.opRow_issues h hissue (s.setTh_th? th v) hbudget

theorem State.opRow_checks {code : Nat} (hissue : s.issueLong th t b op = s.programCheck th t code) :
    s.opRow th [] (opIs opc) = .next ((s.programCheck th t code).noteIssue th (s.routine t b)) := by
  obtain ⟨⟨hth, -⟩, -⟩ := id h
  rw [State.opRow_long h, hissue, State.programCheck_heldAt t code hth]
  rfl

end

theorem stepped_budget (t : Thread) : (stepped t).budget = t.budget - 1 := by
  rw [stepped, Thread.advance_budget, Thread.settle_budget]

/-! ## Loads (R221, R248, R249, R261) -/

theorem State.issueLoad_th? (s : State) (th : Nat) (t : Thread) (l : Load) :
    (s.issueLoad th t l).th? th = some { t with loads := t.loads ++ [l] } := by
  have hsx : (s.issueLoad th t l).sx = ((s.unwait 2 (.load th)).setTh th { t with loads := t.loads ++ [l] }).sx := by
    simp only [State.issueLoad, State.hostRead_frame, State.takeRead_frame]
  rw [State.th?, hsx]
  exact State.setTh_th? _ _ _

theorem State.issueLong_load (s : State) (th : Nat) (t : Thread) (b : BitVec 128) {op : Op}
    (h : op.opc = 0x200 ∨ op.opc = 0x201 ∨ op.opc = 0x204 ∨ op.opc = 0x241) : s.issueLong th t b op = s.opLoad th t op := by
  unfold State.issueLong
  dsimp only
  rw [if_pos (by simpa [or_assoc] using h)]

section
variable {s : State} {th : Nat} {t : Thread} {b : BitVec 128} {op : Op} {opc d : Nat} {m : Src} {g : Seg} {off : Nat}

/-- A global load with room among those outstanding goes on with what it meets in the store buffer. -/
theorem State.issueLong_globalLoad (hopc : opc = 0x204 ∨ opc = 0x241) (h : Loads s th t b op opc 8 d m g off)
    (hroom : (t.outstanding false).length < 16) (hmeet : globalMeet t.sbuf (g.word off) ≠ .commit) :
    s.issueLong th t b op = s.loadGo th t ⟨t.nextId, false, d, g.word off, none, false, none, false⟩
      (globalMeet t.sbuf (g.word off)) (opc = 0x241) := by
  obtain ⟨⟨-, rfl, hstatic, hsrcs⟩, hchecks⟩ := h
  have hhost : op.opc ≠ 0x200 ∧ op.opc ≠ 0x201 := by omega
  rw [s.issueLong_load th t b (by omega), State.opLoad, s.checked_passes th _ hstatic hsrcs]
  simp [hhost, hchecks, hmeet, Nat.not_le.2 hroom]

/-- A host load that meets nothing, and can be read now, goes on. -/
theorem State.issueLong_hostLoad (raw : Bool) (hopc : opc = if raw then 0x201 else 0x200)
    (h : Loads s th t b op opc (if raw then 8 else 16) d m g off) (hroom : (t.outstanding true).length < 16)
    (hread : s.canRead th t.sch) (hmeet : hostMeet t.sbuf (g.host off) g.who raw = .none) :
    s.issueLong th t b op
      = s.issueLoad th (stepped t) ⟨t.nextId, true, d, g.host off, g.who, raw, none, false⟩ := by
  obtain ⟨⟨-, rfl, hstatic, hsrcs⟩, hchecks⟩ := h
  have hor : op.opc = 0x200 ∨ op.opc = 0x201 := by cases raw <;> simp [hopc]
  rw [s.issueLong_load th t b (by omega), State.opLoad, s.checked_passes th _ hstatic hsrcs]
  cases raw with
  | false =>
    have hslot : op.opc = 0x200 := hopc
    simp only [Bool.false_eq_true, if_false] at hchecks
    simp [hslot, hchecks, hmeet, hread, State.loadGo, stepped, Nat.not_le.2 hroom]
  | true =>
    have hraw : op.opc = 0x201 := hopc
    simp only [if_true] at hchecks
    simp [hraw, hchecks, hmeet, hread, State.loadGo, stepped, Nat.not_le.2 hroom]

end

/-! ## Stores (R223, R248, R249) -/

theorem Thread.keep_sbuf (t : Thread) (b : BitVec 128) : (t.keep b).sbuf = t.sbuf := by
  unfold Thread.keep
  split <;> rfl

theorem stored_budget (t : Thread) (b : BitVec 128) (e : Store) : (stored t b e).budget = t.budget - 1 := by
  rw [stored, Thread.advance_budget, Thread.settle_budget]
  exact congrArg (· - 1) (t.keep_budget b)

/-- What a store operation puts into the buffer. -/
def storeOf (opc : Nat) (g : Seg) (off : Nat) (w : TWord) : Store :=
  if opc = 0x205 then ⟨g.kind, g.word off, none, w⟩
  else ⟨if opc = 0x202 then .hostSlot else .hostRaw, g.host off, g.who, w⟩

/-- A store with room in the buffer goes into it. -/
theorem State.issueLong_store {s : State} {th : Nat} {t : Thread} {b : BitVec 128} {op : Op} {opc : Nat} {m a : Src} {g : Seg}
    {off : Nat} {p : Place} (hopc : opc = 0x202 ∨ opc = 0x203 ∨ opc = 0x205) (hroom : t.sbuf.length < 32)
    (h : Stores s th t b op opc (if opc = 0x202 then 16 else 8) (if opc = 0x203 then isPlainTag else anyTag) m a g off p) :
    s.issueLong th t b op = s.setTh th (stored t b (storeOf opc g off ((s.env t).at_ p))) := by
  obtain ⟨⟨-, rfl, hstatic, hsrcs⟩, hchecks⟩ := h
  have hrow : s.issueLong th t b op = s.opStore th t b op := by
    unfold State.issueLong
    dsimp only
    rw [if_neg (by simp; omega), if_pos (by simpa [or_assoc] using hopc)]
  rw [hrow, State.opStore, s.checked_passes th _ hstatic hsrcs]
  simp only [hchecks]
  simp [Nat.not_le.2 hroom, State.buffer, Thread.keep_sbuf, stored, storeOf]

end Sys2Proof.Machine

open Sys2Proof.Machine Sys2Proof.Safety in
/-- Settles O31: each clause is the issue of its bundle (`State.issueLong_globalLoad`, `State.issueLong_hostLoad`,
`State.issueLong_store`), which its row notes, since the thread has spent a bundle (`State.opRow_issues`). -/
theorem loadsAndBufferedStores : Obligations.LoadsAndBufferedStores := by
  unfold Obligations.LoadsAndBufferedStores
  refine ⟨fun s th t b op d m g off => ⟨fun hroom => ⟨fun w hmeet hw => ⟨fun h => ?ldg, fun h => ?lrs⟩, fun w hmeet h => ?met⟩,
    fun hroom hread => ⟨fun hmeet h => ?ldh, fun hmeet h => ?ldhr⟩⟩,
    fun s th t b op m a g off p hroom => ⟨fun h => ?sth, fun h => ?sthr, fun h => ?stg⟩⟩
  case ldg =>
    refine State.opRow_sets h.1 ?_ (stepped_budget t)
    rw [State.issueLong_globalLoad (.inl rfl) h hroom (by simp [hmeet]), hmeet, hw]
    rfl
  case lrs =>
    refine State.opRow_sets h.1 ?_ (stepped_budget t)
    rw [State.issueLong_globalLoad (.inr rfl) h hroom (by simp [hmeet]), hmeet, hw]
    rfl
  case met =>
    refine State.opRow_sets h.1 ?_ (stepped_budget t)
    rw [State.issueLong_globalLoad (.inl rfl) h hroom (by simp [hmeet]), hmeet]
    rfl
  case ldh =>
    exact State.opRow_issues h.1 (State.issueLong_hostLoad false rfl h hroom hread hmeet) (State.issueLoad_th? _ _ _ _)
      (stepped_budget t)
  case ldhr =>
    exact State.opRow_issues h.1 (State.issueLong_hostLoad true rfl h hroom hread hmeet) (State.issueLoad_th? _ _ _ _)
      (stepped_budget t)
  case sth =>
    refine State.opRow_sets h.1 ?_ (stored_budget t b _)
    exact State.issueLong_store (opc := 0x202) (by simp) hroom h
  case sthr =>
    refine State.opRow_sets h.1 ?_ (stored_budget t b _)
    exact State.issueLong_store (opc := 0x203) (by simp) hroom h
  case stg =>
    refine State.opRow_sets h.1 ?_ (stored_budget t b _)
    exact State.issueLong_store (opc := 0x205) (by simp) hroom h

/-! # Repeated operations (O32)

A step of a block repeat reads its units, writes at most one, and leaves its thread with one bundle less: so its row notes it. -/

namespace Sys2Proof.Machine

open Sys2Proof.Safety

/-! ## RPT (R217, R253) -/

/-- RPT of a count: the repetition that it starts, or the check that it raises. -/
theorem State.issueLong_rpt {s : State} {th : Nat} {t : Thread} {b : BitVec 128} {op : Op} {a : Src} {p : Place} {n : BitVec 32}
    (h : LongOp s th t b op 0x220 [a]) (hchecks : operandChecks (s.env t) 8 [useSrc a (· = tagCount)] = .ok [p])
    (hcount : (s.env t).at_ p = ⟨tagCount, n.setWidth 64⟩) :
    s.issueLong th t b op = if op.modN % 2 ≠ 1 ∧ 256 < n.toNat then s.programCheck th t pcRepeat
      else s.setTh th (if n = 0 then { stepped t with ic := t.ic + 32 }
        else { stepped t with rptAct := true, rptI := decide (op.modN % 2 = 1), rptRem := n.toNat, rptIdx := 0 }) := by
  obtain ⟨-, hopc, hstatic, hsrcs⟩ := h
  have hrow : s.issueLong th t b op = s.opRpt th t op := by simp [State.issueLong, hopc]
  have hlow : low32 (n.setWidth 64) = n.toNat := by
    rw [low32, BitVec.toNat_setWidth]
    omega
  have hzero : n.toNat = 0 ↔ n = 0 := BitVec.toNat_inj (y := 0)
  rw [hrow, State.opRpt, s.checked_passes th _ hstatic hsrcs]
  simp [hchecks, hcount, hlow, hzero, stepped]

/-! ## One step of a block repeat (R255 to R258) -/

theorem State.issueLong_block {s : State} {th : Nat} {t : Thread} {b : BitVec 128} {op : Op} {opc : Nat} {srcs : List Src}
    (hopc : 0x230 ≤ opc ∧ opc ≤ 0x233) (h : LongOp s th t b op opc srcs) :
    s.issueLong th t b op = State.blockStep 3 s th t b op srcs := by
  obtain ⟨-, rfl, hstatic, hsrcs⟩ := h
  have hrow : s.issueLong th t b op = s.opBlock th t b op := by
    unfold State.issueLong
    dsimp only
    rw [if_neg (by simp; omega), if_neg (by simp; omega), if_neg (by omega), if_pos (by simpa using hopc)]
  rw [hrow, State.opBlock, s.checked_passes th _ hstatic hsrcs]

/-- The thread once a step has written its unit, where it writes one. -/
def stepThread (t : Thread) (dst : Option Place) (raw : Bool) (w : TWord) : Thread :=
  match dst with
  | some p => stepWrote t p raw w
  | none => t

theorem stepThread_budget (t : Thread) (dst : Option Place) (raw : Bool) (w : TWord) :
    (stepThread t dst raw w).budget = t.budget := by
  unfold stepThread stepWrote
  split
  · split <;> rfl
  · rfl

/-- What a step writes: MOVB the unit that it read, FILB its value. -/
def stepValue (opc : Nat) (raw : Bool) (b0 : TWord) (ws : List TWord) : TWord :=
  unitWord raw (if opc = 0x230 then ws.getD 0 TWord.unset else b0)

theorem unitWord_idem (raw : Bool) (w : TWord) : unitWord raw (unitWord raw w) = unitWord raw w := by
  cases raw <;> rfl

/-- The thread that a step leaves: its run goes on, or ends with what CMPB and SCNB write. -/
def stepResult (t : Thread) (b : BitVec 128) (op : Op) (raw : Bool) (b0 b1 c : TWord) (ws : List TWord) (dst : Option Place)
    (cnt : Option Nat) : Thread :=
  match stepEnd op raw (low32 c.pay) (ws.map (unitWord raw)) b0 with
  | some (left, cc) => runEnds (stepThread t dst raw (stepValue op.opc raw b0 ws)) (match cnt with
    | some k => runResult k left cc
    | none => [])
  | none => runsOn (stepThread t dst raw (stepValue op.opc raw b0 ws)) b
      (if op.opc = 0x230 || op.opc = 0x231 then stepAddr b0 raw else b0) (stepAddr b1 raw) (low32 c.pay)

theorem stepResult_budget (t : Thread) (b : BitVec 128) (op : Op) (raw : Bool) (b0 b1 c : TWord) (ws : List TWord)
    (dst : Option Place) (cnt : Option Nat) : (stepResult t b op raw b0 b1 c ws dst cnt).budget = t.budget - 1 := by
  have hon : ∀ u x y n, (runsOn u b x y n).budget = u.budget - 1 := fun u _ _ _ => congrArg (· - 1) u.settle_budget
  have hends : ∀ u ws, (runEnds u ws).budget = u.budget - 1 := fun u ws => by
    rw [runEnds, Thread.advance_budget, Thread.write_budget]
    exact congrArg (· - 1) u.settle_budget
  unfold stepResult
  split
  · rw [hends, stepThread_budget]
  · rw [hon, stepThread_budget]

/-- The step with its units read, where its store finds room. -/
theorem State.stepGo_eq {s : State} {th : Nat} {t : Thread} (b : BitVec 128) {op : Op} {raw : Bool} (b0 b1 c : TWord)
    (ws : List TWord) (dst : Option Place) (cnt : Option Nat) (hroom : t.sbuf.length < 32) :
    s.stepGo th t b op raw (b0, b1, c) ws dst cnt = s.setTh th (stepResult t b op raw b0 b1 c ws dst cnt) := by
  have hfold : ∀ w : TWord, (if raw then (⟨tagBytes, w.pay⟩ : TWord) else w) = unitWord raw w := fun _ => rfl
  have hvalue : unitWord raw (if op.opc = 0x230 then (ws.map (unitWord raw)).getD 0 TWord.unset else b0)
      = stepValue op.opc raw b0 ws := by
    unfold stepValue
    split
    · cases ws with
      | nil => rfl
      | cons w ws => exact unitWord_idem raw w
    · rfl
  have hbuffer : ∀ e, s.buffer th t e = (s, { t with sbuf := t.sbuf ++ [e] }) := fun e => by
    simp [State.buffer, Nat.not_le.2 hroom]
  simp only [State.stepGo, stepResult, stepThread, stepWrote, hfold, hvalue]
  generalize stepValue op.opc raw b0 ws = w
  generalize stepEnd op raw (low32 c.pay) (ws.map (unitWord raw)) b0 = ends
  cases dst with
  | none => cases ends <;> rfl
  | some p =>
    cases hstore : stepStore p raw w with
    | none => cases ends <;> simp only [hstore] <;> rfl
    | some e => cases ends <;> simp only [hstore, hbuffer] <;> rfl

/-- The count word that the end of CMPB or SCNB writes. -/
def stepCount (opc : Nat) (srcs : List Src) : Option Nat :=
  match srcs with
  | [_, _, .frame n] => if opc = 0x231 || opc = 0x232 then some n else none
  | _ => none

theorem stepCount_none {opc : Nat} (hopc : opc ≠ 0x231 ∧ opc ≠ 0x232) (srcs : List Src) : stepCount opc srcs = none := by
  unfold stepCount
  split
  · simp [hopc]
  · rfl

theorem chkAll_ok {α : Type} {l : List α} {f : α → Chk Unit} (h : ∀ a ∈ l, f a = .ok ()) : chkAll l f = .ok () := by
  induction l with
  | nil => rfl
  | cons a l ih => simp [chkAll, h a (by simp), ih fun x hx => h x (by simp [hx])]

/-- A step whose units can be read, and whose store finds room, goes. -/
theorem State.blockStep_reads {s : State} {th : Nat} {t : Thread} (b : BitVec 128) {op : Op} {srcs : List Src}
    {r : TWord × TWord × TWord} {ps : List Place} {ws : List TWord} {fuel : Nat}
    (hrun : t.run (s.env t) op srcs = .ok r) (hleft : low32 r.2.2.pay ≠ 0)
    (hplaces : chkMap (stepUnits op.opc) (fun u => unitPlace (s.segsOf t.stb) (if u.1 = 0 then r.1 else r.2.1)
      (op.modN % 2 = 1) u.2) = .ok ps)
    (hread : (((stepUnits op.opc).zip ps).filter fun u => !u.1.2).map
      (fun u => s.unit t (s.env t) u.1.1 u.2 (op.modN % 2 = 1)) = ws.map .val)
    (htags : ∀ w ∈ ws, tagCheck anyTag w = .ok ()) (hroom : t.sbuf.length < 32) :
    State.blockStep (fuel + 1) s th t b op srcs = s.stepGo th t b op (op.modN % 2 = 1) r ws
      ((((stepUnits op.opc).zip ps).find? fun u => u.1.2).map (·.2)) (stepCount op.opc srcs) := by
  have hfound : ∀ g, (∀ w, UnitGot.val w ≠ g) → (ws.map UnitGot.val).contains g = false := fun g hg => by
    simpa using fun w _ => hg w
  have hnone : ((((stepUnits op.opc).zip ps).filter fun u => !u.1.2).zip (ws.map UnitGot.val)).find? (fun u => u.2.word.isNone)
      = none := by
    refine List.find?_eq_none.2 fun u hu => ?_
    obtain ⟨w, -, hw⟩ := List.mem_map.1 (List.of_mem_zip hu).2
    simp [← hw, UnitGot.word]
  have hwords : (ws.map UnitGot.val).filterMap UnitGot.word = ws := by
    simp [List.filterMap_map, Function.comp_def, UnitGot.word]
  have hchecks : chkAll ws (tagCheck anyTag) = .ok () := chkAll_ok htags
  have hsegs : (s.env t).segs = s.segsOf t.stb := rfl
  simp only [State.blockStep, hrun, hsegs, hplaces, hread, hleft, if_false,
    hfound .fail (by simp), hfound .pend (by simp), hfound .commit (by simp), Bool.false_eq_true, hnone, hwords, hchecks]
  simp only [Nat.not_le.2 hroom, decide_false, Bool.false_and, Bool.false_eq_true, if_false]
  rfl

/-- The row of a block repeat whose units can be read, and whose store finds room. -/
theorem State.opRow_step {s : State} {th : Nat} {t : Thread} {b : BitVec 128} {op : Op} {opc : Nat} {srcs : List Src}
    {b0 b1 c : TWord} {ps : List Place} {ws : List TWord} {raw : Bool} {dst : Option Place} (hopc : 0x230 ≤ opc ∧ opc ≤ 0x233)
    (hraw : raw = decide (op.modN % 2 = 1)) (hroom : t.sbuf.length < 32) (h : Steps s th t b op opc srcs (b0, b1, c) ps)
    (hread : (((stepUnits opc).zip ps).filter fun u => !u.1.2).map (fun u => s.unit t (s.env t) u.1.1 u.2 raw) = ws.map .val)
    (htags : ∀ w ∈ ws, tagCheck anyTag w = .ok ())
    (hdst : (((stepUnits opc).zip ps).find? fun u => u.1.2).map (·.2) = dst) :
    s.opRow th [] (opIs opc) = .next ((s.setTh th (stepResult t b op raw b0 b1 c ws dst (stepCount opc srcs))).noteIssue th
      (s.routine t b)) := by
  obtain ⟨hlong, hrun, hleft, hplaces⟩ := h
  obtain rfl : op.opc = opc := hlong.2.1
  subst hraw hdst
  refine State.opRow_sets hlong ?_ (stepResult_budget _ _ _ _ _ _ _ _ _ _)
  rw [State.issueLong_block hopc hlong, State.blockStep_reads b hrun hleft hplaces hread htags hroom,
    State.stepGo_eq b b0 b1 c ws _ _ hroom]

/-! ## How a step ends its run (R256, R258) -/

section
variable {op : Op} {raw : Bool} {b0 : TWord} {n : Nat} {us : List TWord}

theorem stepEnd_count (h : op.opc = 0x230 ∨ op.opc = 0x233) :
    stepEnd op raw n us b0 = if n = 1 then some (0, 0) else none := by
  rcases h with h | h <;> simp [stepEnd, h]

theorem stepEnd_compare {x y : TWord} (h : op.opc = 0x231) : stepEnd op raw n [x, y] b0
    = if x ≠ y then some (n, ccUnits x y) else if n = 1 then some (0, mkCC false true false false) else none := by
  simp [stepEnd, h]

/-- SCNB, unless MOD asks for the first unit that does not match. -/
theorem stepEnd_scan {w : TWord} (h : op.opc = 0x232) (hmod : op.modN % 4 < 2) : stepEnd op raw n [unitWord raw w] b0
    = if (if raw then w.pay = b0.pay else w = b0) then some (n, mkCC false true false false)
      else if n = 1 then some (0, 0) else none := by
  cases raw <;> simp [stepEnd, h, Nat.not_le.2 hmod, unitWord]

end

end Sys2Proof.Machine

open Sys2Proof.Machine Sys2Proof.Safety in
/-- Settles O32: RPT is one of its three ways (`State.issueLong_rpt`); a step of a block repeat leaves its thread as `stepResult`
says, and `stepEnd` says for each operation whether the run goes on. -/
theorem repeatedOperations : Obligations.RepeatedOperations := by
  unfold Obligations.RepeatedOperations
  refine ⟨fun s th t b op a p n h hchecks hcount => ⟨fun hn => ?none, fun hn hmay => ?starts, fun hn hmod => ?illegal⟩,
    fun s th t b op x y z b0 b1 c raw n hraw hn hroom => ⟨fun p q w h hread => ?movb, fun q h => ?filb,
      fun k p q w u hz h hw hu => ?cmpb, fun k p w hit hz h hw hhit hmod => ?scnb⟩⟩
  case none =>
    refine State.opRow_sets h ?_ (stepped_budget t)
    rw [State.issueLong_rpt h hchecks hcount, if_neg (by simp [hn]), if_pos hn]
  case starts =>
    refine State.opRow_sets h ?_ (stepped_budget t)
    rw [State.issueLong_rpt h hchecks hcount, if_neg (by omega), if_neg hn]
  case illegal =>
    refine State.opRow_checks h ?_
    rw [State.issueLong_rpt h hchecks hcount, if_pos (by omega)]
  case movb =>
    obtain ⟨hval, htag⟩ := hread
    have hopc : op.opc = 0x230 := h.1.2.1
    have hrow := State.opRow_step (ws := [w]) (by decide) hraw hroom h (by simp [stepUnits, hval]) (by simpa using htag) rfl
    rw [stepResult, stepEnd_count (.inl hopc), stepValue, hopc, ← hn, stepCount_none (by decide)] at hrow
    refine ⟨fun hmore => ?_, fun hlast => ?_⟩
    · rw [if_neg hmore] at hrow
      exact hrow
    · rw [if_pos hlast] at hrow
      exact hrow
  case filb =>
    have hopc : op.opc = 0x233 := h.1.2.1
    have hrow := State.opRow_step (ws := []) (by decide) hraw hroom h (by simp [stepUnits]) (by simp) rfl
    rw [stepResult, stepEnd_count (.inr hopc), stepValue, hopc, ← hn, stepCount_none (by decide)] at hrow
    refine ⟨fun hmore => ?_, fun hlast => ?_⟩
    · rw [if_neg hmore] at hrow
      exact hrow
    · rw [if_pos hlast] at hrow
      exact hrow
  case cmpb =>
    obtain ⟨hval, htag⟩ := hw
    obtain ⟨hval', htag'⟩ := hu
    have hopc : op.opc = 0x231 := h.1.2.1
    have hrow := State.opRow_step (ws := [w, u]) (by decide) hraw hroom h (by simp [stepUnits, hval, hval'])
      (by simpa using ⟨htag, htag'⟩) rfl
    rw [stepResult, List.map_cons, List.map_cons, List.map_nil, stepEnd_compare hopc, hopc, ← hn, hz] at hrow
    refine ⟨fun heq hmore => ?_, fun heq hlast => ?_, fun hne => ?_⟩
    · rw [if_neg (not_not.2 heq), if_neg hmore] at hrow
      exact hrow
    · rw [if_neg (not_not.2 heq), if_pos hlast] at hrow
      exact hrow
    · rw [if_pos hne] at hrow
      exact hrow
  case scnb =>
    obtain ⟨hval, htag⟩ := hw
    have hopc : op.opc = 0x232 := h.1.2.1
    have hrow := State.opRow_step (ws := [w]) (by decide) hraw hroom h (by simp [stepUnits, hval]) (by simpa using htag) rfl
    rw [stepResult, List.map_singleton, stepEnd_scan hopc hmod, hopc, ← hn, hz] at hrow
    refine ⟨fun hmiss hmore => ?_, fun hmiss hlast => ?_, fun hmatch => ?_⟩
    · rw [if_neg (mt hhit.2 hmiss), if_neg hmore] at hrow
      exact hrow
    · rw [if_neg (mt hhit.2 hmiss), if_pos hlast] at hrow
      exact hrow
    · rw [if_pos (hhit.1 hmatch)] at hrow
      exact hrow

/-! # Atomics (O34)

TAS and SCS are commit points with an effect of their own: the thread that comes out of the commit point takes the result, and the
valid record with it. -/

namespace Sys2Proof.Machine

open Sys2Proof.Safety

/-! ## A commit point with an effect of its own (R224, R226) -/

theorem AMap.get?_upd {α : Type} (m : AMap α) (k : Nat) (f : α → α) :
    AMap.get? (AMap.upd m k f) k = (AMap.get? m k).map f := by
  unfold AMap.upd
  split
  · next h => rw [h, Option.map_none]
  · next h => rw [AMap.get?_put_same, h, Option.map_some]

/-- The thread that comes out of a commit point has an empty store buffer; a reservation of its own may have gone. -/
theorem State.commitFor_th? (s : State) (th : Nat) (u : Thread) (e : CkEffect) :
    ∃ r, (s.commitFor th u e).th? th = some { u with sbuf := [], since := 0, resv := r } := by
  have hput : ((s.setTh th { u with sbuf := [], since := 0 }).record_ th
      ⟨{ u with sbuf := [], since := 0 }, u.sbuf, e, false⟩).th? th = some { u with sbuf := [], since := 0 } :=
    AMap.get?_put_same _ _ _
  exact State.releaseStores_th? u.sch u.sbuf hput

theorem State.commitFor_budget {s : State} {th : Nat} {t u : Thread} {e : CkEffect}
    (h : (s.commitFor th t e).th? th = some u) : u.budget = t.budget := by
  obtain ⟨r, hr⟩ := s.commitFor_th? th t e
  obtain rfl := Option.some.inj (h.symm.trans hr)
  rfl

/-- The write of an atomic leaves the BUDGET that its commit point left. -/
theorem State.gsWrite_commitFor_budget {s : State} {th w : Nat} {v : TWord} {t u : Thread} {e : CkEffect}
    (h : ((s.commitFor th t e).gsWrite w v).th? th = some u) : u.budget = t.budget := by
  obtain ⟨r, hr⟩ := s.commitFor_th? th t e
  obtain ⟨r', hr'⟩ := State.gsWrite_th? w v hr
  obtain rfl := Option.some.inj (h.symm.trans hr')
  rfl

theorem State.effectDone_th? (s : State) (th : Nat) (t : Thread) : (s.effectDone th t).th? th = some t :=
  s.setTh_th? th t

/-- The valid record of a commit point takes the thread that its effect leaves, and is done. -/
theorem State.effectDone_record (s : State) (th : Nat) (t : Thread) :
    (AMap.get? (s.effectDone th t).sx.ckpt th).bind CkPair.rec_
      = ((AMap.get? s.sx.ckpt th).bind CkPair.rec_).map fun k => { k with th := t, done := true } := by
  have hckpt : (s.effectDone th t).sx.ckpt = AMap.upd s.sx.ckpt th fun p =>
      if p.valid then { p with rec1 := p.rec1.map fun c => { c with th := t, done := true } }
      else { p with rec0 := p.rec0.map fun c => { c with th := t, done := true } } := rfl
  rw [hckpt, AMap.get?_upd]
  cases AMap.get? s.sx.ckpt th with
  | none => rfl
  | some p => cases hvalid : p.valid <;> simp [CkPair.rec_, hvalid]

/-! ## TAS and SCS (R260 to R262) -/

theorem tasWord_plain {k : BitVec 4} (hunset : k ≠ tagUnset) (hpoison : k ≠ tagPoison) (v : Word) :
    tasWord ⟨k, v⟩ = (intW (v ||| 1), intW v, mkCC false (!v.getLsbD 0) false false) := by
  simp [tasWord, hunset, hpoison]

theorem tasWord_poison (v : Word) : tasWord ⟨tagPoison, v⟩ = (⟨tagPoison, v⟩, ⟨tagPoison, v⟩, 0) := by simp [tasWord]

theorem State.issueLong_atomic (s : State) (th : Nat) (t : Thread) (b : BitVec 128) {op : Op}
    (h : op.opc = 0x240 ∨ op.opc = 0x242) : s.issueLong th t b op = s.opAtomic th t op := by
  unfold State.issueLong
  dsimp only
  rw [if_neg (by simp; omega), if_neg (by simp; omega), if_neg (by omega), if_neg (by simp; omega), if_pos (by simpa using h)]

section
variable {s c : State} {th : Nat} {t u : Thread} {b : BitVec 128} {op : Op} {m : Src} {g : Seg} {off : Nat}
  (hrelease : s.canRelease t.sch t.sbuf)
include hrelease

/-- TAS writes its word after the commit point, and delivers what it found and CC. -/
theorem State.issueLong_tas {d : Nat} {r : TWord × TWord × BitVec 4} (h : LongOp s th t b op 0x240 [.frame d, m])
    (hchecks : operandChecks (s.env t) 8 [useDst (.frame d), ⟨m, false, true, true, anyTag⟩] = .ok [.frame d, .mem g off])
    (hc : c = s.commitFor th (stepped t) (.tas (g.word off))) (hr : r = tasWord (c.gsRead (g.word off)))
    (hu : (c.gsWrite (g.word off) r.1).th? th = some u) :
    s.issueLong th t b op = (c.gsWrite (g.word off) r.1).effectDone th { u with
      pend := u.pend ++ [⟨.frame d, r.2.1, t.issue + 2⟩, ⟨.cc, ⟨tagUnset, r.2.2.setWidth 64⟩, t.issue + 2⟩] } := by
  obtain ⟨-, hopc, hstatic, hsrcs⟩ := h
  subst hr hc
  rw [s.issueLong_atomic th t b (.inl hopc), State.opAtomic, s.checked_passes th _ hstatic hsrcs]
  simp only [stepped] at hu ⊢
  simp [hopc, hchecks, hrelease, hu]

/-- SCS writes its value after the commit point where the reservation stands, says in Z whether it did, and ends the
reservation. -/
theorem State.issueLong_scs {a : Src} {p : Place} {ok : Bool} {v : Thread} (h : LongOp s th t b op 0x242 [m, a])
    (hchecks : operandChecks (s.env t) 8 [⟨m, false, false, true, anyTag⟩, useSrc a anyTag] = .ok [.mem g off, p])
    (hc : c = s.commitFor th (stepped t) (.scs (g.word off))) (hu : c.th? th = some u)
    (hok : ok = decide (u.resv = some (g.word off)))
    (hv : (if ok then c.gsWrite (g.word off) ((s.env t).at_ p) else c).th? th = some v) :
    s.issueLong th t b op = (if ok then c.gsWrite (g.word off) ((s.env t).at_ p) else c).effectDone th { v with
      resv := none, pend := v.pend ++ [⟨.cc, ⟨tagUnset, (mkCC false ok false false).setWidth 64⟩, t.issue + 2⟩] } := by
  obtain ⟨-, hopc, hstatic, hsrcs⟩ := h
  subst hc hok
  rw [s.issueLong_atomic th t b (.inr hopc), State.opAtomic, s.checked_passes th _ hstatic hsrcs]
  simp only [stepped] at hu hv ⊢
  simp only [decide_eq_true_eq] at hv
  simp [hopc, hchecks, hrelease, hu, hv]

end

end Sys2Proof.Machine

open Sys2Proof.Machine Sys2Proof.Safety in
/-- Settles O34: each row is the issue of its atomic (`State.issueLong_tas`, `State.issueLong_scs`), which it notes, since the thread
of the commit point has spent a bundle; the record is `State.effectDone_record`. -/
theorem atomics : Obligations.Atomics := by
  unfold Obligations.Atomics
  refine ⟨fun v => ⟨rfl, fun k hunset hpoison => tasWord_plain hunset hpoison v, tasWord_poison v⟩,
    fun s c th t u b op m g off hrelease => ⟨fun d r h hchecks hc hr hu => ?tas,
      fun a p h hchecks hc hu => ⟨fun hresv v hv => ?scsWrites, fun hresv => ?scsFails⟩, s.effectDone_record th u⟩⟩
  case tas =>
    have hbudget : u.budget = t.budget - 1 := (State.gsWrite_commitFor_budget (hc ▸ hu)).trans (stepped_budget t)
    exact State.opRow_issues h (State.issueLong_tas hrelease h hchecks hc hr hu) (State.effectDone_th? _ _ _) hbudget
  case scsWrites =>
    have hbudget : v.budget = t.budget - 1 := (State.gsWrite_commitFor_budget (hc ▸ hv)).trans (stepped_budget t)
    exact State.opRow_issues h (State.issueLong_scs (ok := true) hrelease h hchecks hc hu (by simp [hresv]) hv)
      (State.effectDone_th? _ _ _) hbudget
  case scsFails =>
    have hbudget : u.budget = t.budget - 1 := (State.commitFor_budget (hc ▸ hu)).trans (stepped_budget t)
    exact State.opRow_issues h (State.issueLong_scs (ok := false) hrelease h hchecks hc hu (by simp [hresv]) hu)
      (State.effectDone_th? _ _ _) hbudget

/-! # MOVE, NEG, comparisons, tags, conversions and addresses (O28)

A slot whose checks pass is its operation on the words of its sources, whatever their number: it writes its destination, or CC
alone. What remains is what each operation computes, SEGADDR with the one check that is its own. -/

namespace Sys2Proof.Machine

open Sys2Proof.Safety

/-! ## A data operation on any sources (R234, R237) -/

/-- The operations that write a destination, and those that write CC alone or nothing. -/
def wordOpcs : List Nat := [0x008, 0x014, 0x023, 0x024, 0x025, 0x026, 0x027, 0x028, 0x210, 0x211]
def bareOpcs : List Nat := [0x000, 0x020, 0x021, 0x022]

theorem Op.info_or {op : Op} {i : OpInfo} (h : op.info = some i) : (shortInfo op.opc).or (longInfo op.opc) = some i := by
  unfold Op.info at h
  split at h
  · next hshort => rwa [hshort, Option.some_or]
  · next hshort =>
    rw [hshort, Option.none_or]
    exact (Option.ite_none_right_eq_some.1 h).2

theorem Op.info_word {op : Op} {i : OpInfo} (h : op.info = some i) (hopc : op.opc ∈ wordOpcs) :
    i.roles.head? = some .dst ∧ i.kind = .plain := by
  have htable : ∀ k ∈ wordOpcs, ((shortInfo k).or (longInfo k)).all fun i => i.roles.head? = some .dst && i.kind = .plain := by
    decide
  simpa [Op.info_or h] using htable _ hopc

theorem Op.info_bare {op : Op} {i : OpInfo} (h : op.info = some i) (hopc : op.opc ∈ bareOpcs) :
    i.roles.head? ≠ some .dst ∧ i.kind = .plain := by
  have htable : ∀ k ∈ bareOpcs, ((shortInfo k).or (longInfo k)).all fun i => i.roles.head? ≠ some .dst && i.kind = .plain := by
    decide
  simpa [Op.info_or h] using htable _ hopc

theorem slotPlaces_info {v : Env} {op : Op} {ps : List Place} (h : slotPlaces v op = .ok ps) : ∃ i, op.info = some i := by
  unfold slotPlaces at h
  split at h
  · simp at h
  · exact ⟨_, ‹_›⟩

/-- The places of a slot without a destination are those of its sources. -/
theorem slotPlaces_bare {v : Env} {op : Op} {i : OpInfo} {ps : List Place} (hinfo : op.info = some i)
    (hhead : i.roles.head? ≠ some .dst) (h : slotPlaces v op = .ok ps) :
    ∃ srcs, op.operands i = some srcs ∧ operandChecks v 8 (srcUses v op.opc srcs) = .ok ps := by
  simp only [slotPlaces, hinfo] at h
  split at h
  · simp at h
  · next srcs hsrcs =>
    rw [splitDst, if_neg hhead] at h
    exact ⟨srcs, hsrcs, h⟩

/-- The word of a source, UNSET where the operation has none. -/
def Env.source (v : Env) (ps : List Place) (n : Nat) : TWord := (ps.map v.at_).getD n TWord.unset

/-- What a data operation with this destination, if any, makes of its result. -/
def dataOut (p : Option Place) (r : Alu) : SlotOut :=
  ⟨((p.bind fun q => r.res.map q.result).getD []) ++ ccResult r.cc, none, false⟩

section
variable {v : Env} {f : TWord → TWord → Chk Alu} {us : List Use} {ps : List Place}

theorem evalData_dst {d : Src} {p : Place} (hchecks : operandChecks v 8 (useDst d :: us) = .ok (p :: ps)) :
    evalData v (some d) f us = (f (v.source ps 0) (v.source ps 1)).map (dataOut (some p)) := by
  simp only [evalData, List.singleton_append, hchecks, Option.isSome_some, if_true, List.tail_cons, Env.source]
  cases f ((ps.map v.at_).getD 0 TWord.unset) ((ps.map v.at_).getD 1 TWord.unset) with
  | error e => rfl
  | ok r =>
    obtain ⟨res, cc⟩ := r
    cases res <;> rfl

theorem evalData_bare (hchecks : operandChecks v 8 us = .ok ps) :
    evalData v none f us = (f (v.source ps 0) (v.source ps 1)).map (dataOut none) := by
  simp only [evalData, List.nil_append, hchecks, Option.isSome_none, Bool.false_eq_true, if_false, Env.source]
  cases f ((ps.map v.at_).getD 0 TWord.unset) ((ps.map v.at_).getD 1 TWord.unset) with
  | error e => rfl
  | ok r =>
    obtain ⟨res, cc⟩ := r
    cases res <;> rfl

end

section
variable {s : State} {t : Thread} {op : Op} {opc : Nat} {p : Place} {ps : List Place}

/-- A slot of an ordinary operation is its evaluation on its operands. -/
theorem State.slot_data {i : OpInfo} {srcs : List Src} (hstatic : op.static t.delay t.rptAct none = 0) (hopc : op.opc < 0x7C0)
    (hinfo : op.info = some i) (hkind : i.kind = .plain) (hsrcs : op.operands i = some srcs) :
    s.slot t (s.env t) op
      = evalData (s.env t) (splitDst i srcs).1 (alu (s.env t) op) (srcUses (s.env t) op.opc (splitDst i srcs).2) := by
  simp [State.slot, evalSlot, Op.customer_of_lt hopc, hstatic, hinfo, hsrcs, hkind]

/-- A slot that names a destination performs its operation on the words of its sources. -/
theorem State.slot_dst (hmem : opc ∈ wordOpcs) (hopc : op.opc = opc) (h : Slot s t op (p :: ps)) :
    s.slot t (s.env t) op
      = (alu (s.env t) op ((s.env t).source ps 0) ((s.env t).source ps 1)).map (dataOut (some p)) := by
  subst hopc
  obtain ⟨hstatic, hplaces⟩ := h
  obtain ⟨i, hinfo⟩ := slotPlaces_info hplaces
  obtain ⟨hhead, hkind⟩ := Op.info_word hinfo hmem
  obtain ⟨d, srcs, hsrcs, hchecks⟩ := slotPlaces_dst hinfo hhead hplaces
  have hlt : op.opc < 0x7C0 := (by decide : ∀ k ∈ wordOpcs, k < 0x7C0) _ hmem
  rw [State.slot_data hstatic hlt hinfo hkind hsrcs, splitDst, if_pos hhead]
  exact evalData_dst hchecks

theorem State.slot_word {w : TWord} {cc : Option (BitVec 4)} (hmem : opc ∈ wordOpcs) (hopc : op.opc = opc)
    (h : Slot s t op (p :: ps))
    (halu : alu (s.env t) op ((s.env t).source ps 0) ((s.env t).source ps 1) = .ok ⟨some w, cc⟩) :
    s.slot t (s.env t) op = sets p w cc := by
  rw [State.slot_dst hmem hopc h, halu]
  rfl

/-- A slot without a destination leaves CC alone. -/
theorem State.slot_bare {cc : Option (BitVec 4)} (hmem : opc ∈ bareOpcs) (hopc : op.opc = opc) (h : Slot s t op ps)
    (halu : alu (s.env t) op ((s.env t).source ps 0) ((s.env t).source ps 1) = .ok ⟨none, cc⟩) :
    s.slot t (s.env t) op = .ok ⟨ccResult cc, none, false⟩ := by
  subst hopc
  obtain ⟨hstatic, hplaces⟩ := h
  obtain ⟨i, hinfo⟩ := slotPlaces_info hplaces
  obtain ⟨hhead, hkind⟩ := Op.info_bare hinfo hmem
  obtain ⟨srcs, hsrcs, hchecks⟩ := slotPlaces_bare hinfo hhead hplaces
  have hlt : op.opc < 0x7C0 := (by decide : ∀ k ∈ bareOpcs, k < 0x7C0) _ hmem
  rw [State.slot_data hstatic hlt hinfo hkind hsrcs, splitDst, if_neg hhead]
  refine (evalData_bare hchecks).trans ?_
  rw [halu]
  rfl

end

/-! ## Differences and comparisons (R236, R238, R240) -/

/-- The flags of a difference: Z that the words are equal, C the borrow, V that the true difference does not fit. -/
theorem sub64_cc (x y : Word) : (sub64 x y).2
    = mkCC (x - y).msb (x = y) (x.toNat < y.toNat) ((x - y).toInt ≠ x.toInt - y.toInt) := by
  rw [← sub_overflow, ← decide_eq_decide.2 (sub_eq_zero (a := x) (b := y))]
  rfl

/-- The one word whose negation does not fit is the most negative one. -/
theorem neg_overflow (x : Word) : (-x).toInt ≠ -x.toInt ↔ x = BitVec.intMin 64 := by
  have hmin : x.toInt = -(2 ^ 63) ↔ x = BitVec.intMin 64 := BitVec.toInt_inj (y := BitVec.intMin 64)
  have hle := x.le_toInt
  have hlt := x.toInt_lt
  rw [BitVec.toInt_neg, bmod_word_ne_iff, ← hmin]
  omega

theorem aluNeg_int (x : Word) : aluNeg (intW x)
    = aluSet (intW (-x)) (mkCC (-x).msb (x = 0) (x ≠ 0) (x = BitVec.intMin 64)) := by
  have hborrow : (0 : Word).toNat < x.toNat ↔ x ≠ 0 := by
    rw [← BitVec.toNat_inj.ne]
    exact Nat.pos_iff_ne_zero
  have hv : (0 - x).toInt ≠ (0 : Word).toInt - x.toInt ↔ x = BitVec.intMin 64 := by
    simpa using neg_overflow x
  have hcc := sub64_cc 0 x
  rw [decide_eq_decide.2 hborrow, decide_eq_decide.2 hv, decide_eq_decide.2 (eq_comm (a := (0 : Word))), zero_sub] at hcc
  rw [← hcc, ← zero_sub]
  rfl

theorem aluCmp_int (x y : Word) : aluCmp (intW x) (intW y)
    = .ok ⟨none, some (mkCC (x - y).msb (x = y) (x.toNat < y.toNat) ((x - y).toInt ≠ x.toInt - y.toInt))⟩ := by
  rw [← sub64_cc]
  rfl

/-! ## Tags, conversions and extraction (R241) -/

theorem aluGtag_eq (w : TWord) : aluGtag w = aluSet (intW (w.tag.setWidth 64)) (mkCC false (w.tag = 0) false false) := by
  have hcc : ∀ k : BitVec 4, ccOf (intW (k.setWidth 64)) false false = mkCC false (k = 0) false false := by decide
  exact congrArg (aluSet _) (hcc w.tag)

theorem aluCvt_count (x : Word) : aluCvt 2 (intW x) = aluSet ⟨tagCount, (x.setWidth 32).setWidth 64⟩
    (mkCC false (x.setWidth 32 = 0) false (x.toInt < 0 || 2 ^ 32 ≤ x.toInt)) := by
  have hlow : countW x.toNat = countW (x.setWidth 32).toNat := countW_congr (BitVec.toNat_setWidth ..).symm
  rw [← countW_toNat, ← ccOf_countW, ← hlow]
  rfl

theorem aluOffs_addr {k : BitVec 4} (hk : isAddr k) (x : Word) : aluOffs ⟨k, x⟩
    = aluSet (intW ((x.setWidth 48).setWidth 64)) (mkCC false (x.setWidth 48 = 0) false false) := by
  have hoff : BitVec.ofNat 64 (x.toNat % 2 ^ 48) = (x.setWidth 48).setWidth 64 := by
    rw [← BitVec.toNat_setWidth, BitVec.ofNat_toNat]
  have hzero : x.toNat % 2 ^ 48 = 0 ↔ x.setWidth 48 = 0 := by
    rw [← BitVec.toNat_setWidth]
    exact BitVec.toNat_inj (y := 0)
  simp only [aluOffs, hk, hoff, decide_eq_decide.2 hzero]
  rfl

theorem aluExts_count (x : Word) : aluExts 3 ⟨tagStatus, x⟩
    = aluSet ⟨tagCount, x >>> 32⟩ (mkCC false (x >>> 32 = 0) false false) := by
  have hhigh : countW (bits x.toNat 32 32) = ⟨tagCount, x >>> 32⟩ := by
    refine congrArg (TWord.mk tagCount) (BitVec.eq_of_toNat_eq ?_)
    rw [BitVec.toNat_ushiftRight, Nat.shiftRight_eq_div_pow, BitVec.toNat_ofNat, bits]
    omega
  change aluSet (countW _) (mkCC false (decide ((countW _).pay = 0)) false false) = _
  rw [hhigh]

/-! ## Addresses (R242) -/

/-- The offset that SEGADDR takes from an INT, or from a COUNT. -/
theorem numOf_offset {y : TWord} {b : Word} (h : y = intW b ∨ (b.toNat < 2 ^ 32 ∧ y = ⟨tagCount, b⟩)) :
    isNum y.tag ∧ numOf y = b.toInt := by
  rcases h with rfl | ⟨hb, rfl⟩
  · exact ⟨rfl, rfl⟩
  · refine ⟨rfl, ?_⟩
    change ((b.toNat % 2 ^ 32 : Nat) : Int) = b.toInt
    rw [BitVec.toInt_eq_toNat_cond]
    omega

theorem addrWord_eq {a b : Word} (ha : a.toNat ≤ 7) (hb : b.toNat < 2 ^ 48) :
    BitVec.ofNat 64 (a.toNat * 2 ^ 48 + b.toNat) = a <<< 48 ||| b := by
  apply BitVec.eq_of_toNat_eq
  rw [BitVec.toNat_or, BitVec.toNat_shiftLeft, BitVec.toNat_ofNat, Nat.mod_eq_of_lt (by omega),
    Nat.mod_eq_of_lt (by rw [Nat.shiftLeft_eq]; omega), ← Nat.shiftLeft_add_eq_or_of_lt hb, Nat.shiftLeft_eq]

/-- SEGADDR builds an address, one past the end included, or raises SEGMENT-LIMIT. -/
theorem aluSegaddr_eq {segs : List Seg} {a b : Word} {y : TWord} {g : Seg} (hg : g = segs.getD a.toNat Seg.none)
    (hnum : isNum y.tag) (hoff : numOf y = b.toInt) :
    aluSegaddr segs (intW a) y
      = if 7 < a.toNat ∨ b.toInt < 0 ∨ g.limit = 0 ∨ g.limit.toNat < b.toNat ∨ 2 ^ 48 ≤ b.toNat then .error pcLimit
        else .ok ⟨some ⟨if g.type = 1 then tagHaddr else tagSaddr, a <<< 48 ||| b⟩, none⟩ := by
  have ha := BitVec.toInt_eq_toNat_cond a
  have hb := BitVec.toInt_eq_toNat_cond b
  have htag : (intW a).tag = tagInt := rfl
  have hpay : (intW a).pay = a := rfl
  simp only [aluSegaddr, htag, hpay, hnum, hoff, ne_eq, not_true_eq_false, decide_false, Bool.not_true, Bool.or_self,
    Bool.false_eq_true, if_false, Bool.or_eq_true, decide_eq_true_eq]
  by_cases hrange : a.toNat ≤ 7 ∧ 0 ≤ b.toInt
  · have hak : a.toInt = a.toNat := by omega
    have hbk : b.toInt = b.toNat := by omega
    have hzero : g.limit = 0 ↔ g.limit.toNat = 0 := BitVec.toNat_inj.symm
    simp only [hak, hbk, Int.toNat_natCast, ← hg, hzero]
    refine ite_congr (propext (by omega)) (fun _ => rfl) fun hin => ?_
    rw [addrWord_eq hrange.1 (by omega)]
  · rw [if_pos (by omega), if_pos (by omega)]

end Sys2Proof.Machine

open Sys2Proof Sys2Proof.Machine Sys2Proof.Safety in
/-- Settles O28: a slot whose checks pass is its operation on the words of its sources (`State.slot_dst`, `State.slot_bare`), and one
lemma for each operation says what that computes; SEGADDR is `aluSegaddr_eq`. -/
theorem moveCompareTagsAndAddresses : Obligations.MoveCompareTagsAndAddresses := by
  unfold Obligations.MoveCompareTagsAndAddresses
  refine ⟨fun s t op p pa pb w y => ⟨fun h hw => ?oneSource, fun h hw hy => ?compare, fun h hw hopc htag => ?test,
      fun h => ?noSource, fun h hopc => State.slot_bare (cc := none) (by decide) hopc h (by simp [alu, hopc])⟩,
    fun s t op p pa pb a b h hopc ha hb => ?segaddr⟩
  case oneSource =>
    have hsource : (s.env t).source [pa] 0 = w := hw
    obtain ⟨k, x⟩ := w
    refine ⟨fun hopc => State.slot_word (by decide) hopc h ?_, fun hopc htag => State.slot_word (by decide) hopc h ?_,
      fun hopc => State.slot_word (by decide) hopc h ?_, fun hopc htag hmod => State.slot_word (by decide) hopc h ?_,
      fun hopc htag hmod => State.slot_word (by decide) hopc h ?_, fun hopc haddr => State.slot_word (by decide) hopc h ?_,
      fun hopc htag hmod => State.slot_word (by decide) hopc h ?_⟩
    · simp [alu, hopc, hsource]
    · obtain rfl : k = tagInt := htag
      simp only [alu, hopc, hsource]
      exact aluNeg_int x
    · simp only [alu, hopc, hsource]
      exact aluGtag_eq ⟨k, x⟩
    · obtain rfl : k = tagBytes := htag
      simp only [alu, hopc, hmod, hsource]
      rfl
    · obtain rfl : k = tagInt := htag
      simp only [alu, hopc, hmod, hsource]
      exact aluCvt_count x
    · simp only [alu, hopc, hsource]
      exact aluOffs_addr haddr x
    · obtain rfl : k = tagStatus := htag
      simp only [alu, hopc, hmod, hsource]
      exact aluExts_count x
  case compare =>
    have hfirst : (s.env t).source [pa, pb] 0 = w := hw
    have hsecond : (s.env t).source [pa, pb] 1 = y := hy
    obtain ⟨k, x⟩ := w
    obtain ⟨j, z⟩ := y
    refine ⟨fun hopc hk hj => State.slot_bare (by decide) hopc h ?_, fun hopc => State.slot_bare (by decide) hopc h ?_⟩
    · obtain rfl : k = tagInt := hk
      obtain rfl : j = tagInt := hj
      simp only [alu, hopc, hfirst, hsecond]
      exact aluCmp_int x z
    · simp [alu, hopc, hfirst, hsecond, aluTtag]
  case test =>
    have hsource : (s.env t).source [pa] 0 = w := hw
    obtain ⟨k, x⟩ := w
    obtain rfl : k = tagInt := htag
    refine State.slot_bare (by decide) hopc h ?_
    simp only [alu, hopc, hsource]
    rfl
  case noSource =>
    refine ⟨fun hopc => State.slot_word (by decide) hopc h ?_, fun hopc => State.slot_word (by decide) hopc h ?_,
      fun hopc x hx => State.slot_word (by decide) hopc h ?_⟩
    · simp only [alu, hopc]
      rfl
    · simp only [alu, hopc]
      rfl
    · have hhandle : (s.env t).handle = BitVec.ofNat 64 ((s.ctxOf t.sch).pset + x.dev * 2 ^ 16) := by
        change s.handleOf t.sch = _
        rw [State.handleOf, hx, Option.map_some, Option.getD_some]
      simp [alu, hopc, hhandle]
  case segaddr =>
    obtain ⟨hnum, hoff⟩ := numOf_offset hb
    have halu : alu (s.env t) op ((s.env t).source [pa, pb] 0) ((s.env t).source [pa, pb] 1)
        = aluSegaddr (s.segsOf t.stb) (intW a) ((s.env t).at_ pb) := by
      rw [← ha]
      simp only [alu, hopc]
      rfl
    rw [aluSegaddr_eq rfl hnum hoff] at halu
    refine ⟨fun hseg hpos hlimit hwidth hused => State.slot_word (by decide) hopc h (halu.trans (if_neg (by
        push Not
        exact ⟨hseg, hpos, hused, hlimit, hwidth⟩))),
      fun hout => ?_⟩
    rw [State.slot_dst (by decide) hopc h, halu, if_pos hout]
    rfl

/-! # What Plinth does later or without a request (O49)

A record changes the Almanac and the count of suppressed events alone, so that what Plinth knows of its flash write and of tamper
stands after every record; a reply leaves the request that Plinth serves as it is. -/

namespace Sys2Proof.Machine

open Sys2Proof.Safety

/-! ## What a record leaves of Plinth (R434, R437) -/

/-- Plinth with another Almanac and another count of suppressed events. -/
def State.withRecords (s : State) (a : Almanac) (suppressed : Nat) : State :=
  s.onPl fun p => { p with alm := a, supprCnt := suppressed }

theorem State.record_eq_withRecords (s : State) (type source : Nat) (payload : List Byte) (len : Nat) :
    ∃ a n, s.record type source payload len = s.withRecords a n := by
  unfold State.record
  dsimp only
  split
  · exact ⟨_, _, rfl⟩
  · split
    · exact ⟨_, _, rfl⟩
    · exact ⟨_, _, rfl⟩

@[simp] theorem State.record_link (s : State) (type source : Nat) (payload : List Byte) (len : Nat) :
    (s.record type source payload len).link = s.link := by
  obtain ⟨a, n, h⟩ := s.record_eq_withRecords type source payload len
  rw [h]
  rfl

@[simp] theorem State.record_keepsUpdate (s : State) (type source : Nat) (payload : List Byte) (len : Nat) :
    (s.record type source payload len).pl.job = s.pl.job ∧ (s.record type source payload len).pl.updState = s.pl.updState ∧
    (s.record type source payload len).pl.updResult = s.pl.updResult ∧
    (s.record type source payload len).pl.updProgress = s.pl.updProgress ∧
    (s.record type source payload len).pl.aValid = s.pl.aValid ∧ (s.record type source payload len).pl.bValid = s.pl.bValid := by
  obtain ⟨a, n, h⟩ := s.record_eq_withRecords type source payload len
  rw [h]
  exact ⟨rfl, rfl, rfl, rfl, rfl, rfl⟩

@[simp] theorem State.record_keepsTamper (s : State) (type source : Nat) (payload : List Byte) (len : Nat) :
    (s.record type source payload len).pl.tamper = s.pl.tamper ∧
    (s.record type source payload len).pl.tamperLow = s.pl.tamperLow ∧
    (s.record type source payload len).pl.tamperLock = s.pl.tamperLock ∧
    (s.record type source payload len).pl.tamperEdges = s.pl.tamperEdges := by
  obtain ⟨a, n, h⟩ := s.record_eq_withRecords type source payload len
  rw [h]
  exact ⟨rfl, rfl, rfl, rfl⟩

/-! ## The end of a flash write (R447) -/

@[simp] theorem State.flashEnd_link (s : State) (j : FlashJob) (status : Nat) : (s.flashEnd j status).link = s.link := by
  simp [State.flashEnd, State.flashRecord, State.plRecord]

@[simp] theorem State.flashEnd_job (s : State) (j : FlashJob) (status : Nat) : (s.flashEnd j status).pl.job = none := by
  simp [State.flashEnd, State.flashRecord, State.plRecord]

@[simp] theorem State.flashEnd_keepsTamper (s : State) (j : FlashJob) (status : Nat) :
    (s.flashEnd j status).pl.tamper = s.pl.tamper ∧ (s.flashEnd j status).pl.tamperLow = s.pl.tamperLow ∧
    (s.flashEnd j status).pl.tamperLock = s.pl.tamperLock ∧ (s.flashEnd j status).pl.tamperEdges = s.pl.tamperEdges := by
  simp [State.flashEnd, State.flashRecord, State.plRecord]

/-- A write that succeeds makes its target copy valid. -/
theorem State.flashEnd_ok (s : State) (j : FlashJob) :
    (s.flashEnd j stOk).pl.updState = 5 ∧ (s.flashEnd j stOk).pl.updResult = 0 ∧ (s.flashEnd j stOk).pl.updProgress = j.kib ∧
    (j.target = false → (s.flashEnd j stOk).pl.aValid = true) ∧ (j.target → (s.flashEnd j stOk).pl.bValid = true) := by
  simp +contextual [State.flashEnd, State.flashRecord, State.plRecord, stOk]

/-- A write that fails makes no copy valid. -/
theorem State.flashEnd_failed (s : State) (j : FlashJob) :
    (s.flashEnd j stFlash).pl.updState = 6 ∧ (s.flashEnd j stFlash).pl.updResult = 0xA ∧
    (s.flashEnd j stFlash).pl.aValid = s.pl.aValid ∧ (s.flashEnd j stFlash).pl.bValid = s.pl.bValid := by
  simp [State.flashEnd, State.flashRecord, State.plRecord, stFlash]

theorem exec_flashUpdateEnd {s : State} {j : FlashJob} (ok : Bool) (h : s.pl.job = some j) :
    exec (.flashUpdateEnd ok) s = .next (s.flashEnd j (if ok then stOk else stFlash)) := by
  change execFlashUpdateEnd ok s = _
  rw [execFlashUpdateEnd, h]

/-! ## A reply and the request it answers (R445) -/

@[simp] theorem State.signalNow_pl (s : State) (v : Nat) : (s.signalNow v).pl = s.pl := by
  unfold State.signalNow
  split
  · rfl
  · simp

@[simp] theorem State.signal_req (s : State) (v : Nat) : (s.signal v).pl.req = s.pl.req := by
  unfold State.signal
  dsimp only
  split
  · rfl
  · split
    · rfl
    · simp

@[simp] theorem State.mbEdge_req (before s : State) : (before.mbEdge s).pl.req = s.pl.req :=
  foldl_keeps (·.pl.req) _ (fun t v => by split <;> simp) _ s

@[simp] theorem State.mbSend_req (s : State) (ch : Chan) (bit : Nat) (word : Word) : (s.mbSend ch bit word).pl.req = s.pl.req := by
  unfold State.mbSend
  dsimp only
  rw [State.mbEdge_req]
  split
  · simp
  · cases owedBy ch <;> simp

@[simp] theorem State.reply_req (s : State) (w : Word) (status value : Nat) : (s.reply w status value).pl.req = s.pl.req := by
  unfold State.reply
  dsimp only
  split
  · rfl
  · rw [State.mbSend_req]
    split <;> rfl

/-! ## The end of a decode load (R280 to R282) -/

/-- The other bank is written and becomes active; the bank that was active stays as it is (R280, R281). -/
theorem Sirax.switch_banks (x : Sirax) (l : DecLoad) :
    (if (x.switch l).bank then (x.switch l).bank1 else (x.switch l).bank0) = l.entries ∧
    (if (x.switch l).bank then (x.switch l).bank0 else (x.switch l).bank1) = (if x.bank then x.bank1 else x.bank0) := by
  cases h : x.bank <;> simp [Sirax.switch, h]

/-- The request that waited for the load is answered, and Plinth serves none. -/
def State.loadAnswered (s : State) (w : Word) (status value : Nat) : State :=
  (s.onPl fun p => { p with req := none }).reply w status value

@[simp] theorem State.loadAnswered_sx (s : State) (w : Word) (status value : Nat) : (s.loadAnswered w status value).sx = s.sx := by
  simp [State.loadAnswered]

@[simp] theorem State.loadAnswered_req (s : State) (w : Word) (status value : Nat) : (s.loadAnswered w status value).pl.req = none := by
  simp [State.loadAnswered]

/-- The generation has switched and the load is in the Almanac. -/
def State.switched (s : State) (l : DecLoad) : State := ((s.onSx fun x => x.switch l).decodeRecord 0 l.body).flushAlm

@[simp] theorem State.switched_sx (s : State) (l : DecLoad) : (s.switched l).sx = s.sx.switch l := by
  simp [State.switched]

@[simp] theorem State.decodeRefuse_sx (s : State) (status : Nat) (body : List Byte) :
    (s.decodeRefuse status body).sx = { s.sx with refused := inc16 s.sx.refused, load := none } := by
  simp [State.decodeRefuse]

section
variable {s : State} {l : DecLoad} {w : Word} (hload : s.sx.load = some l) (hreq : s.pl.req = some w)
include hload hreq

theorem exec_generationSwitch_waits (hbusy : s.bankRetired = false) : exec .generationSwitch s = .next s := by
  change execGenerationSwitch s = _
  rw [execGenerationSwitch, hload, hreq]
  simp [hbusy]

theorem exec_generationSwitch_retired (hroom : (s.box .plnHost).full = false) (hretired : s.bankRetired) :
    exec .generationSwitch s = .next ((s.switched l).loadAnswered w stOk (s.switched l).sx.gen.toNat) := by
  change execGenerationSwitch s = _
  rw [execGenerationSwitch, hload, hreq]
  simp only [hretired, hroom]
  rfl

theorem exec_decodeRetireTimeout_due (hroom : (s.box .plnHost).full = false) (hbusy : s.bankRetired = false)
    (hdue : reached s.time l.due) :
    exec .decodeRetireTimeout s = .next ((s.decodeRefuse stRetireTimeout l.body).loadAnswered w stRetireTimeout 0) := by
  change execDecodeRetireTimeout s = _
  rw [execDecodeRetireTimeout, hload, hreq]
  simp only [hbusy, hroom, hdue]
  rfl

end

/-! ## Refused accesses (R417) -/

theorem exec_plinthAccessRefused {s u : State} {n : Nat} (write : Bool) (addr : Word) (hplinth : n ≠ 0) (halmanac : n ≠ 7)
    (hstarted : s.pl.started)
    (hu : u = ({ s with pl := { s.pl with violation := inc16 s.pl.violation } }.event 0 8 2 n 0 addr.toNat 0).irqPl 12) :
    exec (.plinthAccessRefused n write addr) s = .next (if write then u else u.emit (.accessRead n 0)) := by
  change execPlinthAccessRefused n write addr s = _
  subst hu
  rw [execPlinthAccessRefused, if_neg (by simp [hplinth, halmanac, hstarted])]
  rfl

/-! ## Tamper (R449) -/

@[simp] theorem State.tamperRecord_link (s : State) (edge : Nat) : (s.tamperRecord edge).link = s.link := by
  simp [State.tamperRecord, State.plRecord]

@[simp] theorem State.tamperRecord_keepsTamper (s : State) (edge : Nat) :
    (s.tamperRecord edge).pl.tamper = s.pl.tamper ∧ (s.tamperRecord edge).pl.tamperLow = s.pl.tamperLow ∧
    (s.tamperRecord edge).pl.tamperLock = s.pl.tamperLock ∧ (s.tamperRecord edge).pl.tamperEdges = s.pl.tamperEdges := by
  simp [State.tamperRecord, State.plRecord]

@[simp] theorem State.ideFail_sessions (s : State) : s.ideFail.link.sessions = s.link.sessions := by
  simp [State.ideFail, State.event]

@[simp] theorem State.ideFail_keys (s : State) :
    s.ideFail.link.ide.keys = s.link.ide.keys.map fun k => { k with active := false } := by
  simp [State.ideFail, State.event]

@[simp] theorem State.ideFail_keepsTamper (s : State) :
    s.ideFail.pl.tamper = s.pl.tamper ∧ s.ideFail.pl.tamperLow = s.pl.tamperLow ∧
    s.ideFail.pl.tamperLock = s.pl.tamperLock ∧ s.ideFail.pl.tamperEdges = s.pl.tamperEdges := by
  simp [State.ideFail, State.event]

/-- A flash write that runs is abandoned: the last step of the tamper lock. -/
def State.abandonWrite (s : State) : State :=
  match s.pl.job with
  | none => s
  | some j => s.flashEnd j stFlash

@[simp] theorem State.abandonWrite_link (s : State) : s.abandonWrite.link = s.link := by
  unfold State.abandonWrite
  split <;> simp

@[simp] theorem State.abandonWrite_job (s : State) : s.abandonWrite.pl.job = none := by
  unfold State.abandonWrite
  split
  · assumption
  · simp

@[simp] theorem State.abandonWrite_keepsTamper (s : State) :
    s.abandonWrite.pl.tamper = s.pl.tamper ∧ s.abandonWrite.pl.tamperLow = s.pl.tamperLow ∧
    s.abandonWrite.pl.tamperLock = s.pl.tamperLock ∧ s.abandonWrite.pl.tamperEdges = s.pl.tamperEdges := by
  unfold State.abandonWrite
  split <;> simp

/-- The link and Plinth under the tamper lock, before a stream fails or a write is abandoned. -/
def State.locked (s : State) : State :=
  ((s.endSessions).onPl fun p => { p with tamperLock := true }).onLink fun l => { l with ide := { l.ide with keys := [] } }

theorem State.tamperLocks_eq (s : State) :
    s.tamperLocks = (if s.link.ide.secure then s.locked.ideFail else s.locked).abandonWrite := rfl

/-- The tamper lock ends sessions, keys and the flash write. -/
theorem State.tamperLocks_locks (s : State) :
    s.tamperLocks.pl.tamperLock = true ∧ s.tamperLocks.link.sessions = [] ∧ s.tamperLocks.link.ide.keys = [] ∧
    s.tamperLocks.pl.job = none := by
  rw [State.tamperLocks_eq]
  split <;> simp [State.locked, State.endSessions]

@[simp] theorem State.tamperLocks_keepsTamper (s : State) :
    s.tamperLocks.pl.tamper = s.pl.tamper ∧ s.tamperLocks.pl.tamperLow = s.pl.tamperLow ∧
    s.tamperLocks.pl.tamperEdges = s.pl.tamperEdges := by
  rw [State.tamperLocks_eq]
  split <;> simp [State.locked]

/-- An edge of TAMPER_N that falls due for a record has one. -/
def State.recordEdge (s : State) (due : Bool) (edge : Nat) : State := if due then s.tamperRecord edge else s

@[simp] theorem State.recordEdge_link (s : State) (due : Bool) (edge : Nat) : (s.recordEdge due edge).link = s.link := by
  cases due <;> simp [State.recordEdge]

@[simp] theorem State.recordEdge_keepsTamper (s : State) (due : Bool) (edge : Nat) :
    (s.recordEdge due edge).pl.tamper = s.pl.tamper ∧ (s.recordEdge due edge).pl.tamperLow = s.pl.tamperLow ∧
    (s.recordEdge due edge).pl.tamperLock = s.pl.tamperLock ∧
    (s.recordEdge due edge).pl.tamperEdges = s.pl.tamperEdges := by
  cases due <;> simp [State.recordEdge]

/-- The edge to low, before the action that the image asks for. -/
def State.tamperFell (s : State) : State :=
  ((s.onPl fun p => { p with tamperLow := true, tamper := true, tamperEdges := inc16 p.tamperEdges }).irqPl 7).recordEdge
    (!s.pl.tamper || s.edgeDue) 1

/-- The edge to high. -/
def State.tamperRose (s : State) : State :=
  ((s.onPl fun p => { p with tamperLow := false, tamperEdges := inc16 p.tamperEdges }).irqPl 7).recordEdge s.edgeDue 0

theorem exec_tamperAssert {s : State} (hhigh : s.pl.tamperLow = false) (haon : s.pw.aon) :
    exec .tamperAssert s = .next (if s.tamperAction = 0 then s.tamperFell else s.tamperFell.tamperLocks) := by
  change execTamperAssert s = _
  simp only [execTamperAssert, hhigh, haon]
  rfl

theorem exec_tamperRelease {s : State} (hlow : s.pl.tamperLow) : exec .tamperRelease s = .next s.tamperRose := by
  change execTamperRelease s = _
  simp only [execTamperRelease, hlow]
  rfl

theorem State.tamperFell_keeps (s : State) :
    s.tamperFell.pl.tamperLock = s.pl.tamperLock ∧ s.tamperFell.link = s.link := by
  simp [State.tamperFell]

theorem State.tamperFell_notes (s : State) :
    s.tamperFell.pl.tamper = true ∧ s.tamperFell.pl.tamperLow = true ∧ s.tamperFell.pl.tamperEdges = inc16 s.pl.tamperEdges := by
  simp [State.tamperFell]

theorem State.tamperRose_notes (s : State) :
    s.tamperRose.pl.tamperLow = false ∧ s.tamperRose.pl.tamper = s.pl.tamper ∧
    s.tamperRose.pl.tamperEdges = inc16 s.pl.tamperEdges := by
  simp [State.tamperRose]

theorem leads_tamperAssert {s : State} (hhigh : s.pl.tamperLow = false) (haon : s.pw.aon) :
    Leads .tamperAssert s fun t => t.pl.tamper = true ∧ t.pl.tamperLow = true ∧ t.pl.tamperEdges = inc16 s.pl.tamperEdges
      ∧ (s.tamperAction = 0 → t.pl.tamperLock = s.pl.tamperLock ∧ t.link = s.link)
      ∧ (s.tamperAction ≠ 0 → t.pl.tamperLock = true ∧ t.link.sessions = [] ∧ t.link.ide.keys = [] ∧ t.pl.job = none) := by
  refine ⟨_, exec_tamperAssert hhigh haon, ?_⟩
  obtain ⟨htamper, hlow, hedges⟩ := s.tamperFell_notes
  split
  · next hnone => exact ⟨htamper, hlow, hedges, fun _ => s.tamperFell_keeps, fun hsome => absurd hnone hsome⟩
  · next hsome =>
    obtain ⟨hkeptTamper, hkeptLow, hkeptEdges⟩ := s.tamperFell.tamperLocks_keepsTamper
    exact ⟨hkeptTamper.trans htamper, hkeptLow.trans hlow, hkeptEdges.trans hedges, fun hnone => absurd hnone hsome,
      fun _ => s.tamperFell.tamperLocks_locks⟩

end Sys2Proof.Machine

open Sys2Proof.Machine Sys2Proof.Safety in
/-- Settles O49: each event is the branch of its row that its premises choose, and what its records and its reply leave of Plinth is
what `State.record_eq_withRecords` and `State.reply_req` say. -/
theorem plinthEvents : Obligations.PlinthEvents := by
  unfold Obligations.PlinthEvents
  intro s
  refine ⟨fun j hjob => ?writeDone, fun j hjob => ?writeFailed,
    fun l w hload hreq hroom => ⟨fun hretired => ?switch, fun hbusy hdue => ?timeout, exec_generationSwitch_waits hload hreq⟩,
    fun n addr u hplinth halmanac hstarted hu => ⟨exec_plinthAccessRefused true addr hplinth halmanac hstarted hu,
      exec_plinthAccessRefused false addr hplinth halmanac hstarted hu⟩,
    leads_tamperAssert, fun hlow => ⟨_, exec_tamperRelease hlow, s.tamperRose_notes⟩⟩
  case writeDone => exact ⟨_, exec_flashUpdateEnd true hjob, s.flashEnd_job j stOk, s.flashEnd_ok j⟩
  case writeFailed => exact ⟨_, exec_flashUpdateEnd false hjob, s.flashEnd_job j stFlash, s.flashEnd_failed j⟩
  case switch =>
    refine ⟨_, exec_generationSwitch_retired hload hreq hroom hretired, ?_⟩
    obtain ⟨hactive, hother⟩ := s.sx.switch_banks l
    simp only [State.loadAnswered_sx, State.switched_sx]
    exact ⟨rfl, rfl, rfl, rfl, rfl, hactive, hother, State.loadAnswered_req _ _ _ _, rfl⟩
  case timeout =>
    refine ⟨_, exec_decodeRetireTimeout_due hload hreq hroom hbusy hdue, ?_⟩
    simp

/-! # Segments, the banks of a FIFO and its stop state (O22) -/

namespace Sys2Proof.Machine

/-! ## Maps -/

/-- A new key that goes again leaves the map as it was. -/
theorem AMap.del_put_absent {α : Type} {m : AMap α} {k : Nat} (v : α) (h : AMap.get? m k = none) :
    AMap.del (AMap.put m k v) k = m := by
  induction m with
  | nil => simp [AMap.put, AMap.del]
  | cons e m ih =>
    obtain ⟨j, w⟩ := e
    have hj : j ≠ k := by
      rintro rfl
      simp [AMap.get?] at h
    have hm : AMap.get? m k = none := by simpa [AMap.get?, hj] using h
    simp only [AMap.put]
    split
    · simp [AMap.del]
    · simp [hj, hj.symm, AMap.del, ih hm]

/-! ## Lines of the Tally (R396) -/

@[simp] theorem State.record_tally (s : State) (type source : Nat) (payload : List Byte) (len : Nat) :
    (s.record type source payload len).tally = s.tally := by
  obtain ⟨f, hf⟩ := s.record_eq_onPl type source payload len
  rw [hf, State.onPl_tally]

@[simp] theorem State.event_tally (s : State) (source block code a0 a1 a2 a3 : Nat) :
    (s.event source block code a0 a1 a2 a3).tally = s.tally := s.record_tally _ _ _ _

@[simp] theorem State.signal_tally (s : State) (v : Nat) : (s.signal v).tally = s.tally := by
  simp only [State.signal, State.signalNow]
  (repeat' split) <;> simp

/-- A line that fails its check has its mismatch bit set, by this failure or by one before it. -/
theorem State.mismatch_sets {s : State} {line : Nat} (diff : Word) (h : line < s.tally.lines.length) :
    ((s.mismatch line diff).tally.lines.getD line Line4.zero).mism = true := by
  unfold State.mismatch
  dsimp only
  split
  · next hbefore =>
    rw [State.onTally_tally, modAt_getD_same _ _ _ _ h]
    exact hbefore
  · simp only [State.signal_tally, State.irq_frame, State.event_tally, State.onTally_tally]
    rw [modAt_getD_same _ _ _ _ (by simpa using h)]

/-! ## Segments (R290, R292) -/

theorem State.allocSeg_dma (s : State) (n : Nat) (h : HeldSeg) :
    (s.allocSeg n h).dma = { s.dma with segs := AMap.put s.dma.segs n h } := by
  simp [State.allocSeg]

theorem State.segFree_absent {s : State} {n : Nat} (h : s.segFree n) : AMap.get? s.dma.segs n = none := by
  simp only [State.segFree, Bool.and_eq_true, Bool.not_eq_true'] at h
  exact AMap.get?_eq_none_of_has h.2

/-- The owner of a segment frees it. -/
theorem State.releaseSeg_frees {s : State} {n : Nat} {h : HeldSeg} (hseg : AMap.get? s.dma.segs n = some h) :
    (s.releaseSeg n h.owner).dma.segs = AMap.del s.dma.segs n := by
  simp [State.releaseSeg, hseg]

section
variable {s : State} {n : Nat} {o : SegOwner} (hnot : ∀ h, AMap.get? s.dma.segs n = some h → h.owner ≠ o)
include hnot

theorem State.releaseSeg_refused : s.releaseSeg n o
    = ((s.onDma fun x => { x with freeRefused := inc16 x.freeRefused }).event 1 4 1 n 0 0 0).mismatch 2 0 := by
  rw [State.releaseSeg, if_neg]
  simpa [Option.any_eq_true] using hnot

/-- A free of a segment that its owner does not hold is counted, and the segments stay. -/
theorem State.releaseSeg_refused_dma :
    (s.releaseSeg n o).dma = { s.dma with freeRefused := inc16 s.dma.freeRefused } := by
  rw [State.releaseSeg_refused hnot]
  simp

theorem State.releaseSeg_refused_mism (hlines : s.tally.lines.length = 4) :
    ((s.releaseSeg n o).tally.lines.getD 2 Line4.zero).mism = true := by
  rw [State.releaseSeg_refused hnot]
  exact State.mismatch_sets 0 (by simp [hlines])

end

/-! ## Banks (R304, R309) -/

/-- Neither bank holds more than its 128 words. -/
def Banks.fits (b : Banks) : Prop := b.wr ≤ 128 ∧ b.left ≤ 128

theorem Banks.handOver_occ (b : Banks) : b.handOver.occ = b.occ := by
  unfold Banks.handOver
  split
  · next h =>
    obtain ⟨hleft, -⟩ : b.left = 0 ∧ b.wr ≠ 0 := by simpa using h
    simp [Banks.occ, hleft]
  · rfl

theorem Banks.handOver_fits {b : Banks} (h : b.fits) : b.handOver.fits := by
  unfold Banks.handOver
  split
  · exact ⟨Nat.zero_le _, h.1⟩
  · exact h

theorem Banks.handOver_swaps {b : Banks} (hleft : b.left = 0) (hwr : b.wr ≠ 0) : b.handOver = ⟨0, b.wr, !b.bank⟩ :=
  if_pos (by simp [hleft, hwr])

/-- Words that have room fill the writer's bank, and where they go beyond it, the other bank, which is empty. -/
theorem Banks.push_fits {b : Banks} {n : Nat} (h : b.fits) (hroom : n ≤ b.room) :
    (b.push n).occ = b.occ + n ∧ (b.push n).fits := by
  obtain ⟨hwr, hleft⟩ := h
  unfold Banks.push
  rw [Banks.handOver_occ]
  split
  · next hin => exact ⟨by simp only [Banks.occ]; omega, Banks.handOver_fits ⟨hin, hleft⟩⟩
  · next hover =>
    have hempty : b.left = 0 := by
      by_contra hne
      simp only [Banks.room, hne, if_false] at hroom
      omega
    simp only [Banks.room, hempty, if_true] at hroom
    exact ⟨by simp only [Banks.occ]; omega, Banks.handOver_fits ⟨by dsimp only; omega, by dsimp only; omega⟩⟩

/-- Words that are there come from the reader's bank, and where they go beyond it, from the bank that is handed over to it. -/
theorem Banks.pop_fits {b : Banks} {n : Nat} (h : b.fits) (hocc : n ≤ b.occ) : (b.pop n).occ = b.occ - n ∧ (b.pop n).fits := by
  obtain ⟨hwr, hleft⟩ := h
  unfold Banks.pop
  simp only [Banks.occ] at hocc
  split
  · next hin =>
    rw [Banks.handOver_occ]
    exact ⟨by simp only [Banks.occ]; omega, Banks.handOver_fits ⟨hwr, by dsimp only; omega⟩⟩
  · next hover =>
    have hswap : Banks.handOver { b with left := 0 } = ⟨0, b.wr, !b.bank⟩ := Banks.handOver_swaps rfl (by dsimp only; omega)
    rw [hswap, Banks.handOver_occ]
    exact ⟨by simp only [Banks.occ]; omega, Banks.handOver_fits ⟨by dsimp only; omega, by dsimp only; omega⟩⟩

/-! ## The stop state (R311) -/

theorem Fifo.flow_begins {f : Fifo} (hgo : f.stop = false) (hhigh : f.high ≤ f.occ) :
    f.flow = { f with stop := true, stops := inc16 f.stops } := by
  simp [Fifo.flow, hgo, hhigh]

theorem Fifo.flow_goesOn {f : Fifo} (hgo : f.stop = false) (hhigh : f.occ < f.high) : f.flow = f := by
  simp [Fifo.flow, hgo, hhigh]

theorem Fifo.flow_holds {f : Fifo} (hstop : f.stop = true) (hlow : f.low < f.occ) : f.flow = f := by
  simp [Fifo.flow, hstop, hlow]

theorem Fifo.flow_ends {f : Fifo} (hstop : f.stop = true) (hlow : f.occ ≤ f.low) : f.flow = { f with stop := false } := by
  simp [Fifo.flow, hstop, hlow]

end Sys2Proof.Machine

open Sys2Proof.Machine in
/-- Settles O22: a free is granted to the owner of a held segment (`State.releaseSeg_frees`) and refused to all others
(`State.releaseSeg_refused_dma`); the banks keep their bound (`Banks.push_fits`, `Banks.pop_fits`), and the stop state follows OCC by
one of its four branches. -/
theorem segmentsAndFifoBanks : Obligations.SegmentsAndFifoBanks := by
  unfold Obligations.SegmentsAndFifoBanks
  refine ⟨fun s n h o hsorted hfree howner => ?segments, fun b n hwr hleft => ?banks, fun f _ => ?stop⟩
  case segments =>
    have habsent := State.segFree_absent hfree
    have hheld : AMap.get? (s.allocSeg n h).dma.segs n = some h := by rw [State.allocSeg_dma]; exact AMap.get?_put_same _ _ _
    have hfrees : ((s.allocSeg n h).releaseSeg n h.owner).dma.segs = s.dma.segs := by
      rw [State.releaseSeg_frees hheld, State.allocSeg_dma]
      exact AMap.del_put_absent h habsent
    have hkeeps (k : Nat) (hk : k ≠ n) : AMap.get? (s.allocSeg n h).dma.segs k = AMap.get? s.dma.segs k := by
      rw [State.allocSeg_dma]
      exact AMap.get?_put_other _ _ hk
    have hwrong : ∀ g, AMap.get? (s.allocSeg n h).dma.segs n = some g → g.owner ≠ o := by
      rw [hheld]
      rintro _ ⟨rfl⟩
      exact howner.symm
    have hnone : ∀ g, AMap.get? s.dma.segs n = some g → g.owner ≠ o := by simp [habsent]
    have hrefused := State.releaseSeg_refused_dma hwrong
    have hrefusedFree := State.releaseSeg_refused_dma hnone
    rw [State.allocSeg_dma] at hrefused
    exact ⟨hheld, hfrees, hkeeps, by rw [hrefused, State.allocSeg_dma], by rw [hrefused], by rw [hrefusedFree], by rw [hrefusedFree],
      State.releaseSeg_refused_mism hnone⟩
  case banks =>
    refine ⟨Banks.push_fits ⟨hwr, hleft⟩, Banks.pop_fits ⟨hwr, hleft⟩, fun hempty hsome => ?_⟩
    rw [Banks.handOver_swaps hempty hsome]
    exact ⟨rfl, rfl, rfl⟩
  case stop =>
    refine ⟨fun hgo hhigh => ?_, Fifo.flow_goesOn, Fifo.flow_holds, fun hstop hlow => ?_⟩
    · rw [Fifo.flow_begins hgo hhigh]
      exact ⟨rfl, rfl, rfl⟩
    · rw [Fifo.flow_ends hstop hlow]
      exact ⟨rfl, rfl⟩

/-! # Frames through the receive and transmit FIFOs (O23) -/

namespace Sys2Proof.Machine

open Sys2Proof.Safety

/-! ## The words of a frame (R306) -/

theorem bodyWords_length {n : Nat} {bs : List Byte} (h : bs.length ≤ 64 * n) :
    (bodyWords n bs).length = (bs.length + 63) / 64 := by
  induction n generalizing bs with
  | zero =>
    have hnone : bs.length = 0 := by omega
    simp [bodyWords, hnone]
  | succ n ih =>
    unfold bodyWords
    split
    · next hempty => simp [List.isEmpty_iff.1 hempty]
    · next hsome =>
      have hpos : 0 < bs.length := List.length_pos_iff.2 fun he => hsome (by simp [he])
      split
      · rw [List.length_singleton]
        omega
      · rw [List.length_cons, ih (by rw [List.length_drop]; omega), List.length_drop]
        omega

theorem packFrame_length (bs : List Byte) (fstat port : Nat) (time : Time) :
    (packFrame bs fstat port time).length = frameWords bs.length := by
  rw [packFrame, List.length_cons, bodyWords_length (by omega), frameWords, Nat.add_comm]

/-! ## A frame from the lanes (R306 to R309, R313) -/

theorem exec_frameReceive_down {s : State} {quad : Nat} {fr : Frame} (hdown : s.portUp quad fr.port = false) :
    exec (.frameReceive quad fr) s = .next s := by
  change execFrameReceive quad fr s = _
  simp [execFrameReceive, hdown]

section
variable {s : State} {quad : Nat} {fr : Frame} (hup : s.portUp quad fr.port) (hlen : fr.bytes.length ≤ 1152)
include hup hlen

theorem exec_frameReceive_enters (hroom : frameWords fr.bytes.length ≤ (s.fifoOf quad).rxB.room) {fstat : Nat}
    (hfstat : fstat = (if fr.crcBad then 1 else if fr.cut then 2 else 0)) :
    exec (.frameReceive quad fr) s = .next ((s.touchConn (4096 * quad + fr.idx)).onFifo quad fun f => { f with
      rxB := f.rxB.push (frameWords fr.bytes.length),
      rx := f.rx ++ [⟨fr, packFrame fr.bytes fstat fr.port s.time, fstat, s.time⟩] }) := by
  have hsome : (s.fifoOf quad).rxB.room ≠ 0 := by rw [frameWords] at hroom; omega
  have hwhole : (packFrame fr.bytes fstat fr.port s.time).take (s.fifoOf quad).rxB.room = packFrame fr.bytes fstat fr.port s.time :=
    List.take_of_length_le (by rwa [packFrame_length])
  have hthree : fstat ≠ 3 := by
    rw [hfstat]
    split
    · decide
    · split <;> decide
  change execFrameReceive quad fr s = _
  simp only [execFrameReceive, hup, Nat.not_lt.2 hlen, Nat.not_lt.2 hroom, hsome, ← hfstat, if_false, hwhole, packFrame_length,
    hthree]
  rfl

theorem exec_frameReceive_lost (hfull : (s.fifoOf quad).rxB.room = 0) :
    exec (.frameReceive quad fr) s = .next ((s.touchConn (4096 * quad + fr.idx)).overrun (4096 * quad + fr.idx)) := by
  change execFrameReceive quad fr s = _
  simp [execFrameReceive, hup, Nat.not_lt.2 hlen, hfull]

/-- A frame that finds room for some of its words alone is truncated to them (R313). -/
theorem exec_frameReceive_truncated (hsome : 0 < (s.fifoOf quad).rxB.room)
    (hroom : (s.fifoOf quad).rxB.room < frameWords fr.bytes.length) :
    exec (.frameReceive quad fr) s = .next (((s.touchConn (4096 * quad + fr.idx)).onFifo quad fun f => { f with
      rxB := f.rxB.push (s.fifoOf quad).rxB.room,
      rx := f.rx ++ [⟨fr, (packFrame fr.bytes 3 fr.port s.time).take (s.fifoOf quad).rxB.room, 3, s.time⟩] }).overrun
        (4096 * quad + fr.idx)) := by
  have hcount : ((packFrame fr.bytes 3 fr.port s.time).take (s.fifoOf quad).rxB.room).length = (s.fifoOf quad).rxB.room := by
    rw [List.length_take, packFrame_length]
    omega
  change execFrameReceive quad fr s = _
  simp only [execFrameReceive, hup, Nat.not_lt.2 hlen, hroom, hsome.ne', if_true, hcount]
  rfl

end

/-! ## Data of a frame in its segments (R310) -/

/-- Bytes that end within the segment that stands for their piece of 512 are written into it, and the piece is ready once it is
full. -/
theorem State.deliver_oneSegment {s t : State} {quad sch no pc x off g : Nat} {p : Piece} {bs : List Byte} (n : Nat) (c : Cmd)
    (who : WaitWho) (segs : List Nat) (hbs : bs ≠ []) (hseg : s.segOf (.xfer sch no pc x) (off / 512) = some g)
    (hfits : off % 512 + bs.length ≤ 512) (ht : t = s.modSeg g fun h => h.fill (off % 512) bs 0) :
    State.deliver (n + 2) s quad sch no pc x c p off bs [] who segs = some (if ((AMap.get? t.dma.segs g).map fun h => decide (h.mask
      &&& maskOf ((p.part (off / 512)).1 - 512 * (off / 512)) ((p.part (off / 512)).2 - (p.part (off / 512)).1)
      = maskOf ((p.part (off / 512)).1 - 512 * (off / 512)) ((p.part (off / 512)).2 - (p.part (off / 512)).1))).getD false
      then t.pieceReady sch no pc x (off / 512) else t) := by
  have hstart : off - 512 * (off / 512) = off % 512 := by omega
  have hall : min bs.length (512 * (off / 512) + 512 - off) = bs.length := by omega
  have hfor : s.segFor quad sch no pc x (off / 512) true who segs = some (s, g, segs) := by simp [State.segFor, hseg]
  have hdone (u : State) : State.deliver (n + 1) u quad sch no pc x c p (off + bs.length) [] [] who segs = some u := rfl
  rw [State.deliver, if_neg (by simpa using hbs)]
  simp only [hfor, hall, hstart, List.take_length, List.drop_length, flagsOf, List.foldl_nil, hdone, ← ht]

/-! ## The frame mover (R308, R310, R314) -/

theorem exec_frameMove_empty {s : State} {quad : Nat} (bad : BadFifo) (segs : List Nat) (hrx : (s.fifoOf quad).rx = []) :
    exec (.frameMove quad bad segs) s = .next s := by
  change execFrameMove quad bad segs s = _
  rw [execFrameMove, hrx]

/-- What becomes of a GOOD frame that has left the receive FIFO of `s` with sound words, so that `u` is left (R310): its payload goes
into the segments of its exchange, or the frame stays where it is until there are segments for it. -/
def State.movePayload (s u : State) (quad : Nat) (r : RxFrame) (segs : List Nat) : State :=
  match u.livePiece (4096 * quad + r.fr.idx) with
  | none => u
  | some (e, c, p) =>
    let off := p.off + r.fr.off
    let bs := (r.bytes.drop r.fr.hdr).take (p.off + p.len - off)
    if !c.toMem || bs.isEmpty || e.port ≠ r.fr.port then u
    else match State.deliver (bs.length / 512 + 2) u quad e.sch e.cmd e.pc (4096 * quad + r.fr.idx) c p off bs [] (.frame quad)
        segs with
      | none => (s.segWait quad e.sch (.frame quad)).flowSync quad
      | some t => t.flowSync quad

section
variable {s : State} {quad : Nat} {r : RxFrame} {rest : List RxFrame} (hrx : (s.fifoOf quad).rx = r :: rest) (segs : List Nat)
include hrx

theorem exec_frameMove_badHead (hwords : r.words ≠ []) : exec (.frameMove quad ⟨[0], [], 0⟩ segs) s
    = .next (((s.popFrame quad r).onDma fun d => { d with fifoParity := sat 16 (d.fifoParity + 1) }).overrun
      (4096 * quad + r.fr.idx)) := by
  have hone : [0].eraseDups = [0] := rfl
  change execFrameMove quad ⟨[0], [], 0⟩ segs s = _
  rw [execFrameMove, hrx]
  simp [hone, List.length_pos_iff.2 hwords]

variable {u : State} (hu : u = (s.popFrame quad r).onDma fun d => { d with fifoParity := sat 16 (d.fifoParity + 0) })
include hu

theorem exec_frameMove_notGood (hfstat : r.fstat ≠ 0) : exec (.frameMove quad ⟨[], [], 0⟩ segs) s = .next u := by
  change execFrameMove quad ⟨[], [], 0⟩ segs s = _
  subst hu
  rw [execFrameMove, hrx]
  simp [hfstat]

theorem exec_frameMove_good (hfstat : r.fstat = 0) :
    exec (.frameMove quad ⟨[], [], 0⟩ segs) s = .next (s.movePayload u quad r segs) := by
  change execFrameMove quad ⟨[], [], 0⟩ segs s = _
  subst hu
  rw [execFrameMove, hrx]
  simp only [hfstat]
  rfl

end

section
variable {u : State} {quad : Nat} {r : RxFrame} (s : State) (segs : List Nat)

theorem State.movePayload_noPiece (hlive : u.livePiece (4096 * quad + r.fr.idx) = none) : s.movePayload u quad r segs = u := by
  rw [State.movePayload, hlive]

variable {e : Exch} {c : Cmd} {p : Piece} {off : Nat} {bs : List Byte}
  (hlive : u.livePiece (4096 * quad + r.fr.idx) = some (e, c, p)) (hoff : off = p.off + r.fr.off)
  (hbs : bs = (r.bytes.drop r.fr.hdr).take (p.off + p.len - off))
include hlive hoff hbs

theorem State.movePayload_noData (hno : c.toMem = false ∨ bs = [] ∨ e.port ≠ r.fr.port) : s.movePayload u quad r segs = u := by
  rw [State.movePayload, hlive]
  subst hoff hbs
  exact if_pos (by simpa [or_assoc] using hno)

variable (hto : c.toMem) (hsome : bs ≠ []) (hport : e.port = r.fr.port)
include hto hsome hport

theorem State.movePayload_delivers {t : State} (ht : State.deliver (bs.length / 512 + 2) u quad e.sch e.cmd e.pc
    (4096 * quad + r.fr.idx) c p off bs [] (.frame quad) segs = some t) : s.movePayload u quad r segs = t.flowSync quad := by
  rw [State.movePayload, hlive]
  dsimp only
  rw [← hoff, ← hbs, if_neg (by simp [hto, hsome, hport]), ht]

theorem State.movePayload_waits (ht : State.deliver (bs.length / 512 + 2) u quad e.sch e.cmd e.pc (4096 * quad + r.fr.idx)
    c p off bs [] (.frame quad) segs = none) :
    s.movePayload u quad r segs = (s.segWait quad e.sch (.frame quad)).flowSync quad := by
  rw [State.movePayload, hlive]
  dsimp only
  rw [← hoff, ← hbs, if_neg (by simp [hto, hsome, hport]), ht]

end

/-! ## The lane transmitter (R309, R314, R315) -/

/-- A change of a FIFO leaves the exchanges and their pieces. -/
theorem State.modFifo_livePiece (s : State) (quad : Nat) (f : Fifo → Fifo) (x : Nat) :
    (s.modFifo quad f).livePiece x = s.livePiece x := rfl

/-- What becomes of the frame that has left the transmit FIFO of `v` (R314, R315). -/
def State.endFrame (v : State) (quad : Nat) (r : RxFrame) (parityBad : Bool) (fault : FrameFault) : State :=
  match v.livePiece (4096 * quad + r.fr.idx) with
  | none => v
  | some (e, _, p) =>
    let w := if fault = .corrected then v.corrected 1 else v
    if fault = .buffer then w.bufferFault e (4096 * quad + r.fr.idx) (p.off + r.fr.off)
    else if fault = .fabric then w.fabricFault e (4096 * quad + r.fr.idx)
    else if parityBad then
      (((w.onDma fun d => { d with fifoParity := inc16 d.fifoParity }).txFault quad).emit
        (.frame quad r.fr.port r.fr.bytes true)).transport (4096 * quad + r.fr.idx)
    else (w.sendPayload (4096 * quad + r.fr.idx) e p r.fr.off r.fr.bytes).touchConn (4096 * quad + r.fr.idx)

section
variable {v : State} {quad : Nat} {r : RxFrame}

theorem State.endFrame_noPiece (parityBad : Bool) (fault : FrameFault) (hlive : v.livePiece (4096 * quad + r.fr.idx) = none) :
    v.endFrame quad r parityBad fault = v := by
  rw [State.endFrame, hlive]

variable {e : Exch} {c : Cmd} {p : Piece} (hlive : v.livePiece (4096 * quad + r.fr.idx) = some (e, c, p))
include hlive

theorem State.endFrame_sound : v.endFrame quad r false .sound
    = (v.sendPayload (4096 * quad + r.fr.idx) e p r.fr.off r.fr.bytes).touchConn (4096 * quad + r.fr.idx) := by
  rw [State.endFrame, hlive]
  rfl

theorem State.endFrame_parityBad : v.endFrame quad r true .sound = (((v.onDma fun d => { d with
    fifoParity := inc16 d.fifoParity }).txFault quad).emit (.frame quad r.fr.port r.fr.bytes true)).transport
      (4096 * quad + r.fr.idx) := by
  rw [State.endFrame, hlive]
  rfl

theorem State.endFrame_bufferFault (parityBad : Bool) : v.endFrame quad r parityBad .buffer
    = v.bufferFault e (4096 * quad + r.fr.idx) (p.off + r.fr.off) := by
  rw [State.endFrame, hlive]
  rfl

theorem State.endFrame_fabricFault (parityBad : Bool) : v.endFrame quad r parityBad .fabric
    = v.fabricFault e (4096 * quad + r.fr.idx) := by
  rw [State.endFrame, hlive]
  rfl

end

section
variable {s u : State} {quad : Nat} (hu : u = s.offerNext quad)
include hu

theorem exec_frameTransmit_empty (parityBad : Bool) (fault : FrameFault) (htx : (u.fifoOf quad).tx = []) :
    exec (.frameTransmit quad parityBad fault) s = .next u := by
  change execFrameTransmit quad parityBad fault s = _
  subst hu
  rw [execFrameTransmit]
  dsimp only
  rw [htx]

variable {r : RxFrame} {rest : List RxFrame} (htx : (u.fifoOf quad).tx = r :: rest)
include htx

theorem exec_frameTransmit_waits (parityBad : Bool) (fault : FrameFault)
    (hready : u.frameReady quad (4096 * quad + r.fr.idx) = false) :
    exec (.frameTransmit quad parityBad fault) s = .next u := by
  change execFrameTransmit quad parityBad fault s = _
  subst hu
  rw [execFrameTransmit]
  dsimp only
  rw [htx]
  simp [hready]

variable {v : State} (hv : v = u.modFifo quad fun f => { f with tx := rest, txB := f.txB.pop r.words.length })
include hv

theorem exec_frameTransmit_leaves (parityBad : Bool) (fault : FrameFault)
    (hready : u.frameReady quad (4096 * quad + r.fr.idx)) :
    exec (.frameTransmit quad parityBad fault) s = .next (v.endFrame quad r parityBad fault) := by
  change execFrameTransmit quad parityBad fault s = _
  subst hu hv
  rw [execFrameTransmit]
  dsimp only
  rw [htx]
  simp only [hready]
  rfl

/-- The frame of an exchange that has ended needs no grant: it is dropped unless EGRESS is frozen. -/
theorem exec_frameTransmit_drops (parityBad : Bool) (fault : FrameFault) (hfrozen : u.md.frozen (3 + quad) = false)
    (hlive : v.livePiece (4096 * quad + r.fr.idx) = none) : exec (.frameTransmit quad parityBad fault) s = .next v := by
  have hready : u.frameReady quad (4096 * quad + r.fr.idx) := by
    rw [hv, State.modFifo_livePiece] at hlive
    simp [State.frameReady, hlive, hfrozen]
  rw [exec_frameTransmit_leaves hu htx hv parityBad fault hready, State.endFrame_noPiece parityBad fault hlive]

end

/-! ## The watermarks (R324) -/

section
variable {s : State} {quad : Nat} {val : Word}

theorem State.setWatermarks_ordered (hgap : bits val.toNat 9 9 + 16 ≤ bits val.toNat 0 9) (hmax : bits val.toNat 0 9 ≤ 240) :
    s.setWatermarks quad val
      = s.modFifo quad fun f => { f with high := bits val.toNat 0 9, low := bits val.toNat 9 9 } := by
  simp [State.setWatermarks, Nat.not_lt.2 hgap, Nat.not_lt.2 hmax]

theorem State.setWatermarks_ignored (hbad : bits val.toNat 0 9 < bits val.toNat 9 9 + 16 ∨ 240 < bits val.toNat 0 9) :
    s.setWatermarks quad val = s := by
  simp [State.setWatermarks, hbad]

variable (h : Serves s)
include h

/-- BAR0 takes a write of DM_FIFO_WM as a whole or by halves (R38). -/
theorem exec_fifoWatermarkWrite_serves (half : Option Bool) :
    exec (.fifoWatermarkWrite quad half val) s = .next (if half = some true then s else s.setWatermarks quad val) := by
  obtain ⟨hep, hopens, hkept⟩ := h
  change execFifoWatermarkWrite quad half val s = _
  cases half <;> simp [execFifoWatermarkWrite, State.bar0Write, hep, hopens, hkept]

end

end Sys2Proof.Machine

open Sys2Proof.Machine in
/-- Settles O23: a frame from the lanes finds room, some or none; one that leaves the receive FIFO is discarded or its payload moves
(`State.movePayload`), into one segment (`State.deliver_oneSegment`) or more; one that leaves the transmit FIFO ends as
`State.endFrame` says; and the watermarks are taken as a pair (`exec_fifoWatermarkWrite_serves`). -/
theorem frameFifos : Obligations.FrameFifos := by
  unfold Obligations.FrameFifos
  refine ⟨fun s quad fr room fstat hroom hfstat => ?receive, fun s u quad x r rest segs hrx hx hu => ?move,
    fun s quad bad segs hrx => exec_frameMove_empty bad segs hrx, fun s u quad hu hfrozen => ?transmit,
    fun s quad val half h hhalf => ?watermarks⟩
  case receive =>
    subst hroom
    exact ⟨fun hup hlen hfits => exec_frameReceive_enters hup hlen hfits hfstat,
      fun hup hlen hfull => exec_frameReceive_lost hup hlen hfull,
      fun hup hlen hsome hshort => exec_frameReceive_truncated hup hlen hsome hshort, exec_frameReceive_down⟩
  case move =>
    subst hx
    refine ⟨exec_frameMove_notGood hrx segs hu, fun hlive => ?noPiece, exec_frameMove_badHead hrx segs,
      fun e c p off bs hfstat hlive hoff hbs => ?good⟩
    case noPiece =>
      by_cases hfstat : r.fstat = 0
      · rw [exec_frameMove_good hrx segs hu hfstat, State.movePayload_noPiece s segs hlive]
      · exact exec_frameMove_notGood hrx segs hu hfstat
    case good =>
      rw [exec_frameMove_good hrx segs hu hfstat]
      refine ⟨fun hno => congrArg _ (State.movePayload_noData s segs hlive hoff hbs hno), fun hto hsome hport => ?_⟩
      have hdelivers {t : State} := State.movePayload_delivers (t := t) s segs hlive hoff hbs hto hsome hport
      exact ⟨fun g t hseg hfits ht => congrArg _ (hdelivers (State.deliver_oneSegment _ c (.frame quad) segs hsome hseg hfits ht)),
        fun t ht => congrArg _ (hdelivers ht),
        fun ht => congrArg _ (State.movePayload_waits s segs hlive hoff hbs hto hsome hport ht)⟩
  case transmit =>
    refine ⟨fun htx parityBad fault => exec_frameTransmit_empty hu parityBad fault htx, fun r rest v x htx hx hv => ?_⟩
    subst hx
    refine ⟨fun hlive parityBad fault => exec_frameTransmit_drops hu htx hv parityBad fault hfrozen hlive,
      fun e c p hlive hready => ?_, fun hready parityBad fault => exec_frameTransmit_waits hu htx parityBad fault hready⟩
    have hleaves := fun parityBad fault => exec_frameTransmit_leaves hu htx hv parityBad fault hready
    simp only [hleaves]
    exact ⟨congrArg _ (State.endFrame_sound hlive), congrArg _ (State.endFrame_parityBad hlive), fun parityBad =>
      ⟨congrArg _ (State.endFrame_bufferFault hlive parityBad), congrArg _ (State.endFrame_fabricFault hlive parityBad)⟩⟩
  case watermarks =>
    simp only [exec_fifoWatermarkWrite_serves h, if_neg hhalf, if_true]
    exact ⟨fun hgap hmax => congrArg _ (State.setWatermarks_ordered hgap hmax),
      fun hbad => congrArg _ (State.setWatermarks_ignored hbad), trivial⟩

/-! # The global scratchpad (O24) -/

namespace Sys2Proof.Machine

/-- The set view makes an INT of the word with the masked bits set (R318). -/
theorem viewWord_set (old mask : Word) : viewWord (intW old) true mask = intW (old ||| mask) := rfl

theorem viewWord_clear (old mask : Word) : viewWord (intW old) false mask = intW (old &&& ~~~mask) := rfl

theorem viewWord_poison (old mask : Word) (set : Bool) : viewWord ⟨tagPoison, old⟩ set mask = ⟨tagPoison, old⟩ := rfl

theorem viewWord_unset (mask : Word) : viewWord TWord.unset true mask = intW mask := by
  have hset : viewWord TWord.unset true mask = intW (0#64 ||| mask) := rfl
  rw [hset, BitVec.zero_or]

/-- A write to the word that a thread has reserved ends the reservation (R263). -/
theorem State.gsWrite_endsReservation {s : State} {th a : Nat} {t : Thread} (w : TWord) (h : AMap.get? s.sx.threads th = some t)
    (hresv : t.resv = some a) : AMap.get? (s.gsWrite a w).sx.threads th = some { t with resv := none } := by
  rw [State.gsWrite_threads, AMap.get?_map (Thread.unreserved · a), h, Option.map_some, Thread.unreserved, if_pos hresv]

end Sys2Proof.Machine

open Sys2Proof.Machine in
/-- Settles O24: the scratchpad is a map in canonical form (`State.gsWrite_wf`) that reads what was stored, and a view is `viewWord` on
the tag of the word that it finds. -/
theorem globalScratchpad : Obligations.GlobalScratchpad := by
  unfold Obligations.GlobalScratchpad
  intro s a w hwf
  have hsorted : AMap.sorted s.sx.gs := ((AMap.wf_iff _ _).1 hwf).1
  exact ⟨s.gsWrite_wf a w hwf, s.gsRead_gsWrite_same a w hsorted, fun _ hne => s.gsRead_gsWrite_other w hne,
    fun old mask => ⟨viewWord_set old mask, viewWord_clear old mask, viewWord_poison old mask true, viewWord_unset mask⟩,
    fun _ _ hth hresv => ⟨_, s.gsWrite_endsReservation w hth hresv, rfl⟩⟩

/-! # Grants, the freeze, re-tests and the deadline watch (O42) -/

namespace Sys2Proof.Machine

/-! ## The ranking (R329) -/

/-- Within half the range above a base, device times are in the order of their distances from it. -/
theorem before_iff_of_window {base a b : Time} (ha : (a - base).toNat < 2 ^ 47) (hb : (b - base).toNat < 2 ^ 47) :
    before a b = true ↔ (a - base).toNat < (b - base).toNat := by
  rw [before, decide_eq_true_iff]
  bv_omega

theorem before_self (a : Time) : before a a = false := by simp [before]

/-- The fields by which R329 ranks a request, the deadline as its distance from a base. -/
def Req.rank (base : Time) (r : Req) : Bool ×ₗ Nat ×ₗ Nat ×ₗ Nat ×ₗ Nat :=
  toLex (r.bg, toLex ((r.dl - base).toNat, toLex (r.rix, toLex (r.sch, r.seq))))

theorem Req.less_iff_rank {base : Time} {a b : Req} (ha : (a.dl - base).toNat < 2 ^ 47) (hb : (b.dl - base).toNat < 2 ^ 47) :
    a.less b = true ↔ a.rank base < b.rank base := by
  have hdl : a.dl = b.dl ↔ (a.dl - base).toNat = (b.dl - base).toNat := by rw [← BitVec.toNat_eq, BitVec.sub_left_inj]
  have hbg : a.bg < b.bg ↔ a.bg ≠ b.bg ∧ b.bg = true := by cases a.bg <;> cases b.bg <;> decide
  simp only [Req.rank, Prod.Lex.toLex_lt_toLex, hbg, ← hdl, ← before_iff_of_window ha hb]
  unfold Req.less
  split
  case isTrue hbg => simp [hbg]
  case isFalse hbg =>
    split
    case isTrue hdl => simp [not_not.1 hbg, hdl]
    case isFalse hdl =>
      split
      case isTrue hrix => simp [not_not.1 hbg, not_not.1 hdl, hrix, before_self]
      case isFalse hrix =>
        split
        case isTrue hsch => simp [not_not.1 hbg, not_not.1 hdl, not_not.1 hrix, hsch, before_self]
        case isFalse hsch => simp [not_not.1 hbg, not_not.1 hdl, not_not.1 hrix, not_not.1 hsch, before_self]

theorem leastReq_eq_none {l : List Req} : leastReq l = none ↔ l = [] := by
  cases l with
  | nil => simp [leastReq]
  | cons r l =>
    rw [leastReq]
    split
    · simp
    · split <;> simp

theorem leastReq_mem {l : List Req} {r : Req} (h : leastReq l = some r) : r ∈ l := by
  induction l with
  | nil => simp [leastReq] at h
  | cons x l ih =>
    rw [leastReq] at h
    split at h
    · simp_all
    · split at h <;> simp_all

/-- Where the ranking is that of a linear order, no request of the list is below the least one. -/
theorem leastReq_le {α : Type} [LinearOrder α] (rank : Req → α) {l : List Req} {r : Req}
    (hless : ∀ a ∈ l, ∀ b ∈ l, a.less b = true ↔ rank a < rank b) (h : leastReq l = some r) : ∀ q ∈ l, rank r ≤ rank q := by
  induction l generalizing r with
  | nil => simp
  | cons x l ih =>
    have ih' {b : Req} := ih (r := b) fun a ha b hb => hless a (List.mem_cons_of_mem x ha) b (List.mem_cons_of_mem x hb)
    rw [leastReq] at h
    split at h
    case h_1 hnone =>
      rw [leastReq_eq_none] at hnone
      simp_all
    case h_2 b hb =>
      have hx := hless b (List.mem_cons_of_mem x (leastReq_mem hb)) x List.mem_cons_self
      split at h
      case isTrue hlt =>
        cases h
        exact List.forall_mem_cons.2 ⟨(hx.1 hlt).le, ih' hb⟩
      case isFalse hge =>
        cases h
        have hle : rank x ≤ rank b := not_lt.1 (mt hx.2 hge)
        exact List.forall_mem_cons.2 ⟨le_rfl, fun q hq => hle.trans (ih' hb q hq)⟩

/-! ## The decision (R329, R331, R334) -/

section
variable {s : State} {res : Nat}

/-- The requests among which a grant of a resource chooses. -/
def State.contenders (s : State) (res : Nat) : List Req :=
  s.md.reqs.filter fun r => r.res = res && !r.granted && s.servable r

theorem State.mem_contenders {q : Req} :
    q ∈ s.contenders res ↔ q ∈ s.md.reqs ∧ q.res = res ∧ q.granted = false ∧ s.servable q = true := by
  simp [State.contenders, and_assoc]

theorem State.nextGrant_frozen (h : s.md.frozen res = true) : s.nextGrant res = none := by
  simp [State.nextGrant, h]

theorem State.nextGrant_held {x : Req} (hx : x ∈ s.md.reqs) (hres : x.res = res) (hgranted : x.granted = true) (hne : res ≠ 0) :
    s.nextGrant res = none := by
  have hheld : s.md.reqs.any (fun r => r.res = res && r.granted) = true := List.any_eq_true.2 ⟨x, hx, by simp [hres, hgranted]⟩
  simp [State.nextGrant, hheld, hne]

/-- What is granted is the least of the contenders, for a resource that is not frozen. -/
theorem State.nextGrant_least {r : Req} (h : s.nextGrant res = some r) :
    s.md.frozen res = false ∧ leastReq (s.contenders res) = some r := by
  rw [State.nextGrant] at h
  split at h
  · cases h
  next hopen =>
    split at h
    · cases h
    next x hx =>
      split at h
      · cases h
      · split at h
        · cases h
        · cases h
          exact ⟨by simp_all, hx⟩

/-- The least of the contenders is granted where nothing but HOST-READ's waiters or a turn of its own could stand in its way. -/
theorem State.nextGrant_of_least {r : Req} (hfrozen : s.md.frozen res = false)
    (hfree : res = 0 ∨ ∀ x ∈ s.md.reqs, x.res = res → x.granted = false) (hne : res ≠ 1)
    (hleast : leastReq (s.contenders res) = some r) (hself : r.who.selfServed = false) : s.nextGrant res = some r := by
  have hopen : (s.md.frozen res || (res ≠ 0 && s.md.reqs.any fun r => r.res = res && r.granted)) = false := by
    simpa [or_iff_not_imp_left] using And.intro hfrozen hfree
  rw [State.contenders] at hleast
  simp only [State.nextGrant, hopen, hleast, hself, hne, decide_false, Bool.false_and, Bool.false_eq_true, if_false]

theorem exec_meridianGrant_none (h : s.nextGrant res = none) : exec (.meridianGrant res) s = .next s := by
  change execMeridianGrant res s = _
  rw [execMeridianGrant, h]

theorem exec_meridianGrant_some {r : Req} (h : s.nextGrant res = some r) :
    exec (.meridianGrant res) s
      = .next ((s.onMd fun m => { m with reqs := m.reqs.map fun q => if q = r then { q with granted := true } else q }).serve r.who) := by
  change execMeridianGrant res s = _
  rw [execMeridianGrant, h]

/-- No request that can be served ranks before the one that is granted. -/
theorem State.nextGrant_smallest {r : Req} (h : s.nextGrant res = some r) {base : Time}
    (hwindow : ∀ q ∈ s.md.reqs, (q.dl - base).toNat < 2 ^ 47) {q : Req} (hq : q ∈ s.contenders res) : q.less r = false := by
  have hleast := (State.nextGrant_least h).2
  have hdl {q : Req} (hq : q ∈ s.contenders res) := hwindow q (State.mem_contenders.1 hq).1
  have hle := leastReq_le (Req.rank base) (fun a ha b hb => Req.less_iff_rank (hdl ha) (hdl hb)) hleast q hq
  rw [← Bool.not_eq_true, Req.less_iff_rank (hdl hq) (hdl (leastReq_mem hleast))]
  exact not_lt.2 hle

/-- A contender means a grant where nobody holds the resource and no requester of it takes a turn of its own. -/
theorem State.nextGrant_exists {q : Req} (hq : q ∈ s.contenders res) (hfrozen : s.md.frozen res = false) (hne : res ≠ 1)
    (hself : ∀ x ∈ s.md.reqs, x.res = res → x.who.selfServed = false)
    (hfree : res = 0 ∨ ∀ x ∈ s.md.reqs, x.res = res → x.granted = false) : ∃ r, s.nextGrant res = some r := by
  obtain ⟨r, hleast⟩ := Option.ne_none_iff_exists'.1 (mt leastReq_eq_none.1 (List.ne_nil_of_mem hq))
  obtain ⟨hr, hres, -⟩ := State.mem_contenders.1 (leastReq_mem hleast)
  exact ⟨r, State.nextGrant_of_least hfrozen hfree hne hleast (hself r hr hres)⟩

end

/-! ## Policing, the freeze and the watch (R334, R335, R479) -/

section
variable {s : State} {sch : Nat}

theorem exec_costOverrun_demotes (hprog : AMap.has s.sub.prog sch = true) (hnot : (s.progOf sch).demoted = false)
    (hcls : s.clsOf sch < 7) (hcost : (s.progOf sch).cost * 8 < s.issued sch * 5) :
    exec (.costOverrun sch) s
      = .next ((s.modProg sch fun p => { p with demoted := true }).onMd fun m => { m with overrun := inc16 m.overrun }) := by
  change execCostOverrun sch s = _
  simp [execCostOverrun, hprog, hnot, hcls, hcost]

theorem exec_costOverrun_within (hcost : s.issued sch * 5 ≤ (s.progOf sch).cost * 8) : exec (.costOverrun sch) s = .next s := by
  change execCostOverrun sch s = _
  simp [execCostOverrun, Nat.not_lt.2 hcost]

theorem exec_freezeDrained_drains (hdrained : s.md.drained = false) (hholding : s.md.holding = false) :
    exec .freezeDrained s = .next ((s.onMd fun m => { m with drained := true }).irq 10) := by
  change execFreezeDrained s = _
  simp [execFreezeDrained, State.freezeDrained, hdrained, hholding]

theorem exec_deadlineWatchExpiry_counts (hcls : (s.ctxOf sch).cls ≤ 5) (hwaits : s.dispatchQueue.contains sch = true)
    (hnot : (s.progOf sch).missed = false) (hdue : reached s.time (s.ctxOf sch).deadline = true) :
    exec (.deadlineWatchExpiry sch) s
      = .next (((s.late (s.ctxOf sch).deadline).modProg sch fun p => { p with missed := true }).onPw
          fun p => { p with dlMiss := inc16 p.dlMiss }) := by
  change execDeadlineWatchExpiry sch s = _
  simp only [execDeadlineWatchExpiry, hcls, hwaits, hnot, hdue, decide_true, Bool.not_false, Bool.and_true, if_true]

end

/-! ## Re-tests (R346) -/

section
variable {s : State} {change : Nat}

theorem exec_capacityRetest_runs (hasked : change ∈ s.md.retests) (hcommit : s.md.commit = none) (hpassed : s.md.passed = false) :
    exec (.capacityRetest change) s
      = .next ((s.onMd fun m => { m with retests := m.retests.erase change }).retest change) := by
  change execCapacityRetest change s = _
  simp [execCapacityRetest, hasked, hcommit, hpassed]

@[simp] theorem State.event_md (s : State) (source block code a0 a1 a2 a3 : Nat) :
    (s.event source block code a0 a1 a2 a3).md = s.md := by
  obtain ⟨f, hf⟩ := s.record_eq_onPl _ _ _ _
  rw [State.event, hf, State.onPl_md]

@[simp] theorem State.event_out (s : State) (source block code a0 a1 a2 a3 : Nat) :
    (s.event source block code a0 a1 a2 a3).out = s.out := by
  obtain ⟨f, hf⟩ := s.record_eq_onPl _ _ _ _
  rw [State.event, hf, State.onPl_out]

/-- Meridian without its requests. -/
def Meridian.unasked (m : Meridian) : Meridian := { m with reqs := [], nextReq := 0 }

@[simp] theorem State.withdraw_unasked (s : State) (who : ReqWho) : (s.withdraw who).md.unasked = s.md.unasked := rfl

@[simp] theorem State.request_unasked (s : State) (res : Nat) (key : Bool × Time) (rix sch : Nat) (who : ReqWho) :
    (s.request res key rix sch who).md.unasked = s.md.unasked := by
  unfold State.request
  split <;> rfl

/-- A message changes no more of Meridian than its requests (R325). -/
@[simp] theorem State.message_unasked (s : State) (v : Nat) : (s.message v).md.unasked = s.md.unasked := by
  unfold State.message
  dsimp only
  split
  · simp [State.sendMsix]
  · split <;> simp

@[simp] theorem State.signal_unasked (s : State) (v : Nat) : (s.signal v).md.unasked = s.md.unasked := by
  simp only [State.signal, State.signalNow]
  (repeat' split) <;> simp

/-- The outcome of the last re-test stands apart from the requests. -/
theorem Meridian.outcome_unasked {m n : Meridian} (h : m.unasked = n.unasked) :
    m.degraded = n.degraded ∧ m.failKind = n.failKind ∧ m.failIndex = n.failIndex :=
  ⟨(congrArg Meridian.degraded h :), (congrArg Meridian.failKind h :), (congrArg Meridian.failIndex h :)⟩

/-- A re-test that passes leaves a record, and nothing else where the schedule was not degraded. -/
theorem State.retest_passes (h : s.testCapacity s.md.sched s.demands = none) (hd : s.md.degraded = false) :
    (s.retest change).md.degraded = false ∧ (s.retest change).out = s.out := by
  have hrecord : s.retest change = s.event 1 3 2 change 0 0 0 := by simp [State.retest, h, hd]
  simp [hrecord, hd]

theorem State.retest_fails {x : Refuse} (h : s.testCapacity s.md.sched s.demands = some x) :
    (s.retest change).md.degraded = true ∧ (s.retest change).md.failKind = x.kind
      ∧ (s.retest change).md.failIndex = x.index := by
  have hunasked : (s.retest change).md.unasked
      = { s.md with degraded := true, failKind := x.kind, failIndex := x.index }.unasked := by
    rw [State.retest, h]
    dsimp only
    split <;> simp
  exact Meridian.outcome_unasked hunasked

/-- The test looks at the schedule and the demands that it is given and at the capacities in force, at nothing else of Meridian. -/
theorem State.testCapacity_onMd (s : State) (f : Meridian → Meridian) (m : Sched) (ds : List Demand) :
    (s.onMd f).testCapacity m ds = s.testCapacity m ds := rfl

end

end Sys2Proof.Machine

open Sys2Proof.Machine in
/-- Settles O42: a grant is the least of its contenders (`State.nextGrant_least`), and keys within half the range rank as a
lexicographic order (`Req.less_iff_rank`); a re-test passes or fails by the test (`State.retest_passes`, `State.retest_fails`); the
other clauses are branches of their rows. -/
theorem meridianEvents : Obligations.MeridianEvents := by
  unfold Obligations.MeridianEvents
  intro s
  refine ⟨fun res r h => ?smallest, fun res q hq hres hgranted hcan hfrozen hne hself hfree => ?granted,
    fun res x hx hres hgranted hne => exec_meridianGrant_none (State.nextGrant_held hx hres hgranted hne),
    fun res hfrozen => exec_meridianGrant_none (State.nextGrant_frozen hfrozen),
    fun sch hprog hnot hcls hcost => exec_costOverrun_demotes hprog hnot hcls hcost,
    fun sch hcost => exec_costOverrun_within hcost,
    fun hdrained hholding => exec_freezeDrained_drains hdrained hholding,
    fun change hasked hcommit hpassed => exec_capacityRetest_runs hasked hcommit hpassed,
    fun change u hu => ?retest,
    fun sch hcls hwaits hnot hdue => exec_deadlineWatchExpiry_counts hcls hwaits hnot hdue⟩
  case smallest =>
    obtain ⟨hfrozen, hleast⟩ := State.nextGrant_least h
    obtain ⟨hr, hres, hgranted, -⟩ := State.mem_contenders.1 (leastReq_mem hleast)
    exact ⟨exec_meridianGrant_some h, hr, hres, hgranted, hfrozen, fun base hwindow q hq hqres hqgranted hqcan =>
      State.nextGrant_smallest h hwindow (State.mem_contenders.2 ⟨hq, hqres, hqgranted, hqcan⟩)⟩
  case granted =>
    exact State.nextGrant_exists (State.mem_contenders.2 ⟨hq, hres, hgranted, hcan⟩) hfrozen hne hself hfree
  case retest =>
    subst hu
    have htest := s.testCapacity_onMd (fun m => { m with retests := m.retests.erase change }) s.md.sched s.demands
    exact ⟨fun hpass hd => State.retest_passes (htest.trans hpass) hd, fun x hfail => State.retest_fails (htest.trans hfail)⟩

/-! # Faults of a path and the end of a ghost (O19) -/

namespace Sys2Proof.Machine

/-! ## Faults of a port or of a controller (R359) -/

section
variable {s : State} {quad port : Nat} (hup : (s.portOf quad port).st = 2)
include hup

/-- A port that is up goes down; an ERR_FATAL message is that of a PCIe device. -/
theorem exec_pathFault_falls {kind : PathFaultKind} (hpcie : kind = .errFatal → isPcie (s.quadOf quad).cfg.mode) :
    exec (.pathFault quad port kind) s
      = .next ((s.linkLost quad port (if kind = .presenceLost then 0 else 1)).signal 4) := by
  refine congrArg Host.Outcome.next (if_neg ?_)
  cases kind <;> simp_all

theorem exec_controllerFatal_resets {ctrl : Word} {u : State} (hpcie : isPcie (s.quadOf quad).cfg.mode)
    (hctrl : (s.portOf quad port).ctrls.any fun c => c.id = ctrl)
    (hu : u = (((((s.event (32 + quad) 5 5 quad port 0 0).portPathsDown quad port (some ctrl)).modPort quad port fun p =>
      { p with rerun := true }).emit (.ctrlReset quad port ctrl)).forgetAborts (·.at_ quad port ctrl)).initCtrl quad port ctrl) :
    exec (.controllerFatal quad ⟨port, ctrl⟩) s = .next (u.redriveAll quad port
      (u.exchWhere fun e => e.quad = quad && e.port = port && e.ctrl = ctrl && e.kind = 1) .fatal) := by
  subst hu
  exact congrArg Host.Outcome.next (if_neg (by simp [hup, hpcie, hctrl]))

end

/-! ## Transport failures (R400) -/

section
variable {s : State} {x : Nat} {e : Exch} {c : Cmd} {p : Piece} (hx : AMap.get? s.dev.exch x = some e)
  (hpiece : s.pieceOf x = some (c, p)) (hst : e.st = .reached)
include hx hpiece hst

theorem State.transport_first (hfirst : s.failedLately e c = false) (hrandom : s.devSeq e.dev = false) :
    s.transport x = (((s.noteFail e).abortExch x).unsend x (some e.path) false).wantAll := by
  simp [State.transport, hx, hpiece, hst, hfirst, hrandom]

theorem State.transport_second (hsecond : s.failedLately e c) : s.transport x = s.devPathDown e := by
  simp [State.transport, hx, hpiece, hst, hsecond]

end

/-! ## Ghosts (R407) -/

section
variable {s : State} {g : Nat} {h : Ghost} (hg : AMap.get? s.dev.ghosts g = some h) (pos : Option Nat)
include hg

theorem exec_ghostDeath_due {due : Time} (hdue : h.due = some due) (hacts : s.quadTimer h.quad due) (rdy0 : Bool) :
    exec (.ghostDeath g rdy0 pos) s = .next ((s.late due).ghostGone g h pos) := by
  refine congrArg Host.Outcome.next ?_
  simp only [hg, hdue, hacts, if_true]

/-- Without a due time the controller's CSTS.RDY 0 alone ends a ghost. -/
theorem exec_ghostDeath_ready (hdue : h.due = none) : exec (.ghostDeath g true pos) s = .next (s.ghostGone g h pos) := by
  refine congrArg Host.Outcome.next ?_
  simp only [hg, hdue, if_true]

theorem exec_ghostDeath_stays (hdue : h.due = none) (habort : h.abortDue = none) :
    exec (.ghostDeath g false pos) s = .next s := by
  refine congrArg Host.Outcome.next ?_
  simp only [hg, hdue, habort, Bool.false_eq_true, if_false]

end

end Sys2Proof.Machine

open Sys2Proof.Machine in
/-- Settles O19: each clause is a branch of its row; a first and a second transport failure are those of `State.transport`. -/
theorem pathFaults : Obligations.PathFaults := by
  unfold Obligations.PathFaults
  intro s
  refine ⟨fun quad port hup hpcie => ⟨exec_pathFault_falls hup fun _ => hpcie, exec_pathFault_falls hup fun _ => hpcie⟩,
    fun quad port hup => exec_pathFault_falls hup nofun,
    fun quad port ctrl u hup hpcie hctrl hu => exec_controllerFatal_resets hup hpcie hctrl hu,
    fun x e c p hx hpiece hst hfirst hrandom => congrArg _ (State.transport_first hx hpiece hst hfirst hrandom),
    fun x e c p hx hpiece hst hsecond => congrArg _ (State.transport_second hx hpiece hst hsecond),
    fun g h due pos hg hdue hacts => exec_ghostDeath_due hg pos hdue hacts false,
    fun g h pos hg hdue habort => ⟨exec_ghostDeath_ready hg pos hdue, exec_ghostDeath_stays hg pos hdue habort⟩⟩

/-! # Presence, power and the sideband of a port (O43) -/

namespace Sys2Proof.Machine

/-! ## The records of a quad and of a port -/

/-- What the change of one element leaves alone reads the same at every place. -/
theorem getD_modAt_keeps {α β : Type} (g : α → β) {f : α → α} (hf : ∀ a, g (f a) = g a) (l : List α) (k n : Nat) (d : α) :
    g ((modAt l k f).getD n d) = g (l.getD n d) := by
  by_cases hn : n = k
  · subst hn
    rw [List.getD_eq_getElem?_getD, modAt_getElem?_same, List.getD_eq_getElem?_getD]
    cases l[n]? with
    | none => rfl
    | some a => exact hf a
  · rw [modAt_getD_other l f d hn]

/-- The quad has a record in the state, and the port one in it. -/
def State.stands (s : State) (quad port : Nat) : Prop :=
  quad < s.dev.quads.length ∧ port < (s.quadOf quad).ports.length

section
variable {s t : State} {quad port : Nat}

/-- A quad that is not as at reset stands in the state. -/
theorem State.quad_lt_of_ne (h : s.quadOf quad ≠ Quad.reset) : quad < s.dev.quads.length := by
  by_contra hout
  exact h (List.getD_eq_default _ _ (not_lt.1 hout))

/-- A port with a field that is not as at reset stands in the state. -/
theorem State.stands_of_ne {β : Type} (g : Port → β) (h : g (s.portOf quad port) ≠ g Port.reset) : s.stands quad port := by
  have hport : s.portOf quad port ≠ Port.reset := fun hreset => h (congrArg g hreset)
  refine ⟨State.quad_lt_of_ne fun hquad => hport ?_, ?_⟩
  · rw [State.portOf, hquad]
    by_cases hlt : port < 4
    · exact List.getD_replicate _ hlt
    · exact List.getD_eq_default _ _ (not_lt.1 hlt)
  · by_contra hout
    exact hport (List.getD_eq_default _ _ (not_lt.1 hout))

theorem State.records_of_dev (h : t.dev = s.dev) :
    t.quadOf = s.quadOf ∧ t.portOf = s.portOf ∧ t.stands = s.stands := by
  have hquad : t.quadOf = s.quadOf := funext fun q => by rw [State.quadOf, h, State.quadOf]
  refine ⟨hquad, funext fun q => funext fun p => by rw [State.portOf, hquad, State.portOf],
    funext fun q => funext fun p => by rw [State.stands, h, hquad, State.stands]⟩

/-! ### A change of a quad -/

@[simp] theorem State.modQuad_quads_length (s : State) (q : Nat) (f : Quad → Quad) :
    (s.modQuad q f).dev.quads.length = s.dev.quads.length := modAt_length _ _ _

@[simp] theorem State.modQuad_exch (s : State) (q : Nat) (f : Quad → Quad) : (s.modQuad q f).dev.exch = s.dev.exch := rfl

theorem State.modQuad_quadOf (hq : quad < s.dev.quads.length) (f : Quad → Quad) :
    (s.modQuad quad f).quadOf quad = f (s.quadOf quad) :=
  modAt_getD_same _ _ _ _ hq

section
variable {f : Quad → Quad} (s : State) (q quad port : Nat)

theorem State.modQuad_keeps {β : Type} (g : Quad → β) (hf : ∀ x, g (f x) = g x) :
    g ((s.modQuad q f).quadOf quad) = g (s.quadOf quad) :=
  getD_modAt_keeps g hf _ _ _ _

@[simp] theorem State.modQuad_cfg (hf : ∀ x, (f x).cfg = x.cfg) : ((s.modQuad q f).quadOf quad).cfg = (s.quadOf quad).cfg :=
  s.modQuad_keeps q quad Quad.cfg hf

@[simp] theorem State.modQuad_portOf (hf : ∀ x, (f x).ports = x.ports) :
    (s.modQuad q f).portOf quad port = s.portOf quad port :=
  congrArg (·.getD port Port.reset) (s.modQuad_keeps q quad Quad.ports hf)

@[simp] theorem State.modQuad_stands (hf : ∀ x, (f x).ports.length = x.ports.length) :
    (s.modQuad q f).stands quad port ↔ s.stands quad port := by
  rw [State.stands, State.modQuad_quads_length, s.modQuad_keeps q quad (·.ports.length) hf, State.stands]

end

/-! ### A change of a port -/

@[simp] theorem State.modPort_quads_length (s : State) (q p : Nat) (f : Port → Port) :
    (s.modPort q p f).dev.quads.length = s.dev.quads.length := modAt_length _ _ _

@[simp] theorem State.modPort_exch (s : State) (q p : Nat) (f : Port → Port) : (s.modPort q p f).dev.exch = s.dev.exch := rfl
@[simp] theorem State.modPort_ghosts (s : State) (q p : Nat) (f : Port → Port) : (s.modPort q p f).dev.ghosts = s.dev.ghosts := rfl

@[simp] theorem State.modPort_cfg (s : State) (q p quad : Nat) (f : Port → Port) :
    ((s.modPort q p f).quadOf quad).cfg = (s.quadOf quad).cfg :=
  s.modQuad_cfg q quad fun _ => rfl

@[simp] theorem State.modPort_stands (s : State) (q p quad port : Nat) (f : Port → Port) :
    (s.modPort q p f).stands quad port ↔ s.stands quad port :=
  s.modQuad_stands q quad port fun _ => modAt_length _ _ _

theorem State.modPort_quadOf (hq : quad < s.dev.quads.length) (p : Nat) (f : Port → Port) :
    (s.modPort quad p f).quadOf quad = { s.quadOf quad with ports := modAt (s.quadOf quad).ports p f } :=
  State.modQuad_quadOf hq _

theorem State.modPort_portOf (h : s.stands quad port) (f : Port → Port) :
    (s.modPort quad port f).portOf quad port = f (s.portOf quad port) := by
  rw [State.portOf, State.modPort_quadOf h.1]
  exact modAt_getD_same _ _ _ _ h.2

end

/-! ### What leaves the records alone -/

section
variable (s : State)

@[simp] theorem State.late_records (due : Time) :
    (s.late due).quadOf = s.quadOf ∧ (s.late due).portOf = s.portOf ∧ (s.late due).stands = s.stands :=
  State.records_of_dev (by simp)
@[simp] theorem State.emit_records (o : Out) :
    (s.emit o).quadOf = s.quadOf ∧ (s.emit o).portOf = s.portOf ∧ (s.emit o).stands = s.stands :=
  State.records_of_dev (by simp)
@[simp] theorem State.emits_records (l : List Out) :
    (s.emits l).quadOf = s.quadOf ∧ (s.emits l).portOf = s.portOf ∧ (s.emits l).stands = s.stands :=
  State.records_of_dev (by simp)
@[simp] theorem State.drive_records (l : List Out) :
    (s.drive l).quadOf = s.quadOf ∧ (s.drive l).portOf = s.portOf ∧ (s.drive l).stands = s.stands :=
  State.records_of_dev (by simp)
@[simp] theorem State.event_records (source block code a0 a1 a2 a3 : Nat) :
    (s.event source block code a0 a1 a2 a3).quadOf = s.quadOf ∧ (s.event source block code a0 a1 a2 a3).portOf = s.portOf
      ∧ (s.event source block code a0 a1 a2 a3).stands = s.stands :=
  State.records_of_dev (by simp)
@[simp] theorem State.irq_records (src : Nat) :
    (s.irq src).quadOf = s.quadOf ∧ (s.irq src).portOf = s.portOf ∧ (s.irq src).stands = s.stands :=
  State.records_of_dev (by simp)
@[simp] theorem State.quadIrq_records (quad : Nat) :
    (s.quadIrq quad).quadOf = s.quadOf ∧ (s.quadIrq quad).portOf = s.portOf ∧ (s.quadIrq quad).stands = s.stands :=
  State.records_of_dev (by simp)
@[simp] theorem State.signal_records (v : Nat) :
    (s.signal v).quadOf = s.quadOf ∧ (s.signal v).portOf = s.portOf ∧ (s.signal v).stands = s.stands :=
  State.records_of_dev (by simp)

end

theorem not_isSas_of_isPcie {mode : Nat} (h : isPcie mode) : isSas mode = false := by
  simp only [isPcie, isSas, Bool.and_eq_true, decide_eq_true_eq] at *
  simp only [Bool.and_eq_false_iff, decide_eq_false_iff_not]
  omega

@[simp] theorem State.late_sbLow (s : State) (due : Time) : (s.late due).pw.sbLow = s.pw.sbLow := rfl
@[simp] theorem State.late_extest (s : State) (due : Time) : (s.late due).pw.extest = s.pw.extest := rfl

theorem State.refOk_of_pw {s t : State} (h : t.pw = s.pw) (quad : Nat) : t.refOk quad = s.refOk quad := by
  rw [State.refOk, h, State.refOk]

@[simp] theorem State.drive_refOk (s : State) (l : List Out) (quad : Nat) : (s.drive l).refOk quad = s.refOk quad :=
  State.refOk_of_pw (by simp) quad
@[simp] theorem State.late_refOk (s : State) (due : Time) (quad : Nat) : (s.late due).refOk quad = s.refOk quad := rfl
@[simp] theorem State.modPort_refOk (s : State) (q p quad : Nat) (f : Port → Port) : (s.modPort q p f).refOk quad = s.refOk quad := rfl
@[simp] theorem State.modQuad_refOk (s : State) (q quad : Nat) (f : Quad → Quad) : (s.modQuad q f).refOk quad = s.refOk quad := rfl

/-! ## Pins, and what they make of a port -/

theorem setBit4_getLsbD {p : Nat} (hp : p < 4) (b : BitVec 4) (v : Bool) : (setBit4 b p v).getLsbD p = v := by
  cases v <;> simp [setBit4, hp]

theorem State.drive_out {s : State} (h : s.pw.extest = false) (l : List Out) : (s.drive l).out = s.out ++ l := by
  simp [State.drive, h, State.emits]

section
variable {s : State} {quad port : Nat}

/-! ### PWREN (R382, R383) -/

@[simp] theorem State.pinPwren_quads_length (level : Bool) :
    (s.pinPwren quad port level).dev.quads.length = s.dev.quads.length := by
  simp [State.pinPwren]

@[simp] theorem State.pinPwren_cfg (level : Bool) : ((s.pinPwren quad port level).quadOf quad).cfg = (s.quadOf quad).cfg := by
  simp [State.pinPwren]

@[simp] theorem State.pinPwren_stands (level : Bool) : (s.pinPwren quad port level).stands quad port ↔ s.stands quad port := by
  simp [State.pinPwren]

theorem State.pinPwren_portOf (h : s.stands quad port) (level : Bool) :
    (s.pinPwren quad port level).portOf quad port = { s.portOf quad port with pwren := level } := by
  simp [State.pinPwren, State.modPort_portOf h]

theorem State.pinPwren_out (h : s.pw.extest = false) (level : Bool) :
    (s.pinPwren quad port level).out = s.out ++ [.pin quad port 0 level] := by
  simp [State.pinPwren, State.drive_out, h]

/-- A port whose link is not up goes down alone. -/
theorem State.portFault_notUp (hst : (s.portOf quad port).st ≠ 2) :
    s.portFault quad port = s.modPort quad port fun p => { p with st := 3, retryDue := none } :=
  if_neg hst

/-- A fault on PWREN takes the power away and marks the port. -/
theorem State.pwrenFault_notUp (h : s.stands quad port) (hst : (s.portOf quad port).st ≠ 2) (hport : port < 4) :
    ((s.pwrenFault quad port).portOf quad port).pwren = false
      ∧ ((s.pwrenFault quad port).quadOf quad).pwrenF.getLsbD port = true
      ∧ ((s.pwrenFault quad port).portOf quad port).powerDue = none := by
  rw [State.pwrenFault, State.portFault_notUp (by simpa [State.modPort_portOf, State.pinPwren_portOf, h] using hst)]
  simp [State.modPort_portOf, State.modPort_quadOf, State.modQuad_quadOf, State.pinPwren_portOf, h, h.1, setBit4_getLsbD hport]

/-- The supply of a port is switched on, and reads back. -/
theorem State.powerUp_on (h : s.stands quad port) (hvsb : s.pw.sbLow = false) :
    ∃ poll, (s.powerUp quad port true).portOf quad port = { s.portOf quad port with
      pwren := true, powerDue := some (addNs s.time (1000 * (s.quadOf quad).cfg.pwrDelay)), pollDue := poll } := by
  simp [State.powerUp, hvsb, State.modPort_portOf, State.pinPwren_portOf, h]

theorem State.powerUp_out (hvsb : s.pw.sbLow = false) (h : s.pw.extest = false) :
    (s.powerUp quad port true).out = s.out ++ [.pin quad port 0 true] := by
  simp [State.powerUp, hvsb, State.pinPwren_out, h]

/-- The supply of a port does not read as it is switched. -/
theorem State.powerUp_faulty (h : s.stands quad port) (hst : (s.portOf quad port).st ≠ 2) (hport : port < 4) :
    ((s.powerUp quad port false).portOf quad port).pwren = false
      ∧ ((s.powerUp quad port false).quadOf quad).pwrenF.getLsbD port = true
      ∧ ((s.powerUp quad port false).portOf quad port).powerDue = none := by
  have hfault : s.powerUp quad port false = (if s.pw.sbLow then s else s.pinPwren quad port true).pwrenFault quad port := by
    simp [State.powerUp]
  rw [hfault]
  split
  · exact State.pwrenFault_notUp h hst hport
  · exact State.pwrenFault_notUp (by simpa) (by simpa [State.pinPwren_portOf h] using hst) hport

/-! ### PERST_N (R382) -/

/-- PERST_N moves; asserted, it ends the ghosts of the port, of which there are none. -/
theorem State.pinPerst_moves {held : Bool} (hghosts : held → ∀ g ∈ s.dev.ghosts, g.2.quad ≠ quad ∨ g.2.port ≠ port) :
    s.pinPerst quad port held = if isPcie (s.quadOf quad).cfg.mode then
      (s.modPort quad port fun p => { p with perst := held }).drive [.pin quad port 1 (!held)] else s := by
  cases held with
  | false => cases hpcie : isPcie (s.quadOf quad).cfg.mode <;> simp [State.pinPerst, hpcie]
  | true =>
    have hnone : s.dev.ghosts.filter (fun g => g.2.quad = quad && g.2.port = port) = [] := by
      simpa [List.filter_eq_nil_iff, imp_iff_not_or] using hghosts rfl
    cases hpcie : isPcie (s.quadOf quad).cfg.mode <;> simp [State.pinPerst, hpcie, hnone]

theorem State.pinPerst_portOf (h : s.stands quad port) {held : Bool}
    (hghosts : held → ∀ g ∈ s.dev.ghosts, g.2.quad ≠ quad ∨ g.2.port ≠ port) : (s.pinPerst quad port held).portOf quad port
    = { s.portOf quad port with perst := if isPcie (s.quadOf quad).cfg.mode then held else (s.portOf quad port).perst } := by
  rw [State.pinPerst_moves hghosts]
  split
  · simp [State.modPort_portOf h]
  · rfl

theorem State.pinPerst_stands {held : Bool} (hghosts : held → ∀ g ∈ s.dev.ghosts, g.2.quad ≠ quad ∨ g.2.port ≠ port) :
    (s.pinPerst quad port held).stands quad port ↔ s.stands quad port := by
  rw [State.pinPerst_moves hghosts]
  split <;> simp

/-! ### Training (R355) -/

theorem State.train_portOf (h : s.stands quad port) (href : s.refOk quad) : (s.train quad port).portOf quad port
    = { s.portOf quad port with st := 1, retryDue := some (addNs s.time 1000000000) } := by
  simp [State.train, href, State.modPort_portOf h, apply_ite State.portOf]

theorem State.train_out (href : s.refOk quad) (hpcie : isPcie (s.quadOf quad).cfg.mode) : (s.train quad port).out
    = s.out ++ [.train quad port ((s.quadOf quad).cfg.flags.getLsbD 1)] := by
  simp [State.train, href, hpcie, not_isSas_of_isPcie hpcie]

theorem State.train_nolinkF (hq : quad < s.dev.quads.length) (port : Nat) :
    ((s.train quad port).quadOf quad).nolinkF = (s.quadOf quad).nolinkF := by
  unfold State.train
  dsimp only
  (repeat' split) <;> simp [State.modPort_quadOf hq]

/-- A PCIe port whose PERST_N reads back leaves its reset and trains. -/
theorem State.unreset_trains (h : s.stands quad port) (href : s.refOk quad) (hpcie : isPcie (s.quadOf quad).cfg.mode) :
    (s.unreset quad port true).portOf quad port
        = { s.portOf quad port with perst := false, st := 1, retryDue := some (addNs s.time 1000000000) }
      ∧ (s.pw.extest = false → (s.unreset quad port true).out
        = s.out ++ [.pin quad port 1 true, .train quad port ((s.quadOf quad).cfg.flags.getLsbD 1)]) := by
  have hperst : s.pinPerst quad port false
      = (s.modPort quad port fun p => { p with perst := false }).drive [.pin quad port 1 true] := by
    rw [State.pinPerst_moves (held := false) (by simp), if_pos hpcie, Bool.not_false]
  have hunreset : s.unreset quad port true = ((s.pinPerst quad port false).modQuad quad fun q =>
      { q with perstF := setBit4 q.perstF port false }).train quad port := if_neg (by simp)
  rw [hunreset, hperst]
  refine ⟨?_, fun hextest => ?_⟩
  · rw [State.train_portOf (by simpa) (by simpa using href)]
    simp [State.modPort_portOf h]
  · rw [State.train_out (by simpa using href) (by simpa)]
    simp [State.drive_out, hextest]

/-! ### The I2C segment and SGPIO (R383) -/

theorem State.testI2c_portOf (h : s.stands quad port) (ok : Bool) :
    (s.testI2c quad port ok).portOf quad port = { s.portOf quad port with i2cOpen := !ok } := by
  unfold State.testI2c
  split <;> simp [State.modPort_portOf h]

@[simp] theorem State.testI2c_cfg (ok : Bool) : ((s.testI2c quad port ok).quadOf quad).cfg = (s.quadOf quad).cfg := by
  unfold State.testI2c
  split <;> simp

@[simp] theorem State.testI2c_stands (ok : Bool) : (s.testI2c quad port ok).stands quad port ↔ s.stands quad port := by
  unfold State.testI2c
  split <;> simp

/-- The host hears of a new fault alone. -/
theorem State.testI2c_out {ok : Bool} (hknown : ok ∨ (s.quadOf quad).i2cF.getLsbD port) : (s.testI2c quad port ok).out = s.out := by
  simp [State.testI2c, hknown]

@[simp] theorem State.sgpioAgain_portOf (quad q port : Nat) : (s.sgpioAgain quad).portOf q port = s.portOf q port := by
  unfold State.sgpioAgain
  split <;> simp

@[simp] theorem State.sgpioAgain_cfg (quad q : Nat) : ((s.sgpioAgain quad).quadOf q).cfg = (s.quadOf q).cfg := by
  unfold State.sgpioAgain
  split <;> simp

@[simp] theorem State.sgpioAgain_stands (quad q port : Nat) : (s.sgpioAgain quad).stands q port ↔ s.stands q port := by
  unfold State.sgpioAgain
  split <;> simp

end

/-! ## The rows (R382 to R385) -/

section
variable {s : State} {quad port : Nat}

theorem State.quadTimer_notReached {due : Time} (h : reached s.time due = false) : s.quadTimer quad due = false := by
  simp [State.quadTimer, h]

theorem exec_presenceAssert_debounces (hport : s.hasPort quad port) (habsent : (s.portOf quad port).present = false)
    (hidle : (s.portOf quad port).debounce = none) : exec (.presenceAssert quad port) s
      = .next (s.modPort quad port fun p => { p with debounce := some (addNs s.time 10000000) }) :=
  congrArg Host.Outcome.next (if_neg (by simp [hport, habsent, hidle]))

theorem exec_presenceDeassert_forgets (i2c : Bool) (hport : s.hasPort quad port) (habsent : (s.portOf quad port).present = false) :
    exec (.presenceDeassert quad ⟨port, i2c⟩) s = .next (s.modPort quad port fun p => { p with debounce := none }) := by
  refine congrArg Host.Outcome.next ?_
  simp [hport, habsent]

/-- What the end of the debounce makes of a port before its power comes on: its sideband is tested again. -/
def State.presenceSeen (s : State) (quad port : Nat) (i2c : Bool) : State :=
  (((s.modPort quad port fun p => { p with present := true, debounce := none, offDue := none, rerun := true }).modQuad quad fun q =>
    { q with perstF := setBit4 q.perstF port false, nolinkF := setBit4 q.nolinkF port false }).testI2c quad port i2c).sgpioAgain quad

@[simp] theorem State.presenceSeen_sources (i2c : Bool) : (s.presenceSeen quad port i2c).time = s.time
    ∧ (s.presenceSeen quad port i2c).pw = s.pw ∧ ((s.presenceSeen quad port i2c).quadOf quad).cfg = (s.quadOf quad).cfg
    ∧ ((s.presenceSeen quad port i2c).stands quad port ↔ s.stands quad port) := by
  simp [State.presenceSeen]

theorem State.presenceSeen_portOf (h : s.stands quad port) (i2c : Bool) : (s.presenceSeen quad port i2c).portOf quad port
    = { s.portOf quad port with present := true, debounce := none, offDue := none, rerun := true, i2cOpen := !i2c } := by
  simp [State.presenceSeen, State.testI2c_portOf, State.modPort_portOf, h]

theorem State.presenceSeen_out (h : s.stands quad port) {i2c : Bool} (hknown : i2c ∨ (s.quadOf quad).i2cF.getLsbD port) :
    (s.presenceSeen quad port i2c).out = s.out := by
  simp only [State.presenceSeen, State.sgpioAgain_frame]
  rw [State.testI2c_out]
  · simp
  · simpa [State.modQuad_quadOf, State.modPort_quadOf, h.1] using hknown

theorem exec_presenceDebounced_acts {due : Time} (hdue : (s.portOf quad port).debounce = some due) (hacts : s.quadTimer quad due)
    (readbackOk i2c : Bool) : exec (.presenceDebounced quad port readbackOk i2c) s = .next
      ((((s.late due).presenceSeen quad port i2c).powerUp quad port readbackOk).quadIrq quad) := by
  refine congrArg Host.Outcome.next ?_
  simp only [hdue, hacts, Bool.not_true, Bool.false_eq_true, if_false]
  rfl

theorem exec_presenceDebounced_waits {due : Time} (hdue : (s.portOf quad port).debounce = some due)
    (hearly : s.quadTimer quad due = false) (readbackOk i2c : Bool) : exec (.presenceDebounced quad port readbackOk i2c) s = .next s := by
  refine congrArg Host.Outcome.next ?_
  simp only [hdue, hearly, Bool.not_false, if_true]

theorem exec_powerDelayExpiry_acts {due : Time} (hdue : (s.portOf quad port).powerDue = some due) (hacts : s.quadTimer quad due)
    (readbackOk : Bool) : exec (.powerDelayExpiry quad port readbackOk) s
      = .next (((s.late due).modPort quad port fun p => { p with powerDue := none }).unreset quad port readbackOk) := by
  refine congrArg Host.Outcome.next ?_
  simp only [hdue, hacts, Bool.not_true, Bool.false_eq_true, if_false]

theorem exec_presenceDeassert_unplugs (i2c : Bool) (hport : s.hasPort quad port) (hpresent : (s.portOf quad port).present) :
    exec (.presenceDeassert quad ⟨port, i2c⟩) s = .next (s.unplug quad port i2c) := by
  refine congrArg Host.Outcome.next ?_
  simp [hport, hpresent]

/-- What the loss of presence makes of a port before its pins move and its sideband is tested. -/
def State.presenceGone (s : State) (quad port : Nat) : State :=
  (s.modPort quad port fun p => { p with
    st := 0, present := false, powerDue := none, retryDue := none, pollDue := none, offDue := some (addNs s.time 10000000)
    running := false, rerun := true, mgmt := p.mgmt &&& 0xFFFFFF#25 }).modQuad quad fun q =>
      { q with nolinkF := setBit4 q.nolinkF port false }

theorem State.unplug_notUp (hst : (s.portOf quad port).st ≠ 2) (i2c : Bool) : s.unplug quad port i2c
    = ((((s.presenceGone quad port).pinPerst quad port true).testI2c quad port i2c).sgpioAgain quad).quadIrq quad := by
  have hdown : (if (s.portOf quad port).st = 2 then (s.linkLost quad port 0).signal 4 else s) = s := if_neg hst
  rw [State.unplug, hdown]
  rfl

/-- What the removal of a device leaves of a port whose link is not up. -/
theorem State.unplug_portOf (h : s.stands quad port) (hst : (s.portOf quad port).st ≠ 2)
    (hghosts : ∀ g ∈ s.dev.ghosts, g.2.quad ≠ quad ∨ g.2.port ≠ port) (i2c : Bool) : (s.unplug quad port i2c).portOf quad port
      = { s.portOf quad port with
          st := 0, present := false, powerDue := none, retryDue := none, pollDue := none
          offDue := some (addNs s.time 10000000), running := false, rerun := true
          mgmt := (s.portOf quad port).mgmt &&& 0xFFFFFF#25
          perst := if isPcie (s.quadOf quad).cfg.mode then true else (s.portOf quad port).perst, i2cOpen := !i2c } := by
  have hgone : (s.presenceGone quad port).stands quad port := by simpa [State.presenceGone]
  have hperst := (State.pinPerst_stands (s := s.presenceGone quad port) (held := true) fun _ => hghosts).2 hgone
  simp only [State.unplug_notUp hst, State.quadIrq_records, State.sgpioAgain_portOf]
  rw [State.testI2c_portOf hperst, State.pinPerst_portOf hgone fun _ => hghosts]
  simp [State.presenceGone, State.modPort_portOf h]

theorem exec_pwrenOffDelayExpiry_acts {due : Time} {u : State} (hdue : (s.portOf quad port).offDue = some due)
    (hacts : s.quadTimer quad due)
    (hu : u = ((s.late due).modPort quad port fun p => { p with offDue := none, pollDue := none }).pinPwren quad port false) (ok : Bool) :
    exec (.pwrenOffDelayExpiry quad ⟨port, ok⟩) s = .next (if ok then u else u.pwrenFault quad port) := by
  subst hu
  refine congrArg Host.Outcome.next ?_
  simp only [hdue, hacts, Bool.not_true, Bool.false_eq_true, if_false]

theorem exec_pwrenOffDelayExpiry_waits {due : Time} (hdue : (s.portOf quad port).offDue = some due)
    (hearly : s.quadTimer quad due = false) (ok : Bool) : exec (.pwrenOffDelayExpiry quad ⟨port, ok⟩) s = .next s := by
  refine congrArg Host.Outcome.next ?_
  simp only [hdue, hearly, Bool.not_false, if_true]

theorem exec_nolinkRetry_trains {due : Time} {u : State} (hdue : (s.portOf quad port).retryDue = some due) (hacts : s.quadTimer quad due)
    (hst : (s.portOf quad port).st = 1 ∨ (s.portOf quad port).st = 3) (hpwren : (s.portOf quad port).pwren)
    (hu : u = (s.late due).modQuad quad fun q => { q with nolinkF := setBit4 q.nolinkF port true }) :
    exec (.nolinkRetry quad port) s
      = .next ((if (s.quadOf quad).nolinkF.getLsbD port then u else (u.quadIrq quad).signal 4).train quad port) := by
  subst hu
  refine congrArg Host.Outcome.next ?_
  simp only [hdue]
  exact if_neg (by simpa [hacts, hpwren, or_iff_not_imp_left] using hst)

theorem exec_sgpioFrame_sends {due : Time} {u : State} (hdue : (s.quadOf quad).sgpioDue = some due) (hacts : s.quadTimer quad due)
    (hon : (s.quadOf quad).cfg.flags.getLsbD 3) (hsound : (s.quadOf quad).sgpioF = false)
    (hu : u = if s.pw.sbLow then s.late due else (s.late due).emit (.sgpio quad (s.sgpioBits quad))) (readbackOk : Bool) :
    exec (.sgpioFrame quad readbackOk) s = .next (if readbackOk && !s.pw.sbLow then
        u.modQuad quad fun q => { q with sgpioDue := some (addNs s.time 10000000) }
      else ((u.modQuad quad fun q => { q with sgpioF := true, sgpioDue := none }).quadIrq quad).signal 4) := by
  subst hu
  refine congrArg Host.Outcome.next ?_
  simp only [hdue]
  exact if_neg (by simp [hacts, hon, hsound])

/-- A port after a management read: the answer stays, and the next read is due a second later. -/
def Port.polled (p : Port) (now : Time) (resp : Option (BitVec 24)) : Port :=
  { p with
    pollDue := some (addNs now 1000000000)
    mgmt := match (if p.i2cOpen then none else resp) with
      | some r => r.setWidth 25 ||| 0x1000000#25
      | none => p.mgmt &&& 0xFFFFFF#25 }

theorem Port.polled_closed {p : Port} (h : p.i2cOpen = false) (now : Time) (resp : BitVec 24) : p.polled now (some resp)
    = { p with pollDue := some (addNs now 1000000000), mgmt := resp.setWidth 25 ||| 0x1000000#25 } := by
  simp [Port.polled, h]

theorem exec_mgmtPoll_reads {due : Time} (hdue : (s.portOf quad port).pollDue = some due) (hacts : s.quadTimer quad due)
    (hpwren : (s.portOf quad port).pwren) (hclosed : (s.portOf quad port).i2cOpen = false) (resp : Option (BitVec 24)) :
    exec (.mgmtPoll quad port resp) s
      = .next (((s.late due).modPort quad port (·.polled s.time resp)).emit (.i2c quad port)) := by
  refine congrArg Host.Outcome.next ?_
  simp only [hdue, hacts, hpwren, hclosed, Bool.not_true, Bool.or_self, Bool.false_eq_true, if_false]
  rfl

end

end Sys2Proof.Machine

open Sys2Proof.Machine in
/-- Settles O43: each row acts once its timer is due, and the lemmas on pins, tests and training say what it makes of the port. -/
theorem portPowerAndSideband : Obligations.PortPowerAndSideband := by
  unfold Obligations.PortPowerAndSideband
  intro s quad port
  refine ⟨fun hport habsent hidle => exec_presenceAssert_debounces hport habsent hidle,
    fun due i2c hdue hacts => ⟨fun hvsb => ?debounced, fun hlt hst => ?faulty⟩,
    fun due hdue hacts hpcie href => ?released,
    fun i2c hport habsent => exec_presenceDeassert_forgets i2c hport habsent,
    fun i2c hport hpresent hst hghosts => ?removed,
    fun due hdue hacts => ⟨?off, fun hlt hst => ?stuck⟩,
    fun due hdue hacts hst hpwren href hlt => ?retried,
    fun due hdue hacts hon hsound => ⟨fun hvsb => ?frame, ?differs⟩,
    fun due resp hdue hacts hpwren hclosed => ?polled,
    fun due hearly hdebounce hoff => ?early⟩
  case debounced =>
    have hstands : s.stands quad port := State.stands_of_ne Port.debounce (by simp [hdue, Port.reset])
    have hseen : ((s.late due).presenceSeen quad port i2c).stands quad port := by simpa
    obtain ⟨poll, hport⟩ := State.powerUp_on hseen (by simpa)
    refine ⟨_, exec_presenceDebounced_acts hdue hacts true i2c, ?_⟩
    simp only [State.quadIrq_records]
    rw [hport, State.presenceSeen_portOf (by simpa)]
    refine ⟨rfl, rfl, rfl, rfl, by simp, fun hknown hextest => ?_⟩
    have hout := State.powerUp_out (s := (s.late due).presenceSeen quad port i2c) (quad := quad) (port := port) (by simpa) (by simpa)
    rw [State.presenceSeen_out (by simpa) (by simpa using hknown)] at hout
    simpa using hout
  case faulty =>
    have hstands : s.stands quad port := State.stands_of_ne Port.debounce (by simp [hdue, Port.reset])
    refine ⟨_, exec_presenceDebounced_acts hdue hacts false i2c, ?_⟩
    have hfaulty := State.powerUp_faulty (s := (s.late due).presenceSeen quad port i2c) (quad := quad) (port := port) (by simpa)
      (by simpa [State.presenceSeen_portOf, hstands] using hst) hlt
    simpa using hfaulty
  case released =>
    have hstands : s.stands quad port := State.stands_of_ne Port.powerDue (by simp [hdue, Port.reset])
    refine ⟨_, exec_powerDelayExpiry_acts hdue hacts true, ?_⟩
    obtain ⟨hportOf, hout⟩ := State.unreset_trains (s := (s.late due).modPort quad port fun p => { p with powerDue := none })
      (quad := quad) (port := port) (by simpa) (by simpa) (by simpa)
    rw [hportOf]
    refine ⟨rfl, rfl, by simp [State.modPort_portOf, hstands], by simp, fun hextest => ?_⟩
    rw [hout (by simpa)]
    simp
  case removed =>
    have hstands : s.stands quad port := State.stands_of_ne Port.present (by simp [hpresent, Port.reset])
    refine ⟨_, exec_presenceDeassert_unplugs i2c hport hpresent, ?_⟩
    dsimp only
    rw [State.unplug_portOf hstands hst hghosts i2c]
    exact ⟨rfl, rfl, rfl, rfl, rfl⟩
  case off =>
    have hstands : s.stands quad port := State.stands_of_ne Port.offDue (by simp [hdue, Port.reset])
    refine ⟨_, exec_pwrenOffDelayExpiry_acts hdue hacts rfl true, ?_⟩
    dsimp only
    rw [if_pos rfl, State.pinPwren_portOf (by simpa), State.modPort_portOf (by simpa)]
    refine ⟨rfl, rfl, fun hextest => ?_⟩
    rw [State.pinPwren_out (by simpa)]
    simp
  case stuck =>
    have hstands : s.stands quad port := State.stands_of_ne Port.offDue (by simp [hdue, Port.reset])
    refine ⟨_, exec_pwrenOffDelayExpiry_acts hdue hacts rfl false, ?_⟩
    dsimp only
    rw [if_neg Bool.false_ne_true]
    obtain ⟨hpwren, hmarked, -⟩ := State.pwrenFault_notUp (quad := quad) (port := port)
      (s := ((s.late due).modPort quad port fun p => { p with offDue := none, pollDue := none }).pinPwren quad port false)
      (by simpa) (by simpa [State.pinPwren_portOf, State.modPort_portOf, hstands] using hst) hlt
    exact ⟨hpwren, hmarked⟩
  case retried =>
    have hstands : s.stands quad port := State.stands_of_ne Port.retryDue (by simp [hdue, Port.reset])
    refine ⟨_, exec_nolinkRetry_trains hdue hacts hst hpwren rfl, ?_⟩
    split
    case isTrue hknown =>
      rw [State.train_portOf (by simpa) (by simpa), State.train_nolinkF (by simpa using hstands.1)]
      refine ⟨?_, rfl, by simp, fun _ hpcie => ?_⟩
      · simp [State.modQuad_quadOf, hstands.1, setBit4_getLsbD hlt]
      · rw [State.train_out (by simpa) (by simpa)]
        simp
    case isFalse hnew =>
      rw [State.train_portOf (by simpa) ((State.refOk_of_pw (s := s.late due) (by simp) quad).trans href),
        State.train_nolinkF (by simpa using hstands.1)]
      refine ⟨?_, rfl, by simp, fun hknown => absurd hknown hnew⟩
      simp [State.modQuad_quadOf, hstands.1, setBit4_getLsbD hlt]
  case frame =>
    have hquad : quad < s.dev.quads.length := State.quad_lt_of_ne fun hreset => by simp [hreset, Quad.reset] at hdue
    refine ⟨_, exec_sgpioFrame_sends hdue hacts hon hsound rfl true, ?_⟩
    simp [hvsb, State.modQuad_quadOf, hquad]
  case differs =>
    have hquad : quad < s.dev.quads.length := State.quad_lt_of_ne fun hreset => by simp [hreset, Quad.reset] at hdue
    refine ⟨_, exec_sgpioFrame_sends hdue hacts hon hsound rfl false, ?_⟩
    simp [State.modQuad_quadOf, hquad, apply_ite State.dev]
  case polled =>
    have hstands : s.stands quad port := State.stands_of_ne Port.pollDue (by simp [hdue, Port.reset])
    refine ⟨_, exec_mgmtPoll_reads hdue hacts hpwren hclosed (some resp), ?_⟩
    simp [State.modPort_portOf, hstands, Port.polled_closed, hclosed]
  case early =>
    have hwaits : s.quadTimer quad due = false := State.quadTimer_notReached hearly
    exact ⟨exec_presenceDebounced_waits hdebounce hwaits true true, exec_pwrenOffDelayExpiry_waits hoff hwaits true⟩

/-! # Links, lanes and messages of a port (O44) -/

namespace Sys2Proof.Machine

/-! ## Links that come up, and that rest (R356, R380, R386) -/

@[simp] theorem State.portChanged_dev (s before : State) (quad port : Nat) : (s.portChanged before quad port).dev = s.dev := by
  simp [State.portChanged, apply_ite State.dev]

@[simp] theorem State.portChanged_out (s before : State) (quad port : Nat) : (s.portChanged before quad port).out = s.out := by
  simp [State.portChanged, apply_ite State.out]

@[simp] theorem State.portChanged_records (s before : State) (quad port : Nat) :
    (s.portChanged before quad port).quadOf = s.quadOf ∧ (s.portChanged before quad port).portOf = s.portOf
      ∧ (s.portChanged before quad port).stands = s.stands :=
  State.records_of_dev (by simp)

@[simp] theorem State.miswire_nil (s : State) (quad : Nat) : s.miswire quad [] = s := rfl

@[simp] theorem State.miswire_portOf (s : State) (quad q p : Nat) (foreign : List Nat) :
    (s.miswire quad foreign).portOf q p = s.portOf q p := by
  unfold State.miswire
  split
  · rfl
  · simp

@[simp] theorem State.miswire_exch (s : State) (quad : Nat) (foreign : List Nat) :
    (s.miswire quad foreign).dev.exch = s.dev.exch := by
  unfold State.miswire
  split
  · rfl
  · simp

/-- The state of a port as its link comes up. -/
def State.risen (s : State) (quad port rate width : Nat) (f : Quad → Quad) : State :=
  ((s.modQuad quad f).modPort quad port fun p =>
    { p with st := 2, rate := rate, width := width, retryDue := none, rerun := true }).linkPower quad port

section
variable {s : State} {quad port : Nat}

theorem State.linkPower_portOf (h : s.stands quad port) :
    (s.linkPower quad port).portOf quad port = { s.portOf quad port with pm := (s.quadOf quad).cfg.lpm, used := s.time } := by
  simp [State.linkPower, State.modPort_portOf h]

theorem State.risen_portOf (h : s.stands quad port) (rate width : Nat)
    {f : Quad → Quad} (hports : ∀ x, (f x).ports = x.ports) (hcfg : ∀ x, (f x).cfg = x.cfg) :
    (s.risen quad port rate width f).portOf quad port = { s.portOf quad port with
      st := 2, rate := rate, width := width, retryDue := none, rerun := true, pm := (s.quadOf quad).cfg.lpm, used := s.time } := by
  simp [State.risen, State.linkPower_portOf, State.modPort_portOf, h, hports, hcfg]

theorem State.risen_out (quad port rate width : Nat) {f : Quad → Quad} (hcfg : ∀ x, (f x).cfg = x.cfg) :
    (s.risen quad port rate width f).out = s.out ++ [.linkPower quad port (s.quadOf quad).cfg.lpm (!(s.quadOf quad).cfg.lpm)] := by
  simp [State.risen, State.linkPower, State.emit, hcfg]

@[simp] theorem State.risen_exch (rate width : Nat) (f : Quad → Quad) :
    (s.risen quad port rate width f).dev.exch = s.dev.exch := rfl

theorem not_isPcie_of_isSas {mode : Nat} (h : isSas mode) : isPcie mode = false :=
  Bool.eq_false_iff.2 fun hpcie => by simp [not_isSas_of_isPcie hpcie] at h

/-- A link at the highest rate that its ends share brings its port up; `f` is what its training leaves in its lanes. -/
theorem exec_portLinkUp_rises {rate : LinkRate} {lanes : List TrainedLane} {use : List Nat × Bool}
    (hst : (s.portOf quad port).st = 1) (href : s.refOk quad) (hrate : rateOk (s.quadOf quad).cfg rate.reached)
    (huse : use = linkLanes (s.quadOf quad).cfg.mode port lanes) (hsome : use.1 ≠ [])
    (hshared : rate.reached = (s.quadOf quad).cfg.shared rate.partner) :
    ∃ f foreign t, (∀ x, (f x).ports = x.ports) ∧ (∀ x, (f x).cfg = x.cfg)
      ∧ (isPcie (s.quadOf quad).cfg.mode → foreign = [])
      ∧ t = (((s.risen quad port rate.reached use.1.length f).miswire quad foreign).portChanged s quad port).quadIrq quad
      ∧ exec (.portLinkUp quad port rate lanes) s
        = .next (if isPcie (s.quadOf quad).cfg.mode then t.emit (.timeoutRange quad port) else t) := by
  subst huse
  refine ⟨_, _, _, ?ports, ?cfg, ?foreign, rfl, congrArg Host.Outcome.next (if_neg ?comes)⟩
  case comes => simp [hst, href, hrate, hsome, ← hshared]
  case ports => exact fun _ => rfl
  case cfg => exact fun _ => rfl
  case foreign => exact fun hpcie => if_neg (by simp [not_isSas_of_isPcie hpcie])

/-- A link that rests leaves its low-power state with a frame. -/
theorem State.usePort_wakes (hup : s.portUp quad port) (hpm : (s.portOf quad port).pm)
    (hrests : reached s.time (addNs (s.portOf quad port).used 100000)) :
    (s.usePort quad port).out = s.out ++ [.linkWake quad port] ∧ ((s.usePort quad port).portOf quad port).used = s.time := by
  obtain ⟨hst, -⟩ : (s.portOf quad port).st = 2 ∧ _ := by simpa [State.portUp] using hup
  have hstands : s.stands quad port := State.stands_of_ne Port.st (by simp [hst, Port.reset])
  have hwakes : (s.portOf quad port).rests s.time = true := by simp [Port.rests, hpm, hst, hrests]
  rw [State.usePort, if_pos hwakes]
  exact ⟨rfl, by rw [State.modPort_portOf (by simpa)]⟩

end

/-! ## Lanes (R379, R380) -/

theorem State.loseLane_notUp {s : State} {quad port : Nat} (hst : (s.portOf quad port).st ≠ 2) (lane : Nat) :
    s.loseLane quad port lane = s.modQuad quad fun q => { q with conns := q.conns.filter fun c => c.phy ≠ lane } :=
  if_pos hst

section
variable {s : State} {quad port lane : Nat} (hlane : portOfLane (s.quadOf quad).cfg.mode lane = some port)
include hlane

theorem exec_laneFault_polarity : exec (.laneFault quad lane .polarity) s = .next ((s.modQuad quad fun q => { q with
    lanes := modAt q.lanes lane fun l => { l with polinv := true } }).irq (64 + quad)) := by
  refine congrArg Host.Outcome.next ?_
  simp only [hlane]
  rfl

/-- A reversed order is corrected on a root port of more than one lane. -/
theorem exec_laneFault_reversed : exec (.laneFault quad lane .reversed) s = .next
    (if isPcie (s.quadOf quad).cfg.mode && 1 < (modeLanes (s.quadOf quad).cfg.mode port).length then
      (s.modQuad quad fun q => { q with lanes := modAt q.lanes lane fun l => { l with rev := true } }).irq (64 + quad)
    else s) := by
  refine congrArg Host.Outcome.next ?_
  simp only [hlane]
  rfl

theorem exec_laneFault_rate : exec (.laneFault quad lane .rate) s = .next ((((s.modQuad quad fun q => { q with
    lanes := modAt q.lanes lane fun l => { l with code := 3 } }).irq (64 + quad)).capacity (3 + quad)).signal 4) := by
  refine congrArg Host.Outcome.next ?_
  simp only [hlane]
  rfl

theorem exec_laneFault_short (hst : (s.portOf quad port).st ≠ 2) : exec (.laneFault quad lane .short) s
    = .next (((((s.modQuad quad fun q => { q with
        lanes := modAt q.lanes lane fun l => { l with code := 1, inuse := false, off := false } }).irq (64 + quad)).modQuad quad fun q =>
          { q with conns := q.conns.filter fun c => c.phy ≠ lane }).event (32 + quad) 5 8 quad port 1 0).signal 4) := by
  have hkeeps : ((((s.modQuad quad fun q => { q with
      lanes := modAt q.lanes lane fun l => { l with code := 1, inuse := false, off := false } }).irq
        (64 + quad)).portOf quad port).st) ≠ 2 := by
    simpa using hst
  rw [← State.loseLane_notUp hkeeps lane]
  refine congrArg Host.Outcome.next ?_
  simp only [hlane]
  rfl

end

/-! ## Messages of devices (R359, R361, R368) -/

section
variable {s : State} {quad port : Nat}

theorem exec_errCorMessage_counts (h : s.rootUp quad port) :
    exec (.errCorMessage quad port) s = .next (s.modQuad quad fun q => { q with corMsg := inc16 q.corMsg }) :=
  congrArg Host.Outcome.next (if_pos h)

theorem exec_errNonfatalMessage_records (h : s.rootUp quad port) : exec (.errNonfatalMessage quad port) s
    = .next ((s.event (32 + quad) 5 4 quad port 0 0).emit (.aerClear quad port)) :=
  congrArg Host.Outcome.next (if_pos h)

theorem exec_nvmeAsyncEvent_reruns (h : s.rootUp quad port) (hctrls : (s.portOf quad port).ctrls ≠ []) :
    exec (.nvmeAsyncEvent quad port) s = .next ((s.modPort quad port fun p => { p with rerun := true }).irq (64 + quad)) :=
  congrArg Host.Outcome.next (if_pos (by simp [h, hctrls]))

theorem exec_sasBroadcastChange_reruns (h : s.portUp quad port) (hsas : isSas (s.quadOf quad).cfg.mode) :
    exec (.sasBroadcastChange quad port) s = .next ((s.modPort quad port fun p => { p with rerun := true }).irq (64 + quad)) :=
  congrArg Host.Outcome.next (if_pos (by simp [h, hsas]))

end

end Sys2Proof.Machine

open Sys2Proof.Machine in
/-- Settles O44: a link that comes up leaves its port as `State.risen_portOf` says, and what follows in its step keeps that; lane faults and
messages are branches of their rows. -/
theorem portLinksAndLanes : Obligations.PortLinksAndLanes := by
  unfold Obligations.PortLinksAndLanes
  intro s quad port
  refine ⟨fun rate lanes use hst href hrate huse hsome hshared => ?rises, fun hup hpm hrests => State.usePort_wakes hup hpm hrests,
    fun lane hlane => ⟨exec_laneFault_polarity hlane, fun hpcie hwide => ?corrected, fun hsas => ?ordered, exec_laneFault_rate hlane,
      fun hst => exec_laneFault_short hlane hst⟩,
    fun h => ⟨exec_errCorMessage_counts h, exec_errNonfatalMessage_records h, fun hctrls => exec_nvmeAsyncEvent_reruns h hctrls⟩,
    fun h hsas => exec_sasBroadcastChange_reruns h hsas⟩
  case rises =>
    have hstands : s.stands quad port := State.stands_of_ne Port.st (by simp [hst, Port.reset])
    obtain ⟨f, foreign, t, hports, hcfg, hforeign, ht, hexec⟩ := exec_portLinkUp_rises hst href hrate huse hsome hshared
    refine ⟨_, hexec, ?_⟩
    have hport : t.portOf quad port = (s.risen quad port rate.reached use.1.length f).portOf quad port := by simp [ht]
    have hexch : t.dev.exch = s.dev.exch := by simp [ht]
    rw [State.risen_portOf hstands _ _ hports hcfg] at hport
    have hrecords : ∀ o, (t.emit o).portOf quad port = t.portOf quad port := by simp
    dsimp only
    split
    case isTrue hpcie =>
      rw [hrecords, hport]
      refine ⟨rfl, rfl, rfl, rfl, rfl, rfl, rfl, fun _ => ?_, by simpa using hexch⟩
      simp [ht, hforeign hpcie, State.emit, State.risen_out _ _ _ _ hcfg, QuadRec.lpm]
    case isFalse hsas =>
      rw [hport]
      exact ⟨rfl, rfl, rfl, rfl, rfl, rfl, rfl, fun hpcie => absurd hpcie hsas, hexch⟩
  case corrected => rw [exec_laneFault_reversed hlane, if_pos (by simp [hpcie, hwide])]
  case ordered => rw [exec_laneFault_reversed hlane, if_neg (by simp [not_isPcie_of_isSas hsas])]

/-! # Sideband retries while VSB33 is low (O45)

While VSB33 is below its range the drivers of the sideband are released (R520): the retry of a PWREN fault at a port with a device
switches no power on and finds the fault again, whatever its test reports. Such a fault arises where PRSNT_N goes low while VSB33 is low:
presence is debounced, and the power that does not come is a fault. -/

namespace Sys2Proof.Machine

open Sys2Proof.Safety

theorem exec_sbretry_tests {s : State} (h : Serves s) {quad : Nat} (hquad : quad < 32) (still : BitVec 17) :
    exec (.sbretry quad still) s = .next (s.retrySideband quad still) := by
  refine congrArg Host.Outcome.next ?_
  rw [State.bar0Write_serves h, if_neg (by simp [h.1, hquad])]

/-- The host is served and VSB33 is low; port 0 of quad 8, a PCIe port, has its device and a PWREN fault. -/
def lowSideband : State :=
  { State.reset with
    link := { Link.reset with ep := .normal, mse := true }
    pw := { Power.reset with released := true, pwrok := true, xtalOk := true, supUp := true, sbLow := true }
    dev := { Devices.reset with
      quads := modAt Devices.reset.quads 8 fun _ =>
        { Quad.reset with
          cfg := { QuadRec.off with mode := 2 }
          ports := modAt Quad.reset.ports 0 fun p => { p with st := 3, present := true }
          pwrenF := 1 } } }

theorem lowSideband_serves : Serves lowSideband := by decide +kernel

/-- The retry whose tests all pass leaves the PWREN fault. -/
theorem lowSideband_retried : ((lowSideband.retrySideband 8 0).quadOf 8).pwrenF.getLsbD 0 = true := by decide +kernel

end Sys2Proof.Machine

open Sys2Proof.Machine in
/-- Refutes O45: SBRETRY with every test passed, at a port with a device and a PWREN fault while VSB33 is low, leaves the fault as it is;
the statement says that the retry clears it. -/
theorem not_discoveryAndQuadResets : ¬ Obligations.DiscoveryAndQuadResets := by
  unfold Obligations.DiscoveryAndQuadResets
  intro h
  obtain ⟨-, -, -, -, -, hretry⟩ := h lowSideband 8 0
  obtain ⟨t, hexec, hcleared⟩ := hretry 0 lowSideband_serves (by decide)
  rw [exec_sbretry_tests lowSideband_serves (by decide)] at hexec
  cases hexec
  obtain ⟨-, -, hpwren, -⟩ := hcleared 0 (by decide)
  exact absurd (lowSideband_retried.symm.trans hpwren) (by simp)

/-! # Steps, and the queue of the waiting commands (O55, O56, O57) -/

namespace Sys2Proof.Machine

/-! ## The rows that can start device time again -/

theorem execPowerOn_completes (s : State) : ∃ t, execPowerOn s = .next t ∧ t.pending = s.pending :=
  ⟨_, rfl, by split <;> simp [State.powerOn]⟩

theorem execPwrokRise_completes (s : State) : ∃ t, execPwrokRise s = .next t ∧ t.pending = s.pending :=
  ⟨_, rfl, by dsimp only; (repeat' split) <;> simp⟩

theorem execRailOutOfRange_completes (f : RailFault) (s : State) :
    ∃ t, execRailOutOfRange f s = .next t ∧ t.pending = s.pending :=
  ⟨_, rfl, by dsimp only; (repeat' split) <;> simp⟩

theorem execRailReturn_completes (rail : Rail) (s : State) : ∃ t, execRailReturn rail s = .next t ∧ t.pending = s.pending :=
  ⟨_, rfl, by dsimp only; (repeat' split) <;> simp [State.powerOn]⟩

theorem execCrystalReturn_completes (s : State) : ∃ t, execCrystalReturn s = .next t ∧ t.pending = s.pending :=
  ⟨_, rfl, by dsimp only; (repeat' split) <;> simp⟩

/-! ## Every row -/

theorem KeepsTimeAndQueue.completes {s : State} {r : Res} (h : KeepsTimeAndQueue s r) : ∃ t, r = .next t ∧ t.pending = s.pending := by
  obtain ⟨t, hr, -, hpending⟩ := h
  exact ⟨t, hr, hpending⟩

theorem exec_completes (c : Instr) (s : State) : ∃ t, exec c s = .next t ∧ t.pending = s.pending := by
  cases c
  case powerOn => exact execPowerOn_completes s
  case pwrokRise => exact execPwrokRise_completes s
  case crystalReturn => exact execCrystalReturn_completes s
  case railOutOfRange f => exact execRailOutOfRange_completes f s
  case railReturn rail => exact execRailReturn_completes rail s
  case opNop | opEnd | opMove | opAdd | opSub | opMul | opDiv | opNeg | opAnd | opOr | opXor | opAndn | opShl | opShr
      | opSar | opCmp | opTst | opTtag | opGtag | opCvt | opOffs | opExts | opRdcc | opStat | opBcc | opBds | opBal |
      opLdh | opLdhr | opSth | opSthr | opLdg | opStg | opSegaddr | opDevh | opRpt | opMovb | opCmpb | opScnb | opFilb
      | opTas | opLrs | opScs | opCommit | opWaith | opWaitg | opRead | opWrite | opControl | opSense | opNvme |
      opScsi | opPmem | customerInstruction | undefinedOpcode | privilegedOpcode =>
    exact (s.opRow_keeps _ _ _).completes
  all_goals exact KeepsTimeAndQueue.completes (by simp [exec])

end Sys2Proof.Machine

open Sys2Proof.Machine in
/-- Settles O57: the rows that may start device time again leave the queue alone as well. -/
theorem everyCommandCompletes : Obligations.EveryCommandCompletes := exec_completes

/-- Settles O55. -/
theorem stepRunsFrontCommand : Obligations.StepRunsFrontCommand := fun _ _ => rfl

open Sys2Proof.Machine in
/-- Settles O56: an empty queue leaves the tick alone, and the table of the words is empty. -/
theorem idleStepAndWords : Obligations.IdleStepAndWords := by
  refine ⟨fun s hidle => ?_, fun _ _ => rfl, fun _ _ _ => rfl⟩
  have hstep : step s = .next (tick s) := by simp [step, hidle]
  rw [hstep]
  refine ⟨fun hrel hlock => ?_, fun hrel hlock => ?_, fun hrel => ?_⟩ <;> simp [tick, *]

open Sys2Proof.Machine in
/-- Settles O59. -/
theorem resetKeepsInvariant : Obligations.ResetKeepsInvariant where
  scratch := reset_scratch_wf
  contexts := reset_contexts_wf
  quads := by simp [State.reset, Devices.reset]
  fifos := by simp [State.reset, Dma.reset]
  clusters := by simp [State.reset, Power.reset]
  lines := by simp [State.reset, Tally.reset]
  boxes := by simp [State.reset, Mail.reset]
  senders := by simp [State.reset, Mail.reset]

/-! # The invariant (O60)

`Inv` speaks of seven blocks of the state: the two memories and the banks of a fixed size. For every operation one lemma, whose name
ends in `_inv`, says that its result is in form if the state was. It is stated as an equivalence, with the case that the operation
mends a state which was not in form on the right: so `simp` passes `Inv` down through any number of operations to the state that they
started from. -/

namespace Sys2Proof.Machine

open Sys2Proof.Safety

/-- The state `s` is not in form, and `t` is. -/
def Mends (s t : State) : Prop := ¬Inv s ∧ Inv t

/-- An operation that leads from `s` to `t` keeps the invariant. -/
abbrev KeepsInv (s t : State) : Prop := Inv t ↔ Inv s ∨ Mends s t

theorem keepsInv {s t : State} (h : Inv s → Inv t) : KeepsInv s t := by
  unfold KeepsInv Mends
  tauto

/-- Two states with the same memories, and banks of the same sizes. -/
theorem inv_congr {s t : State} (hgs : t.sx.gs = s.sx.gs) (hctx : t.sub.ctx = s.sub.ctx)
    (hquads : t.dev.quads.length = s.dev.quads.length) (hfifos : t.dma.fifos.length = s.dma.fifos.length)
    (hclusters : t.pw.clusters.length = s.pw.clusters.length) (hlines : t.tally.lines.length = s.tally.lines.length)
    (hboxes : t.mail.boxes.length = s.mail.boxes.length) (hsenders : t.mail.senders.length = s.mail.senders.length) :
    Inv t ↔ Inv s := by
  constructor
  · rintro ⟨⟩
    constructor <;> simp_all
  · rintro ⟨⟩
    constructor <;> simp_all

@[simp] theorem inv_ite (c : Prop) [Decidable c] (s t : State) : Inv (if c then s else t) ↔ if c then Inv s else Inv t := by
  split <;> rfl

/-- An operation over a list. -/
@[simp] theorem foldl_inv {α : Type} (f : State → α → State) (s : State) (l : List α) (h : ∀ (t : { t // Inv t }) a, Inv (f t a)) :
    KeepsInv s (l.foldl f s) := by
  refine keepsInv fun hs => ?_
  induction l generalizing s with
  | nil => exact hs
  | cons a l ih => exact ih _ (h ⟨s, hs⟩ a)

/-- An operation done a number of times. -/
@[simp] theorem iter_inv (f : State → State) (n : Nat) (s : State) (h : ∀ t : { t // Inv t }, Inv (f t)) :
    KeepsInv s (State.iter n f s) := by
  refine keepsInv fun hs => ?_
  induction n generalizing s with
  | zero => exact hs
  | succ n ih => exact ih _ (h ⟨s, hs⟩)

@[simp] theorem inv_of_val (t : { t // Inv t }) : Inv t := t.2

/-! ## Updates of one block -/

section
variable (s : State)

@[simp] theorem State.onLink_inv (f : Link → Link) : Inv (s.onLink f) ↔ Inv s := inv_congr rfl rfl rfl rfl rfl rfl rfl rfl
@[simp] theorem State.onQ_inv (f : Queues → Queues) : Inv (s.onQ f) ↔ Inv s := inv_congr rfl rfl rfl rfl rfl rfl rfl rfl
@[simp] theorem State.onMd_inv (f : Meridian → Meridian) : Inv (s.onMd f) ↔ Inv s := inv_congr rfl rfl rfl rfl rfl rfl rfl rfl
@[simp] theorem State.onPl_inv (f : Plinth → Plinth) : Inv (s.onPl f) ↔ Inv s := inv_congr rfl rfl rfl rfl rfl rfl rfl rfl
@[simp] theorem State.onIc_inv (f : Ic → Ic) : Inv (s.onIc f) ↔ Inv s := inv_congr rfl rfl rfl rfl rfl rfl rfl rfl
@[simp] theorem State.onIcPl_inv (f : Ic → Ic) : Inv (s.onIcPl f) ↔ Inv s := inv_congr rfl rfl rfl rfl rfl rfl rfl rfl
@[simp] theorem State.emit_inv (o : Out) : Inv (s.emit o) ↔ Inv s := inv_congr rfl rfl rfl rfl rfl rfl rfl rfl
@[simp] theorem State.emits_inv (os : List Out) : Inv (s.emits os) ↔ Inv s := inv_congr rfl rfl rfl rfl rfl rfl rfl rfl
@[simp ↓] theorem inv_fresh (n : Nat) : Inv { s with fresh := n } ↔ Inv s := inv_congr rfl rfl rfl rfl rfl rfl rfl rfl
@[simp ↓] theorem inv_time (t : Time) : Inv { s with time := t } ↔ Inv s := inv_congr rfl rfl rfl rfl rfl rfl rfl rfl
@[simp ↓] theorem inv_pending (l : List Instr) : Inv { s with pending := l } ↔ Inv s := inv_congr rfl rfl rfl rfl rfl rfl rfl rfl

@[simp] theorem State.onSub_inv (f : Subch → Subch) (h : ∀ b, (f b).ctx = b.ctx) : Inv (s.onSub f) ↔ Inv s :=
  inv_congr rfl (h _) rfl rfl rfl rfl rfl rfl

@[simp] theorem State.onSx_inv (f : Sirax → Sirax) (h : ∀ x, (f x).gs = x.gs) : Inv (s.onSx f) ↔ Inv s :=
  inv_congr (h _) rfl rfl rfl rfl rfl rfl rfl

@[simp] theorem State.onDma_inv (f : Dma → Dma) (h : ∀ d, (f d).fifos.length = d.fifos.length) :
    Inv (s.onDma f) ↔ Inv s :=
  inv_congr rfl rfl rfl (h _) rfl rfl rfl rfl

@[simp] theorem State.onDev_inv (f : Devices → Devices) (h : ∀ d, (f d).quads.length = d.quads.length) :
    Inv (s.onDev f) ↔ Inv s :=
  inv_congr rfl rfl (h _) rfl rfl rfl rfl rfl

@[simp] theorem State.onTally_inv (f : Tally → Tally) (h : ∀ t, (f t).lines.length = t.lines.length) :
    Inv (s.onTally f) ↔ Inv s :=
  inv_congr rfl rfl rfl rfl rfl (h _) rfl rfl

@[simp] theorem State.onPw_inv (f : Power → Power) (h : ∀ p, (f p).clusters.length = p.clusters.length) :
    Inv (s.onPw f) ↔ Inv s :=
  inv_congr rfl rfl rfl rfl (h _) rfl rfl rfl

@[simp] theorem State.onMail_inv (f : Mail → Mail) (hboxes : ∀ m, (f m).boxes.length = m.boxes.length)
    (hsenders : ∀ m, (f m).senders.length = m.senders.length) : Inv (s.onMail f) ↔ Inv s :=
  inv_congr rfl rfl rfl rfl rfl rfl (hboxes _) (hsenders _)

end

/-! ## The memories -/

@[simp] theorem AMap.wf_nil {α : Type} [DecidableEq α] (d : α) : AMap.wf ([] : AMap α) d := rfl

@[simp] theorem State.setCtx_inv (s : State) (sch : Nat) (c : Ctx) : KeepsInv s (s.setCtx sch c) :=
  keepsInv fun h => { h with contexts := s.setCtx_wf sch c h.contexts }

@[simp] theorem State.gsWrite_inv (s : State) (w : Nat) (v : TWord) : KeepsInv s (s.gsWrite w v) :=
  keepsInv fun h => { h with scratch := s.gsWrite_wf w v h.scratch }

/-- A word with tag POISON is not the word that nothing has written. -/
theorem State.gsSpoil_wf (s : State) (w : Nat) (h : AMap.wf s.sx.gs TWord.unset) : AMap.wf (s.gsSpoil w).sx.gs TWord.unset := by
  rw [AMap.wf_iff] at h ⊢
  refine ⟨AMap.sorted_put _ _ h.1, fun e he => ?_⟩
  rcases AMap.mem_put he with rfl | he
  · simp [spoilWord, TWord.unset, tagPoison, tagUnset]
  · exact h.2 e he

@[simp] theorem State.gsSpoil_inv (s : State) (w : Nat) : KeepsInv s (s.gsSpoil w) :=
  keepsInv fun h => { h with scratch := s.gsSpoil_wf w h.scratch }

/-- The contexts of a deleted queue. -/
@[simp] theorem State.mapCtx_inv (s : State) (g : Ctx → Ctx) (p : Subch → AMap Prog) :
    KeepsInv s (s.onSub fun b => { b with ctx := mapCtx g b.ctx, prog := p b }) :=
  keepsInv fun h => { h with contexts := mapCtx_wf g s.sub.ctx h.contexts }

/-! ## What the functions on one block leave of it -/

@[simp] theorem Mail.rung_boxes (m : Mail) (ch : Chan) (bit : Nat) : (m.rung ch bit).boxes = m.boxes := by
  unfold Mail.rung; dsimp only
  (repeat' split) <;> rfl

@[simp] theorem Mail.rung_senders (m : Mail) (ch : Chan) (bit : Nat) : (m.rung ch bit).senders = m.senders := by
  unfold Mail.rung; dsimp only
  (repeat' split) <;> rfl

@[simp] theorem Sirax.bootDecode_gs (x : Sirax) (body : Option (List Byte)) (fixed : Bool) : (x.bootDecode body fixed).gs = x.gs := by
  unfold Sirax.bootDecode; dsimp only

@[simp] theorem Sirax.switch_gs (x : Sirax) (l : DecLoad) : (x.switch l).gs = x.gs := by
  unfold Sirax.switch; dsimp only

/-! ## Ops -/

@[simp] theorem State.record_inv (s : State) (type source : Nat) (payload : List Byte) (len : Nat) :
    KeepsInv s (s.record type source payload len) := keepsInv fun hs => by
  unfold State.record; dsimp only
  (repeat' split) <;> simp [hs]

@[simp] theorem State.event_inv (s : State) (source block code a0 a1 a2 a3 : Nat) :
    KeepsInv s (s.event source block code a0 a1 a2 a3) := keepsInv fun hs => by
  simp [State.event, hs]

@[simp] theorem State.irq_inv (s : State) (src : Nat) : KeepsInv s (s.irq src) := keepsInv fun hs => by simp [State.irq, hs]

@[simp] theorem State.irqPl_inv (s : State) (src : Nat) : KeepsInv s (s.irqPl src) := keepsInv fun hs => by simp [State.irqPl, hs]

@[simp] theorem State.corrected_inv (s : State) (n : Nat) : KeepsInv s (s.corrected n) := keepsInv fun hs => by
  unfold State.corrected
  (repeat' split) <;> simp [hs]

@[simp] theorem State.eccFix_inv (s : State) (e : Ecc) : KeepsInv s (s.eccFix e) := keepsInv fun hs => by
  unfold State.eccFix
  (repeat' split) <;> simp [hs]

@[simp] theorem State.urSent_inv (s : State) : KeepsInv s s.urSent := keepsInv fun hs => by simp [State.urSent, hs]

@[simp] theorem State.late_inv (s : State) (due : Time) : KeepsInv s (s.late due) := keepsInv fun hs => by simp [State.late, hs]

@[simp] theorem State.modCtx_inv (s : State) (sch : Nat) (f : Ctx → Ctx) : KeepsInv s (s.modCtx sch f) := keepsInv fun hs => by
  simp [State.modCtx, hs]

@[simp] theorem State.setProg_inv (s : State) (sch : Nat) (p : Prog) : KeepsInv s (s.setProg sch p) := keepsInv fun hs => by
  simp [State.setProg, hs]

@[simp] theorem State.modProg_inv (s : State) (sch : Nat) (f : Prog → Prog) : KeepsInv s (s.modProg sch f) := keepsInv fun hs => by
  simp [State.modProg, hs]

@[simp] theorem State.delProg_inv (s : State) (sch : Nat) : KeepsInv s (s.delProg sch) := keepsInv fun hs => by
  simp [State.delProg, hs]

@[simp] theorem State.setSq_inv (s : State) (q : Nat) (r : SQ) : KeepsInv s (s.setSq q r) := keepsInv fun hs => by
  simp [State.setSq, hs]

@[simp] theorem State.setCq_inv (s : State) (q : Nat) (r : CQ) : KeepsInv s (s.setCq q r) := keepsInv fun hs => by
  simp [State.setCq, hs]

@[simp] theorem State.setTh_inv (s : State) (th : Nat) (t : Thread) : KeepsInv s (s.setTh th t) := keepsInv fun hs => by
  simp [State.setTh, hs]

@[simp] theorem State.delTh_inv (s : State) (th : Nat) : KeepsInv s (s.delTh th) := keepsInv fun hs => by simp [State.delTh, hs]

@[simp] theorem State.modQuad_inv (s : State) (q : Nat) (f : Quad → Quad) : KeepsInv s (s.modQuad q f) := keepsInv fun hs => by
  simp [State.modQuad, hs]

@[simp] theorem State.modPort_inv (s : State) (q p : Nat) (f : Port → Port) : KeepsInv s (s.modPort q p f) := keepsInv fun hs => by
  simp [State.modPort, hs]

@[simp] theorem State.modFifo_inv (s : State) (q : Nat) (f : Fifo → Fifo) : KeepsInv s (s.modFifo q f) := keepsInv fun hs => by
  simp [State.modFifo, hs]

@[simp] theorem State.tallyIssue_inv (s : State) (line n : Nat) : KeepsInv s (s.tallyIssue line n) := keepsInv fun hs => by
  simp [State.tallyIssue, hs]

@[simp] theorem State.tallyReturn_inv (s : State) (line n : Nat) : KeepsInv s (s.tallyReturn line n) := keepsInv fun hs => by
  simp [State.tallyReturn, hs]

@[simp] theorem State.mark_inv (s : State) (n : Nat) : KeepsInv s (s.mark n) := keepsInv fun hs => by simp [State.mark, hs]

@[simp] theorem State.waited_inv (s : State) (n : Nat) : KeepsInv s (s.waited n) := keepsInv fun hs => by simp [State.waited, hs]

/-! ## Sched -/

@[simp] theorem State.modClu_inv (s : State) (k : Nat) (f : Cluster → Cluster) : KeepsInv s (s.modClu k f) := keepsInv fun hs => by
  simp [State.modClu, hs]

@[simp] theorem State.cacheText_inv (s : State) (q : Nat) : KeepsInv s (s.cacheText q) := keepsInv fun hs => by
  simp [State.cacheText, hs]

@[simp] theorem State.request_inv (s : State) (res : Nat) (key : Bool × Time) (rix sch : Nat) (who : ReqWho) :
    KeepsInv s (s.request res key rix sch who) := keepsInv fun hs => by
  unfold State.request
  (repeat' split) <;> simp [hs]

@[simp] theorem State.withdraw_inv (s : State) (who : ReqWho) : KeepsInv s (s.withdraw who) := keepsInv fun hs => by
  simp [State.withdraw, hs]

@[simp] theorem State.freezeDrained_inv (s : State) : KeepsInv s s.freezeDrained := keepsInv fun hs => by
  unfold State.freezeDrained
  (repeat' split) <;> simp [hs]

@[simp] theorem State.sendMsix_inv (s : State) (v : Nat) : KeepsInv s (s.sendMsix v) := keepsInv fun hs => by
  simp [State.sendMsix, hs]

@[simp] theorem State.message_inv (s : State) (v : Nat) : KeepsInv s (s.message v) := keepsInv fun hs => by
  unfold State.message; dsimp only
  (repeat' split) <;> simp [hs]

@[simp] theorem State.signalNow_inv (s : State) (v : Nat) : KeepsInv s (s.signalNow v) := keepsInv fun hs => by
  unfold State.signalNow
  (repeat' split) <;> simp [hs]

@[simp] theorem State.signal_inv (s : State) (v : Nat) : KeepsInv s (s.signal v) := keepsInv fun hs => by
  unfold State.signal; dsimp only
  (repeat' split) <;> simp [hs]

@[simp] theorem State.recovery_inv (s : State) (source code a0 a1 a2 : Nat) :
    KeepsInv s (s.recovery source code a0 a1 a2) := keepsInv fun hs => by
  simp [State.recovery, hs]

@[simp] theorem State.requeueAt_inv (s : State) (sch : Nat) (base : Time) :
    KeepsInv s (s.requeueAt sch base) := keepsInv fun hs => by
  unfold State.requeueAt; dsimp only
  (repeat' split) <;> simp [hs]

@[simp] theorem State.requeue_inv (s : State) (sch : Nat) : KeepsInv s (s.requeue sch) := keepsInv fun hs => by
  simp [State.requeue, hs]

@[simp] theorem State.unwait_inv (s : State) (n : Nat) (who : WaitWho) : KeepsInv s (s.unwait n who) := keepsInv fun hs => by
  simp [State.unwait, hs]

@[simp] theorem State.await_inv (s : State) (n : Nat) (key : Bool × Time) (rix sch cls : Nat) (who : WaitWho) :
    KeepsInv s (s.await n key rix sch cls who) := keepsInv fun hs => by
  unfold State.await
  (repeat' split) <;> simp [hs]

@[simp] theorem State.retest_inv (s : State) (change : Nat) : KeepsInv s (s.retest change) := keepsInv fun hs => by
  unfold State.retest; dsimp only
  (repeat' split) <;> simp [hs]

@[simp] theorem State.capacity_inv (s : State) (change : Nat) : KeepsInv s (s.capacity change) := keepsInv fun hs => by
  simp [State.capacity, hs]

@[simp] theorem State.commitBoot_inv (s : State) (body : Option (List Byte)) :
    KeepsInv s (s.commitBoot body) := keepsInv fun hs => by
  unfold State.commitBoot; dsimp only
  (repeat' split) <;> simp [hs]

/-! ## Complete -/

@[simp] theorem State.queueEvent_inv (s : State) (q : Nat) (full : Bool) (cause index : Nat) (wrap : Bool) :
    KeepsInv s (s.queueEvent q full cause index wrap) := keepsInv fun hs => by
  unfold State.queueEvent; dsimp only
  (repeat' split) <;> simp [hs]

@[simp] theorem State.wantComp_inv (s : State) (q : Nat) : KeepsInv s (s.wantComp q) := keepsInv fun hs => by
  unfold State.wantComp
  (repeat' split) <;> simp [hs]

@[simp] theorem State.announceAt_inv (s : State) (q : Nat) : KeepsInv s (s.announceAt q) := keepsInv fun hs => by
  unfold State.announceAt
  (repeat' split) <;> simp [hs]

@[simp] theorem State.writeComp_inv (s : State) (q : Nat) (r : CQ) (c : Comp) :
    KeepsInv s (s.writeComp q r c) := keepsInv fun hs => by
  unfold State.writeComp; dsimp only
  (repeat' split) <;> simp [hs]

@[simp] theorem State.ringFullEvent_inv (s : State) (q : Nat) : KeepsInv s (s.ringFullEvent q) := keepsInv fun hs => by
  unfold State.ringFullEvent; dsimp only
  (repeat' split) <;> simp [hs]

@[simp] theorem State.hold_inv (s : State) (q : Nat) (r : CQ) (h : Held) : KeepsInv s (s.hold q r h) := keepsInv fun hs => by
  unfold State.hold; dsimp only
  (repeat' split) <;> simp [hs]

@[simp] theorem State.finalWritten_inv (s : State) (sch : Nat) : KeepsInv s (s.finalWritten sch) := keepsInv fun hs => by
  simp [State.finalWritten, hs]

@[simp] theorem State.writeSub_inv (s : State) (q : Nat) (r : CQ) (sch : Nat) :
    KeepsInv s (s.writeSub q r sch).1 := keepsInv fun hs => by
  unfold State.writeSub; dsimp only
  (repeat' split) <;> simp [hs]

@[simp] theorem State.drain_inv (n : Nat) (s : State) (q : Nat) : KeepsInv s (s.drain n q) := keepsInv fun hs => by
  induction n generalizing s q with
  | zero => exact hs
  | succ n ih =>
    unfold State.drain; dsimp only
    (repeat' split) <;> simp [ih, hs]

@[simp] theorem State.drainAll_inv (s : State) (q : Nat) : KeepsInv s (s.drainAll q) := keepsInv fun hs => by
  unfold State.drainAll
  (repeat' split) <;> simp [hs]

@[simp] theorem State.parkComps_inv (s : State) (q : Nat) (l : List Held) : KeepsInv s (s.parkComps q l) := keepsInv fun hs => by
  simp [State.parkComps, hs]

@[simp] theorem State.sendOne_inv (n : Nat) (s : State) (q : Nat) (h : Held) :
    KeepsInv s (s.sendOne n q h).1 := keepsInv fun hs => by
  induction n generalizing s q h with
  | zero => exact hs
  | succ n ih =>
    unfold State.sendOne; dsimp only
    (repeat' split) <;> simp [ih, hs]

@[simp] theorem State.sendAll_inv (l : List Held) (s : State) (q : Nat) : KeepsInv s (s.sendAll l q) := keepsInv fun hs => by
  induction l generalizing s q with
  | nil => exact hs
  | cons a l ih =>
    unfold State.sendAll; dsimp only
    (repeat' split) <;> simp [ih, hs]

@[simp] theorem State.sendHeld_inv (s : State) (q : Nat) (h : Held) : KeepsInv s (s.sendHeld q h) := keepsInv fun hs => by
  unfold State.sendHeld
  (repeat' split) <;> simp [hs]

@[simp] theorem State.postComp_inv (s : State) (q : Nat) (c : Comp) : KeepsInv s (s.postComp q c) := keepsInv fun hs => by
  unfold State.postComp
  (repeat' split) <;> simp [hs]

@[simp] theorem State.postSub_inv (s : State) (sch : Nat) : KeepsInv s (s.postSub sch) := keepsInv fun hs => by
  unfold State.postSub; dsimp only
  (repeat' split) <;> simp [hs]

@[simp] theorem State.unpark_inv (s : State) (q : Nat) : KeepsInv s (s.unpark q) := keepsInv fun hs => by
  unfold State.unpark; dsimp only
  (repeat' split) <;> simp [hs]

@[simp] theorem State.sendComps_inv (s : State) (q : Nat) : KeepsInv s (s.sendComps q) := keepsInv fun hs => by
  simp [State.sendComps, hs]

@[simp] theorem State.sendFirst_inv (s : State) (q : Nat) : KeepsInv s (s.sendFirst q) := keepsInv fun hs => by
  unfold State.sendFirst
  (repeat' split) <;> simp [hs]

@[simp] theorem State.fillLegacy_inv (n : Nat) (s : State) : KeepsInv s (s.fillLegacy n) := keepsInv fun hs => by
  induction n generalizing s with
  | zero => exact hs
  | succ n ih =>
    unfold State.fillLegacy
    (repeat' split) <;> simp [ih, hs]

@[simp] theorem State.drainLegacy_inv (s : State) : KeepsInv s s.drainLegacy := keepsInv fun hs => by simp [State.drainLegacy, hs]

@[simp] theorem State.postWaiting_inv (s : State) : KeepsInv s s.postWaiting := keepsInv fun hs => by simp [State.postWaiting, hs]

@[simp] theorem State.sendPending_inv (s : State) : KeepsInv s s.sendPending := keepsInv fun hs => by simp [State.sendPending, hs]

@[simp] theorem State.admSettle_inv (s : State) : KeepsInv s s.admSettle := keepsInv fun hs => by
  unfold State.admSettle; dsimp only
  (repeat' split) <;> simp [hs]

@[simp] theorem State.linkResumes_inv (s : State) : KeepsInv s s.linkResumes := keepsInv fun hs => by simp [State.linkResumes, hs]

@[simp] theorem State.reject_inv (s : State) (cq : Nat) (reason : Nat) (cid : BitVec 16) (sch sqid cls : Nat) :
    KeepsInv s (s.reject cq reason cid sch sqid cls) := keepsInv fun hs => by
  unfold State.reject; dsimp only
  (repeat' split) <;> simp [hs]

/-! ## Units -/

@[simp] theorem State.nowReady_inv (s : State) (th : Nat) : KeepsInv s (s.nowReady th) := keepsInv fun hs => by
  simp [State.nowReady, hs]

@[simp] theorem State.takeThread_inv (s : State) (th : Nat) (t : Thread) : KeepsInv s (s.takeThread th t) := keepsInv fun hs => by
  unfold State.takeThread; dsimp only
  (repeat' split) <;> simp [hs]

@[simp] theorem State.orphans_inv (s : State) (th : Nat) : KeepsInv s (s.orphans th) := keepsInv fun hs => by
  simp [State.orphans, hs]

@[simp] theorem State.dropThread_inv (s : State) (th : Nat) : KeepsInv s (s.dropThread th) := keepsInv fun hs => by
  unfold State.dropThread
  (repeat' split) <;> simp [hs]

@[simp] theorem State.orphanDma_inv (s : State) (d : Nat) (ks : List Nat) : KeepsInv s (s.orphanDma d ks) := keepsInv fun hs => by
  simp [State.orphanDma, hs]

@[simp] theorem State.takeRead_inv (s : State) (tag : Nat) (u : ReadUnit) : KeepsInv s (s.takeRead tag u) := keepsInv fun hs => by
  simp [State.takeRead, hs]

@[simp] theorem State.dropRead_inv (s : State) (tag : Nat) : KeepsInv s (s.dropRead tag) := keepsInv fun hs => by
  unfold State.dropRead
  (repeat' split) <;> simp [hs]

@[simp] theorem State.countCpl_inv (s : State) (st : CplStatus) : KeepsInv s (s.countCpl st) := keepsInv fun hs => by
  unfold State.countCpl; dsimp only
  (repeat' split) <;> simp [hs]

@[simp] theorem State.hostRead_inv (s : State) (tag : Nat) (addr : Word) (pasid : Option (BitVec 20)) (len : Nat) :
    KeepsInv s (s.hostRead tag addr pasid len) := keepsInv fun hs => by
  unfold State.hostRead
  (repeat' split) <;> simp [hs]

@[simp] theorem State.hostWrite_inv (s : State) (addr : Word) (pasid : Option (BitVec 20)) (poisoned : Bool) (data : List Byte) :
    KeepsInv s (s.hostWrite addr pasid poisoned data) := keepsInv fun hs => by
  unfold State.hostWrite
  (repeat' split) <;> simp [hs]

@[simp] theorem State.hostWrites_inv (n : Nat) (s : State) (addr : Word) (pasid : Option (BitVec 20)) (poisoned : Bool) (data :
    List Byte) :
    KeepsInv s (s.hostWrites n addr pasid poisoned data) := keepsInv fun hs => by
  induction n generalizing s addr pasid poisoned data with
  | zero => exact hs
  | succ n ih =>
    unfold State.hostWrites; dsimp only
    (repeat' split) <;> simp [ih, hs]

@[simp] theorem State.modDesc_inv (s : State) (d : Nat) (f : Desc → Desc) : KeepsInv s (s.modDesc d f) := keepsInv fun hs => by
  simp [State.modDesc, hs]

@[simp] theorem State.takeChan_inv (s : State) (d : Nat) (rd : Bool) : KeepsInv s (s.takeChan d rd) := keepsInv fun hs => by
  unfold State.takeChan
  (repeat' split) <;> simp [hs]

@[simp] theorem State.dropChan_inv (s : State) (d : Nat) : KeepsInv s (s.dropChan d) := keepsInv fun hs => by
  unfold State.dropChan
  (repeat' split) <;> simp [hs]

@[simp] theorem State.allocSeg_inv (s : State) (n : Nat) (h : HeldSeg) : KeepsInv s (s.allocSeg n h) := keepsInv fun hs => by
  simp [State.allocSeg, hs]

@[simp] theorem State.mismatch_inv (s : State) (line : Nat) (diff : Word) :
    KeepsInv s (s.mismatch line diff) := keepsInv fun hs => by
  unfold State.mismatch; dsimp only
  (repeat' split) <;> simp [hs]

@[simp] theorem State.releaseSeg_inv (s : State) (n : Nat) (o : SegOwner) : KeepsInv s (s.releaseSeg n o) := keepsInv fun hs => by
  unfold State.releaseSeg
  (repeat' split) <;> simp [hs]

@[simp] theorem State.releaseSegs_inv (s : State) (p : HeldSeg → Bool) : KeepsInv s (s.releaseSegs p) := keepsInv fun hs => by
  simp [State.releaseSegs, hs]

@[simp] theorem State.modExch_inv (s : State) (x : Nat) (f : Exch → Exch) : KeepsInv s (s.modExch x f) := keepsInv fun hs => by
  simp [State.modExch, hs]

@[simp] theorem State.takeExch_inv (s : State) (x : Nat) (e : Exch) : KeepsInv s (s.takeExch x e) := keepsInv fun hs => by
  simp [State.takeExch, hs]

@[simp] theorem State.creditSync_inv (s : State) (quad : Nat) : KeepsInv s (s.creditSync quad) := keepsInv fun hs => by
  unfold State.creditSync; dsimp only
  (repeat' split) <;> simp [hs]

@[simp] theorem State.flowSync_inv (s : State) (quad : Nat) : KeepsInv s (s.flowSync quad) := keepsInv fun hs => by
  unfold State.flowSync; dsimp only
  (repeat' split) <;> simp [hs]

@[simp] theorem State.flowSyncAll_inv (s : State) : KeepsInv s s.flowSyncAll := keepsInv fun hs => by simp [State.flowSyncAll, hs]

@[simp] theorem State.segWait_inv (s : State) (quad sch : Nat) (who : WaitWho) :
    KeepsInv s (s.segWait quad sch who) := keepsInv fun hs => by
  simp [State.segWait, hs]

@[simp] theorem State.segGot_inv (s : State) (quad : Nat) (who : WaitWho) : KeepsInv s (s.segGot quad who) := keepsInv fun hs => by
  simp [State.segGot, hs]

@[simp] theorem State.segLeave_inv (s : State) (p : WaitWho → Bool) : KeepsInv s (s.segLeave p) := keepsInv fun hs => by
  unfold State.segLeave; dsimp only
  (repeat' split) <;> simp [hs]

@[simp] theorem State.sendAbort_inv (s : State) (x : Nat) (e : Exch) : KeepsInv s (s.sendAbort x e) := keepsInv fun hs => by
  unfold State.sendAbort; dsimp only
  (repeat' split) <;> simp [hs]

@[simp] theorem State.nextAbort_inv (s : State) (a : AbortCmd) : KeepsInv s (s.nextAbort a) := keepsInv fun hs => by
  unfold State.nextAbort
  (repeat' split) <;> simp [hs]

@[simp] theorem State.forgetAborts_inv (s : State) (p : AbortCmd → Bool) : KeepsInv s (s.forgetAborts p) := keepsInv fun hs => by
  simp [State.forgetAborts, hs]

@[simp] theorem State.quitExch_inv (s : State) (x : Nat) : KeepsInv s (s.quitExch x) := keepsInv fun hs => by
  simp [State.quitExch, hs]

@[simp] theorem State.dropExch_inv (s : State) (x : Nat) : KeepsInv s (s.dropExch x) := keepsInv fun hs => by
  unfold State.dropExch
  (repeat' split) <;> simp [hs]

@[simp] theorem State.memError_inv (s : State) (src a0 a1 a2 : Nat) : KeepsInv s (s.memError src a0 a1 a2) := keepsInv fun hs => by
  simp [State.memError, hs]

@[simp] theorem State.gsFault_inv (s : State) (sch w : Nat) : KeepsInv s (s.gsFault sch w) := keepsInv fun hs => by
  simp [State.gsFault, hs]

@[simp] theorem State.gsKeep_inv (s : State) (sch w : Nat) : KeepsInv s (s.gsKeep sch w) := keepsInv fun hs => by
  unfold State.gsKeep; dsimp only
  (repeat' split) <;> simp [hs]

@[simp] theorem State.gsBytes_inv (n : Nat) (s : State) (addr : Nat) (bs : List Byte) (bad : List Nat) (last : Bool) :
    KeepsInv s (s.gsBytes n addr bs bad last) := keepsInv fun hs => by
  induction n generalizing s addr bs bad last with
  | zero => exact hs
  | succ n ih =>
    unfold State.gsBytes; dsimp only
    (repeat' split) <;> simp [ih, hs]

@[simp] theorem State.gsTail_inv (s : State) (sch addr n : Nat) : KeepsInv s (s.gsTail sch addr n) := keepsInv fun hs => by
  unfold State.gsTail; dsimp only
  (repeat' split) <;> simp [hs]

/-! ## Life -/

@[simp] theorem State.intermediate_inv (s : State) (sch : Nat) : KeepsInv s (s.intermediate sch) := keepsInv fun hs => by
  simp [State.intermediate, hs]

@[simp] theorem State.modCmd_inv (s : State) (sch no : Nat) (f : Cmd → Cmd) :
    KeepsInv s (s.modCmd sch no f) := keepsInv fun hs => by
  simp [State.modCmd, hs]

@[simp] theorem State.releaseStore_inv (s : State) (e : Store) : KeepsInv s (s.releaseStore e) := keepsInv fun hs => by
  unfold State.releaseStore
  (repeat' split) <;> simp [hs]

@[simp] theorem State.storeWait_inv (s : State) (sch : Nat) : KeepsInv s (s.storeWait sch) := keepsInv fun hs => by
  simp [State.storeWait, hs]

@[simp] theorem State.halfPoint_inv (s : State) (sch no : Nat) : KeepsInv s (s.halfPoint sch no) := keepsInv fun hs => by
  unfold State.halfPoint
  (repeat' split) <;> simp [hs]

@[simp] theorem State.fullPoint_inv (s : State) (sch no : Nat) : KeepsInv s (s.fullPoint sch no) := keepsInv fun hs => by
  unfold State.fullPoint; dsimp only
  (repeat' split) <;> simp [hs]

@[simp] theorem State.dataPoints_inv (s : State) (sch no : Nat) : KeepsInv s (s.dataPoints sch no) := keepsInv fun hs => by
  unfold State.dataPoints; dsimp only
  (repeat' split) <;> simp [hs]

@[simp] theorem State.descDone_inv (s : State) (k a b : Nat) : KeepsInv s (s.descDone k a b) := keepsInv fun hs => by
  unfold State.descDone; dsimp only
  (repeat' split) <;> simp [hs]

@[simp] theorem State.descMoved_inv (s : State) (k a b : Nat) : KeepsInv s (s.descMoved k a b) := keepsInv fun hs => by
  simp [State.descMoved, hs]

@[simp] theorem State.cancelBytes_inv (s : State) (sch no a b : Nat) :
    KeepsInv s (s.cancelBytes sch no a b) := keepsInv fun hs => by
  simp [State.cancelBytes, hs]

@[simp] theorem State.cancelUnwritten_inv (s : State) (sch no pc : Nat) (p : Piece) :
    KeepsInv s (s.cancelUnwritten sch no pc p) := keepsInv fun hs => by
  simp [State.cancelUnwritten, hs]

@[simp] theorem State.park_inv (s : State) (k : Nat) : KeepsInv s (s.park k) := keepsInv fun hs => by
  unfold State.park
  (repeat' split) <;> simp [hs]

@[simp] theorem State.forgetPieces_inv (s : State) (sch no pc : Nat) :
    KeepsInv s (s.forgetPieces sch no pc) := keepsInv fun hs => by
  simp [State.forgetPieces, hs]

@[simp] theorem buildDescs_inv (n : Nat) (s : State) (sch no : Nat) (rd hlf : Bool) (lo count : Nat) :
    KeepsInv s (buildDescs n s sch no rd hlf lo count) := keepsInv fun hs => by
  induction n generalizing s sch no rd hlf lo count with
  | zero => exact hs
  | succ n ih =>
    unfold buildDescs; dsimp only
    (repeat' split) <;> simp [ih, hs]

@[simp] theorem State.addDescs_inv (s : State) (sch no : Nat) (rd hlf : Bool) (count : Nat) :
    KeepsInv s (s.addDescs sch no rd hlf count) := keepsInv fun hs => by
  simp [State.addDescs, hs]

@[simp] theorem State.dropDescs_inv (s : State) (sch : Nat) : KeepsInv s (s.dropDescs sch) := keepsInv fun hs => by
  simp [State.dropDescs, hs]

@[simp] theorem State.awaitChan_inv (s : State) (k sch : Nat) (rd : Bool) :
    KeepsInv s (s.awaitChan k sch rd) := keepsInv fun hs => by
  unfold State.awaitChan; dsimp only
  (repeat' split) <;> simp [hs]

@[simp] theorem State.pieceReady_inv (s : State) (sch no pc x piece : Nat) :
    KeepsInv s (s.pieceReady sch no pc x piece) := keepsInv fun hs => by
  unfold State.pieceReady; dsimp only
  (repeat' split) <;> simp [hs]

@[simp] theorem State.dropData_inv (s : State) (sch : Nat) : KeepsInv s (s.dropData sch) := keepsInv fun hs => by
  simp [State.dropData, hs]

@[simp] theorem State.undispatch_inv (s : State) (sch : Nat) : KeepsInv s (s.undispatch sch) := keepsInv fun hs => by
  unfold State.undispatch
  (repeat' split) <;> simp [hs]

@[simp] theorem State.dropSense_inv (s : State) (sch : Nat) : KeepsInv s (s.dropSense sch) := keepsInv fun hs => by
  unfold State.dropSense; dsimp only
  (repeat' split) <;> simp [hs]

@[simp] theorem State.forgetGhosts_inv (s : State) (sch : Nat) : KeepsInv s (s.forgetGhosts sch) := keepsInv fun hs => by
  simp [State.forgetGhosts, hs]

@[simp] theorem State.makeFinal_inv (s : State) (sch : Nat) : KeepsInv s (s.makeFinal sch) := keepsInv fun hs => by
  unfold State.makeFinal; dsimp only
  (repeat' split) <;> simp [hs]

@[simp] theorem State.endAtOnce_inv (s : State) (sch : Nat) : KeepsInv s (s.endAtOnce sch) := keepsInv fun hs => by
  unfold State.endAtOnce; dsimp only
  (repeat' split) <;> simp [hs]

@[simp] theorem State.unqueue_inv (s : State) (sch no i : Nat) : KeepsInv s (s.unqueue sch no i) := keepsInv fun hs => by
  unfold State.unqueue
  (repeat' split) <;> simp [hs]

@[simp] theorem State.cutPiece_inv (s : State) (sch no i : Nat) : KeepsInv s (s.cutPiece sch no i) := keepsInv fun hs => by
  unfold State.cutPiece
  (repeat' split) <;> simp [hs]

@[simp] theorem State.cutUnsent_inv (s : State) (sch : Nat) (spare : Nat → Nat → Piece → Bool) :
    KeepsInv s (s.cutUnsent sch spare) := keepsInv fun hs => by
  unfold State.cutUnsent; dsimp only
  (repeat' split) <;> simp [hs]

@[simp] theorem State.breakAt_inv (s : State) (sch no : Nat) (dstat : Byte) (residual : BitVec 32) :
    KeepsInv s (s.breakAt sch no dstat residual) := keepsInv fun hs => by
  unfold State.breakAt; dsimp only
  (repeat' split) <;> simp [hs]

@[simp] theorem State.breakHere_inv (s : State) (sch no : Nat) : KeepsInv s (s.breakHere sch no) := keepsInv fun hs => by
  simp [State.breakHere, hs]

@[simp] theorem State.hostAccess_inv (s : State) (sch : Nat) : KeepsInv s (s.hostAccess sch) := keepsInv fun hs => by
  unfold State.hostAccess; dsimp only
  (repeat' split) <;> simp [hs]

@[simp] theorem State.writeRefused_inv (s : State) (sch no : Nat) : KeepsInv s (s.writeRefused sch no) := keepsInv fun hs => by
  simp [State.writeRefused, hs]

@[simp] theorem State.releaseStores_inv (s : State) (sch : Nat) (l : List Store) :
    KeepsInv s (s.releaseStores sch l) := keepsInv fun hs => by
  unfold State.releaseStores; dsimp only
  (repeat' split) <;> simp [hs]

@[simp] theorem State.keepAsked_inv (s : State) (o : SegOwner) (p : DmaPiece) :
    KeepsInv s (s.keepAsked o p) := keepsInv fun hs => by
  unfold State.keepAsked
  (repeat' split) <;> simp [hs]

@[simp] theorem State.stopDesc_inv (s : State) (x sch no pc d : Nat) (m : Desc) :
    KeepsInv s (s.stopDesc x sch no pc d m) := keepsInv fun hs => by
  simp [State.stopDesc, hs]

@[simp] theorem State.stopWrites_inv (s : State) (x sch no pc : Nat) :
    KeepsInv s (s.stopWrites x sch no pc) := keepsInv fun hs => by
  simp [State.stopWrites, hs]

@[simp] theorem State.abortExch_inv (s : State) (x : Nat) : KeepsInv s (s.abortExch x) := keepsInv fun hs => by
  unfold State.abortExch; dsimp only
  (repeat' split) <;> simp [hs]

@[simp] theorem State.abortAll_inv (s : State) (sch : Nat) : KeepsInv s (s.abortAll sch) := keepsInv fun hs => by
  simp [State.abortAll, hs]

@[simp] theorem State.poisoned_inv (s : State) (sch : Nat) : KeepsInv s (s.poisoned sch) := keepsInv fun hs => by
  simp [State.poisoned, hs]

@[simp] theorem State.readFailed_inv (s : State) (sch : Nat) (st : CplStatus) :
    KeepsInv s (s.readFailed sch st) := keepsInv fun hs => by
  unfold State.readFailed
  (repeat' split) <;> simp [hs]

@[simp] theorem State.cmdEnd_inv (s : State) (sch no : Nat) : KeepsInv s (s.cmdEnd sch no) := keepsInv fun hs => by
  unfold State.cmdEnd; dsimp only
  (repeat' split) <;> simp [hs]

@[simp] theorem State.takeDs_inv (s : State) (sch : Nat) : KeepsInv s (s.takeDs sch) := keepsInv fun hs => by
  unfold State.takeDs
  (repeat' split) <;> simp [hs]

@[simp] theorem State.progress_inv (s : State) (sch : Nat) : KeepsInv s (s.progress sch) := keepsInv fun hs => by
  unfold State.progress; dsimp only
  (repeat' split) <;> simp [hs]

@[simp] theorem State.zeroTail_inv (s : State) (sch : Nat) (ext : List Extent) (g : Nat × Nat) :
    KeepsInv s (s.zeroTail sch ext g) := keepsInv fun hs => by
  unfold State.zeroTail
  (repeat' split) <;> simp [hs]

@[simp] theorem State.zeroTails_inv (s : State) (sch no : Nat) (p : Piece) (got : List (Nat × Nat)) :
    KeepsInv s (s.zeroTails sch no p got) := keepsInv fun hs => by
  unfold State.zeroTails
  (repeat' split) <;> simp [hs]

@[simp] theorem State.settleIn_inv (s : State) (sch no i : Nat) (p : Piece) :
    KeepsInv s (s.settleIn sch no i p) := keepsInv fun hs => by
  simp [State.settleIn, hs]

@[simp] theorem State.endPiece_inv (s : State) (sch no i : Nat) (dstat : Byte) (moved : Nat) :
    KeepsInv s (s.endPiece sch no i dstat moved) := keepsInv fun hs => by
  unfold State.endPiece; dsimp only
  (repeat' split) <;> simp [hs]

@[simp] theorem State.dropStale_inv (s : State) (x : Nat) : KeepsInv s (s.dropStale x) := keepsInv fun hs => by
  unfold State.dropStale
  (repeat' split) <;> simp [hs]

@[simp] theorem State.answered_inv (s : State) (x : Nat) (dstat : Byte) (moved : Nat) :
    KeepsInv s (s.answered x dstat moved) := keepsInv fun hs => by
  unfold State.answered
  (repeat' split) <;> simp [hs]

@[simp] theorem State.endCut_inv (s : State) (sch no i : Nat) : KeepsInv s (s.endCut sch no i) := keepsInv fun hs => by
  simp [State.endCut, hs]

@[simp] theorem State.exchCut_inv (s : State) (x : Nat) (keepSlot : Bool) :
    KeepsInv s (s.exchCut x keepSlot) := keepsInv fun hs => by
  unfold State.exchCut; dsimp only
  (repeat' split) <;> simp [hs]

/-! ## Queues -/

@[simp] theorem State.sqError_inv (s : State) (q cause pos : Nat) : KeepsInv s (s.sqError q cause pos) := keepsInv fun hs => by
  unfold State.sqError; dsimp only
  (repeat' split) <;> simp [hs]

@[simp] theorem State.cqError_inv (s : State) (q : Nat) : KeepsInv s (s.cqError q) := keepsInv fun hs => by
  unfold State.cqError
  (repeat' split) <;> simp [hs]

@[simp] theorem State.takeEntry_inv (s : State) (q : Nat) (r : SQ) (e : BitVec 512) :
    KeepsInv s (s.takeEntry q r e).1 := keepsInv fun hs => by
  unfold State.takeEntry; dsimp only
  (repeat' split) <;> simp [hs]

@[simp] theorem State.takeLoop_inv (n : Nat) (s : State) (q : Nat) (slots : List (BitVec 512)) :
    KeepsInv s (s.takeLoop n q slots) := keepsInv fun hs => by
  induction n generalizing s q slots with
  | zero => exact hs
  | succ n ih =>
    unfold State.takeLoop; dsimp only
    (repeat' split) <;> simp [ih, hs]

@[simp] theorem State.wantRing_inv (s : State) (q : Nat) : KeepsInv s (s.wantRing q) := keepsInv fun hs => by
  unfold State.wantRing; dsimp only
  (repeat' split) <;> simp [hs]

@[simp] theorem State.pump_inv (s : State) (q : Nat) : KeepsInv s (s.pump q) := keepsInv fun hs => by simp [State.pump, hs]

@[simp] theorem State.pumpPaired_inv (s : State) (cq : Nat) : KeepsInv s (s.pumpPaired cq) := keepsInv fun hs => by
  simp [State.pumpPaired, hs]

@[simp] theorem State.pumpAll_inv (s : State) : KeepsInv s s.pumpAll := keepsInv fun hs => by simp [State.pumpAll, hs]

@[simp] theorem State.sqFails_inv (s : State) (q cause pos : Nat) : KeepsInv s (s.sqFails q cause pos) := keepsInv fun hs => by
  simp [State.sqFails, hs]

@[simp] theorem State.pushDiscard_inv (s : State) : KeepsInv s s.pushDiscard := keepsInv fun hs => by simp [State.pushDiscard, hs]

@[simp] theorem State.dbDiscard_inv (s : State) : KeepsInv s s.dbDiscard := keepsInv fun hs => by simp [State.dbDiscard, hs]

@[simp] theorem State.ringFabric_inv (s : State) (st : CplStatus) (e : Ecc) :
    KeepsInv s (s.ringFabric st e) := keepsInv fun hs => by
  unfold State.ringFabric
  (repeat' split) <;> simp [hs]

@[simp] theorem State.shift_inv (s : State) (q : Nat) (r : SQ) : KeepsInv s (s.shift q r) := keepsInv fun hs => by
  simp [State.shift, hs]

@[simp] theorem State.rejectEntry_inv (s : State) (q : Nat) (r : SQ) (e : BitVec 512) (reason : Nat) :
    KeepsInv s (s.rejectEntry q r e reason) := keepsInv fun hs => by
  simp [State.rejectEntry, hs]

@[simp] theorem State.startAccepted_inv (s : State) (q : Nat) (r : SQ) (e : BitVec 512) :
    KeepsInv s (s.startAccepted q r e) := keepsInv fun hs => by
  unfold State.startAccepted; dsimp only
  (repeat' split) <;> simp [hs]

@[simp] theorem State.bufferUe_inv (s : State) (n seg : Nat) : KeepsInv s (s.bufferUe n seg) := keepsInv fun hs => by
  unfold State.bufferUe
  (repeat' split) <;> simp [hs]

@[simp] theorem State.writeOff_inv (s : State) (sch : Nat) : KeepsInv s (s.writeOff sch) := keepsInv fun hs => by
  unfold State.writeOff; dsimp only
  (repeat' split) <;> simp [hs]

@[simp] theorem State.startUe_inv (s : State) (sch : Nat) : KeepsInv s (s.startUe sch) := keepsInv fun hs => by
  unfold State.startUe; dsimp only
  (repeat' split) <;> simp [hs]

@[simp] theorem State.dropStores_inv (s : State) (sch : Nat) : KeepsInv s (s.dropStores sch) := keepsInv fun hs => by
  simp [State.dropStores, hs]

@[simp] theorem State.rejoin_inv (s : State) (x : Nat) (e : Exch) : KeepsInv s (s.rejoin x e) := keepsInv fun hs => by
  unfold State.rejoin
  (repeat' split) <;> simp [hs]

@[simp] theorem State.cut_inv (s : State) (sch : Nat) : KeepsInv s (s.cut sch) := keepsInv fun hs => by simp [State.cut, hs]

@[simp] theorem State.qevtTake_inv (s : State) : KeepsInv s s.qevtTake := keepsInv fun hs => by
  unfold State.qevtTake
  (repeat' split) <;> simp [hs]

@[simp] theorem State.legTake_inv (s : State) : KeepsInv s s.legTake := keepsInv fun hs => by
  unfold State.legTake; dsimp only
  (repeat' split) <;> simp [hs]

/-! ## Admin -/

@[simp] theorem State.admStart_inv (s : State) (val : Word) : KeepsInv s (s.admStart val) := keepsInv fun hs => by
  unfold State.admStart; dsimp only
  (repeat' split) <;> simp [hs]

@[simp] theorem State.admStop_inv (s : State) : KeepsInv s s.admStop := keepsInv fun hs => by simp [State.admStop, hs]

@[simp] theorem State.chanClose_inv (s : State) (rd : Bool) : KeepsInv s (s.chanClose rd) := keepsInv fun hs => by
  unfold State.chanClose
  (repeat' split) <;> simp [hs]

@[simp] theorem State.chanIdle_inv (s : State) : KeepsInv s s.chanIdle := keepsInv fun hs => by
  unfold State.chanIdle; dsimp only
  (repeat' split) <;> simp [hs]

@[simp] theorem State.admPost_inv (s : State) (cid : BitVec 16) (status : Nat) (result : Word) :
    KeepsInv s (s.admPost cid status result) := keepsInv fun hs => by
  simp [State.admPost, hs]

@[simp] theorem State.chanOpen_inv (s : State) (rd : Bool) (e : Extent) : KeepsInv s (s.chanOpen rd e) := keepsInv fun hs => by
  unfold State.chanOpen; dsimp only
  (repeat' split) <;> simp [hs]

@[simp] theorem State.modSup_inv (s : State) (rd : Bool) (f : SupDesc → SupDesc) :
    KeepsInv s (s.modSup rd f) := keepsInv fun hs => by
  unfold State.modSup
  (repeat' split) <;> simp [hs]

@[simp] theorem State.supSegment_inv (s : State) (rd : Bool) (i : Nat) : KeepsInv s (s.supSegment rd i) := keepsInv fun hs => by
  unfold State.supSegment; dsimp only
  (repeat' split) <;> simp [hs]

@[simp] theorem State.supPieces_inv (n : Nat) (s : State) (rd : Bool) (i : Nat) :
    KeepsInv s (s.supPieces n rd i) := keepsInv fun hs => by
  induction n generalizing s rd i with
  | zero => exact hs
  | succ n ih =>
    unfold State.supPieces
    simp [ih, hs]

@[simp] theorem State.chanMove_inv (s : State) (rd : Bool) (e : Extent) (moved : Nat) :
    KeepsInv s (s.chanMove rd e moved) := keepsInv fun hs => by
  unfold State.chanMove; dsimp only
  (repeat' split) <;> simp [hs]

@[simp] theorem State.ownAsk_inv (s : State) (rd : Bool) (rix : Nat) : KeepsInv s (s.ownAsk rd rix) := keepsInv fun hs => by
  unfold State.ownAsk; dsimp only
  (repeat' split) <;> simp [hs]

@[simp] theorem State.ownTag_inv (s : State) : KeepsInv s s.ownTag := keepsInv fun hs => by simp [State.ownTag, hs]

@[simp] theorem State.ownReads_inv (n : Nat) (s : State) (addr : Word) (pasid : Option (BitVec 20)) (len : Nat) :
    KeepsInv s (s.ownReads n addr pasid len) := keepsInv fun hs => by
  induction n generalizing s addr pasid len with
  | zero => exact hs
  | succ n ih =>
    unfold State.ownReads; dsimp only
    (repeat' split) <;> simp [ih, hs]

@[simp] theorem State.ownRead_inv (s : State) (rix : Nat) (addr : Word) (pasid : Option (BitVec 20)) (len : Nat) (d : HostData) :
    KeepsInv s (s.ownRead rix addr pasid len d).1 := keepsInv fun hs => by
  unfold State.ownRead; dsimp only
  (repeat' split) <;> simp [hs]

@[simp] theorem State.supRead_inv (s : State) (addr : Word) (pasid : Option (BitVec 20)) (len : Nat) (d : HostData) :
    KeepsInv s (s.supRead addr pasid len d).1 := keepsInv fun hs => by
  unfold State.supRead; dsimp only
  (repeat' split) <;> simp [hs]

@[simp] theorem State.chanAt_inv (s : State) (addr : Word) (count : Nat) : KeepsInv s (s.chanAt addr count) := keepsInv fun hs => by
  unfold State.chanAt
  (repeat' split) <;> simp [hs]

@[simp] theorem State.supWrite_inv (s : State) (addr : Word) (count : Nat) (data : List Byte) (ecc : Ecc) :
    KeepsInv s (s.supWrite addr count data ecc) := keepsInv fun hs => by
  unfold State.supWrite; dsimp only
  (repeat' split) <;> simp [hs]

@[simp] theorem State.supWait_inv (s : State) (rd : Bool) (addr : Word) (pasid : Option (BitVec 20)) (len : Nat) :
    KeepsInv s (s.supWait rd addr pasid len) := keepsInv fun hs => by
  simp [State.supWait, hs]

@[simp] theorem State.admRefuse_inv (s : State) (x : Refuse) : KeepsInv s (s.admRefuse x) := keepsInv fun hs => by
  simp [State.admRefuse, hs]

@[simp] theorem State.plan_inv (s : State) (e : BitVec 512) (p : Plan) : KeepsInv s (s.plan e p) := keepsInv fun hs => by
  simp [State.plan, hs]

@[simp] theorem State.readText_inv (s : State) (stb kib : Nat) (text : HostData) :
    KeepsInv s (s.readText stb kib text).1 := keepsInv fun hs => by
  unfold State.readText
  (repeat' split) <;> simp [hs]

@[simp] theorem State.waitText_inv (s : State) (stb kib : Nat) : KeepsInv s (s.waitText stb kib) := keepsInv fun hs => by
  unfold State.waitText
  (repeat' split) <;> simp [hs]

@[simp] theorem State.install_inv (s : State) (p : Plan) : KeepsInv s (s.install p) := keepsInv fun hs => by
  unfold State.install; dsimp only
  (repeat' split) <;> simp [hs]

@[simp] theorem State.delSq_inv (s : State) (q : Nat) (r : SQ) : KeepsInv s (s.delSq q r) := keepsInv fun hs => by
  unfold State.delSq; dsimp only
  (repeat' split) <;> simp [hs]

/-! ## Threads -/

@[simp] theorem State.record__inv (s : State) (th : Nat) (c : Ckpt) : KeepsInv s (s.record_ th c) := keepsInv fun hs => by
  simp [State.record_, hs]

@[simp] theorem State.amend_inv (s : State) (th : Nat) (f : Ckpt → Ckpt) : KeepsInv s (s.amend th f) := keepsInv fun hs => by
  simp [State.amend, hs]

@[simp] theorem State.commitFor_inv (s : State) (th : Nat) (t : Thread) (e : CkEffect) :
    KeepsInv s (s.commitFor th t e) := keepsInv fun hs => by
  simp [State.commitFor, hs]

@[simp] theorem State.commit_inv (s : State) (th : Nat) (t : Thread) : KeepsInv s (s.commit th t) := keepsInv fun hs => by
  simp [State.commit, hs]

@[simp] theorem State.effectDone_inv (s : State) (th : Nat) (t : Thread) : KeepsInv s (s.effectDone th t) := keepsInv fun hs => by
  simp [State.effectDone, hs]

@[simp] theorem State.release_inv (s : State) (th : Nat) (t : Thread) (wait : Wait) :
    KeepsInv s (s.release th t wait) := keepsInv fun hs => by
  simp [State.release, hs]

@[simp] theorem State.stopThread_inv (s : State) (th : Nat) (t : Thread) : KeepsInv s (s.stopThread th t) := keepsInv fun hs => by
  simp [State.stopThread, hs]

@[simp] theorem State.endThread_inv (s : State) (th : Nat) (t : Thread) : KeepsInv s (s.endThread th t) := keepsInv fun hs => by
  simp [State.endThread, hs]

@[simp] theorem State.programCheck_inv (s : State) (th : Nat) (t : Thread) (code : Nat) :
    KeepsInv s (s.programCheck th t code) := keepsInv fun hs => by
  unfold State.programCheck; dsimp only
  (repeat' split) <;> simp [hs]

/-- The checks of an operation before its own effect (R230). -/
theorem State.checked_inv {s : State} (h : Inv s) (th : Nat) (t : Thread) (op : Op) {k : List Src → State} (hk : ∀ l, Inv (k l)) :
    Inv (s.checked th t op k) := by
  unfold State.checked; dsimp only
  (repeat' split) <;> simp [h, hk]

@[simp] theorem State.readWait_inv (s : State) (th sch : Nat) (who : WaitWho) :
    KeepsInv s (s.readWait th sch who) := keepsInv fun hs => by
  unfold State.readWait
  (repeat' split) <;> simp [hs]

@[simp] theorem State.issueLoad_inv (s : State) (th : Nat) (t : Thread) (l : Load) :
    KeepsInv s (s.issueLoad th t l) := keepsInv fun hs => by
  unfold State.issueLoad; dsimp only
  (repeat' split) <;> simp [hs]

@[simp] theorem State.adopt_inv (s : State) (th : Nat) (t : Thread) : KeepsInv s (s.adopt th t).1 := keepsInv fun hs => by
  unfold State.adopt; dsimp only
  (repeat' split) <;> simp [hs]

@[simp] theorem State.releaseFaults_inv (s : State) (sch : Nat) (l : List Store) (rel : Release) :
    KeepsInv s (s.releaseFaults sch l rel) := keepsInv fun hs => by
  simp [State.releaseFaults, hs]

@[simp] theorem State.reissue_inv (s : State) (th : Nat) (bad : List Nat) (l : List Load) :
    KeepsInv s (s.reissue th bad l) := keepsInv fun hs => by
  induction l generalizing s th bad with
  | nil => exact hs
  | cons a l ih =>
    unfold State.reissue; dsimp only
    (repeat' split) <;> simp [ih, hs]

/-! ## Bundles -/

@[simp] theorem State.finish_inv (s : State) (th : Nat) (t : Thread) : KeepsInv s (s.finish th t) := keepsInv fun hs => by
  simp [State.finish, hs]

@[simp] theorem State.issuePlain_inv (s : State) (th : Nat) (t : Thread) (b : BitVec 128) (ops : List Op) :
    KeepsInv s (s.issuePlain th t b ops) := keepsInv fun hs => by
  unfold State.issuePlain; dsimp only
  (repeat' split) <;> simp [hs]

/-! ## Memory -/

@[simp] theorem State.added_inv (s : State) (th : Nat) (t : Thread) (host : Option Bool) :
    KeepsInv s (s.added th t host).1 := keepsInv fun hs => by
  unfold State.added; dsimp only
  (repeat' split) <;> simp [hs]

@[simp] theorem State.loadFailed_inv (s : State) (th : Nat) (t : Thread) : KeepsInv s (s.loadFailed th t) := keepsInv fun hs => by
  simp [State.loadFailed, hs]

@[simp] theorem State.loadGo_inv (s : State) (th : Nat) (t : Thread) (l : Load) (m : Meet) (resv : Bool) :
    KeepsInv s (s.loadGo th t l m resv) := keepsInv fun hs => by
  unfold State.loadGo; dsimp only
  (repeat' split) <;> simp [hs]

@[simp] theorem State.opLoad_inv (s : State) (th : Nat) (t : Thread) (op : Op) :
    KeepsInv s (s.opLoad th t op) := keepsInv fun hs => by
  refine State.checked_inv hs _ _ _ fun srcs => ?_
  dsimp only
  (repeat' split) <;> simp [hs]

@[simp] theorem State.buffer_inv (s : State) (th : Nat) (t : Thread) (e : Store) :
    KeepsInv s (s.buffer th t e).1 := keepsInv fun hs => by
  unfold State.buffer; dsimp only
  (repeat' split) <;> simp [hs]

@[simp] theorem State.opStore_inv (s : State) (th : Nat) (t : Thread) (b : BitVec 128) (op : Op) :
    KeepsInv s (s.opStore th t b op) := keepsInv fun hs => by
  unfold State.opStore State.checked; dsimp only
  (repeat' split) <;> simp [hs]

@[simp] theorem State.opRpt_inv (s : State) (th : Nat) (t : Thread) (op : Op) :
    KeepsInv s (s.opRpt th t op) := keepsInv fun hs => by
  unfold State.opRpt State.checked; dsimp only
  (repeat' split) <;> simp [hs]

@[simp] theorem State.stepGo_inv (s : State) (th : Nat) (t : Thread) (b : BitVec 128) (op : Op) (raw : Bool) (r : TWord × TWord ×
    TWord) (us : List TWord) (dst : Option Place) (cnt : Option Nat) :
    KeepsInv s (s.stepGo th t b op raw r us dst cnt) := keepsInv fun hs => by
  unfold State.stepGo; dsimp only
  (repeat' split) <;> simp [hs]

@[simp] theorem State.blockStep_inv (fuel : Nat) (s : State) (th : Nat) (t : Thread) (b : BitVec 128) (op : Op) (srcs : List Src)
    :
    KeepsInv s (s.blockStep fuel th t b op srcs) := keepsInv fun hs => by
  induction fuel generalizing s th t b op srcs with
  | zero => exact hs
  | succ n ih =>
    unfold State.blockStep; dsimp only
    (repeat' split) <;> simp [ih, hs]

@[simp] theorem State.opBlock_inv (s : State) (th : Nat) (t : Thread) (b : BitVec 128) (op : Op) :
    KeepsInv s (s.opBlock th t b op) := keepsInv fun hs => by
  unfold State.opBlock State.checked; dsimp only
  (repeat' split) <;> simp [hs]

@[simp] theorem State.opCommit_inv (s : State) (th : Nat) (t : Thread) (op : Op) :
    KeepsInv s (s.opCommit th t op) := keepsInv fun hs => by
  unfold State.opCommit State.checked; dsimp only
  (repeat' split) <;> simp [hs]

@[simp] theorem State.opAtomic_inv (s : State) (th : Nat) (t : Thread) (op : Op) :
    KeepsInv s (s.opAtomic th t op) := keepsInv fun hs => by
  unfold State.opAtomic State.checked; dsimp only
  (repeat' split) <;> simp [hs]

/-! ## Transfer -/

@[simp] theorem State.wantSend_inv (s : State) (sch : Nat) : KeepsInv s (s.wantSend sch) := keepsInv fun hs => by
  unfold State.wantSend
  (repeat' split) <;> simp [hs]

@[simp] theorem State.wantAll_inv (s : State) : KeepsInv s s.wantAll := keepsInv fun hs => by simp [State.wantAll, hs]

@[simp] theorem State.moveClock_inv (s : State) (sch n : Nat) : KeepsInv s (s.moveClock sch n) := keepsInv fun hs => by
  unfold State.moveClock; dsimp only
  (repeat' split) <;> simp [hs]

@[simp] theorem senseOut_inv (n : Nat) (s : State) (addr : Word) (pasid : Option (BitVec 20)) (a : Nat) (bs : List Byte) (poison :
    BitVec 8) :
    KeepsInv s (senseOut n s addr pasid a bs poison) := keepsInv fun hs => by
  induction n generalizing s addr pasid a bs poison with
  | zero => exact hs
  | succ n ih =>
    unfold senseOut; dsimp only
    (repeat' split) <;> simp [ih, hs]

@[simp] theorem State.senseWrite_inv (s : State) (e : Extent) (bs : List Byte) (poison : BitVec 8) :
    KeepsInv s (s.senseWrite e bs poison) := keepsInv fun hs => by
  unfold State.senseWrite
  (repeat' split) <;> simp [hs]

@[simp] theorem State.afterIssue_inv (s : State) (th : Nat) (t : Thread) (chc : Bool) :
    KeepsInv s (s.afterIssue th t chc) := keepsInv fun hs => by
  unfold State.afterIssue; dsimp only
  (repeat' split) <;> simp [hs]

@[simp] theorem State.senseDescs_inv (s : State) (sch count moved : Nat) :
    KeepsInv s (s.senseDescs sch count moved) := keepsInv fun hs => by
  simp [State.senseDescs, hs]

@[simp] theorem State.issueSense_inv (s : State) (th : Nat) (t : Thread) (w : XWords) (ext : Extent) :
    KeepsInv s (s.issueSense th t w ext) := keepsInv fun hs => by
  unfold State.issueSense; dsimp only
  (repeat' split) <;> simp [hs]

@[simp] theorem State.suspend_inv (s : State) (th : Nat) (t : Thread) : KeepsInv s (s.suspend th t) := keepsInv fun hs => by
  unfold State.suspend; dsimp only
  (repeat' split) <;> simp [hs]

/-! ## Command -/

@[simp] theorem State.sendRead_inv (s : State) (x : Nat) (e : Exch) (p : Piece) :
    KeepsInv s (s.sendRead x e p) := keepsInv fun hs => by
  simp [State.sendRead, hs]

@[simp] theorem State.sendReads_inv (n : Nat) (s : State) (x : Nat) : KeepsInv s (s.sendReads n x) := keepsInv fun hs => by
  induction n generalizing s x with
  | zero => exact hs
  | succ n ih =>
    unfold State.sendReads
    (repeat' split) <;> simp [ih, hs]

@[simp] theorem State.emitCmd_inv (s : State) (x dev : Nat) (pd : PathDesc) (c : Cmd) (p : Piece) :
    KeepsInv s (s.emitCmd x dev pd c p) := keepsInv fun hs => by
  unfold State.emitCmd; dsimp only
  (repeat' split) <;> simp [hs]

/-! ## Redrive -/

@[simp] theorem State.reopenDesc_inv (s : State) (k : Nat) (d : Desc) (pc a b : Nat) :
    KeepsInv s (s.reopenDesc k d pc a b) := keepsInv fun hs => by
  unfold State.reopenDesc; dsimp only
  (repeat' split) <;> simp [hs]

@[simp] theorem State.reopenSpan_inv (s : State) (d i : Nat) (g : Nat × Nat) :
    KeepsInv s (s.reopenSpan d i g) := keepsInv fun hs => by
  unfold State.reopenSpan
  (repeat' split) <;> simp [hs]

@[simp] theorem State.reopen_inv (s : State) (sch no i : Nat) (free : Bool) :
    KeepsInv s (s.reopen sch no i free) := keepsInv fun hs => by
  unfold State.reopen; dsimp only
  (repeat' split) <;> simp [hs]

@[simp] theorem State.unsend_inv (s : State) (x : Nat) (same : Option Nat) (ended : Bool) :
    KeepsInv s (s.unsend x same ended) := keepsInv fun hs => by
  unfold State.unsend
  (repeat' split) <;> simp [hs]

@[simp] theorem State.setSeq_inv (s : State) (dev : Nat) (p : SeqPos) : KeepsInv s (s.setSeq dev p) := keepsInv fun hs => by
  simp [State.setSeq, hs]

@[simp] theorem State.positionCheck_inv (s : State) (sch no i dev : Nat) (pos : Option Nat) :
    KeepsInv s (s.positionCheck sch no i dev pos) := keepsInv fun hs => by
  unfold State.positionCheck; dsimp only
  (repeat' split) <;> simp [hs]

@[simp] theorem State.readPos_inv (s : State) : KeepsInv s (s.readPos).1 := keepsInv fun hs => by simp [State.readPos, hs]

@[simp] theorem State.portPathsDown_inv (s : State) (quad port : Nat) (ctrl : Option Word) :
    KeepsInv s (s.portPathsDown quad port ctrl) := keepsInv fun hs => by
  simp [State.portPathsDown, hs]

@[simp] theorem State.abortLater_inv (s : State) (f : Exch) : KeepsInv s (s.abortLater f) := keepsInv fun hs => by
  simp [State.abortLater, hs]

@[simp] theorem State.leaveGhost_inv (s : State) (x : Nat) (e : Exch) (k : GhostKind) :
    KeepsInv s (s.leaveGhost x e k) := keepsInv fun hs => by
  unfold State.leaveGhost; dsimp only
  (repeat' split) <;> simp [hs]

@[simp] theorem State.losePath_inv (s : State) (x : Nat) (k : GhostKind) : KeepsInv s (s.losePath x k) := keepsInv fun hs => by
  unfold State.losePath; dsimp only
  (repeat' split) <;> simp [hs]

@[simp] theorem State.redriveAll_inv (s : State) (quad port : Nat) (l : List Nat) (k : GhostKind) :
    KeepsInv s (s.redriveAll quad port l k) := keepsInv fun hs => by
  unfold State.redriveAll; dsimp only
  (repeat' split) <;> simp [hs]

@[simp] theorem State.portGone_inv (s : State) (quad port : Nat) : KeepsInv s (s.portGone quad port) := keepsInv fun hs => by
  unfold State.portGone; dsimp only
  (repeat' split) <;> simp [hs]

@[simp] theorem State.portDown_inv (s : State) (quad port : Nat) (st : BitVec 2) :
    KeepsInv s (s.portDown quad port st) := keepsInv fun hs => by
  simp [State.portDown, hs]

@[simp] theorem State.train_inv (s : State) (quad port : Nat) : KeepsInv s (s.train quad port) := keepsInv fun hs => by
  unfold State.train; dsimp only
  (repeat' split) <;> simp [hs]

@[simp] theorem State.linkLost_inv (s : State) (quad port : Nat) (st : BitVec 2) :
    KeepsInv s (s.linkLost quad port st) := keepsInv fun hs => by
  unfold State.linkLost; dsimp only
  (repeat' split) <;> simp [hs]

@[simp] theorem State.devPathDown_inv (s : State) (e : Exch) : KeepsInv s (s.devPathDown e) := keepsInv fun hs => by
  unfold State.devPathDown; dsimp only
  (repeat' split) <;> simp [hs]

@[simp] theorem State.noteFail_inv (s : State) (e : Exch) : KeepsInv s (s.noteFail e) := keepsInv fun hs => by
  simp [State.noteFail, hs]

@[simp] theorem State.resendSame_inv (s : State) (x : Nat) (e : Exch) (pos : Option Nat) :
    KeepsInv s (s.resendSame x e pos) := keepsInv fun hs => by
  unfold State.resendSame; dsimp only
  (repeat' split) <;> simp [hs]

@[simp] theorem State.transport_inv (s : State) (x : Nat) : KeepsInv s (s.transport x) := keepsInv fun hs => by
  unfold State.transport; dsimp only
  (repeat' split) <;> simp [hs]

@[simp] theorem State.transportEnded_inv (s : State) (x : Nat) : KeepsInv s (s.transportEnded x) := keepsInv fun hs => by
  unfold State.transportEnded; dsimp only
  (repeat' split) <;> simp [hs]

@[simp] theorem State.abortDone_inv (s : State) (x : Nat) (pos : Option Nat) :
    KeepsInv s (s.abortDone x pos) := keepsInv fun hs => by
  unfold State.abortDone
  (repeat' split) <;> simp [hs]

@[simp] theorem State.noPath_inv (s : State) (sch no i : Nat) : KeepsInv s (s.noPath sch no i) := keepsInv fun hs => by
  simp [State.noPath, hs]

/-! ## Exchange -/

@[simp] theorem State.usePort_inv (s : State) (quad port : Nat) : KeepsInv s (s.usePort quad port) := keepsInv fun hs => by
  unfold State.usePort; dsimp only
  (repeat' split) <;> simp [hs]

@[simp] theorem State.useConn_inv (s : State) (dev : Nat) (pd : PathDesc) : KeepsInv s (s.useConn dev pd) := keepsInv fun hs => by
  unfold State.useConn; dsimp only
  (repeat' split) <;> simp [hs]

@[simp] theorem State.knowPos_inv (s : State) (sch : Nat) (c : Cmd) : KeepsInv s (s.knowPos sch c) := keepsInv fun hs => by
  unfold State.knowPos; dsimp only
  (repeat' split) <;> simp [hs]

@[simp] theorem State.countRedrive_inv (s : State) (p : Piece) : KeepsInv s (s.countRedrive p) := keepsInv fun hs => by
  unfold State.countRedrive
  (repeat' split) <;> simp [hs]

@[simp] theorem State.wantRead_inv (s : State) (sch no : Nat) (p : Piece) :
    KeepsInv s (s.wantRead sch no p) := keepsInv fun hs => by
  simp [State.wantRead, hs]

@[simp] theorem State.inherit_inv (s : State) (sch no i x : Nat) : KeepsInv s (s.inherit sch no i x) := keepsInv fun hs => by
  simp [State.inherit, hs]

@[simp] theorem State.holdExch_inv (s : State) (x sch : Nat) (c : Cmd) (i : Nat) (p : Piece) (pi : Nat) (pd : PathDesc) :
    KeepsInv s (s.holdExch x sch c i p pi pd) := keepsInv fun hs => by
  simp [State.holdExch, hs]

@[simp] theorem State.sendExch_inv (s : State) (x sch : Nat) (c : Cmd) (i : Nat) (p : Piece) (pi : Nat) (pd : PathDesc) :
    KeepsInv s (s.sendExch x sch c i p pi pd) := keepsInv fun hs => by
  simp [State.sendExch, hs]

@[simp] theorem State.refuseSend_inv (s : State) (sch no i : Nat) : KeepsInv s (s.refuseSend sch no i) := keepsInv fun hs => by
  unfold State.refuseSend
  (repeat' split) <;> simp [hs]

@[simp] theorem State.keepSense_inv (s : State) (quad sch : Nat) (l : List Byte) :
    KeepsInv s (s.keepSense quad sch l) := keepsInv fun hs => by
  unfold State.keepSense; dsimp only
  (repeat' split) <;> simp [hs]

@[simp] theorem State.seqEnd_inv (s : State) (dev : Nat) (c : Cmd) (ds : Byte) (read : Option Nat) :
    KeepsInv s (s.seqEnd dev c ds read) := keepsInv fun hs => by
  unfold State.seqEnd; dsimp only
  (repeat' split) <;> simp [hs]

@[simp] theorem State.exchAnswer_inv (s : State) (x : Nat) (e : Exch) (a : DevAnswer) :
    KeepsInv s (s.exchAnswer x e a) := keepsInv fun hs => by
  unfold State.exchAnswer; dsimp only
  (repeat' split) <;> simp [hs]

@[simp] theorem State.declareLost_inv (s : State) (sch quad x : Nat) :
    KeepsInv s (s.declareLost sch quad x) := keepsInv fun hs => by
  simp [State.declareLost, hs]

@[simp] theorem State.noteEscalate_inv (s : State) (e : Exch) : KeepsInv s (s.noteEscalate e) := keepsInv fun hs => by
  simp [State.noteEscalate, hs]

@[simp] theorem State.enableCtrl_inv (s : State) (quad port : Nat) (id : Word) :
    KeepsInv s (s.enableCtrl quad port id) := keepsInv fun hs => by
  simp [State.enableCtrl, hs]

@[simp] theorem State.shareQuad_inv (s : State) (quad : Nat) : KeepsInv s (s.shareQuad quad) := keepsInv fun hs => by
  simp [State.shareQuad, hs]

@[simp] theorem State.initCtrl_inv (s : State) (quad port : Nat) (id : Word) :
    KeepsInv s (s.initCtrl quad port id) := keepsInv fun hs => by
  simp [State.initCtrl, hs]

@[simp] theorem State.sendReset_inv (s : State) (e : Exch) : KeepsInv s (s.sendReset e) := keepsInv fun hs => by
  unfold State.sendReset
  (repeat' split) <;> simp [hs]

@[simp] theorem State.endByReset_inv (s : State) (x : Nat) : KeepsInv s (s.endByReset x) := keepsInv fun hs => by
  unfold State.endByReset; dsimp only
  (repeat' split) <;> simp [hs]

@[simp] theorem State.escalate_inv (s : State) (x : Nat) (e : Exch) : KeepsInv s (s.escalate x e) := keepsInv fun hs => by
  simp [State.escalate, hs]

@[simp] theorem State.loseExch_inv (s : State) (x : Nat) (e : Exch) : KeepsInv s (s.loseExch x e) := keepsInv fun hs => by
  unfold State.loseExch; dsimp only
  (repeat' split) <;> simp [hs]

@[simp] theorem State.ghostGone_inv (s : State) (k : Nat) (g : Ghost) (pos : Option Nat) :
    KeepsInv s (s.ghostGone k g pos) := keepsInv fun hs => by
  unfold State.ghostGone; dsimp only
  (repeat' split) <;> simp [hs]

/-! ## Move -/

@[simp] theorem State.modSeg_inv (s : State) (n : Nat) (f : HeldSeg → HeldSeg) : KeepsInv s (s.modSeg n f) := keepsInv fun hs => by
  simp [State.modSeg, hs]

@[simp] theorem State.poisonCmd_inv (s : State) (sch no : Nat) : KeepsInv s (s.poisonCmd sch no) := keepsInv fun hs => by
  unfold State.poisonCmd; dsimp only
  (repeat' split) <;> simp [hs]

@[simp] theorem State.giveUp_inv (s : State) (x : Nat) : KeepsInv s (s.giveUp x) := keepsInv fun hs => by
  unfold State.giveUp
  (repeat' split) <;> simp [hs]

@[simp] theorem State.wantDma_inv (s : State) (k : Nat) : KeepsInv s (s.wantDma k) := keepsInv fun hs => by
  unfold State.wantDma
  (repeat' split) <;> simp [hs]

@[simp] theorem State.onward_inv (s : State) (k : Nat) : KeepsInv s (s.onward k) := keepsInv fun hs => by
  unfold State.onward
  (repeat' split) <;> simp [hs]

@[simp] theorem State.writeOut_inv (s : State) (r : WriteReq) (bs : List Byte) (poison : Bool) (bad : List Nat) :
    KeepsInv s (s.writeOut r bs poison bad) := keepsInv fun hs => by
  unfold State.writeOut; dsimp only
  (repeat' split) <;> simp [hs]

@[simp] theorem State.fabricUe_inv (s : State) (n sch : Nat) : KeepsInv s (s.fabricUe n sch) := keepsInv fun hs => by
  simp [State.fabricUe, hs]

@[simp] theorem State.bufferFault_inv (s : State) (e : Exch) (x a : Nat) : KeepsInv s (s.bufferFault e x a) := keepsInv fun hs => by
  simp [State.bufferFault, hs]

@[simp] theorem State.answerRead_inv (s : State) (e : Exch) (quad port : Nat) (addr : Word) (x : Nat) (r : List Byte × Bool) :
    KeepsInv s (s.answerRead e quad port addr x r) := keepsInv fun hs => by
  unfold State.answerRead
  (repeat' split) <;> simp [hs]

@[simp] theorem State.fabricFault_inv (s : State) (e : Exch) (x : Nat) : KeepsInv s (s.fabricFault e x) := keepsInv fun hs => by
  simp [State.fabricFault, hs]

@[simp] theorem State.answerWait_inv (s : State) (x : Nat) (r : DevRead) : KeepsInv s (s.answerWait x r) := keepsInv fun hs => by
  unfold State.answerWait; dsimp only
  (repeat' split) <;> simp [hs]

@[simp] theorem State.answerReads_inv (s : State) (x : Nat) : KeepsInv s (s.answerReads x) := keepsInv fun hs => by
  simp [State.answerReads, hs]

@[simp] theorem State.filled_inv (s : State) (d : Nat) (pc x' k a : Nat) (bs : List Byte) (bad : BitVec 8) :
    KeepsInv s (s.filled d pc x' k a bs bad) := keepsInv fun hs => by
  unfold State.filled; dsimp only
  (repeat' split) <;> simp [hs]

@[simp] theorem State.fillFailed_inv (s : State) (d a : Nat) (st : CplStatus) :
    KeepsInv s (s.fillFailed d a st) := keepsInv fun hs => by
  unfold State.fillFailed; dsimp only
  (repeat' split) <;> simp [hs]

/-! ## Fifo -/

@[simp] theorem State.onFifo_inv (s : State) (quad : Nat) (f : Fifo → Fifo) : KeepsInv s (s.onFifo quad f) := keepsInv fun hs => by
  simp [State.onFifo, hs]

@[simp] theorem State.overrun_inv (s : State) (x : Nat) : KeepsInv s (s.overrun x) := keepsInv fun hs => by
  simp [State.overrun, hs]

@[simp] theorem State.touchConn_inv (s : State) (x : Nat) : KeepsInv s (s.touchConn x) := keepsInv fun hs => by
  unfold State.touchConn
  (repeat' split) <;> simp [hs]

@[simp] theorem State.popFrame_inv (s : State) (quad : Nat) (r : RxFrame) : KeepsInv s (s.popFrame quad r) := keepsInv fun hs => by
  simp [State.popFrame, hs]

@[simp] theorem State.setWatermarks_inv (s : State) (quad : Nat) (val : Word) :
    KeepsInv s (s.setWatermarks quad val) := keepsInv fun hs => by
  unfold State.setWatermarks; dsimp only
  (repeat' split) <;> simp [hs]

@[simp] theorem State.offer_inv (s : State) (x : Nat) : KeepsInv s (s.offer x) := keepsInv fun hs => by
  unfold State.offer; dsimp only
  (repeat' split) <;> simp [hs]

@[simp] theorem State.offerNext_inv (s : State) (quad : Nat) : KeepsInv s (s.offerNext quad) := keepsInv fun hs => by
  unfold State.offerNext
  (repeat' split) <;> simp [hs]

@[simp] theorem State.txFault_inv (s : State) (quad : Nat) : KeepsInv s (s.txFault quad) := keepsInv fun hs => by
  unfold State.txFault; dsimp only
  (repeat' split) <;> simp [hs]

@[simp] theorem State.sendPayload_inv (s : State) (x : Nat) (e : Exch) (p : Piece) (off : Nat) (data : List Byte) :
    KeepsInv s (s.sendPayload x e p off data) := keepsInv fun hs => by
  unfold State.sendPayload
  (repeat' split) <;> simp [hs]

@[simp] theorem State.devRefuse_inv (s : State) (quad port : Nat) (addr : Word) (x : Option Nat) :
    KeepsInv s (s.devRefuse quad port addr x) := keepsInv fun hs => by
  unfold State.devRefuse; dsimp only
  (repeat' split) <;> simp [hs]

@[simp] theorem State.queueRamReq_inv (s : State) (quad port : Nat) (r : DevMemReq) :
    KeepsInv s (s.queueRamReq quad port r) := keepsInv fun hs => by
  unfold State.queueRamReq; dsimp only
  (repeat' split) <;> simp [hs]

@[simp] theorem State.prpReq_inv (s : State) (quad port : Nat) (r : DevMemReq) (x off : Nat) :
    KeepsInv s (s.prpReq quad port r x off) := keepsInv fun hs => by
  unfold State.prpReq
  (repeat' split) <;> simp [hs]

/-! ## Awake -/

@[simp] theorem State.wake_inv (s : State) (k : Nat) : KeepsInv s (s.wake k) := keepsInv fun hs => by
  unfold State.wake; dsimp only
  (repeat' split) <;> simp [hs]

@[simp] theorem State.recomputeAwake_inv (s : State) : KeepsInv s s.recomputeAwake := keepsInv fun hs => by
  simp [State.recomputeAwake, hs]

@[simp] theorem State.rest_inv (s : State) (k : Nat) (st : CluSt) : KeepsInv s (s.rest k st) := keepsInv fun hs => by
  unfold State.rest; dsimp only
  (repeat' split) <;> simp [hs]

@[simp] theorem State.setMaxState_inv (s : State) (val : Word) : KeepsInv s (s.setMaxState val) := keepsInv fun hs => by
  simp [State.setMaxState, hs]

/-! ## Recover -/

@[simp] theorem State.tallyRead_inv (s : State) : KeepsInv s s.tallyRead := keepsInv fun hs => by
  unfold State.tallyRead
  (repeat' split) <;> simp [hs]

@[simp] theorem State.returnLeak_inv (s : State) (line : Nat) (n : Word) : KeepsInv s (s.returnLeak line n) := keepsInv fun hs => by
  unfold State.returnLeak
  (repeat' split) <;> simp [hs]

@[simp] theorem State.auditLine_inv (s : State) (line : Nat) : KeepsInv s (s.auditLine line).1 := keepsInv fun hs => by
  unfold State.auditLine; dsimp only
  (repeat' split) <;> simp [hs]

@[simp] theorem State.tallySnap_inv (s : State) : KeepsInv s s.tallySnap := keepsInv fun hs => by simp [State.tallySnap, hs]

@[simp] theorem State.stopThreads_inv (s : State) (p : Nat → Bool) : KeepsInv s (s.stopThreads p) := keepsInv fun hs => by
  simp [State.stopThreads, hs]

@[simp] theorem State.requeueStopped_inv (s : State) (k : Nat) : KeepsInv s (s.requeueStopped k) := keepsInv fun hs => by
  simp [State.requeueStopped, hs]

@[simp] theorem State.fence_inv (s : State) (k : Nat) : KeepsInv s (s.fence k) := keepsInv fun hs => by
  unfold State.fence; dsimp only
  (repeat' split) <;> simp [hs]

@[simp] theorem State.failEngine_inv (s : State) (k e : Nat) : KeepsInv s (s.failEngine k e) := keepsInv fun hs => by
  unfold State.failEngine; dsimp only
  (repeat' split) <;> simp [hs]

/-! ## Mailbox -/

@[simp] theorem State.modBox_inv (s : State) (ch : Chan) (f : Box → Box) : KeepsInv s (s.modBox ch f) := keepsInv fun hs => by
  simp [State.modBox, hs]

@[simp] theorem State.modSender_inv (s : State) (ch : Chan) (f : Sender → Sender) :
    KeepsInv s (s.modSender ch f) := keepsInv fun hs => by
  simp [State.modSender, hs]

@[simp] theorem State.mbEdge_inv (before : State) (s : State) : KeepsInv s (before.mbEdge s) := keepsInv fun hs => by
  simp [State.mbEdge, hs]

@[simp] theorem State.modBell_inv (s : State) (ch : Chan) (f : Bell → Bell) : KeepsInv s (s.modBell ch f) := keepsInv fun hs => by
  unfold State.modBell; dsimp only
  (repeat' split) <;> simp [hs]

@[simp] theorem State.raiseAt_inv (s : State) (src : Option (IcInst × Nat)) : KeepsInv s (s.raiseAt src) := keepsInv fun hs => by
  unfold State.raiseAt
  (repeat' split) <;> simp [hs]

@[simp] theorem State.ring_inv (s : State) (ch : Chan) (bit : Nat) : KeepsInv s (s.ring ch bit) := keepsInv fun hs => by
  unfold State.ring; dsimp only
  (repeat' split) <;> simp [hs]

@[simp] theorem State.tellSender_inv (s : State) (ch : Chan) : KeepsInv s (s.tellSender ch) := keepsInv fun hs => by
  unfold State.tellSender
  (repeat' split) <;> simp [hs]

@[simp] theorem State.overrunOf_inv (s : State) (ch : Chan) : KeepsInv s (s.overrunOf ch) := keepsInv fun hs => by
  unfold State.overrunOf
  (repeat' split) <;> simp [hs]

@[simp] theorem State.mbSend_inv (s : State) (ch : Chan) (bit : Nat) (word : Word) :
    KeepsInv s (s.mbSend ch bit word) := keepsInv fun hs => by
  unfold State.mbSend; dsimp only
  (repeat' split) <;> simp [hs]

@[simp] theorem State.serveBell_inv (s : State) (ch : Chan) : KeepsInv s (s.serveBell ch) := keepsInv fun hs => by
  unfold State.serveBell
  (repeat' split) <;> simp [hs]

@[simp] theorem State.mbTake_inv (s : State) (ch : Chan) : KeepsInv s (s.mbTake ch) := keepsInv fun hs => by
  simp [State.mbTake, hs]

@[simp] theorem State.mbServe_inv (s : State) (ch : Chan) : KeepsInv s (s.mbServe ch) := keepsInv fun hs => by
  simp [State.mbServe, hs]

@[simp] theorem State.mbAbort_inv (s : State) (ch : Chan) : KeepsInv s (s.mbAbort ch) := keepsInv fun hs => by
  unfold State.mbAbort; dsimp only
  (repeat' split) <;> simp [hs]

@[simp] theorem State.pumpNotices_inv (s : State) : KeepsInv s s.pumpNotices := keepsInv fun hs => by
  unfold State.pumpNotices
  (repeat' split) <;> simp [hs]

@[simp] theorem State.notice_inv (s : State) (type value : Nat) : KeepsInv s (s.notice type value) := keepsInv fun hs => by
  simp [State.notice, hs]

@[simp] theorem State.modIc_inv (s : State) (inst : IcInst) (f : Ic → Ic) : KeepsInv s (s.modIc inst f) := keepsInv fun hs => by
  unfold State.modIc
  (repeat' split) <;> simp [hs]

@[simp] theorem State.relatch_inv (s : State) (inst : IcInst) : KeepsInv s (s.relatch inst) := keepsInv fun hs => by
  simp [State.relatch, hs]

@[simp] theorem State.mbRead_inv (s : State) (ch : Chan) (size : Nat) (show_ : Word → Out) :
    KeepsInv s (s.mbRead ch size show_) := keepsInv fun hs => by
  unfold State.mbRead; dsimp only
  (repeat' split) <;> simp [hs]

@[simp] theorem State.obuloTakes_inv (s : State) : KeepsInv s s.obuloTakes := keepsInv fun hs => by
  unfold State.obuloTakes; dsimp only
  (repeat' split) <;> simp [hs]

@[simp] theorem State.mbStatus_inv (s : State) (plinth stat : Bool) (half : Option Bool) (val : Word) :
    KeepsInv s (s.mbStatus plinth stat half val) := keepsInv fun hs => by
  unfold State.mbStatus; dsimp only
  (repeat' split) <;> simp [hs]

@[simp] theorem State.innerStatus_inv (s : State) (ch : Chan) (stat : Bool) (half : Option Bool) (v : Word) :
    KeepsInv s (s.innerStatus ch stat half v) := keepsInv fun hs => by
  unfold State.innerStatus; dsimp only
  (repeat' split) <;> simp [hs]

@[simp] theorem State.icAcked_inv (s : State) (inst : IcInst) : KeepsInv s (s.icAcked inst) := keepsInv fun hs => by
  simp [State.icAcked, hs]

@[simp] theorem State.icCounted_inv (s : State) (inst : IcInst) (i : Nat) (js : List Nat) :
    KeepsInv s (s.icCounted inst i js) := keepsInv fun hs => by
  simp [State.icCounted, hs]

/-! ## Quads -/

@[simp] theorem State.drive_inv (s : State) (l : List Out) : KeepsInv s (s.drive l) := keepsInv fun hs => by
  unfold State.drive
  (repeat' split) <;> simp [hs]

@[simp] theorem State.quadIrq_inv (s : State) (quad : Nat) : KeepsInv s (s.quadIrq quad) := keepsInv fun hs => by
  simp [State.quadIrq, hs]

@[simp] theorem State.pinPwren_inv (s : State) (quad port : Nat) (level : Bool) :
    KeepsInv s (s.pinPwren quad port level) := keepsInv fun hs => by
  simp [State.pinPwren, hs]

@[simp] theorem State.pinPerst_inv (s : State) (quad port : Nat) (held : Bool) :
    KeepsInv s (s.pinPerst quad port held) := keepsInv fun hs => by
  unfold State.pinPerst; dsimp only
  (repeat' split) <;> simp [hs]

@[simp] theorem State.portFault_inv (s : State) (quad port : Nat) : KeepsInv s (s.portFault quad port) := keepsInv fun hs => by
  unfold State.portFault
  (repeat' split) <;> simp [hs]

@[simp] theorem State.pwrenFault_inv (s : State) (quad port : Nat) : KeepsInv s (s.pwrenFault quad port) := keepsInv fun hs => by
  simp [State.pwrenFault, hs]

@[simp] theorem State.powerUp_inv (s : State) (quad port : Nat) (readbackOk : Bool) :
    KeepsInv s (s.powerUp quad port readbackOk) := keepsInv fun hs => by
  unfold State.powerUp; dsimp only
  (repeat' split) <;> simp [hs]

@[simp] theorem State.sgpioAgain_inv (s : State) (quad : Nat) : KeepsInv s (s.sgpioAgain quad) := keepsInv fun hs => by
  unfold State.sgpioAgain
  (repeat' split) <;> simp [hs]

@[simp] theorem State.testI2c_inv (s : State) (quad port : Nat) (ok : Bool) :
    KeepsInv s (s.testI2c quad port ok) := keepsInv fun hs => by
  unfold State.testI2c; dsimp only
  (repeat' split) <;> simp [hs]

@[simp] theorem State.unreset_inv (s : State) (quad port : Nat) (readbackOk : Bool) :
    KeepsInv s (s.unreset quad port readbackOk) := keepsInv fun hs => by
  unfold State.unreset
  (repeat' split) <;> simp [hs]

@[simp] theorem State.unplug_inv (s : State) (quad port : Nat) (i2cOk : Bool) :
    KeepsInv s (s.unplug quad port i2cOk) := keepsInv fun hs => by
  unfold State.unplug; dsimp only
  (repeat' split) <;> simp [hs]

@[simp] theorem State.linkPower_inv (s : State) (quad port : Nat) : KeepsInv s (s.linkPower quad port) := keepsInv fun hs => by
  simp [State.linkPower, hs]

@[simp] theorem State.miswire_inv (s : State) (quad : Nat) (foreign : List Nat) :
    KeepsInv s (s.miswire quad foreign) := keepsInv fun hs => by
  unfold State.miswire; dsimp only
  (repeat' split) <;> simp [hs]

@[simp] theorem State.repin_inv (s : State) (quad port : Nat) : KeepsInv s (s.repin quad port) := keepsInv fun hs => by
  unfold State.repin; dsimp only
  (repeat' split) <;> simp [hs]

@[simp] theorem State.retrainLater_inv (s : State) (quad port : Nat) :
    KeepsInv s (s.retrainLater quad port) := keepsInv fun hs => by
  simp [State.retrainLater, hs]

@[simp] theorem State.readIdentity_inv (s : State) (quad port : Nat) (r : IdentityRead) :
    KeepsInv s (s.readIdentity quad port r) := keepsInv fun hs => by
  unfold State.readIdentity; dsimp only
  (repeat' split) <;> simp [hs]

@[simp] theorem State.setCtrls_inv (s : State) (quad port : Nat) (ids : List Word) :
    KeepsInv s (s.setCtrls quad port ids) := keepsInv fun hs => by
  simp [State.setCtrls, hs]

@[simp] theorem State.listOne_inv (s : State) (quad port : Nat) (gen : BitVec 32) (f : Finding) :
    KeepsInv s (s.listOne quad port gen f) := keepsInv fun hs => by
  unfold State.listOne; dsimp only
  (repeat' split) <;> simp [hs]

@[simp] theorem State.forgetPos_inv (s : State) (quad port : Nat) : KeepsInv s (s.forgetPos quad port) := keepsInv fun hs => by
  simp [State.forgetPos, hs]

@[simp] theorem State.pinTarget_inv (s : State) (quad port : Nat) (found : List Finding) :
    KeepsInv s (s.pinTarget quad port found) := keepsInv fun hs => by
  unfold State.pinTarget; dsimp only
  (repeat' split) <;> simp [hs]

@[simp] theorem State.lateCtrls_inv (s : State) (quad port : Nat) (found : List Finding) :
    KeepsInv s (s.lateCtrls quad port found) := keepsInv fun hs => by
  unfold State.lateCtrls; dsimp only
  (repeat' split) <;> simp [hs]

@[simp] theorem State.askReset_inv (s : State) (quad : Nat) : KeepsInv s (s.askReset quad) := keepsInv fun hs => by
  unfold State.askReset
  (repeat' split) <;> simp [hs]

@[simp] theorem State.endCleared_inv (s : State) (quad : Nat) : KeepsInv s (s.endCleared quad) := keepsInv fun hs => by
  simp [State.endCleared, hs]

@[simp] theorem State.resetPort_inv (s : State) (quad port : Nat) (readbackOk : Bool) :
    KeepsInv s (s.resetPort quad port readbackOk) := keepsInv fun hs => by
  unfold State.resetPort; dsimp only
  (repeat' split) <;> simp [hs]

@[simp] theorem State.quadResetNow_inv (s : State) (quad : Nat) (perstBad : BitVec 4) :
    KeepsInv s (s.quadResetNow quad perstBad) := keepsInv fun hs => by
  simp [State.quadResetNow, hs]

@[simp] theorem State.retryPort_inv (s : State) (quad : Nat) (still : BitVec 17) (port : Nat) :
    KeepsInv s (s.retryPort quad still port) := keepsInv fun hs => by
  unfold State.retryPort; dsimp only
  (repeat' split) <;> simp [hs]

@[simp] theorem State.retrySideband_inv (s : State) (quad : Nat) (stillFaulty : BitVec 17) :
    KeepsInv s (s.retrySideband quad stillFaulty) := keepsInv fun hs => by
  unfold State.retrySideband; dsimp only
  (repeat' split) <;> simp [hs]

/-! ## Almanac -/

@[simp] theorem State.writeRec_inv (s : State) (q : AlmReq) : KeepsInv s (s.writeRec q) := keepsInv fun hs => by
  unfold State.writeRec; dsimp only
  (repeat' split) <;> simp [hs]

@[simp] theorem State.writeNext_inv (s : State) : KeepsInv s s.writeNext := keepsInv fun hs => by
  unfold State.writeNext; dsimp only
  (repeat' split) <;> simp [hs]

@[simp] theorem writeMany_inv (n : Nat) (s : State) : KeepsInv s (writeMany n s) := keepsInv fun hs => by
  induction n generalizing s with
  | zero => exact hs
  | succ n ih =>
    unfold writeMany
    simp [ih, hs]

@[simp] theorem State.flushAlm_inv (s : State) : KeepsInv s s.flushAlm := keepsInv fun hs => by simp [State.flushAlm, hs]

@[simp] theorem State.plRecord_inv (s : State) (type : Nat) (payload : List Byte) :
    KeepsInv s (s.plRecord type payload) := keepsInv fun hs => by
  simp [State.plRecord, hs]

@[simp] theorem State.sramRead_inv (s : State) : KeepsInv s s.sramRead := keepsInv fun hs => by
  unfold State.sramRead
  (repeat' split) <;> simp [hs]

@[simp] theorem State.makeQuote_inv (s : State) (nonce : List Byte) : KeepsInv s (s.makeQuote nonce).1 := keepsInv fun hs => by
  simp [State.makeQuote, hs]

/-! ## Sirax -/

@[simp] theorem State.spoil_inv (s : State) (t : Thread) (w : BadWord) : KeepsInv s (s.spoil t w).1 := keepsInv fun hs => by
  unfold State.spoil
  (repeat' split) <;> simp [hs]

@[simp] theorem State.spoils_inv (s : State) (t : Thread) (bad : List BadWord) :
    KeepsInv s (s.spoils t bad).1 := keepsInv fun hs => by
  induction bad generalizing s t with
  | nil => exact hs
  | cons a l ih =>
    unfold State.spoils
    simp [ih, hs]

@[simp] theorem State.noteIssue_inv (s : State) (th : Nat) (routine : Option Nat) :
    KeepsInv s (s.noteIssue th routine) := keepsInv fun hs => by
  unfold State.noteIssue; dsimp only
  (repeat' split) <;> simp [hs]

/-! ## Link -/

@[simp] theorem State.resumes_inv (s : State) : KeepsInv s s.resumes := keepsInv fun hs => by simp [State.resumes, hs]

@[simp] theorem State.ideFail_inv (s : State) : KeepsInv s s.ideFail := keepsInv fun hs => by simp [State.ideFail, hs]

@[simp] theorem State.spdmSay_inv (s : State) (tr : Transport) (code : Byte) :
    KeepsInv s (s.spdmSay tr code) := keepsInv fun hs => by
  simp [State.spdmSay, hs]

@[simp] theorem State.setConn_inv (s : State) (tr : Transport) (c : SpdmConn) : KeepsInv s (s.setConn tr c) := keepsInv fun hs => by
  unfold State.setConn
  (repeat' split) <;> simp [hs]

@[simp] theorem State.heard_inv (s : State) (tr : Transport) : KeepsInv s (s.heard tr) := keepsInv fun hs => by
  unfold State.heard
  (repeat' split) <;> simp [hs]

@[simp] theorem State.spdmError_inv (s : State) (tr : Transport) (code : Byte) :
    KeepsInv s (s.spdmError tr code) := keepsInv fun hs => by
  simp [State.spdmError, hs]

@[simp] theorem State.modSession_inv (s : State) (id : Nat) (f : SpdmSession → SpdmSession) :
    KeepsInv s (s.modSession id f) := keepsInv fun hs => by
  simp [State.modSession, hs]

@[simp] theorem State.endSessions_inv (s : State) : KeepsInv s s.endSessions := keepsInv fun hs => by simp [State.endSessions, hs]

/-! ## Plinth -/

@[simp] theorem State.beginBoot_inv (s : State) : KeepsInv s s.beginBoot := keepsInv fun hs => by
  unfold State.beginBoot; dsimp only
  (repeat' split) <;> simp [hs]

@[simp] theorem State.imageRecord_inv (s : State) (copy : Nat) (d : Option (List Byte)) (code : Nat) :
    KeepsInv s (s.imageRecord copy d code) := keepsInv fun hs => by
  unfold State.imageRecord; dsimp only
  (repeat' split) <;> simp [hs]

@[simp] theorem State.measure_inv (s : State) (copy : Nat) (bodies : AMap (List Byte)) (type : Nat) :
    KeepsInv s (s.measure copy bodies type) := keepsInv fun hs => by
  unfold State.measure; dsimp only
  (repeat' split) <;> simp [hs]

@[simp] theorem State.portConfig_inv (s : State) (p : Option (List Byte)) : KeepsInv s (s.portConfig p) := keepsInv fun hs => by
  unfold State.portConfig; dsimp only
  (repeat' split) <;> simp [hs]

@[simp] theorem State.testSegments_inv (s : State) (bad : BitVec 128) : KeepsInv s (s.testSegments bad) := keepsInv fun hs => by
  simp [State.testSegments, hs]

@[simp] theorem State.tuneLanes_inv (s : State) (b : List Byte) : KeepsInv s (s.tuneLanes b) := keepsInv fun hs => by
  simp [State.tuneLanes, hs]

@[simp] theorem State.armTimers_inv (s : State) : KeepsInv s s.armTimers := keepsInv fun hs => by simp [State.armTimers, hs]

@[simp] theorem State.bootNormal_inv (s : State) (mode : Nat) (d : List Byte) (start : BootTest) :
    KeepsInv s (s.bootNormal mode d start) := keepsInv fun hs => by
  unfold State.bootNormal; dsimp only
  (repeat' split) <;> simp [hs]

@[simp] theorem State.bootRecovery_inv (s : State) (micros : Nat) : KeepsInv s (s.bootRecovery micros) := keepsInv fun hs => by
  simp [State.bootRecovery, hs]

@[simp] theorem State.flashRead_inv (s : State) (device : Bool) (f : FlashDev) :
    KeepsInv s (s.flashRead device f) := keepsInv fun hs => by
  unfold State.flashRead
  (repeat' split) <;> simp [hs]

@[simp] theorem State.reply_inv (s : State) (w : Word) (status value : Nat) :
    KeepsInv s (s.reply w status value) := keepsInv fun hs => by
  unfold State.reply; dsimp only
  (repeat' split) <;> simp [hs]

@[simp] theorem State.blockWrite_inv (s : State) (w : Word) (data : List Byte) :
    KeepsInv s (s.blockWrite w data) := keepsInv fun hs => by
  simp [State.blockWrite, hs]

@[simp] theorem State.blockRead_inv (s : State) (w : Word) (d : HostData) : KeepsInv s (s.blockRead w d).1 := keepsInv fun hs => by
  simp [State.blockRead, hs]

@[simp] theorem State.flashRecord_inv (s : State) (phase target status version : Nat) (digest : BitVec 384) :
    KeepsInv s (s.flashRecord phase target status version digest) := keepsInv fun hs => by
  simp [State.flashRecord, hs]

@[simp] theorem State.flashBegin_inv (s : State) (target : Nat) (image : List Byte) :
    KeepsInv s (s.flashBegin target image) := keepsInv fun hs => by
  simp [State.flashBegin, hs]

@[simp] theorem State.flashEnd_inv (s : State) (j : FlashJob) (status : Nat) :
    KeepsInv s (s.flashEnd j status) := keepsInv fun hs => by
  unfold State.flashEnd; dsimp only
  (repeat' split) <;> simp [hs]

@[simp] theorem State.decodeRecord_inv (s : State) (status : Nat) (body : List Byte) :
    KeepsInv s (s.decodeRecord status body) := keepsInv fun hs => by
  simp [State.decodeRecord, hs]

@[simp] theorem State.decodeRefuse_inv (s : State) (status : Nat) (body : List Byte) :
    KeepsInv s (s.decodeRefuse status body) := keepsInv fun hs => by
  simp [State.decodeRefuse, hs]

@[simp] theorem State.decodeFail_inv (s : State) (w : Word) (st : Nat) (body : List Byte) :
    KeepsInv s (s.decodeFail w st body) := keepsInv fun hs => by
  simp [State.decodeFail, hs]

@[simp] theorem State.tamperRecord_inv (s : State) (edge : Nat) : KeepsInv s (s.tamperRecord edge) := keepsInv fun hs => by
  simp [State.tamperRecord, hs]

@[simp] theorem State.tamperLocks_inv (s : State) : KeepsInv s s.tamperLocks := keepsInv fun hs => by
  unfold State.tamperLocks; dsimp only
  (repeat' split) <;> simp [hs]

/-! ## Resets -/

@[simp] theorem State.obuloClears_inv (s : State) : KeepsInv s s.obuloClears := keepsInv fun hs => by simp [State.obuloClears, hs]

@[simp] theorem State.obuloRestart_inv (s : State) : KeepsInv s s.obuloRestart := keepsInv fun hs => by
  simp [State.obuloRestart, hs]

@[simp] theorem State.rearm_inv (s : State) (n : Nat) : KeepsInv s (s.rearm n) := keepsInv fun hs => by
  unfold State.rearm
  (repeat' split) <;> simp [hs]

@[simp] theorem State.dropExchanges_inv (s : State) (silent : Nat → Bool) :
    KeepsInv s (s.dropExchanges silent) := keepsInv fun hs => by
  simp [State.dropExchanges, hs]

@[simp] theorem State.flrState_inv (s : State) : KeepsInv s s.flrState := keepsInv fun hs => by
  have hdrop : Inv (s.dropExchanges (Config.abortUnanswered s.fresh)) := by simp [hs]
  unfold State.flrState; dsimp only
  refine (State.flowSyncAll_inv _).2 (.inl ?_)
  constructor <;> simp [flrCtx_wf, State.freshDma, Tally.flr, Tally.reset, Power.flr, hs.clusters, hdrop.quads, hdrop.boxes, hdrop.senders]

@[simp] theorem State.flrEnd_inv (s : State) : KeepsInv s s.flrEnd := keepsInv fun hs => by
  unfold State.flrEnd; dsimp only
  (repeat' split) <;> simp [hs]

@[simp] theorem State.flrMail_inv (s : State) : KeepsInv s s.flrMail := keepsInv fun hs => by simp [State.flrMail, hs]

@[simp] theorem State.holdDown_inv (s : State) : KeepsInv s s.holdDown := keepsInv fun hs => by
  constructor <;> simp [State.holdDown, Subch.reset, Sirax.reset, Devices.reset, Dma.reset, Power.warm_, Tally.reset, Mail.reset, hs.quads]

@[simp] theorem State.warmReset_inv (s : State) (last : Nat) (hold : Option Time) :
    KeepsInv s (s.warmReset last hold) := keepsInv fun hs => by
  unfold State.warmReset
  (repeat' split) <;> simp [hs]

@[simp] theorem State.unhold_inv (s : State) : KeepsInv s s.unhold := keepsInv fun hs => by simp [State.unhold, hs]

@[simp] theorem State.setPref_inv (s : State) (half v : Bool) : KeepsInv s (s.setPref half v) := keepsInv fun hs => by
  unfold State.setPref
  (repeat' split) <;> simp [hs]

@[simp] theorem State.tryRelease_inv (s : State) : KeepsInv s s.tryRelease := keepsInv fun hs => by
  unfold State.tryRelease; dsimp only
  (repeat' split) <;> simp [hs]

@[simp] theorem State.sidebandLost_inv (s : State) : KeepsInv s s.sidebandLost := keepsInv fun hs => by
  simp [State.sidebandLost, hs]

@[simp] theorem State.avsWrite_inv (s : State) (mv : Nat) (acked : Bool) : KeepsInv s (s.avsWrite mv acked) := keepsInv fun hs => by
  unfold State.avsWrite
  (repeat' split) <;> simp [hs]

@[simp] theorem State.handBack_inv (s : State) : KeepsInv s s.handBack := keepsInv fun hs => by
  unfold State.handBack; dsimp only
  (repeat' split) <;> simp [hs]

@[simp] theorem State.boundaryScan_inv (s : State) (cells : List Bool) (extest : Bool) :
    KeepsInv s (s.boundaryScan cells extest) := keepsInv fun hs => by
  unfold State.boundaryScan; dsimp only
  (repeat' split) <;> simp [hs]

/-! ## Registers -/

@[simp] theorem State.readZeros_inv (n : Nat) (s : State) (off len : Nat) :
    KeepsInv s (s.readZeros n off len) := keepsInv fun hs => by
  induction n generalizing s off len with
  | zero => exact hs
  | succ n ih =>
    unfold State.readZeros; dsimp only
    (repeat' split) <;> simp [ih, hs]

@[simp] theorem State.privRead_inv (s : State) (inst : IcInst) (bar off size : Nat) :
    KeepsInv s (s.privRead inst bar off size) := keepsInv fun hs => by
  unfold State.privRead; dsimp only
  (repeat' split) <;> simp [hs]

@[simp] theorem State.writeAdmCtrl_inv (s : State) (v : Word) : KeepsInv s (s.writeAdmCtrl v) := keepsInv fun hs => by
  unfold State.writeAdmCtrl
  (repeat' split) <;> simp [hs]

@[simp] theorem State.writeFlow_inv (s : State) (v : Word) : KeepsInv s (s.writeFlow v) := keepsInv fun hs => by
  simp [State.writeFlow, hs]

@[simp] theorem State.writeQuadCtrl_inv (s : State) (q : Nat) (v : Word) : KeepsInv s (s.writeQuadCtrl q v) := keepsInv fun hs => by
  have hlights : Inv (s.modQuad q fun x => { x with locate := v.extractLsb' 2 4, fault := v.extractLsb' 6 4 }) := by simp [hs]
  unfold State.writeQuadCtrl
  generalize s.modQuad q _ = t at hlights ⊢
  (repeat' split) <;> simp [hlights]

@[simp] theorem State.writeTlStat_inv (s : State) (v : Word) : KeepsInv s (s.writeTlStat v) := keepsInv fun hs => by
  simp [State.writeTlStat, hs]

@[simp] theorem State.writeBar4_inv (s : State) (off : Nat) (half : Option Bool) (val : Word) :
    KeepsInv s (s.writeBar4 off half val) := keepsInv fun hs => by
  unfold State.writeBar4; dsimp only
  (repeat' split) <;> simp [hs]

/-! ## Tick -/

@[simp] theorem tick_inv (s : State) : Inv (tick s) ↔ Inv s := by
  unfold tick
  (repeat' split)
  · rfl
  · exact inv_congr rfl rfl rfl rfl rfl rfl rfl rfl
  · exact inv_congr rfl rfl rfl rfl rfl rfl rfl rfl

end Sys2Proof.Machine

/-! # The rows keep the invariant (O60) -/

namespace Sys2Proof.Machine

open Sys2Proof.Safety

/-- A row answers no state that is out of form. -/
def InvNext (r : Res) : Prop := ∀ t, r = .next t → Inv t

@[simp] theorem invNext_next (t : State) : InvNext (.next t) ↔ Inv t := by
  simp [InvNext]

/-! ## Gates: what stands before a row's own effect -/

section
variable {s t : State} (hs : Inv s) (ht : Inv t)
include hs ht

@[simp] theorem State.bar2_inv (q : Nat) (push : Bool) : Inv (s.bar2 q push t) := by
  unfold State.bar2
  (repeat' split) <;> simp [hs, ht]

@[simp] theorem State.bar0Read_inv (off size : Nat) : Inv (s.bar0Read off size t) := by
  unfold State.bar0Read
  (repeat' split) <;> simp [hs, ht]

@[simp] theorem State.bar0Write_inv (size : Nat) (allBytes : Bool) : Inv (s.bar0Write size allBytes t) := by
  unfold State.bar0Write
  (repeat' split) <;> simp [hs, ht]

@[simp] theorem State.config_inv : Inv (s.config t) := by
  unfold State.config
  (repeat' split) <;> simp [hs, ht]

end

section
variable {s : State} (hs : Inv s)
include hs

theorem spdmRow_inv (tr : Transport) (ready : Bool) {t : State → State} (h : ∀ u : State, Inv u → Inv (t u)) :
    InvNext (.next (s.spdmServe tr ready t)) := by
  rw [invNext_next]
  unfold State.spdmServe
  (repeat' split)
  · exact hs
  · exact h _ (by simp [State.heard, hs])
  · simp [State.heard, State.spdmError, hs]

theorem admRow_inv (opc : Nat) {f : BitVec 512 → State → AdmRes} (h : ∀ e, Inv (f e s).st) : InvNext (.next (s.admRun opc f)) := by
  rw [invNext_next]
  unfold State.admRun; dsimp only
  (repeat' split) <;> simp [hs, h]

theorem State.plnRead_inv (op : Nat) (pre : State → Option Nat) {fail : Word → State → Nat → State} {go : Word → State → State}
    (hf : ∀ w (u : State) st, Inv u → Inv (fail w u st)) (hg : ∀ w (u : State), Inv u → Inv (go w u)) : Inv (s.plnRead op pre fail go) := by
  have hserved : Inv ((s.mbServe .hostPln).onPl fun p => { p with readDue := none }) := by simp [hs]
  unfold State.plnRead; dsimp only
  (repeat' split)
  · exact hs
  · exact hs
  · exact hf _ _ _ hserved
  · exact hg _ _ hserved
  · exact hf _ _ _ (by simp [hs])
  · simp [hs]

theorem plnRow_inv (op : Nat) (pre : State → Option Nat) {f : Word → State → PlnRes} (h : ∀ w (u : State), Inv u → Inv (f w u).s) :
    InvNext (.next (s.plnLinked op pre f)) :=
  (invNext_next _).2 (State.plnRead_inv hs op pre (fun w u st hu => by simp [hu]) fun w u hu => by simp [h w u hu])

theorem State.plnServe_inv (op : Nat) {f : Word → State → PlnRes} (h : ∀ w (u : State), Inv u → Inv (f w u).s) : Inv (s.plnServe op f) := by
  unfold State.plnServe; dsimp only
  (repeat' split)
  · exact hs
  · exact hs
  · simp [h _ _ (show Inv (s.mbServe .hostPln) by simp [hs])]

@[simp] theorem State.admitQueue_inv (e : BitVec 512) (cls stb kib : Nat) (others : List Demand) (old : Option Demand)
    (d : Demand) (text : HostData) (plan : List Byte → Plan) {now : State → List Byte → State} (h : ∀ (u : { u // Inv u }) b, Inv (now u b)) :
    Inv (s.admitQueue e cls stb kib others old d text plan now) := by
  have hnow (u : State) (hu : Inv u) (b : List Byte) : Inv (now u b) := h ⟨u, hu⟩ b
  unfold State.admitQueue; dsimp only
  (repeat' split) <;> simp [hs, hnow]

/-! ## Shared operations of the rows -/

/-- A segment for a piece is taken from the pool, or is held already. -/
theorem State.segFor_inv {t : State} {quad sch no pc x piece : Nat} {toMem : Bool} {who : WaitWho} {segs rest : List Nat}
    {n : Nat} (h : s.segFor quad sch no pc x piece toMem who segs = some (t, n, rest)) : Inv t := by
  unfold State.segFor at h; dsimp only at h
  (repeat' split at h) <;> simp at h <;> obtain ⟨rfl, -⟩ := h <;> simp [hs]

theorem State.allocAll_inv {t : State} {quad sch no pc x : Nat} {who : WaitWho} {pieces segs : List Nat}
    (h : s.allocAll quad sch no pc x who pieces segs = some t) : Inv t := by
  induction pieces generalizing s segs with
  | nil => obtain rfl := Option.some.inj h; exact hs
  | cons k pieces ih =>
    unfold State.allocAll at h
    split at h
    · cases h
    · exact ih (State.segFor_inv hs ‹_›) h

theorem State.deliver_inv {n : Nat} {t : State} {quad sch no pc x : Nat} {c : Cmd} {p : Piece} {off : Nat} {bs : List Byte}
    {bad : List (Nat × Nat)} {who : WaitWho} {segs : List Nat}
    (h : State.deliver n s quad sch no pc x c p off bs bad who segs = some t) : Inv t := by
  induction n generalizing s off bs segs with
  | zero => obtain rfl := Option.some.inj h; exact hs
  | succ n ih =>
    unfold State.deliver at h; dsimp only at h
    split at h
    · obtain rfl := Option.some.inj h; exact hs
    · split at h
      · cases h
      · have hseg := State.segFor_inv hs ‹_›
        exact ih (by split <;> simp [hseg]) h

end

@[simp] theorem State.ifOpened_inv (s before : State) : KeepsInv s (s.ifOpened before) := keepsInv fun hs => by
  unfold State.ifOpened
  split <;> simp [hs]

@[simp] theorem State.ideState_inv (s : State) : KeepsInv s s.ideState := keepsInv fun hs => by
  unfold State.ideState; dsimp only
  split <;> simp [hs]

@[simp] theorem State.lockHalf_inv (s : State) (half v : Bool) : KeepsInv s (s.lockHalf half v) := keepsInv fun hs => by
  simp [State.lockHalf, hs]

@[simp] theorem State.serve_inv (s : State) (who : ReqWho) : KeepsInv s (s.serve who) := keepsInv fun hs => by
  cases who <;> simp [State.serve, hs]

@[simp] theorem State.portChanged_inv (s before : State) (quad port : Nat) : KeepsInv s (s.portChanged before quad port) :=
  keepsInv fun hs => by simp [State.portChanged, hs]

@[simp] theorem State.loseLane_inv (s : State) (quad port lane : Nat) : KeepsInv s (s.loseLane quad port lane) := keepsInv fun hs => by
  unfold State.loseLane; dsimp only
  (repeat' split) <;> simp [hs]

@[simp] theorem State.writeReg_inv (s : State) (off : Nat) (half : Option Bool) (val : Word) : KeepsInv s (s.writeReg off half val) :=
    keepsInv fun hs => by
  simp only [State.writeReg, inv_ite]
  simp [hs]
  intros
  split <;> simp [hs]

@[simp] theorem State.clearRc_inv (s : State) (off : Nat) (lo hi : Bool) : KeepsInv s (s.clearRc off lo hi) := keepsInv fun hs => by
  simp only [State.clearRc, inv_ite]
  simp [hs]
  intros
  split <;> simp [hs]

@[simp] theorem State.readBar0_inv (s : State) (off size : Nat) : KeepsInv s (s.readBar0 off size) := keepsInv fun hs => by
  simp [State.readBar0, hs]

@[simp] theorem State.apertureReq_inv (s : State) (quad port : Nat) (r : DevMemReq) (x off : Nat) :
    KeepsInv s (s.apertureReq quad port r x off) := keepsInv fun hs => by
  unfold State.apertureReq; dsimp only
  (repeat' split) <;> simp [hs]
  all_goals
    rename_i hd
    refine .inl (.inl (State.deliver_inv ?_ hd))
    simp [hs]

@[simp] theorem State.leavePaths_inv (s : State) (pset : Nat) (ps : PathSet) : KeepsInv s (s.leavePaths pset ps) := keepsInv fun hs => by
  refine (foldl_inv _ _ _ fun t x => ?_).2 (.inl hs)
  split <;> simp

/-- What stands after a power-on, or after the loss of an always-on rail. -/
theorem inv_reset_with_power (n : Nat) (o : List Out) (l : List Instr) (p : Power) (h : p.clusters.length = 16) :
    Inv { State.reset with fresh := n, out := o, pending := l, pw := p } :=
  { resetKeepsInvariant with clusters := h }

@[simp] theorem State.powerOn_inv (s : State) : KeepsInv s s.powerOn :=
  keepsInv fun _ => inv_reset_with_power _ _ _ _ (by simp [Power.reset])

/-! ## Bundles -/

@[simp] theorem State.zeroBlock_inv (s : State) (sch no : Nat) : KeepsInv s (s.zeroBlock sch no) := keepsInv fun hs => by
  simp only [State.zeroBlock, State.allocSeg_inv, hs, true_or]

@[simp] theorem State.issueCmd_inv (s : State) (th : Nat) (t : Thread) (c : Cmd) (zero : Bool) : KeepsInv s (s.issueCmd th t c zero) :=
    keepsInv fun hs => by
  unfold State.issueCmd; dsimp only
  (repeat' split) <;> simp [hs]

theorem State.issueX_inv {s u : State} (hs : Inv s) {th : Nat} {t : Thread} {w : XWords} {elem : GElem} {after : List TWord}
    (h : s.issueX th t w elem after = some u) : Inv u := by
  unfold State.issueX at h
  extract_lets sch group first dev ext count pieces zero quad out t1 s1 s2 t2 at h
  split at h
  · cases h
  split at h
  · cases h
    simp [hs]
  have hs1 : Inv s1 := by simp [s1, hs]
  have hs2 : Inv s2 := (inv_fresh s1 _).2 hs1
  obtain rfl := Option.some.inj h
  rw [inv_ite]
  split
  · exact (State.issueSense_inv ..).2 (.inl hs2)
  · exact (State.issueCmd_inv ..).2 (.inl hs2)

@[simp] theorem State.xferGo_inv (s : State) (th : Nat) (t : Thread) (w : XWords) (segs : List Seg) :
    KeepsInv s (s.xferGo th t w segs) := keepsInv fun hs => by
  unfold State.xferGo; dsimp only
  split
  · simp [hs]
  split
  · simp [hs]
  split
  · refine State.issueX_inv ?_ ‹_›
    simp [hs]
  · simp [hs]

@[simp] theorem State.opXfer_inv (s : State) (th : Nat) (t : Thread) (op : Op) : KeepsInv s (s.opXfer th t op) := keepsInv fun hs => by
  refine State.checked_inv hs _ _ _ fun l => ?_
  dsimp only
  (repeat' split) <;> simp [hs]

@[simp] theorem State.issueLong_inv (s : State) (th : Nat) (t : Thread) (b : BitVec 128) (op : Op) :
    KeepsInv s (s.issueLong th t b op) := keepsInv fun hs => by
  simp [State.issueLong, hs]

@[simp] theorem State.issue_inv (s : State) (th : Nat) (t : Thread) (b : BitVec 128) : KeepsInv s (s.issue th t b) :=
    keepsInv fun hs => by
  unfold State.issue; dsimp only
  (repeat' split) <;> simp [hs]

/-- The word that the bundle found poisoned stands in its bank as it was. -/
theorem State.gsStore_inv {s : State} (hs : Inv s) (k : Nat) (w : TWord) :
    Inv (s.onSx fun x => { x with gs := AMap.store x.gs k w TWord.unset }) :=
  { hs with scratch := AMap.wf_store k w hs.scratch }

@[simp] theorem State.issueFabric_inv (s : State) (th : Nat) (t : Thread) (b : BitVec 128) (k : Nat) :
    KeepsInv s (s.issueFabric th t b k) := keepsInv fun hs => by
  unfold State.issueFabric; dsimp only
  split
  · simp [hs]
  split
  · exact State.gsStore_inv (by simp [hs]) _ _
  · simp [hs]

@[simp] theorem State.issueBad_inv (s : State) (th : Nat) (t : Thread) (b : BitVec 128) (bad : List BadWord) :
    KeepsInv s (s.issueBad th t b bad) := keepsInv fun hs => by
  unfold State.issueBad; dsimp only
  (repeat' split) <;> simp [hs]

/-- The issue of a bundle, which every opcode's row performs. -/
theorem State.opRow_inv {s : State} (hs : Inv s) (th : Nat) (bad : List BadWord) (hit : Op → Bool) : InvNext (s.opRow th bad hit) := by
  unfold State.opRow; dsimp only
  (repeat' split) <;> simp [hs]

/-! ## The rows -/

/-! ### Rows of Machine/Queues.lean -/

@[simp] theorem execWholePush_inv (q : Nat) (entry : BitVec 512) (s : State) (hs : Inv s) :
    InvNext (execWholePush q entry s) := by
  unfold execWholePush
  (repeat' split) <;> simp [hs]

@[simp] theorem execTornPush_inv (q : Nat) (be : BitVec 64) (s : State) (hs : Inv s) : InvNext (execTornPush q be s) := by
  unfold execTornPush
  (repeat' split) <;> simp [hs]

@[simp] theorem execSqDoorbell_inv (q : Nat) (be : BitVec 8) (val : Word) (s : State) (hs : Inv s) :
    InvNext (execSqDoorbell q be val s) := by
  unfold execSqDoorbell; dsimp only
  (repeat' split) <;> simp [hs]

@[simp] theorem execCqDoorbell_inv (q : Nat) (be : BitVec 8) (val : Word) (s : State) (hs : Inv s) :
    InvNext (execCqDoorbell q be val s) := by
  unfold execCqDoorbell; dsimp only
  (repeat' split) <;> simp [hs]

@[simp] theorem execRingFetch_inv (q tag : Nat) (s : State) (hs : Inv s) : InvNext (execRingFetch q tag s) := by
  unfold execRingFetch
  (repeat' split) <;> simp [hs]

@[simp] theorem execRingFetchComplete_inv (tag : Nat) (st : CplStatus) (found : Checked (List (BitVec 512))) (s : State) (hs : Inv
    s) :
    InvNext (execRingFetchComplete tag st found s) := by
  unfold execRingFetchComplete; dsimp only
  (repeat' split) <;> simp [hs]

@[simp] theorem execPhaseStaleReread_inv (q tag : Nat) (data : SlotData) (s : State) (hs : Inv s) :
    InvNext (execPhaseStaleReread q tag data s) := by
  unfold execPhaseStaleReread; dsimp only
  (repeat' split) <;> simp [hs]

@[simp] theorem execNopEntry_inv (q : Nat) (s : State) (hs : Inv s) : InvNext (execNopEntry q s) := by
  unfold execNopEntry
  split <;> simp [hs]

@[simp] theorem execStart_inv (q : Nat) (ecc : Ecc) (s : State) (hs : Inv s) : InvNext (execStart q ecc s) := by
  unfold execStart; dsimp only
  (repeat' split) <;> simp [hs]

@[simp] theorem execResume_inv (q : Nat) (s : State) (hs : Inv s) : InvNext (execResume q s) := by
  unfold execResume; dsimp only
  (repeat' split) <;> simp [hs]

@[simp] theorem execHalt_inv (q : Nat) (s : State) (hs : Inv s) : InvNext (execHalt q s) := by
  unfold execHalt; dsimp only
  (repeat' split) <;> simp [hs]

@[simp] theorem execClear_inv (q : Nat) (s : State) (hs : Inv s) : InvNext (execClear q s) := by
  unfold execClear; dsimp only
  (repeat' split) <;> simp [hs]

@[simp] theorem execFenceRelease_inv (q : Nat) (s : State) (hs : Inv s) : InvNext (execFenceRelease q s) := by
  unfold execFenceRelease
  (repeat' split) <;> simp [hs]

@[simp] theorem execAggregationTimerExpiry_inv (q : Nat) (s : State) (hs : Inv s) : InvNext (execAggregationTimerExpiry q s) := by
  unfold execAggregationTimerExpiry
  (repeat' split) <;> simp [hs]

@[simp] theorem execQevtRead_inv (size : Nat) (s : State) (hs : Inv s) : InvNext (execQevtRead size s) := by
  unfold execQevtRead
  split <;> simp [hs]

@[simp] theorem execLegFifoRead_inv (size : Checked Nat) (s : State) (hs : Inv s) : InvNext (execLegFifoRead size s) := by
  unfold execLegFifoRead
  (repeat' split) <;> simp [hs]

/-! ### Rows of Machine/Admin.lean -/

@[simp] theorem execAdminEnable_inv (val : Word) (s : State) (hs : Inv s) : InvNext (execAdminEnable val s) := by
  unfold execAdminEnable
  split <;> simp [hs]

@[simp] theorem execAdminDisable_inv (val : Word) (s : State) (hs : Inv s) : InvNext (execAdminDisable val s) := by
  unfold execAdminDisable
  split <;> simp [hs]

@[simp] theorem execAdminUndefinedOpcode_inv (s : State) (hs : Inv s) : InvNext (execAdminUndefinedOpcode s) := by
  unfold execAdminUndefinedOpcode
  (repeat' split) <;> simp [hs]

@[simp] theorem execLoadSegmentTable_inv (buf : HostData) (s : State) (hs : Inv s) : InvNext (execLoadSegmentTable buf s) := by
  refine admRow_inv hs _ fun e => ?_
  dsimp only
  (repeat' split) <;> simp [hs]

@[simp] theorem execDeleteSegmentTable_inv (s : State) (hs : Inv s) : InvNext (execDeleteSegmentTable s) := by
  refine admRow_inv hs _ fun e => ?_
  dsimp only
  (repeat' split) <;> simp [hs]

@[simp] theorem execCreateSq_inv (text : HostData) (s : State) (hs : Inv s) : InvNext (execCreateSq text s) := by
  unfold execCreateSq; dsimp only
  (repeat' split) <;> simp [hs]

@[simp] theorem execModifySq_inv (text : HostData) (s : State) (hs : Inv s) : InvNext (execModifySq text s) := by
  unfold execModifySq; dsimp only
  (repeat' split) <;> simp [hs]

@[simp] theorem execCreateCq_inv (s : State) (hs : Inv s) : InvNext (execCreateCq s) := by
  refine admRow_inv hs _ fun e => ?_
  dsimp only
  (repeat' split) <;> simp [hs]

@[simp] theorem execDeleteQueue_inv (s : State) (hs : Inv s) : InvNext (execDeleteQueue s) := by
  refine admRow_inv hs _ fun e => ?_
  dsimp only
  (repeat' split) <;> simp [hs]

@[simp] theorem execResetQueue_inv (s : State) (hs : Inv s) : InvNext (execResetQueue s) := by
  refine admRow_inv hs _ fun e => ?_
  dsimp only
  (repeat' split) <;> simp [hs]

@[simp] theorem execPauseQueue_inv (s : State) (hs : Inv s) : InvNext (execPauseQueue s) := by
  refine admRow_inv hs _ fun e => ?_
  dsimp only
  (repeat' split) <;> simp [hs]

@[simp] theorem execQueryQueue_inv (s : State) (hs : Inv s) : InvNext (execQueryQueue s) := by
  refine admRow_inv hs _ fun e => ?_
  dsimp only
  split <;> simp [hs]

@[simp] theorem execConfigureSubchannel_inv (s : State) (hs : Inv s) : InvNext (execConfigureSubchannel s) := by
  refine admRow_inv hs _ fun e => ?_
  dsimp only
  (repeat' split) <;> simp [hs]

@[simp] theorem execQuerySubchannel_inv (s : State) (hs : Inv s) : InvNext (execQuerySubchannel s) := by
  refine admRow_inv hs _ fun e => ?_
  (repeat' split) <;> simp [hs]

@[simp] theorem execListDevices_inv (w : ListRun) (s : State) (hs : Inv s) : InvNext (execListDevices w s) := by
  refine admRow_inv hs _ fun e => ?_
  dsimp only
  (repeat' split) <;> simp [hs]

@[simp] theorem execCreateDevice_inv (s : State) (hs : Inv s) : InvNext (execCreateDevice s) := by
  refine admRow_inv hs _ fun e => ?_
  dsimp only
  (repeat' split) <;> simp [hs]

@[simp] theorem execDeletePathSet_inv (s : State) (hs : Inv s) : InvNext (execDeletePathSet s) := by
  refine admRow_inv hs _ fun e => ?_
  dsimp only
  (repeat' split) <;> simp [hs]

@[simp] theorem execDeleteDevice_inv (s : State) (hs : Inv s) : InvNext (execDeleteDevice s) := by
  refine admRow_inv hs _ fun e => ?_
  dsimp only
  (repeat' split) <;> simp [hs]

@[simp] theorem execSetLegacyFifo_inv (s : State) (hs : Inv s) : InvNext (execSetLegacyFifo s) := by
  refine admRow_inv hs _ fun e => ?_
  dsimp only
  (repeat' split) <;> simp [hs]

/-! ### Rows of Machine/Threads.lean -/

@[simp] theorem execDispatch_inv (sch th : Nat) (ue : CtxFault) (s : State) (hs : Inv s) :
    InvNext (execDispatch sch th ue s) := by
  unfold execDispatch; dsimp only
  (repeat' split) <;> simp [hs]

@[simp] theorem execTextLineFetch_inv (th tag : Nat) (s : State) (hs : Inv s) : InvNext (execTextLineFetch th tag s) := by
  unfold execTextLineFetch; dsimp only
  (repeat' split) <;> simp [hs]

@[simp] theorem execTextLineArrival_inv (tag : Nat) (st : CplStatus) (line : Checked (BitVec 512)) (s : State) (hs : Inv s) :
    InvNext (execTextLineArrival tag st line s) := by
  unfold execTextLineArrival; dsimp only
  (repeat' split) <;> simp [hs]

@[simp] theorem execHostLoadReturn_inv (tag : Nat) (st : CplStatus) (data : Checked (BitVec 128)) (s : State) (hs : Inv s) :
    InvNext (execHostLoadReturn tag st data s) := by
  unfold execHostLoadReturn; dsimp only
  (repeat' split) <;> simp [hs]

@[simp] theorem execThreadStop_inv (th : Nat) (s : State) (hs : Inv s) : InvNext (execThreadStop th s) := by
  unfold execThreadStop
  (repeat' split) <;> simp [hs]

@[simp] theorem execAutoCommit_inv (rel : Release) (s : State) (hs : Inv s) : InvNext (execAutoCommit rel s) := by
  unfold execAutoCommit
  (repeat' split) <;> simp [hs]

@[simp] theorem execFinalStatusPending_inv (rel : Release) (s : State) (hs : Inv s) : InvNext (execFinalStatusPending rel s) := by
  unfold execFinalStatusPending; dsimp only
  (repeat' split) <;> simp [hs]

@[simp] theorem execThreadRestore_inv (th th' : Nat) (fault : RestoreFault) (s : State) (hs : Inv s) :
    InvNext (execThreadRestore th th' fault s) := by
  unfold execThreadRestore
  (repeat' split) <;> simp [hs]

/-! ### Rows of Machine/Exchange.lean -/

@[simp] theorem execConnectionIdleClose_inv (quad phy : Nat) (s : State) (hs : Inv s) :
    InvNext (execConnectionIdleClose quad phy s) := by
  unfold execConnectionIdleClose
  (repeat' split) <;> simp [hs]

@[simp] theorem execExchangeSend_inv (sch idx : Nat) (s : State) (hs : Inv s) : InvNext (execExchangeSend sch idx s) := by
  unfold execExchangeSend; dsimp only
  (repeat' split) <;> simp [hs]

@[simp] theorem execExchangeReachedDevice_inv (x : Nat) (s : State) (hs : Inv s) : InvNext (execExchangeReachedDevice x s) := by
  unfold execExchangeReachedDevice
  (repeat' split) <;> simp [hs]

@[simp] theorem execExchangeEnd_inv (x : Nat) (ans : DevAnswer) (ecc : Ecc) (s : State) (hs : Inv s) :
    InvNext (execExchangeEnd x ans ecc s) := by
  unfold execExchangeEnd
  (repeat' split) <;> simp [hs]

@[simp] theorem execAbortAnswered_inv (x : Nat) (s : State) (hs : Inv s) : InvNext (execAbortAnswered x s) := by
  unfold execAbortAnswered
  (repeat' split) <;> simp [hs]

@[simp] theorem execExchangeAbortTimeout_inv (x : Nat) (s : State) (hs : Inv s) : InvNext (execExchangeAbortTimeout x s) := by
  unfold execExchangeAbortTimeout; dsimp only
  (repeat' split) <;> simp [hs]

@[simp] theorem execEscalationHardReset_inv (x : Nat) (s : State) (hs : Inv s) : InvNext (execEscalationHardReset x s) := by
  unfold execEscalationHardReset
  (repeat' split) <;> simp [hs]

@[simp] theorem execTransportFailure_inv (x : Nat) (s : State) (hs : Inv s) : InvNext (execTransportFailure x s) := by
  simp [hs, execTransportFailure]

@[simp] theorem execPathFault_inv (quad port : Nat) (kind : PathFaultKind) (s : State) (hs : Inv s) :
    InvNext (execPathFault quad port kind s) := by
  unfold execPathFault
  split <;> simp [hs]

@[simp] theorem execControllerFatal_inv (quad : Nat) (at_ : PortCtrl) (s : State) (hs : Inv s) :
    InvNext (execControllerFatal quad at_ s) := by
  unfold execControllerFatal; dsimp only
  split <;> simp [hs]

@[simp] theorem execPmemReadCompletionTimeout_inv (x : Nat) (s : State) (hs : Inv s) :
    InvNext (execPmemReadCompletionTimeout x s) := by
  unfold execPmemReadCompletionTimeout
  (repeat' split) <;> simp [hs]

@[simp] theorem execGhostDeath_inv (g : Nat) (rdy0 : Bool) (pos : Option Nat) (s : State) (hs : Inv s) :
    InvNext (execGhostDeath g rdy0 pos s) := by
  unfold execGhostDeath; dsimp only
  (repeat' split) <;> simp [hs]

@[simp] theorem execSubchannelTimeout_inv (sch : Nat) (s : State) (hs : Inv s) : InvNext (execSubchannelTimeout sch s) := by
  unfold execSubchannelTimeout; dsimp only
  (repeat' split) <;> simp [hs]

@[simp] theorem execTimeoutSpan_inv (sch : Nat) (s : State) (hs : Inv s) : InvNext (execTimeoutSpan sch s) := by
  unfold execTimeoutSpan; dsimp only
  split <;> simp [hs]

/-! ### Rows of Machine/Move.lean -/

@[simp] theorem execDmaChannelGrant_inv (d : Nat) (s : State) (hs : Inv s) : InvNext (execDmaChannelGrant d s) := by
  unfold execDmaChannelGrant; dsimp only
  (repeat' split) <;> simp [hs]

@[simp] theorem execDmaWriteIssue_inv (d piece : Nat) (fault : PieceFault) (s : State) (hs : Inv s) :
    InvNext (execDmaWriteIssue d piece fault s) := by
  unfold execDmaWriteIssue; dsimp only
  (repeat' split) <;> simp [hs]

@[simp] theorem execDmaWriteVisible_inv (d piece : Nat) (s : State) (hs : Inv s) : InvNext (execDmaWriteVisible d piece s) := by
  unfold execDmaWriteVisible; dsimp only
  (repeat' split) <;> simp [hs]

@[simp] theorem execSegmentAllocate_inv (d piece : Nat) (segs : List Nat) (s : State) (hs : Inv s) :
    InvNext (execSegmentAllocate d piece segs s) := by
  unfold execSegmentAllocate; dsimp only
  (repeat' split) <;> simp [hs]
  rename_i ht
  exact .inl (State.allocAll_inv hs ht)

@[simp] theorem execDmaReadIssue_inv (d piece tag : Nat) (seg : ReadSeg) (s : State) (hs : Inv s) :
    InvNext (execDmaReadIssue d piece tag seg s) := by
  unfold execDmaReadIssue; dsimp only
  (repeat' split) <;> simp [hs]
  all_goals
    rename_i ht _
    simp [State.segFor_inv hs ht]

@[simp] theorem execDmaReadCompletion_inv (tag : Nat) (st : CplStatus) (data : Checked (List Byte)) (s : State) (hs : Inv s) :
    InvNext (execDmaReadCompletion tag st data s) := by
  unfold execDmaReadCompletion; dsimp only
  (repeat' split) <;> simp [hs]

/-! ### Rows of Machine/Fifo.lean -/

@[simp] theorem execFrameReceive_inv (quad : Nat) (fr : Frame) (s : State) (hs : Inv s) :
    InvNext (execFrameReceive quad fr s) := by
  unfold execFrameReceive; dsimp only
  (repeat' split) <;> simp [hs]

@[simp] theorem execFrameMove_inv (quad : Nat) (found : BadFifo) (segs : List Nat) (s : State) (hs : Inv s) :
    InvNext (execFrameMove quad found segs s) := by
  unfold execFrameMove; dsimp only
  (repeat' split) <;> simp [hs]
  all_goals
    rename_i ht
    have hd := State.deliver_inv (by simp [hs]) ht
    simp [hd]

@[simp] theorem execFifoWatermarkWrite_inv (quad : Nat) (hi4 : Option Bool) (val : Word) (s : State) (hs : Inv s) :
    InvNext (execFifoWatermarkWrite quad hi4 val s) := by
  unfold execFifoWatermarkWrite
  (repeat' split) <;> simp [hs]

@[simp] theorem execFrameTransmit_inv (quad : Nat) (parityBad : Bool) (fault : FrameFault) (s : State) (hs : Inv s) :
    InvNext (execFrameTransmit quad parityBad fault s) := by
  unfold execFrameTransmit; dsimp only
  (repeat' split) <;> simp [hs]

@[simp] theorem execDeviceMemoryRequest_inv (quad port : Nat) (req : DevMemReq) (s : State) (hs : Inv s) :
    InvNext (execDeviceMemoryRequest quad port req s) := by
  unfold execDeviceMemoryRequest
  (repeat' split) <;> simp [hs]

/-! ### Rows of Machine/Awake.lean -/

@[simp] theorem execClusterIdle_inv (cluster : Nat) (s : State) (hs : Inv s) : InvNext (execClusterIdle cluster s) := by
  unfold execClusterIdle; dsimp only
  (repeat' split) <;> simp [hs]

@[simp] theorem execClusterWake_inv (cluster : Nat) (s : State) (hs : Inv s) : InvNext (execClusterWake cluster s) := by
  unfold execClusterWake; dsimp only
  split <;> simp [hs]

@[simp] theorem execClusterWakeDone_inv (cluster : Nat) (s : State) (hs : Inv s) : InvNext (execClusterWakeDone cluster s) := by
  unfold execClusterWakeDone
  split <;> simp [hs]

@[simp] theorem execMaxstateWrite_inv (val : Word) (s : State) (hs : Inv s) : InvNext (execMaxstateWrite val s) := by
  unfold execMaxstateWrite
  split <;> simp [hs]

/-! ### Rows of Machine/Recover.lean -/

@[simp] theorem execSetPathSet_inv (buf : HostData) (s : State) (hs : Inv s) : InvNext (execSetPathSet buf s) := by
  refine admRow_inv hs _ fun e => ?_
  dsimp only
  (repeat' split) <;> simp [hs]

@[simp] theorem execTallyCheck_inv (s : State) (hs : Inv s) : InvNext (execTallyCheck s) := by
  simp [hs, execTallyCheck]

@[simp] theorem execTallyAudit_inv (line : Nat) (s : State) (hs : Inv s) : InvNext (execTallyAudit line s) := by
  unfold execTallyAudit
  split <;> simp [hs]

@[simp] theorem execTallySnap_inv (s : State) (hs : Inv s) : InvNext (execTallySnap s) := by
  unfold execTallySnap
  split <;> simp [hs]

@[simp] theorem execEngineFault_inv (cluster engine : Nat) (s : State) (hs : Inv s) :
    InvNext (execEngineFault cluster engine s) := by
  simp [hs, execEngineFault]

@[simp] theorem execEngineHang_inv (cluster engine : Nat) (s : State) (hs : Inv s) :
    InvNext (execEngineHang cluster engine s) := by
  unfold execEngineHang
  split <;> simp [hs]

@[simp] theorem execClusterFault_inv (cluster : Nat) (s : State) (hs : Inv s) : InvNext (execClusterFault cluster s) := by
  unfold execClusterFault; dsimp only
  split <;> simp [hs]

@[simp] theorem execControlCompareError_inv (block : Nat) (s : State) (hs : Inv s) :
    InvNext (execControlCompareError block s) := by
  unfold execControlCompareError
  split <;> simp [hs]

/-! ### Rows of Machine/Meridian.lean -/

@[simp] theorem execMeridianGrant_inv (res : Nat) (s : State) (hs : Inv s) : InvNext (execMeridianGrant res s) := by
  unfold execMeridianGrant
  split <;> simp [hs]

@[simp] theorem execMaquetteCommit_inv (s : State) (hs : Inv s) : InvNext (execMaquetteCommit s) := by
  unfold execMaquetteCommit
  (repeat' split) <;> simp [hs]

@[simp] theorem execCostOverrun_inv (sch : Nat) (s : State) (hs : Inv s) : InvNext (execCostOverrun sch s) := by
  unfold execCostOverrun; dsimp only
  split <;> simp [hs]

@[simp] theorem execFreezeDrained_inv (s : State) (hs : Inv s) : InvNext (execFreezeDrained s) := by
  simp [hs, execFreezeDrained]

@[simp] theorem execCapacityRetest_inv (change : Nat) (s : State) (hs : Inv s) : InvNext (execCapacityRetest change s) := by
  unfold execCapacityRetest
  split <;> simp [hs]

@[simp] theorem execDeadlineWatchExpiry_inv (sch : Nat) (s : State) (hs : Inv s) : InvNext (execDeadlineWatchExpiry sch s) := by
  unfold execDeadlineWatchExpiry; dsimp only
  split <;> simp [hs]

/-! ### Rows of Machine/Mailbox.lean -/

@[simp] theorem execMailboxSend_inv (ch : Chan) (bit size : Nat) (word : Word) (s : State) (hs : Inv s) :
    InvNext (execMailboxSend ch bit size word s) := by
  unfold execMailboxSend
  (repeat' split) <;> simp [hs]

@[simp] theorem execPing_inv (s : State) (hs : Inv s) : InvNext (execPing s) := by
  unfold execPing
  split <;> simp [hs]

@[simp] theorem execMailboxReceive_inv (ch : Chan) (size : Nat) (s : State) (hs : Inv s) :
    InvNext (execMailboxReceive ch size s) := by
  unfold execMailboxReceive
  (repeat' split) <;> simp [hs]

@[simp] theorem execMailboxStatusWrite_inv (reg : MbReg) (stat : Bool) (half : Option Bool) (val : Word) (s : State) (hs : Inv s)
    :
    InvNext (execMailboxStatusWrite reg stat half val s) := by
  unfold execMailboxStatusWrite
  split <;> simp [hs]

@[simp] theorem execIcAck_inv (inst : IcInst) (owner : Bool) (s : State) (hs : Inv s) : InvNext (execIcAck inst owner s) := by
  unfold execIcAck
  (repeat' split) <;> simp [hs]

@[simp] theorem execIcEoi_inv (inst : IcInst) (s : State) (hs : Inv s) : InvNext (execIcEoi inst s) := by
  unfold execIcEoi
  split <;> simp [hs]

@[simp] theorem execIcPendSet_inv (inst : IcInst) (i : Nat) (val : Word) (s : State) (hs : Inv s) :
    InvNext (execIcPendSet inst i val s) := by
  unfold execIcPendSet
  split <;> simp [hs]

@[simp] theorem execIcPendClr_inv (inst : IcInst) (i : Nat) (val : Word) (s : State) (hs : Inv s) :
    InvNext (execIcPendClr inst i val s) := by
  unfold execIcPendClr
  split <;> simp [hs]

@[simp] theorem execIcMaskSet_inv (inst : IcInst) (i : Nat) (val : Word) (s : State) (hs : Inv s) :
    InvNext (execIcMaskSet inst i val s) := by
  unfold execIcMaskSet
  split <;> simp [hs]

@[simp] theorem execIcMaskClr_inv (inst : IcInst) (i : Nat) (val : Word) (s : State) (hs : Inv s) :
    InvNext (execIcMaskClr inst i val s) := by
  unfold execIcMaskClr
  split <;> simp [hs]

@[simp] theorem execIcCntRead_inv (inst : IcInst) (i : Nat) (owner : Bool) (s : State) (hs : Inv s) :
    InvNext (execIcCntRead inst i owner s) := by
  unfold execIcCntRead
  (repeat' split) <;> simp [hs]

/-! ### Rows of Machine/Quads.lean -/

@[simp] theorem execPresenceAssert_inv (quad port : Nat) (s : State) (hs : Inv s) : InvNext (execPresenceAssert quad port s) := by
  unfold execPresenceAssert; dsimp only
  split <;> simp [hs]

@[simp] theorem execPresenceDebounced_inv (quad port : Nat) (readbackOk : Bool) (i2cOk : Bool) (s : State) (hs : Inv s) :
    InvNext (execPresenceDebounced quad port readbackOk i2cOk s) := by
  unfold execPresenceDebounced
  (repeat' split) <;> simp [hs]

@[simp] theorem execPowerDelayExpiry_inv (quad port : Nat) (readbackOk : Bool) (s : State) (hs : Inv s) :
    InvNext (execPowerDelayExpiry quad port readbackOk s) := by
  unfold execPowerDelayExpiry
  (repeat' split) <;> simp [hs]

@[simp] theorem execPresenceDeassert_inv (quad : Nat) (i2c : PortTest) (s : State) (hs : Inv s) :
    InvNext (execPresenceDeassert quad i2c s) := by
  unfold execPresenceDeassert
  (repeat' split) <;> simp [hs]

@[simp] theorem execPwrenOffDelayExpiry_inv (quad : Nat) (pwren : PortTest) (s : State) (hs : Inv s) :
    InvNext (execPwrenOffDelayExpiry quad pwren s) := by
  unfold execPwrenOffDelayExpiry; dsimp only
  (repeat' split) <;> simp [hs]

@[simp] theorem execNolinkRetry_inv (quad port : Nat) (s : State) (hs : Inv s) : InvNext (execNolinkRetry quad port s) := by
  unfold execNolinkRetry
  (repeat' split) <;> simp [hs]

@[simp] theorem execSgpioFrame_inv (quad : Nat) (readbackOk : Bool) (s : State) (hs : Inv s) :
    InvNext (execSgpioFrame quad readbackOk s) := by
  unfold execSgpioFrame
  (repeat' split) <;> simp [hs]

@[simp] theorem execMgmtPoll_inv (quad port : Nat) (resp : Option (BitVec 24)) (s : State) (hs : Inv s) :
    InvNext (execMgmtPoll quad port resp s) := by
  unfold execMgmtPoll; dsimp only
  (repeat' split) <;> simp [hs]

@[simp] theorem execErrCorMessage_inv (quad port : Nat) (s : State) (hs : Inv s) : InvNext (execErrCorMessage quad port s) := by
  unfold execErrCorMessage
  split <;> simp [hs]

@[simp] theorem execErrNonfatalMessage_inv (quad port : Nat) (s : State) (hs : Inv s) :
    InvNext (execErrNonfatalMessage quad port s) := by
  unfold execErrNonfatalMessage
  split <;> simp [hs]

@[simp] theorem execNvmeAsyncEvent_inv (quad port : Nat) (s : State) (hs : Inv s) : InvNext (execNvmeAsyncEvent quad port s) := by
  unfold execNvmeAsyncEvent
  split <;> simp [hs]

@[simp] theorem execSasBroadcastChange_inv (quad port : Nat) (s : State) (hs : Inv s) :
    InvNext (execSasBroadcastChange quad port s) := by
  unfold execSasBroadcastChange
  split <;> simp [hs]

@[simp] theorem execPortLinkUp_inv (quad port : Nat) (rate : LinkRate) (lanes : List TrainedLane) (s : State) (hs : Inv s) :
    InvNext (execPortLinkUp quad port rate lanes s) := by
  unfold execPortLinkUp; dsimp only
  (repeat' split) <;> simp [hs]

@[simp] theorem execLaneFault_inv (quad lane : Nat) (code : LaneCode) (s : State) (hs : Inv s) :
    InvNext (execLaneFault quad lane code s) := by
  unfold execLaneFault
  (repeat' split) <;> simp [hs]

@[simp] theorem execDiscoveryRunStart_inv (quad port : Nat) (ids : List IdentityRead) (s : State) (hs : Inv s) :
    InvNext (execDiscoveryRunStart quad port ids s) := by
  unfold execDiscoveryRunStart; dsimp only
  (repeat' split) <;> simp [hs]

@[simp] theorem execDiscoveryRunEnd_inv (quad port : Nat) (found : List Finding) (s : State) (hs : Inv s) :
    InvNext (execDiscoveryRunEnd quad port found s) := by
  unfold execDiscoveryRunEnd; dsimp only
  (repeat' split) <;> simp [hs]

@[simp] theorem execQreset_inv (quad : Nat) (s : State) (hs : Inv s) : InvNext (execQreset quad s) := by
  unfold execQreset
  split <;> simp [hs]

@[simp] theorem execQuadReset_inv (test : QuadTest) (s : State) (hs : Inv s) : InvNext (execQuadReset test s) := by
  unfold execQuadReset; dsimp only
  (repeat' split) <;> simp [hs]

@[simp] theorem execSbretry_inv (quad : Nat) (stillFaulty : BitVec 17) (s : State) (hs : Inv s) :
    InvNext (execSbretry quad stillFaulty s) := by
  unfold execSbretry
  split <;> simp [hs]

/-! ### Rows of Machine/Almanac.lean -/

@[simp] theorem execAlmanacWrite_inv (s : State) (hs : Inv s) : InvNext (execAlmanacWrite s) := by
  unfold execAlmanacWrite
  split <;> simp [hs]

/-! ### Rows of Machine/Link.lean -/

@[simp] theorem execBusMasterEnableSet_inv (cfg : HostCfg) (s : State) (hs : Inv s) : InvNext (execBusMasterEnableSet cfg s) := by
  unfold execBusMasterEnableSet; dsimp only
  (repeat' split) <;> simp [hs]

@[simp] theorem execBusMasterEnableCleared_inv (s : State) (hs : Inv s) : InvNext (execBusMasterEnableCleared s) := by
  unfold execBusMasterEnableCleared
  split <;> simp [hs]

@[simp] theorem execMemorySpaceEnableCleared_inv (s : State) (hs : Inv s) : InvNext (execMemorySpaceEnableCleared s) := by
  unfold execMemorySpaceEnableCleared
  split <;> simp [hs]

@[simp] theorem execMemorySpaceEnableSet_inv (s : State) (hs : Inv s) : InvNext (execMemorySpaceEnableSet s) := by
  unfold execMemorySpaceEnableSet
  split <;> simp [hs]

@[simp] theorem execMsixUnmask_inv (vec : Option Nat) (s : State) (hs : Inv s) : InvNext (execMsixUnmask vec s) := by
  unfold execMsixUnmask
  (repeat' split) <;> simp [hs]

@[simp] theorem execHostLinkRateChange_inv (rate width : Nat) (flit : Bool) (s : State) (hs : Inv s) :
    InvNext (execHostLinkRateChange rate width flit s) := by
  unfold execHostLinkRateChange
  (repeat' split) <;> simp [hs]

@[simp] theorem execPoisonedTlpReceived_inv (s : State) (hs : Inv s) : InvNext (execPoisonedTlpReceived s) := by
  unfold execPoisonedTlpReceived
  split <;> simp [hs]

@[simp] theorem execCorrectableLinkError_inv (s : State) (hs : Inv s) : InvNext (execCorrectableLinkError s) := by
  unfold execCorrectableLinkError
  split <;> simp [hs]

@[simp] theorem execIdeCheckFailure_inv (s : State) (hs : Inv s) : InvNext (execIdeCheckFailure s) := by
  unfold execIdeCheckFailure
  split <;> simp [hs]

@[simp] theorem execKeyProg_inv (session : Nat) (sub : SubStream) (tx k1 : Bool) (key : BitVec 256) (s : State) (hs : Inv s) :
    InvNext (execKeyProg session sub tx k1 key s) := by
  unfold execKeyProg
  split <;> simp [hs]

@[simp] theorem execKeySetGo_inv (session : Nat) (sub : SubStream) (tx k1 : Bool) (s : State) (hs : Inv s) :
    InvNext (execKeySetGo session sub tx k1 s) := by
  unfold execKeySetGo
  split <;> simp [hs]

@[simp] theorem execKeySetStop_inv (session : Nat) (sub : SubStream) (tx k1 : Bool) (s : State) (hs : Inv s) :
    InvNext (execKeySetStop session sub tx k1 s) := by
  unfold execKeySetStop
  split <;> simp [hs]

@[simp] theorem execKeySetSwitch_inv (sub : SubStream) (k1 : Bool) (s : State) (hs : Inv s) :
    InvNext (execKeySetSwitch sub k1 s) := by
  unfold execKeySetSwitch
  split <;> simp [hs]

@[simp] theorem execSpdmGetVersion_inv (tr : Transport) (s : State) (hs : Inv s) : InvNext (execSpdmGetVersion tr s) := by
  refine spdmRow_inv hs _ _ fun u hu => ?_
  simp [hu]

@[simp] theorem execSpdmGetCapabilities_inv (tr : Transport) (s : State) (hs : Inv s) :
    InvNext (execSpdmGetCapabilities tr s) := by
  refine spdmRow_inv hs _ _ fun u hu => ?_
  simp [hu]

@[simp] theorem execSpdmNegotiateAlgorithms_inv (tr : Transport) (s : State) (hs : Inv s) :
    InvNext (execSpdmNegotiateAlgorithms tr s) := by
  refine spdmRow_inv hs _ _ fun u hu => ?_
  simp [hu]

@[simp] theorem execSpdmGetDigests_inv (tr : Transport) (s : State) (hs : Inv s) : InvNext (execSpdmGetDigests tr s) := by
  refine spdmRow_inv hs _ _ fun u hu => ?_
  simp [hu]

@[simp] theorem execSpdmGetCertificate_inv (tr : Transport) (slot off len : Nat) (s : State) (hs : Inv s) :
    InvNext (execSpdmGetCertificate tr slot off len s) := by
  refine spdmRow_inv hs _ _ fun u hu => ?_
  (repeat' split) <;> simp [hu, State.spdmError]

@[simp] theorem execSpdmChallenge_inv (tr : Transport) (slot : Nat) (nonce : BitVec 256) (s : State) (hs : Inv s) :
    InvNext (execSpdmChallenge tr slot nonce s) := by
  refine spdmRow_inv hs _ _ fun u hu => ?_
  (repeat' split) <;> simp [hu, State.spdmError]

@[simp] theorem execSpdmGetMeasurements_inv (tr : Transport) (index : Nat) (nonce : BitVec 256) (s : State) (hs : Inv s) :
    InvNext (execSpdmGetMeasurements tr index nonce s) := by
  refine spdmRow_inv hs _ _ fun u hu => ?_
  dsimp only
  (repeat' split) <;> simp [hu]

@[simp] theorem execSpdmKeyExchange_inv (tr : Transport) (id : Nat) (s : State) (hs : Inv s) :
    InvNext (execSpdmKeyExchange tr id s) := by
  refine spdmRow_inv hs _ _ fun u hu => ?_
  (repeat' split) <;> simp [hu, State.spdmError]

@[simp] theorem execSpdmFinish_inv (tr : Transport) (id : Nat) (s : State) (hs : Inv s) : InvNext (execSpdmFinish tr id s) := by
  refine spdmRow_inv hs _ _ fun u hu => ?_
  simp [hu]

@[simp] theorem execSpdmHeartbeat_inv (tr : Transport) (id : Nat) (s : State) (hs : Inv s) :
    InvNext (execSpdmHeartbeat tr id s) := by
  refine spdmRow_inv hs _ _ fun u hu => ?_
  simp [hu]

@[simp] theorem execSpdmKeyUpdate_inv (tr : Transport) (id : Nat) (s : State) (hs : Inv s) :
    InvNext (execSpdmKeyUpdate tr id s) := by
  refine spdmRow_inv hs _ _ fun u hu => ?_
  simp [hu]

@[simp] theorem execSpdmEndSession_inv (tr : Transport) (id : Nat) (s : State) (hs : Inv s) :
    InvNext (execSpdmEndSession tr id s) := by
  refine spdmRow_inv hs _ _ fun u hu => ?_
  simp [hu]

@[simp] theorem execSpdmUnsupportedRequest_inv (tr : Transport) (code : Byte) (s : State) (hs : Inv s) :
    InvNext (execSpdmUnsupportedRequest tr code s) := by
  unfold execSpdmUnsupportedRequest
  split <;> simp [hs]

@[simp] theorem execDoeDiscovery_inv (index : Nat) (s : State) (hs : Inv s) : InvNext (execDoeDiscovery index s) := by
  unfold execDoeDiscovery
  split <;> simp [hs]

@[simp] theorem execMctpControlMessage_inv (setEid : Option Byte) (s : State) (hs : Inv s) :
    InvNext (execMctpControlMessage setEid s) := by
  have hheard : Inv ((s.heard .mctp).onLink fun l => { l with eid := setEid.getD l.eid }) := by simp [State.heard, hs]
  rw [execMctpControlMessage, invNext_next]
  split
  · exact hs
  · exact (State.emit_inv ..).2 ((inv_fresh ..).2 hheard)

/-! ### Rows of Machine/Plinth.lean -/

@[simp] theorem execBoot_inv (a b : Option (List Byte)) (start : BootTest) (s : State) (hs : Inv s) :
    InvNext (execBoot a b start s) := by
  unfold execBoot; dsimp only
  (repeat' split) <;> simp [hs]

@[simp] theorem execExtend_inv (block : HostData) (s : State) (hs : Inv s) : InvNext (execExtend block s) := by
  refine plnRow_inv hs _ _ fun w u hu => ?_
  dsimp only
  (repeat' split) <;> simp [hu]

@[simp] theorem execExtendLock_inv (s : State) (hs : Inv s) : InvNext (execExtendLock s) := by
  refine (invNext_next _).2 (State.plnServe_inv hs _ fun w u hu => ?_)
  dsimp only
  (repeat' split) <;> simp [hu]

@[simp] theorem execQuote_inv (block : HostData) (s : State) (hs : Inv s) : InvNext (execQuote block s) := by
  refine plnRow_inv hs _ _ fun w u hu => ?_
  dsimp only
  (repeat' split) <;> simp [hu]

@[simp] theorem execGetNonce_inv (block : HostData) (s : State) (hs : Inv s) : InvNext (execGetNonce block s) := by
  refine plnRow_inv hs _ _ fun w u hu => ?_
  have hblock : Inv (u.blockRead w block).1 := by simp [hu]
  generalize u.blockRead w block = x at hblock ⊢
  dsimp only
  (repeat' split) <;> simp [hblock]

@[simp] theorem execPlinthBadOp_inv (s : State) (hs : Inv s) : InvNext (execPlinthBadOp s) := by
  unfold execPlinthBadOp
  (repeat' split) <;> simp [hs]

@[simp] theorem execFlashUpdate_inv (block image : HostData) (s : State) (hs : Inv s) :
    InvNext (execFlashUpdate block image s) := by
  refine plnRow_inv hs _ _ fun w u hu => ?_
  dsimp only
  (repeat' split) <;> simp [hu]

@[simp] theorem execFlashUpdateEnd_inv (ok : Bool) (s : State) (hs : Inv s) : InvNext (execFlashUpdateEnd ok s) := by
  unfold execFlashUpdateEnd
  split <;> simp [hs]

@[simp] theorem execDecodeLoad_inv (block body : HostData) (s : State) (hs : Inv s) : InvNext (execDecodeLoad block body s) := by
  refine (invNext_next _).2 (State.plnRead_inv hs _ _ (fun w u st hu => by simp [hu]) fun w u hu => ?_)
  dsimp only
  (repeat' split) <;> simp [hu]

@[simp] theorem execDecodeRetireTimeout_inv (s : State) (hs : Inv s) : InvNext (execDecodeRetireTimeout s) := by
  unfold execDecodeRetireTimeout
  (repeat' split) <;> simp [hs]

@[simp] theorem execGenerationSwitch_inv (s : State) (hs : Inv s) : InvNext (execGenerationSwitch s) := by
  unfold execGenerationSwitch
  (repeat' split) <;> simp [hs]

@[simp] theorem execPlinthAccessRefused_inv (requester : Nat) (write : Bool) (addr : Word) (s : State) (hs : Inv s) :
    InvNext (execPlinthAccessRefused requester write addr s) := by
  unfold execPlinthAccessRefused
  (repeat' split) <;> simp [hs]

@[simp] theorem execTamperAssert_inv (s : State) (hs : Inv s) : InvNext (execTamperAssert s) := by
  unfold execTamperAssert
  (repeat' split) <;> simp [hs]

@[simp] theorem execTamperRelease_inv (s : State) (hs : Inv s) : InvNext (execTamperRelease s) := by
  unfold execTamperRelease
  (repeat' split) <;> simp [hs]

/-! ### Rows of Machine/Resets.lean -/

@[simp] theorem execSupervisorLockstepMismatch_inv (s : State) (hs : Inv s) : InvNext (execSupervisorLockstepMismatch s) := by
  unfold execSupervisorLockstepMismatch
  split <;> simp [hs]

@[simp] theorem execWatchdogWrite_inv (s : State) (hs : Inv s) : InvNext (execWatchdogWrite s) := by
  unfold execWatchdogWrite
  split <;> simp [hs]

@[simp] theorem execWatchdogExpiry_inv (s : State) (hs : Inv s) : InvNext (execWatchdogExpiry s) := by
  unfold execWatchdogExpiry
  (repeat' split) <;> simp [hs]

@[simp] theorem execSupervisorTimerExpiry_inv (n : Nat) (s : State) (hs : Inv s) : InvNext (execSupervisorTimerExpiry n s) := by
  unfold execSupervisorTimerExpiry
  (repeat' split) <;> simp [hs]

@[simp] theorem execPlinthLockstepMismatch_inv (s : State) (hs : Inv s) : InvNext (execPlinthLockstepMismatch s) := by
  unfold execPlinthLockstepMismatch; dsimp only
  (repeat' split) <;> simp [hs]

@[simp] theorem execFlr_inv (s : State) (hs : Inv s) : InvNext (execFlr s) := by
  unfold execFlr; dsimp only
  split <;> simp [hs]

@[simp] theorem execD3hotEntry_inv (s : State) (hs : Inv s) : InvNext (execD3hotEntry s) := by
  unfold execD3hotEntry; dsimp only
  (repeat' split) <;> simp [hs]

@[simp] theorem execPowerStateD0_inv (s : State) (hs : Inv s) : InvNext (execPowerStateD0 s) := by
  unfold execPowerStateD0
  split <;> simp [hs]

@[simp] theorem execLinkResetEvent_inv (s : State) (hs : Inv s) : InvNext (execLinkResetEvent s) := by
  unfold execLinkResetEvent
  split <;> simp [hs]

@[simp] theorem execPerstNWarmReset_inv (s : State) (hs : Inv s) : InvNext (execPerstNWarmReset s) := by
  unfold execPerstNWarmReset
  split <;> simp [hs]

@[simp] theorem execPerstNDeassert_inv (s : State) (hs : Inv s) : InvNext (execPerstNDeassert s) := by
  unfold execPerstNDeassert
  split <;> simp [hs]

@[simp] theorem execHostReferenceLoss_inv (s : State) (hs : Inv s) : InvNext (execHostReferenceLoss s) := by
  unfold execHostReferenceLoss
  split <;> simp [hs]

@[simp] theorem execHostReferenceReturn_inv (s : State) (hs : Inv s) : InvNext (execHostReferenceReturn s) := by
  unfold execHostReferenceReturn
  split <;> simp [hs]

@[simp] theorem execPortReferenceLoss_inv (half : Bool) (s : State) (hs : Inv s) : InvNext (execPortReferenceLoss half s) := by
  simp [hs, execPortReferenceLoss]

@[simp] theorem execPortReferenceReturn_inv (half : Bool) (s : State) (hs : Inv s) :
    InvNext (execPortReferenceReturn half s) := by
  simp [hs, execPortReferenceReturn]

@[simp] theorem execPowerOn_inv (s : State) (hs : Inv s) : InvNext (execPowerOn s) := by
  rw [execPowerOn, invNext_next]
  split
  · exact hs
  · exact s.powerOn_inv.2 (.inl hs)

@[simp] theorem execPwrokRise_inv (s : State) (hs : Inv s) : InvNext (execPwrokRise s) := by
  unfold execPwrokRise; dsimp only
  (repeat' split) <;> simp [hs]

@[simp] theorem execPwrokFall_inv (s : State) (hs : Inv s) : InvNext (execPwrokFall s) := by
  unfold execPwrokFall
  split <;> simp [hs]

@[simp] theorem execRailOutOfRange_inv (f : RailFault) (s : State) (hs : Inv s) : InvNext (execRailOutOfRange f s) := by
  unfold execRailOutOfRange; dsimp only
  rw [invNext_next]
  (repeat' split)
  case isFalse.isTrue => exact inv_reset_with_power _ _ _ _ (by simp [Power.reset])
  all_goals simp [hs]

@[simp] theorem execRailReturn_inv (rail : Rail) (s : State) (hs : Inv s) : InvNext (execRailReturn rail s) := by
  unfold execRailReturn; dsimp only
  (repeat' split) <;> simp [hs]

@[simp] theorem execThermalTrip_inv (s : State) (hs : Inv s) : InvNext (execThermalTrip s) := by
  unfold execThermalTrip
  split <;> simp [hs]

@[simp] theorem execCrystalLoss_inv (s : State) (hs : Inv s) : InvNext (execCrystalLoss s) := by
  unfold execCrystalLoss
  (repeat' split) <;> simp [hs]

@[simp] theorem execCrystalReturn_inv (s : State) (hs : Inv s) : InvNext (execCrystalReturn s) := by
  unfold execCrystalReturn; dsimp only
  (repeat' split) <;> simp [hs]

@[simp] theorem execVcoreStep_inv (up acked : Bool) (s : State) (hs : Inv s) : InvNext (execVcoreStep up acked s) := by
  unfold execVcoreStep; dsimp only
  (repeat' split) <;> simp [hs]

@[simp] theorem execAvsRetry_inv (acked : Bool) (s : State) (hs : Inv s) : InvNext (execAvsRetry acked s) := by
  unfold execAvsRetry
  (repeat' split) <;> simp [hs]

@[simp] theorem execJtagInstruction_inv (ir : JtagOp) (s : State) (hs : Inv s) : InvNext (execJtagInstruction ir s) := by
  unfold execJtagInstruction; dsimp only
  (repeat' split) <;> simp [hs]

@[simp] theorem execTestLogicReset_inv (s : State) (hs : Inv s) : InvNext (execTestLogicReset s) := by
  simp [hs, execTestLogicReset]

@[simp] theorem execClusterReset_inv (cluster : Nat) (selfTestOk : Bool) (s : State) (hs : Inv s) :
    InvNext (execClusterReset cluster selfTestOk s) := by
  unfold execClusterReset; dsimp only
  (repeat' split) <;> simp [hs]

/-! ### Rows of Machine/Registers.lean -/

@[simp] theorem execRegisterReadClear_inv (bar off size : Nat) (allBytes : Bool) (s : State) (hs : Inv s) :
    InvNext (execRegisterReadClear bar off size allBytes s) := by
  unfold execRegisterReadClear; dsimp only
  (repeat' split) <;> simp [hs]

@[simp] theorem execRegisterWrite_inv (bar off size : Nat) (allBytes : Bool) (val : Word) (s : State) (hs : Inv s) :
    InvNext (execRegisterWrite bar off size allBytes val s) := by
  unfold execRegisterWrite
  (repeat' split) <;> simp [hs]

/-! ### A completion timeout, which ends a host read in the row of its reader -/

@[simp] theorem execHostCompletionTimeout_inv (tag : Nat) (s : State) (hs : Inv s) :
    InvNext (execHostCompletionTimeout tag s) := by
  unfold execHostCompletionTimeout
  split <;> simp [hs]

/-! ## Every row, and every step -/

theorem exec_inv (c : Instr) {s : State} (hs : Inv s) : InvNext (exec c s) := by
  cases c
  case opNop | opEnd | opMove | opAdd | opSub | opMul | opDiv | opNeg | opAnd | opOr | opXor | opAndn | opShl | opShr
      | opSar | opCmp | opTst | opTtag | opGtag | opCvt | opOffs | opExts | opRdcc | opStat | opBcc | opBds | opBal |
      opLdh | opLdhr | opSth | opSthr | opLdg | opStg | opSegaddr | opDevh | opRpt | opMovb | opCmpb | opScnb | opFilb
      | opTas | opLrs | opScs | opCommit | opWaith | opWaitg | opRead | opWrite | opControl | opSense | opNvme |
      opScsi | opPmem | customerInstruction | undefinedOpcode | privilegedOpcode =>
    exact State.opRow_inv hs _ _ _
  all_goals simp [exec, hs]

end Sys2Proof.Machine

open Sys2Proof.Machine in
/-- Settles O60: the front command's row keeps the invariant, and so does the tick of an empty queue. -/
theorem stepKeepsInvariant : Obligations.StepKeepsInvariant := by
  intro s t hs hstep
  unfold step at hstep
  split at hstep
  case h_1 =>
    obtain rfl := Host.Outcome.next.inj hstep
    exact (tick_inv s).2 hs
  case h_2 c rest hpending => exact exec_inv c ((inv_pending s rest).2 hs) t hstep

/-! # What events, vectors and mailboxes leave (for O46 to O54)

A record and a vector change the Almanac's queues, the link, Meridian's requests, what a completion queue counts and the outputs; a
mailbox row changes the mailboxes and the controllers besides. What the other obligations say of the rest of the state passes through
them by these lemmas. -/

namespace Sys2Proof.Machine

open Sys2Proof.Safety

/-! ## What an event and a vector leave -/

@[simp] theorem State.record_others (s : State) (type source : Nat) (payload : List Byte) (len : Nat) :
    (s.record type source payload len).sub = s.sub ∧ (s.record type source payload len).md = s.md ∧
    (s.record type source payload len).ic = s.ic ∧ (s.record type source payload len).out = s.out := by
  obtain ⟨f, hf⟩ := s.record_eq_onPl type source payload len
  rw [hf]
  simp

@[simp] theorem State.event_others (s : State) (source block code a0 a1 a2 a3 : Nat) :
    (s.event source block code a0 a1 a2 a3).link = s.link ∧ (s.event source block code a0 a1 a2 a3).md = s.md ∧
    (s.event source block code a0 a1 a2 a3).ic = s.ic ∧ (s.event source block code a0 a1 a2 a3).out = s.out := by
  simp [State.event]

@[simp] theorem State.signal_ic (s : State) (v : Nat) : (s.signal v).ic = s.ic := by
  simp only [State.signal, State.signalNow]
  (repeat' split) <;> simp

/-- Plinth without what a record and a vector change: the Almanac and the count of suppressed events. -/
def Plinth.bare (p : Plinth) : Plinth := { p with alm := Almanac.reset, supprCnt := 0 }

@[simp] theorem State.record_bare (s : State) (type source : Nat) (payload : List Byte) (len : Nat) :
    (s.record type source payload len).pl.bare = s.pl.bare := by
  obtain ⟨a, n, h⟩ := s.record_eq_withRecords type source payload len
  rw [h]
  rfl

@[simp] theorem State.event_bare (s : State) (source block code a0 a1 a2 a3 : Nat) :
    (s.event source block code a0 a1 a2 a3).pl.bare = s.pl.bare := s.record_bare _ _ _ _

@[simp] theorem State.plRecord_others (s : State) (type : Nat) (payload : List Byte) :
    (s.plRecord type payload).link = s.link ∧ (s.plRecord type payload).sub = s.sub ∧ (s.plRecord type payload).md = s.md ∧
    (s.plRecord type payload).ic = s.ic ∧ (s.plRecord type payload).out = s.out ∧ (s.plRecord type payload).pl.bare = s.pl.bare := by
  simp [State.plRecord]

@[simp] theorem State.signal_bare (s : State) (v : Nat) : (s.signal v).pl.bare = s.pl.bare := by
  unfold State.signal
  dsimp only
  split
  · rfl
  · split
    · rfl
    · rw [State.signalNow_pl]

/-! ## What a mailbox row leaves (R455 to R461) -/

@[simp] theorem State.mbEdge_others (before s : State) :
    (before.mbEdge s).sub = s.sub ∧ (before.mbEdge s).tally = s.tally ∧ (before.mbEdge s).ic = s.ic ∧
    (before.mbEdge s).pl.bare = s.pl.bare ∧ (before.mbEdge s).q.sqs = s.q.sqs :=
  ⟨foldl_keeps (·.sub) _ (fun t v => by split <;> simp) _ s, foldl_keeps (·.tally) _ (fun t v => by split <;> simp) _ s,
    foldl_keeps (·.ic) _ (fun t v => by split <;> simp) _ s, foldl_keeps (·.pl.bare) _ (fun t v => by split <;> simp) _ s,
    foldl_keeps (·.q.sqs) _ (fun t v => by split <;> simp) _ s⟩

@[simp] theorem State.mbSend_others (s : State) (ch : Chan) (bit : Nat) (word : Word) :
    (s.mbSend ch bit word).sub = s.sub ∧ (s.mbSend ch bit word).tally = s.tally ∧ (s.mbSend ch bit word).fresh = s.fresh ∧
    (s.mbSend ch bit word).dma = s.dma ∧ (s.mbSend ch bit word).dev = s.dev ∧ (s.mbSend ch bit word).pl.bare = s.pl.bare ∧
    (s.mbSend ch bit word).q.sqs = s.q.sqs := by
  unfold State.mbSend
  dsimp only
  split
  · simp
  · cases owedBy ch <;> simp

@[simp] theorem State.mbTake_others (s : State) (ch : Chan) :
    (s.mbTake ch).sub = s.sub ∧ (s.mbTake ch).tally = s.tally ∧ (s.mbTake ch).pl.bare = s.pl.bare ∧ (s.mbTake ch).q.sqs = s.q.sqs := by
  simp [State.mbTake]

@[simp] theorem State.mbServe_others (s : State) (ch : Chan) :
    (s.mbServe ch).sub = s.sub ∧ (s.mbServe ch).tally = s.tally ∧ (s.mbServe ch).pl.bare = s.pl.bare ∧ (s.mbServe ch).q.sqs = s.q.sqs := by
  simp [State.mbServe]

@[simp] theorem State.mbAbort_others (s : State) (ch : Chan) :
    (s.mbAbort ch).sub = s.sub ∧ (s.mbAbort ch).tally = s.tally ∧ (s.mbAbort ch).pl.bare = s.pl.bare ∧ (s.mbAbort ch).q.sqs = s.q.sqs := by
  unfold State.mbAbort
  dsimp only
  split
  · simp
  · simp

@[simp] theorem State.pumpNotices_others (s : State) :
    s.pumpNotices.sub = s.sub ∧ s.pumpNotices.tally = s.tally ∧ s.pumpNotices.fresh = s.fresh ∧ s.pumpNotices.pw = s.pw ∧
    s.pumpNotices.dma = s.dma ∧ s.pumpNotices.dev = s.dev ∧ s.pumpNotices.pl.bare = s.pl.bare ∧ s.pumpNotices.q.sqs = s.q.sqs := by
  unfold State.pumpNotices
  split
  · simp
  · split
    · simp
    · simp

end Sys2Proof.Machine

/-! # Checks, audits and snapshots of the Tally (O46)

A read of the counters changes its own count of corrected errors and nothing that a line holds; a line that fails is the only one that
the fold of a check touches; an audit ends with what `State.auditLine` finds. -/

namespace Sys2Proof.Machine

open Sys2Proof.Safety

/-! ## A read of the counters (R400) -/

/-- A read of the counters changes the count of corrected errors and the count of free choices alone. -/
theorem State.tallyRead_eq (s : State) :
    s.tallyRead = { s with
      fresh := s.fresh + 1
      tally := { s.tally with ce := if Config.tallyUpset s.fresh then sat 32 (s.tally.ce + 1) else s.tally.ce } } := by
  unfold State.tallyRead
  split
  · rfl
  · rfl

@[simp] theorem State.lineOf_tallyRead (s : State) (l : Nat) : s.tallyRead.lineOf l = s.lineOf l := by
  rw [s.tallyRead_eq]
  rfl

@[simp] theorem State.walk_tallyRead (s : State) (l : Nat) : s.tallyRead.walk l = s.walk l := by
  rw [s.tallyRead_eq]
  rfl

@[simp] theorem State.heldOf_tallyRead (s : State) (l : Nat) : s.tallyRead.heldOf l = s.heldOf l := by
  simp [State.heldOf]

@[simp] theorem State.tallyRead_lines (s : State) : s.tallyRead.tally.lines = s.tally.lines ∧ s.tallyRead.tally.audits = s.tally.audits ∧
    s.tallyRead.tally.checks = s.tally.checks := by
  rw [s.tallyRead_eq]
  exact ⟨rfl, rfl, rfl⟩

/-! ## A change of one line -/

theorem State.lineOf_modAt {s t : State} {l : Nat} {f : Line4 → Line4} (h : t.tally.lines = modAt s.tally.lines l f)
    (hl : l < s.tally.lines.length) : t.lineOf l = f (s.lineOf l) := by
  rw [State.lineOf, h]
  exact modAt_getD_same _ _ _ _ hl

theorem State.lineOf_modAt_other {s t : State} {l k : Nat} {f : Line4 → Line4} (h : t.tally.lines = modAt s.tally.lines l f)
    (hk : k ≠ l) : t.lineOf k = s.lineOf k := by
  rw [State.lineOf, h]
  exact modAt_getD_other _ _ _ hk

/-! ## A check (R396) -/

/-- The counters are read and the check is counted, before any line fails. -/
def State.checkCounted (s : State) : State := s.tallyRead.onTally fun t => { t with checks := t.checks + 1 }

@[simp] theorem State.lineOf_checkCounted (s : State) (l : Nat) : s.checkCounted.lineOf l = s.lineOf l := s.lineOf_tallyRead l

@[simp] theorem State.checkCounted_tally (s : State) : s.checkCounted.tally.lines = s.tally.lines ∧
    s.checkCounted.tally.audits = s.tally.audits ∧ s.checkCounted.tally.checks = s.tally.checks + 1 := by
  simp [State.checkCounted]

/-- The part of a check that the line `l` has. -/
def State.checkLine (s t : State) (l : Nat) : State := if s.lineDiff l = 0 then t else t.mismatch l (s.lineDiff l)

theorem exec_tallyCheck_run {s : State} (hclock : s.pw.hrefOk) :
    exec .tallyCheck s = .next ((List.range 4).foldl s.checkLine s.checkCounted) := by
  change execTallyCheck s = _
  rw [execTallyCheck, hclock]
  rfl

/-- Where all lines but one are passed over, a fold does what it does for that line. -/
theorem foldl_passes {f : State → Nat → State} {l : Nat} {ls : List Nat} (hpass : ∀ k ∈ ls, k ≠ l → ∀ t, f t k = t) (hnodup : ls.Nodup)
    (s : State) : ls.foldl f s = if l ∈ ls then f s l else s := by
  induction ls generalizing s with
  | nil => rfl
  | cons k ls ih =>
    obtain ⟨hk, hnodup⟩ := List.nodup_cons.mp hnodup
    have ih := ih (fun j hj => hpass j (List.mem_cons_of_mem _ hj)) hnodup
    by_cases hkl : k = l
    · subst hkl
      simp [ih, hk]
    · simp [ih, hpass k List.mem_cons_self hkl, Ne.symm hkl]

/-- A check in which one line alone fails. -/
theorem exec_tallyCheck_fails {s : State} {l : Nat} (hclock : s.pw.hrefOk) (hl : l < 4) (hdiff : s.lineDiff l ≠ 0)
    (hothers : ∀ k, k < 4 → k ≠ l → s.lineDiff k = 0) :
    exec .tallyCheck s = .next (s.checkCounted.mismatch l (s.lineDiff l)) := by
  have hpass : ∀ k ∈ List.range 4, k ≠ l → ∀ t, s.checkLine t k = t := fun k hk hkl t => if_pos (hothers k (List.mem_range.mp hk) hkl)
  rw [exec_tallyCheck_run hclock, foldl_passes hpass List.nodup_range, if_pos (List.mem_range.mpr hl), State.checkLine, if_neg hdiff]

/-- The line after a further failure. -/
def Line4.failedAgain (x : Line4) : Line4 := { x with fails := inc16 x.fails }

/-- A further failure of a marked line is counted, and nothing else happens. -/
theorem State.mismatch_marked {s : State} {l : Nat} (diff : Word) (hmark : (s.lineOf l).mism) :
    s.mismatch l diff = s.onTally fun t => { t with lines := modAt t.lines l Line4.failedAgain } :=
  if_pos hmark

/-- The line after its first failure. -/
def Line4.marked (x : Line4) (diff : Word) : Line4 := { x with fails := inc16 x.fails, mism := true, diff := diff.setWidth 48 }

theorem modAt_modAt {α : Type} (l : List α) (k : Nat) (f g : α → α) : modAt (modAt l k f) k g = modAt l k (g ∘ f) := by
  induction l generalizing k with
  | nil => rfl
  | cons x l ih => cases k with
    | zero => rfl
    | succ k => exact congrArg (x :: ·) (ih k)

/-- The first failure of a line marks it and starts an audit. -/
theorem State.mismatch_unmarked {s : State} {l : Nat} (diff : Word) (hmark : (s.lineOf l).mism = false) :
    (s.mismatch l diff).tally
      = { s.tally with lines := modAt s.tally.lines l (·.marked diff), audits := s.tally.audits ++ [l] } := by
  rw [State.mismatch]
  simp only [show (s.tally.lines.getD l Line4.zero).mism = false from hmark, Bool.false_eq_true, if_false, State.signal_tally,
    State.irq_frame, State.event_tally, State.onTally_tally, modAt_modAt]
  rfl

/-! ## An audit (R397) -/

/-- The audit of a line has ended. -/
def State.audited (s : State) (l : Nat) : State :=
  (((s.auditLine l).1.onTally fun t => { t with audits := t.audits.erase l, lastAudit := (s.auditLine l).2 }).event 1 10 2 l
    (s.auditLine l).2 0 0)

theorem exec_tallyAudit_ends {s : State} {l : Nat} (hwaits : l ∈ s.tally.audits) (hup : s.pw.supUp) :
    exec (.tallyAudit l) s = .next (s.tallyRead.audited l) := by
  change execTallyAudit l s = _
  rw [execTallyAudit, if_neg (by simp [hwaits, hup])]
  rfl

@[simp] theorem State.audited_tally (s : State) (l : Nat) : (s.audited l).tally
    = { (s.auditLine l).1.tally with audits := (s.auditLine l).1.tally.audits.erase l, lastAudit := (s.auditLine l).2 } := by
  simp [State.audited]

@[simp] theorem State.returnLeak_tally (s : State) (l : Nat) (n : Word) : (s.returnLeak l n).tally
    = { s.tally with lines := modAt s.tally.lines l fun x => { x with returned := x.returned + n } } := by
  unfold State.returnLeak
  split
  · rfl
  · rfl

@[simp] theorem State.auditLine_audits (s : State) (l : Nat) : (s.auditLine l).1.tally.audits = s.tally.audits := by
  unfold State.auditLine
  dsimp only
  (repeat' split) <;> simp

theorem State.liveWalk_unowned (s : State) {l : Nat} (h : l ≠ 2) : s.liveWalk l = s.walk l := by
  simp [State.liveWalk, h]

/-- A counting fault alone: the held count is corrected. -/
theorem State.auditLine_skew {s : State} {l : Nat} (hl : l ≠ 2) (hskew : (s.lineOf l).skew ≠ 0)
    (hcount : (s.lineOf l).issued - (s.lineOf l).returned = BitVec.ofNat 64 (s.walk l)) :
    s.auditLine l = (s.onTally fun t => { t with lines := modAt t.lines l fun x => { x with skew := 0 } }, 2) := by
  rw [State.auditLine]
  rw [if_pos hskew, s.liveWalk_unowned hl, hcount, if_pos (by simp)]

/-- A leak: what no owner holds is returned. -/
theorem State.auditLine_leak {s : State} {l : Nat} (hl : l = 1 ∨ l = 3) (hskew : (s.lineOf l).skew = 0)
    (hleak : 0 < ((s.lineOf l).issued - (s.lineOf l).returned - BitVec.ofNat 64 (s.walk l)).toInt) :
    s.auditLine l = (s.returnLeak l ((s.lineOf l).issued - (s.lineOf l).returned - BitVec.ofNat 64 (s.walk l)), 1) := by
  have hdev : l ≠ 0 := by omega
  rw [State.auditLine]
  rw [if_neg (by simp [hskew]), s.liveWalk_unowned (by omega), if_neg (by simp [hdev]), if_pos (by simp only [hleak, decide_true, Bool.true_or])]

end Sys2Proof.Machine

open Sys2Proof.Machine Sys2Proof.Safety in
/-- Settles O46: with one failing line a check is `State.mismatch` of that line on the counted state, and an audit ends with the
outcome of `State.auditLine` on the read counters. -/
theorem tallyChecks : Obligations.TallyChecks := by
  unfold Obligations.TallyChecks
  intro s
  refine ⟨fun hclock hall => ?sound, by rw [s.tallyRead_eq], fun l hclock hl hlines hmark hdiff hothers => ?first,
    fun l hclock hl hlines hmark hdiff hothers => ?again, fun l hwaits hup => ?audit,
    fun l hseg hwaits hup hl hskew hcount => ?skew, fun l hline hwaits hup hlines hskew hleak => ?leak, fun hserves => ?snap⟩
  case sound =>
    have hpass : ∀ k ∈ List.range 4, k ≠ 4 → ∀ t, s.checkLine t k = t := fun k hk _ t => if_pos (hall k (List.mem_range.mp hk))
    rw [exec_tallyCheck_run hclock, foldl_passes hpass List.nodup_range, if_neg (by simp), State.checkCounted, s.tallyRead_eq]
    rfl
  case first =>
    refine ⟨_, exec_tallyCheck_fails hclock hl hdiff hothers, ?_⟩
    have htally := s.checkCounted.mismatch_unmarked (l := l) (s.lineDiff l) (by simpa using hmark)
    have hlines' : (s.checkCounted.mismatch l (s.lineDiff l)).tally.lines = modAt s.tally.lines l (·.marked (s.lineDiff l)) := by
      simp [htally]
    have hsame := State.lineOf_modAt hlines' (hlines ▸ hl)
    refine ⟨by rw [hsame]; rfl, by rw [hsame]; rfl, by rw [hsame]; rfl, by simp [htally], by simp [htally],
      fun k hk => State.lineOf_modAt_other hlines' hk, ?_⟩
    simp [State.checkCounted]
  case again =>
    refine ⟨_, exec_tallyCheck_fails hclock hl hdiff hothers, ?_⟩
    rw [State.mismatch_marked _ (by simpa using hmark)]
    have hlines' : (s.checkCounted.onTally fun t => { t with lines := modAt t.lines l Line4.failedAgain }).tally.lines
        = modAt s.tally.lines l Line4.failedAgain := by simp
    have hsame := State.lineOf_modAt hlines' (hlines ▸ hl)
    exact ⟨by rw [hsame]; rfl, by rw [hsame]; rfl, by simp, by simp [State.checkCounted], by simp [State.checkCounted]⟩
  case audit => exact ⟨_, exec_tallyAudit_ends hwaits hup, by simp, by simp⟩
  case skew =>
    refine ⟨_, exec_tallyAudit_ends hwaits hup, ?_⟩
    have hfound := s.tallyRead.auditLine_skew hseg (by simpa using hskew) (by simpa using hcount)
    have hlines' : (s.tallyRead.audited l).tally.lines = modAt s.tally.lines l fun x => { x with skew := 0 } := by simp [hfound]
    exact ⟨by simp [hfound], by rw [State.lineOf_modAt hlines' hl]⟩
  case leak =>
    refine ⟨_, exec_tallyAudit_ends hwaits hup, ?_⟩
    have hfound := s.tallyRead.auditLine_leak hline (by simpa using hskew) (by simpa only [State.lineOf_tallyRead, State.walk_tallyRead] using hleak)
    simp only [State.lineOf_tallyRead, State.walk_tallyRead] at hfound
    have hlines' : (s.tallyRead.audited l).tally.lines = modAt s.tally.lines l fun x =>
        { x with returned := x.returned + ((s.lineOf l).issued - (s.lineOf l).returned - BitVec.ofNat 64 (s.walk l)) } := by simp [hfound]
    refine ⟨by simp [hfound], ?_⟩
    rw [State.lineOf_modAt hlines' (by omega)]
    dsimp only
    bv_omega
  case snap =>
    refine ⟨_, congrArg Host.Outcome.next (State.bar0Write_serves hserves _), ?_⟩
    rw [if_neg (by simp [hserves.1])]
    simp [State.tallySnap]

/-! # The interrupt controllers (O52)

The search for the best candidate keeps, source by source, the best of those that it has seen. Neither the lines of a controller nor
the other controller depends on what a row writes, so that every row is what it does to its own controller. -/

namespace Sys2Proof.Machine

open Sys2Proof.Safety

/-! ## The best candidate (R467) -/

/-- One step of the search: a candidate is taken when it is above the one taken so far. -/
def Ic.better (ic : Ic) (b : Option Nat) (i : Nat) : Option Nat :=
  if ic.candidate i && (match b with
    | none => true
    | some j => ic.prioOf j < ic.prioOf i) then some i else b

/-- What was found is the best of the sources below `n`: the highest priority, ties to the lower source. -/
def Ic.BestBelow (ic : Ic) (n : Nat) : Option Nat → Prop
  | none => ∀ j, j < n → ic.candidate j = false
  | some i => ic.candidate i ∧ i < n ∧ ∀ j, j < n → ic.candidate j → ic.prioOf j ≤ ic.prioOf i ∧ (ic.prioOf j = ic.prioOf i → i ≤ j)

theorem Ic.better_bestBelow {ic : Ic} {n : Nat} {b : Option Nat} (h : ic.BestBelow n b) : ic.BestBelow (n + 1) (ic.better b n) := by
  by_cases hn : ic.candidate n
  case neg =>
    have hkeep : ic.better b n = b := by simp [Ic.better, hn]
    rw [hkeep]
    cases b with
    | none => exact fun j hj => if hjn : j = n then by simpa [hjn] using hn else h j (by omega)
    | some i =>
      obtain ⟨hi, hin, hbest⟩ := h
      exact ⟨hi, by omega, fun j hj hc => hbest j (by have : j ≠ n := fun he => hn (he ▸ hc); omega) hc⟩
  case pos =>
    cases b with
    | none =>
      rw [Ic.better, if_pos (by simp [hn])]
      refine ⟨hn, by omega, fun j hj hc => ?_⟩
      have hjn : j = n := by
        by_contra hne
        simp [h j (by omega)] at hc
      simp [hjn]
    | some i =>
      obtain ⟨hi, hin, hbest⟩ := h
      by_cases habove : ic.prioOf i < ic.prioOf n
      · rw [Ic.better, if_pos (by simp [hn, habove])]
        refine ⟨hn, by omega, fun j hj hc => ?_⟩
        by_cases hjn : j = n
        · simp [hjn]
        · have := (hbest j (by omega) hc).1
          omega
      · rw [Ic.better, if_neg (by simp [habove])]
        refine ⟨hi, by omega, fun j hj hc => ?_⟩
        by_cases hjn : j = n
        · subst hjn
          omega
        · exact hbest j (by omega) hc

theorem Ic.best_bestBelow (ic : Ic) : ic.BestBelow 256 ic.best := by
  have hsearch : ∀ n, ic.BestBelow n ((List.range n).foldl ic.better none) := fun n => by
    induction n with
    | zero => exact fun j hj => absurd hj (by omega)
    | succ n ih =>
      rw [List.range_succ, List.foldl_append]
      exact Ic.better_bestBelow ih
  exact hsearch 256

/-! ## One controller at a time -/

@[simp] theorem State.icOf_modIc (s : State) (inst : IcInst) (f : Ic → Ic) : (s.modIc inst f).icOf inst = f (s.icOf inst) := by
  cases inst <;> rfl

@[simp] theorem State.icOf_emit (s : State) (inst : IcInst) (o : Out) : (s.emit o).icOf inst = s.icOf inst := by
  cases inst <;> rfl

@[simp] theorem State.modIc_out (s : State) (inst : IcInst) (f : Ic → Ic) : (s.modIc inst f).out = s.out := by
  cases inst <;> rfl

/-- The lines of a controller follow from the causes in the state, not from the controllers. -/
@[simp] theorem State.lines_modIc (s : State) (inst : IcInst) (f : Ic → Ic) : (s.modIc inst f).lines inst = s.lines inst := by
  cases inst <;> rfl

@[simp] theorem State.lines_emit (s : State) (inst : IcInst) (o : Out) : (s.emit o).lines inst = s.lines inst := by
  cases inst <;> rfl

@[simp] theorem State.icOf_relatch (s : State) (inst : IcInst) :
    (s.relatch inst).icOf inst = { s.icOf inst with pend := (s.icOf inst).pend ||| s.lines inst } := s.icOf_modIc inst _

@[simp] theorem State.relatch_out (s : State) (inst : IcInst) : (s.relatch inst).out = s.out := s.modIc_out inst _

/-! ## Acknowledgement and end (R467) -/

theorem Ic.ack_some {ic : Ic} {i : Nat} (h : ic.best = some i) :
    ic.ack = { ic with stack := ic.run :: ic.stack, run := ic.prioOf i, pend := ic.pend &&& ~~~(1#256 <<< i) } := by
  rw [Ic.ack, h]

theorem Ic.ack_none {ic : Ic} (h : ic.best = none) : ic.ack = ic := by
  rw [Ic.ack, h]

theorem Ic.ackWord_some {ic : Ic} {i : Nat} (h : ic.best = some i) : ic.ackWord = BitVec.ofNat 64 (i + ic.prioOf i * 512) := by
  rw [Ic.ackWord, h]

theorem Ic.ackWord_none {ic : Ic} (h : ic.best = none) : ic.ackWord = 0x1FF := by
  rw [Ic.ackWord, h]

theorem Ic.eoi_cons {ic : Ic} {r : Nat} {rest : List Nat} (h : ic.stack = r :: rest) : ic.eoi = { ic with run := r, stack := rest } := by
  rw [Ic.eoi, h]

theorem Ic.eoi_nil {ic : Ic} (h : ic.stack = []) : ic.eoi = { ic with under := true } := by
  rw [Ic.eoi, h]

@[simp] theorem State.icOf_icAcked (s : State) (inst : IcInst) : (s.icAcked inst).icOf inst
    = { (s.icOf inst).ack with pend := (s.icOf inst).ack.pend ||| s.lines inst } := by
  simp [State.icAcked]

@[simp] theorem State.icAcked_out (s : State) (inst : IcInst) : (s.icAcked inst).out = s.out := by
  simp [State.icAcked]

/-! ## Counters (R468) -/

/-- Clearing `m` counters from `a` on. -/
theorem foldl_clear_getD (a m : Nat) (l : List Nat) (n : Nat) :
    ((List.range m).foldl (fun l j => modAt l (a + j) fun _ => 0) l).getD n 0 = if a ≤ n ∧ n < a + m then 0 else l.getD n 0 := by
  induction m with
  | zero => simp
  | succ m ih =>
    rw [List.range_succ, List.foldl_append, List.foldl_cons, List.foldl_nil]
    by_cases hn : n = a + m
    · subst hn
      rw [if_pos (by omega)]
      by_cases hlen : a + m < ((List.range m).foldl (fun l j => modAt l (a + j) fun _ => 0) l).length
      · exact modAt_getD_same _ _ _ _ hlen
      · exact List.getD_eq_default _ _ (by simpa using hlen)
    · rw [modAt_getD_other _ _ _ hn, ih]
      exact if_congr (by omega) rfl rfl

/-! ## The rows while the owner runs -/

section
variable {s : State} {inst : IcInst} (hup : s.icUp inst)
include hup

theorem exec_icAck_owner : exec (.icAck inst true) s = .next ((s.emit (.icRead (s.icOf inst).ackWord)).icAcked inst) := by
  change execIcAck inst true s = _
  rw [execIcAck, if_neg (by simp [hup])]
  rfl

theorem exec_icAck_other : exec (.icAck inst false) s = .next (s.emit (.icRead (s.icOf inst).ackWord)) := by
  change execIcAck inst false s = _
  rw [execIcAck, if_neg (by simp [hup])]
  rfl

theorem exec_icEoi_up : exec (.icEoi inst) s = .next (s.modIc inst Ic.eoi) := by
  change execIcEoi inst s = _
  rw [execIcEoi, if_pos hup]

theorem exec_icCntRead_up {i : Nat} (owner : Bool) (hi : i < 32) : exec (.icCntRead inst i owner) s
    = .next (if owner then (s.emit (.icRead (BitVec.ofNat 64 ((s.icOf inst).cntWord inst i)))).icCounted inst i (List.range (icPer inst))
      else s.emit (.icRead (BitVec.ofNat 64 ((s.icOf inst).cntWord inst i)))) := by
  change execIcCntRead inst i owner s = _
  rw [execIcCntRead, if_neg (by simp [hup, hi])]

end

end Sys2Proof.Machine

open Sys2Proof.Machine Sys2Proof.Safety in
/-- Settles O52: the best candidate by the search over the sources (`Ic.best_bestBelow`), and every row by what it does to its own
controller. -/
theorem interruptControllers : Obligations.InterruptControllers := by
  unfold Obligations.InterruptControllers
  refine ⟨fun ic i hbest => ?some, fun ic hbest => ?none, fun s inst hup => ⟨fun i hbest => ?ack, fun hbest => ?spurious,
    exec_icAck_other hup, fun r rest hstack => ⟨_, exec_icEoi_up hup, ?eoi⟩, fun hstack => ⟨_, exec_icEoi_up hup, ?under⟩,
    fun i val => ⟨_, congrArg Host.Outcome.next (if_pos hup), ?pendSet⟩,
    fun i val => ⟨_, congrArg Host.Outcome.next (if_pos hup), ?pendClr⟩,
    fun i val => ⟨_, congrArg Host.Outcome.next (if_pos hup), ?maskSet⟩,
    fun i val => ⟨_, congrArg Host.Outcome.next (if_pos hup), ?maskClr⟩,
    fun i owner hi hcnt => ⟨_, exec_icCntRead_up hup owner hi, ?count⟩⟩⟩
  case some => simpa only [hbest, Ic.BestBelow] using ic.best_bestBelow
  case none => simpa only [hbest, Ic.BestBelow] using ic.best_bestBelow
  case ack => exact ⟨_, exec_icAck_owner hup, by simp [Ic.ack_some hbest, Ic.ackWord_some hbest]⟩
  case spurious => exact ⟨_, exec_icAck_owner hup, by simp [Ic.ack_none hbest, Ic.ackWord_none hbest]⟩
  case eoi => simp [Ic.eoi_cons hstack]
  case under => simp [Ic.eoi_nil hstack]
  case pendSet => simp
  case pendClr => simp
  case maskSet => simp
  case maskClr => simp
  case count =>
    cases owner with
    | false => simp
    | true =>
      refine ⟨fun j _ => ?_, by simp [State.icCounted]⟩
      simp only [if_true, State.icCounted, State.icOf_modIc, State.icOf_emit, foldl_clear_getD, Bool.true_and, Bool.and_eq_true,
        decide_eq_true_eq]

/-! # Nightwatch (O53)

A restart of Obulo keeps the subchannels and Sirax and arms the timers that it starts with; the rows of a cluster change that cluster
alone; the awake set is computed by what it does to each cluster in turn. -/

namespace Sys2Proof.Machine

open Sys2Proof.Safety

/-! ## One cluster -/

theorem State.cluOf_modClu {s : State} {k : Nat} (f : Cluster → Cluster) (h : k < s.pw.clusters.length) :
    (s.modClu k f).cluOf k = f (s.cluOf k) := modAt_getD_same _ _ _ _ h

/-- A cluster that is not off is one of the clusters. -/
theorem State.cluOf_present {s : State} {k : Nat} (h : s.cluOf k ≠ Cluster.off) : k < s.pw.clusters.length := by
  by_contra hk
  exact h (List.getD_eq_default _ _ (by omega))

theorem State.waking_present {s : State} {k : Nat} (h : (s.cluOf k).waking) : k < s.pw.clusters.length :=
  s.cluOf_present fun hoff => by simp [hoff, Cluster.off] at h

@[simp] theorem State.cluOf_onPw {s : State} {f : Power → Power} (k : Nat) (h : (f s.pw).clusters = s.pw.clusters) :
    (s.onPw f).cluOf k = s.cluOf k := by
  rw [State.cluOf, State.onPw_pw, h]
  rfl

theorem Cluster.rests_st (c : Cluster) (st : CluSt) : (c.rests st).st = st := by
  unfold Cluster.rests
  split
  · next h => exact h.symm
  · rfl

/-- A cluster that rests is in the state that it takes. -/
theorem State.rest_st {s : State} {k : Nat} (st : CluSt) (h : k < s.pw.clusters.length) : ((s.rest k st).cluOf k).st = st := by
  have hrests : ((s.modClu k fun c => c.rests st).cluOf k).st = st := by
    rw [State.cluOf_modClu _ h, Cluster.rests_st]
  unfold State.rest
  dsimp only
  split
  · exact hrests
  · exact hrests

/-! ## A restart of Obulo (R465, R472, R497) -/

theorem State.chanIdle_tally {s : State} (hrd : s.dma.sRd = none) (hwr : s.dma.sWr = none) : s.chanIdle.tally = s.tally := by
  have hrdClose : s.chanClose true = s := by simp [State.chanClose, hrd]
  have hwrClose : s.chanClose false = s := by simp [State.chanClose, hwr]
  unfold State.chanIdle
  rw [hrdClose, hwrClose]
  dsimp only
  split <;> simp

/-- The channels to Obulo are cleared: the first part of what a restart clears. -/
def State.obuloAborts (s : State) : State := ([Chan.hostSup, .plnSup] ++ (List.range 16).map Chan.cluSup).foldl (fun t c => t.mbAbort c) s

@[simp] theorem State.obuloAborts_keeps (s : State) :
    s.obuloAborts.sub = s.sub ∧ s.obuloAborts.tally = s.tally ∧ s.obuloAborts.pw = s.pw ∧ s.obuloAborts.dma = s.dma :=
  ⟨foldl_keeps (·.sub) _ (fun t c => by simp) _ s, foldl_keeps (·.tally) _ (fun t c => by simp) _ s,
    foldl_keeps (·.pw) _ (fun t c => by simp) _ s, foldl_keeps (·.dma) _ (fun t c => by simp) _ s⟩

/-- The timers that ran are gone, and the channels S are free. -/
def State.obuloStops (s : State) : State := (s.obuloAborts.onPw fun p => { p with timers := [], wdogDue := none }).chanIdle

theorem State.obuloClears_eq (s : State) : ∃ f g, s.obuloClears = (s.obuloStops.onDev f).onIc g := by
  unfold State.obuloClears State.obuloStops State.obuloAborts
  exact ⟨_, _, rfl⟩

@[simp] theorem State.obuloClears_keeps (s : State) :
    s.obuloClears.sub = s.sub ∧ s.obuloClears.pw = { s.pw with timers := [], wdogDue := none } := by
  obtain ⟨f, g, h⟩ := s.obuloClears_eq
  simp [h, State.obuloStops]

theorem State.obuloClears_tally {s : State} (hrd : s.dma.sRd = none) (hwr : s.dma.sWr = none) : s.obuloClears.tally = s.tally := by
  obtain ⟨f, g, h⟩ := s.obuloClears_eq
  rw [h, State.onIc_tally, State.onDev_tally, State.obuloStops, State.chanIdle_tally (by simp [hrd]) (by simp [hwr])]
  simp

@[simp] theorem State.obuloRestart_sub (s : State) : s.obuloRestart.sub = s.sub := by
  simp [State.obuloRestart]

/-- The timers that Obulo starts with follow from the time and the free choices alone. -/
theorem startTimers_congr {s t : State} (hfresh : s.fresh = t.fresh) (htime : s.time = t.time) : startTimers s = startTimers t := by
  unfold startTimers
  rw [hfresh, htime]

@[simp] theorem State.armTimers_pw (s : State) : s.armTimers.pw = { s.pw with timers := startTimers s } := rfl

/-- A restart without the timers that it arms at its end. -/
def State.obuloNotices (s : State) : State :=
  (s.obuloClears.onMail fun m => { m with
    notices := noticeWord 2 s.obuloClears.tally.supRestart :: m.notices.filter fun x => noticeType x = 1 }).pumpNotices

theorem State.obuloRestart_eq (s : State) : s.obuloRestart = s.obuloNotices.armTimers := rfl

@[simp] theorem State.obuloNotices_keeps (s : State) : s.obuloNotices.fresh = s.fresh ∧ s.obuloNotices.time = s.time ∧
    s.obuloNotices.pw = { s.pw with timers := [], wdogDue := none } := by
  simp [State.obuloNotices]

/-- A restart arms the timers that Obulo starts with, and disarms the watchdog. -/
@[simp] theorem State.obuloRestart_pw (s : State) : s.obuloRestart.pw = { s.pw with timers := startTimers s, wdogDue := none } := by
  obtain ⟨hfresh, htime, hpw⟩ := s.obuloNotices_keeps
  rw [s.obuloRestart_eq, State.armTimers_pw, startTimers_congr hfresh htime, hpw]

theorem State.obuloRestart_tally {s : State} (hrd : s.dma.sRd = none) (hwr : s.dma.sWr = none) : s.obuloRestart.tally = s.tally := by
  simp [State.obuloRestart, State.obuloClears_tally hrd hwr]

/-! ## Supervisor timers and the watchdog (R479, R481) -/

/-- The watchdog has expired: it is counted, Obulo restarts, and a record is written. -/
def State.watchdogBites (s : State) (due : Time) : State :=
  (((s.late due).onPw fun p => { p with wdog := inc16 p.wdog }).obuloRestart).event 6 10 9 0 0 0 0

theorem exec_watchdogExpiry_due {s : State} {due : Time} (hset : s.pw.wdogDue = some due) (hdue : reached s.time due) (hup : s.pw.supUp) :
    exec .watchdogExpiry s = .next (s.watchdogBites due) := by
  change execWatchdogExpiry s = _
  rw [execWatchdogExpiry, hset]
  exact congrArg Host.Outcome.next (if_neg (by simp [hdue, hup]))

theorem exec_watchdogExpiry_early {s : State} {due : Time} (hset : s.pw.wdogDue = some due) (hearly : reached s.time due = false) :
    exec .watchdogExpiry s = .next s := by
  change execWatchdogExpiry s = _
  simp [execWatchdogExpiry, hset, hearly]

theorem State.watchdogBites_keeps (s : State) (due : Time) :
    (s.watchdogBites due).pw.wdog = inc16 s.pw.wdog ∧ (s.watchdogBites due).pw.wdogDue = none ∧
    (s.watchdogBites due).pw.timers = startTimers s ∧ (s.watchdogBites due).sub = s.sub ∧ (s.watchdogBites due).sx = s.sx := by
  have hpw : (s.watchdogBites due).pw = { ((s.late due).onPw fun p => { p with wdog := inc16 p.wdog }).pw with
      timers := startTimers s, wdogDue := none } := by
    rw [State.watchdogBites, (State.event_frame _ _ _ _ _ _ _ _).2.2.2.2.2.2.1, State.obuloRestart_pw,
      startTimers_congr (t := s) (by simp) (by simp)]
  exact ⟨by rw [hpw]; rfl, by rw [hpw], by rw [hpw], by simp [State.watchdogBites], by simp [State.watchdogBites]⟩

theorem State.watchdogBites_tally {s : State} (due : Time) (hrd : s.dma.sRd = none) (hwr : s.dma.sWr = none) :
    (s.watchdogBites due).tally = s.tally := by
  rw [State.watchdogBites, State.event_tally, State.obuloRestart_tally (by simp [hrd]) (by simp [hwr])]
  simp

theorem exec_supervisorTimerExpiry_due {s : State} {n : Nat} {due : Time} (hup : s.pw.supUp) (hn : n < 64)
    (hset : AMap.get? s.pw.timers n = some due) (hdue : s.supTimer n due) :
    exec (.supervisorTimerExpiry n) s = .next (((s.late due).rearm n).irq (128 + n)) := by
  change execSupervisorTimerExpiry n s = _
  simp only [execSupervisorTimerExpiry, hset]
  rw [if_neg (by simp [hup, hn, hdue])]

/-! ## Rest (R485) -/

section
variable {s : State} {k : Nat} (hidle : s.cluIdle k) (hasleep : (s.cluOf k).waking = false) (hlive : s.tally.fenced.getLsbD k = false)
  (hup : s.pw.supUp)
include hidle hasleep hlive hup

theorem exec_clusterIdle_awake (hawake : (s.cluOf k).awake) :
    exec (.clusterIdle k) s = .next (if (s.cluOf k).st = .run then s.rest k .nap else s) := by
  change execClusterIdle k s = _
  simp [execClusterIdle, hidle, hasleep, hlive, hup, hawake]

theorem exec_clusterIdle_outside (hawake : (s.cluOf k).awake = false) :
    exec (.clusterIdle k) s = .next (if (s.cluOf k).st.depth < (restState s.nextWheel s.pw.maxState).depth
      then s.rest k (restState s.nextWheel s.pw.maxState) else s) := by
  change execClusterIdle k s = _
  simp [execClusterIdle, hidle, hasleep, hlive, hup, hawake]

end

theorem CluSt.depth_pos {st : CluSt} (h : st ≠ .run) : 0 < st.depth := by
  cases st with
  | run => exact absurd rfl h
  | nap => decide
  | doze => decide
  | sleep => decide

theorem restState_emptyWheel (m : Nat) : restState none m = (if 3 ≤ m then .sleep else if m = 2 then .doze else .nap) := by
  by_cases h3 : 3 ≤ m
  · simp [restState, h3]
  · by_cases h2 : 2 ≤ m
    · simp [restState, show m = 2 by omega]
    · simp [restState, h3, h2, show m ≠ 2 by omega]

theorem restState_sleep (n m : Nat) : restState (some n) m = .sleep ↔ 3 ≤ m ∧ 140000 ≤ n := by
  unfold restState
  dsimp only
  (repeat' split) <;> simp_all

theorem restState_run (n m : Nat) : restState (some n) m = .run ↔ n < 50 := by
  unfold restState
  dsimp only
  (repeat' split) <;> simp_all <;> omega

/-! ## Wakes (R482, R483, R486) -/

/-- A cluster that a demand wakes is in DOZE or SLEEP and does not wake yet. -/
theorem State.wakeNext_rests {s : State} {k : Nat} (h : s.wakeNext = some k) :
    (s.cluOf k).waking = false ∧ ((s.cluOf k).st = .doze ∨ (s.cluOf k).st = .sleep) := by
  have hpicked : k ∈ (List.range 16).filter fun k => !(s.cluOf k).awake && !(s.cluOf k).waking && !s.tally.fenced.getLsbD k
      && ((s.cluOf k).st = .doze || (s.cluOf k).st = .sleep) := by
    unfold State.wakeNext at h
    dsimp only at h
    split at h
    · next j hfind =>
      cases h
      exact List.mem_of_find?_eq_some hfind
    · exact List.mem_of_head? h
  simp only [List.mem_filter, Bool.and_eq_true, Bool.not_eq_true', Bool.or_eq_true, decide_eq_true_eq] at hpicked
  obtain ⟨_, ⟨⟨_, hwaking⟩, _⟩, hst⟩ := hpicked
  exact ⟨hwaking, hst⟩

theorem State.wake_waking {s : State} {k : Nat} (hasleep : (s.cluOf k).waking = false)
    (hst : (s.cluOf k).st = .doze ∨ (s.cluOf k).st = .sleep) (hk : k < s.pw.clusters.length) : ((s.wake k).cluOf k).waking = true := by
  have hwakes : ((s.modClu k fun c => { c with waking := true }).cluOf k).waking = true := by rw [State.cluOf_modClu _ hk]
  obtain hst | hst := hst
  · simpa [State.wake, hasleep, hst] using hwakes
  · simpa [State.wake, hasleep, hst] using hwakes

@[simp] theorem State.wake_pw (s : State) (k : Nat) :
    (s.wake k).pw.demandWakes = s.pw.demandWakes ∧ (s.wake k).pw.maxState = s.pw.maxState ∧ (s.wake k).pw.awakeN = s.pw.awakeN ∧
    (s.wake k).pw.timers = s.pw.timers := by
  unfold State.wake
  dsimp only
  split
  · simp
  · rw [State.onPw_pw]
    split <;> exact ⟨rfl, rfl, rfl, rfl⟩

theorem ceilDiv_pos {a b : Nat} (ha : 0 < a) (hb : 0 < b) : 0 < ceilDiv a b := by
  rw [ceilDiv, if_neg (by omega)]
  exact Nat.div_pos (by omega) hb

theorem exec_clusterWake_first {s : State} {k : Nat} (hbusy : s.noThreadFree) (hup : s.pw.supUp) (hnext : s.wakeNext = some k)
    (hwaits : s.dispatchQueue ≠ []) (hnone : countBelow 16 (fun i => (s.cluOf i).waking && !(s.cluOf i).awake) = 0) :
    exec (.clusterWake k) s = .next ((s.wake k).onPw fun p => { p with demandWakes := inc16 p.demandWakes }) := by
  have hneed : 0 < ceilDiv s.dispatchQueue.length 256 := ceilDiv_pos (List.length_pos_iff.mpr hwaits) (by decide)
  change execClusterWake k s = _
  simp only [execClusterWake, hnone, hneed, hbusy, hup, hnext, decide_true, Bool.and_self, if_true]

theorem exec_clusterWakeDone_done {s : State} {k : Nat} (hwakes : (s.cluOf k).waking) (hsupply : s.pw.raising = false) :
    exec (.clusterWakeDone k) s = .next (s.modClu k Cluster.woken) := by
  change execClusterWakeDone k s = _
  rw [execClusterWakeDone, if_pos (by simp [hwakes, hsupply])]

theorem exec_clusterWakeDone_raising {s : State} {k : Nat} (hsupply : s.pw.raising) : exec (.clusterWakeDone k) s = .next s := by
  change execClusterWakeDone k s = _
  rw [execClusterWakeDone, if_neg (by simp [hsupply])]

theorem Cluster.woken_runs (c : Cluster) : c.woken.st = .run ∧ c.woken.waking = false
    ∧ (c.st = .sleep → c.woken.table = true ∧ c.woken.pad = true ∧ c.woken.cache = [])
    ∧ (c.st = .doze → c.woken.table = c.table ∧ c.woken.pad = c.pad ∧ c.woken.cache = c.cache) := by
  unfold Cluster.woken
  split
  · next h => simp [h]
  · next h => simp [h]

/-! ## MAXSTATE and the awake set (R484, R498) -/

theorem State.recomputeAwake_pw (s : State) :
    s.recomputeAwake.pw.maxState = s.pw.maxState ∧ s.recomputeAwake.pw.awakeN = s.nAwake ∧ s.recomputeAwake.pw.timers = s.pw.timers :=
  ⟨foldl_keeps (·.pw.maxState) _ (fun t k => (t.wake_pw k).2.1) _ _, foldl_keeps (·.pw.awakeN) _ (fun t k => (t.wake_pw k).2.2.1) _ _,
    foldl_keeps (·.pw.timers) _ (fun t k => (t.wake_pw k).2.2.2) _ _⟩

theorem State.setMaxState_pw (s : State) (v : Word) :
    (s.setMaxState v).pw.maxState = max 1 (v.toNat % 4) ∧ (s.setMaxState v).pw.awakeN = s.nAwake ∧
    (s.setMaxState v).pw.timers = s.pw.timers := by
  obtain ⟨hmax, hn, htimers⟩ := (s.onPw fun p => { p with maxState := max 1 (bits v.toNat 0 2) }).recomputeAwake_pw
  exact ⟨hmax.trans (by simp [bits]), hn, htimers⟩

theorem exec_maxstateWrite_serves {s : State} (v : Word) (h : Serves s) : exec (.maxstateWrite v) s = .next (s.setMaxState v) := by
  change execMaxstateWrite v s = _
  rw [execMaxstateWrite, State.bar0Write_serves h, if_neg (by simp [h.1])]

/-! ## The core supply (R489, R518) -/

theorem exec_vcoreStep_in {s : State} {mv : Nat} {up : Bool} (acked : Bool) (hup : s.pw.released) (htry : s.pw.vcoreTry = none)
    (hdue : reached s.time s.pw.vcoreDue) (hmv : mv = if up then s.pw.vcore + 5 else s.pw.vcore - 5) (hlow : 700 ≤ mv) (hhigh : mv ≤ 800) :
    exec (.vcoreStep up acked) s = .next (s.avsWrite mv acked) := by
  subst hmv
  change execVcoreStep up acked s = _
  rw [execVcoreStep]
  dsimp only
  rw [if_neg (by simp only [hup, htry, hdue]; simp; omega)]

theorem exec_vcoreStep_top {s : State} (acked : Bool) (htop : s.pw.vcore = 800) : exec (.vcoreStep true acked) s = .next s := by
  change execVcoreStep true acked s = _
  simp [execVcoreStep, htop]

theorem exec_avsRetry_due {s : State} {mv : Nat} (acked : Bool) (htry : s.pw.vcoreTry = some mv) (hdue : reached s.time s.pw.vcoreDue) :
    exec (.avsRetry acked) s = .next (s.avsWrite mv acked) := by
  change execAvsRetry acked s = _
  simp only [execAvsRetry, htry, hdue, if_true]

end Sys2Proof.Machine

open Sys2Proof.Machine Sys2Proof.Safety in
/-- Settles O53: each row is the branch that its premises choose; a restart of Obulo is `State.obuloRestart_pw` and what it keeps, the
choice of a rest state is `restState`, and MAXSTATE passes through `State.recomputeAwake_pw`. -/
theorem nightwatch : Obligations.Nightwatch := by
  unfold Obligations.Nightwatch
  intro s k
  refine ⟨fun hup => ⟨fun n due hn hset hdue => exec_supervisorTimerExpiry_due hup hn hset hdue, congrArg Host.Outcome.next (if_pos hup),
      fun due hset hdue => ⟨_, exec_watchdogExpiry_due hset hdue hup, ?watchdog⟩, fun due => exec_watchdogExpiry_early⟩,
    fun hk hidle hasleep hlive hup => ⟨fun hawake hrun => ⟨_, exec_clusterIdle_awake hidle hasleep hlive hup hawake, ?nap⟩,
      fun hawake hrests => ?rests, fun hawake hrun => ⟨_, exec_clusterIdle_outside hidle hasleep hlive hup hawake, ?deep⟩⟩,
    fun m => ⟨restState_emptyWheel m, fun n => restState_sleep n m, fun n => restState_run n m⟩,
    fun hbusy hup hnext hwaits hnone hk => ⟨_, exec_clusterWake_first hbusy hup hnext hwaits hnone, ?wake⟩,
    fun hwakes hsupply => ⟨_, exec_clusterWakeDone_done hwakes hsupply, ?woken⟩, exec_clusterWakeDone_raising,
    fun v hserves => ⟨_, exec_maxstateWrite_serves v hserves, s.setMaxState_pw v⟩,
    fun hup htry hdue => ⟨fun hhigh hlow => ⟨_, exec_vcoreStep_in true hup htry hdue rfl hlow hhigh, ?up⟩,
      fun hlow hhigh => ⟨_, exec_vcoreStep_in (up := false) false hup htry hdue rfl (Nat.le_sub_of_add_le hlow)
        (Nat.sub_le_of_le_add hhigh), ?down⟩,
      exec_vcoreStep_top true⟩,
    fun mv htry hdue => ⟨_, exec_avsRetry_due true htry hdue, ?retry⟩⟩
  case watchdog =>
    obtain ⟨hwdog, hdone, htimers, hsub, hsx⟩ := s.watchdogBites_keeps due
    exact ⟨hwdog, hdone, htimers, hsub, hsx, fun hrd hwr => State.watchdogBites_tally due hrd hwr⟩
  case nap =>
    rw [if_pos hrun]
    exact State.rest_st _ hk
  case rests => rw [exec_clusterIdle_awake hidle hasleep hlive hup hawake, if_neg hrests]
  case deep =>
    split
    · exact State.rest_st _ hk
    · next hshallow =>
      have hstays : restState s.nextWheel s.pw.maxState = .run := by
        by_contra hdeeper
        exact hshallow (hrun ▸ CluSt.depth_pos hdeeper)
      rw [hrun, hstays]
  case wake =>
    obtain ⟨hasleep, hst⟩ := State.wakeNext_rests hnext
    exact ⟨State.wake_waking hasleep hst hk, congrArg inc16 (s.wake_pw k).1⟩
  case woken =>
    have hwoken := State.cluOf_modClu Cluster.woken (State.waking_present hwakes)
    simpa only [hwoken] using (s.cluOf k).woken_runs
  case up => simp [State.avsWrite]
  case down => simp [State.avsWrite]
  case retry => simp [State.avsWrite]

/-! # Power-on, warm resets, references, rails, the crystal, the thermal trip and JTAG (O54)

Every cause of a warm reset ends in the same `State.warmReset` of a state that differs in its power block alone; the references of the
ports write the lock of each quad of their half. -/

namespace Sys2Proof.Machine

open Sys2Proof.Safety

/-! ## Warm resets (R494 to R497) -/

/-- What a warm reset leaves: every block that it resets, and what survives it. -/
def State.WarmlyReset (s t : State) (last : Nat) : Prop :=
  t.pw.held = true ∧ t.pw.bootDue = true ∧ t.pw.last = last ∧ t.pw.warm = inc16 s.pw.warm ∧ t.link = Link.reset ∧ t.q = Queues.reset
  ∧ t.sub = Subch.reset ∧ t.sx = Sirax.reset ∧ t.tally = { Tally.reset with fencedBefore := s.tally.fencedBefore } ∧ t.dev.exch = []
  ∧ t.dma = Dma.reset ∧ t.md = Meridian.reset ∧ t.mail = Mail.reset ∧ t.ic = Ic.reset ∧ t.icPl = Ic.reset
  ∧ t.pl.alm = s.pl.alm ∧ t.pl.tamper = s.pl.tamper ∧ t.pw.fallback = s.pw.fallback ∧ t.time = s.time

/-- The cause changes the power block alone; it then resets the chip. -/
theorem State.warmReset_resets {s : State} {f : Power → Power} (last : Nat) (hold : Option Time) (hup : (f s.pw).released)
    (hcool : (f s.pw).trip = false) (hfree : (f s.pw).held = false) (hcause : (f s.pw).cause) (hwarm : (f s.pw).warm = s.pw.warm)
    (hfallback : (f s.pw).fallback = s.pw.fallback) : s.WarmlyReset ((s.onPw f).warmReset last hold) last := by
  have hresets : (s.onPw f).warmReset last hold = (s.onPw f).holdDown.onPw fun p => { p with
      held := p.cause, holdDue := hold, bootDue := true, last := last, warm := inc16 p.warm, perstWas := p.perstLow } := by
    simp [State.warmReset, hup, hcool, hfree]
  rw [hresets]
  exact ⟨hcause, rfl, rfl, congrArg inc16 hwarm, rfl, rfl, rfl, rfl, rfl, rfl, rfl, rfl, rfl, rfl, rfl, rfl, rfl, hfallback, by
    simp [State.holdDown]⟩

section
variable {s : State} (hup : s.pw.released) (hcool : s.pw.trip = false) (hfree : s.pw.held = false)
include hup hcool hfree

theorem leads_perstNWarmReset (hhigh : s.pw.perstLow = false) : Leads .perstNWarmReset s fun t => s.WarmlyReset t 2 := by
  refine ⟨_, congrArg Host.Outcome.next (if_neg (by simp [hhigh])), ?_⟩
  exact State.warmReset_resets _ _ hup hcool hfree (by simp [Power.cause]) rfl rfl

theorem leads_hostReferenceLoss (hclock : s.pw.hrefOk) : Leads .hostReferenceLoss s fun t => s.WarmlyReset t 4 := by
  refine ⟨_, congrArg Host.Outcome.next (if_pos hclock), ?_⟩
  exact State.warmReset_resets _ _ hup hcool hfree (by simp [Power.cause]) rfl rfl

theorem leads_pwrokFall (hok : s.pw.pwrok) : Leads .pwrokFall s fun t => s.WarmlyReset t 5 := by
  refine ⟨_, congrArg Host.Outcome.next (if_pos hok), ?_⟩
  exact State.warmReset_resets _ _ hup hcool hfree (by simp [Power.cause]) rfl rfl

theorem leads_railOutOfRange {r : Rail} {above : Bool} (haon : r ≠ .vaon) (hio : r ≠ .vioAon) (hin : r ∉ s.pw.railsBad)
    (hsb : r = .vsb33 → above ∨ ∀ q ∈ s.dev.quads, q.cfg.mode = 0) : Leads (.railOutOfRange ⟨r, above⟩) s fun t => s.WarmlyReset t 5 := by
  have hsideband : ¬(r = .vsb33 ∧ above = false ∧ ∃ q ∈ s.dev.quads, q.cfg.mode ≠ 0) := fun ⟨hr, habove, q, hq, hmode⟩ => by
    obtain h | h := hsb hr
    · simp [habove] at h
    · exact hmode (h q hq)
  refine ⟨_, congrArg Host.Outcome.next ((if_neg (by simpa using hin)).trans
    ((if_neg (by simp [Rail.alwaysOn, haon, hio])).trans (if_neg (by simpa using hsideband)))), ?_⟩
  exact State.warmReset_resets _ _ hup hcool hfree (by simp [Power.cause]) rfl rfl

end

theorem leads_thermalTrip {s : State} (hcool : s.pw.trip = false) (haon : s.pw.aon) : Leads .thermalTrip s fun t =>
    t.pw.trip = true ∧ t.pw.held = true ∧ t.link = Link.reset ∧ t.q = Queues.reset ∧ ∃ o, t.out = s.out ++ o ++ [.thermtrip] := by
  refine ⟨_, congrArg Host.Outcome.next (if_neg (by simp [hcool, haon])), rfl, rfl, rfl, rfl,
    if s.pw.extest then [] else s.perstPins ++ s.flowPins, ?_⟩
  cases hext : s.pw.extest <;> simp [State.holdDown, State.drive, State.emits, hext]

/-! ## The end of a cause, power-on and the rails (R491 to R495, R520) -/

theorem leads_railReturn {s : State} {r : Rail} (hbad : s.pw.railsBad = [r]) (haon : r ≠ .vaon) (hio : r ≠ .vioAon) (hup : s.pw.released) :
    Leads (.railReturn r) s fun t => t.pw.railsBad = [] ∧ t.time = s.time := by
  refine ⟨_, congrArg Host.Outcome.next ((if_neg (by simp [hbad])).trans
    ((if_neg (by simp [Rail.alwaysOn, haon, hio])).trans (if_pos hup))), ?_⟩
  simp [State.unhold, hbad]

theorem leads_pwrokRise {s : State} (hlow : s.pw.pwrok = false) (haon : s.pw.aon) (hheld : s.pw.released = false) (hxtal : s.pw.xtalOk)
    (hrails : s.pw.railsBad = []) (hsb : s.pw.sbLow = false) (hcool : s.pw.trip = false) : Leads .pwrokRise s fun t =>
    t.pw.released = true ∧ t.pw.bootDue = true ∧ t.pw.last = 1 ∧ t.time = 0 := by
  refine ⟨_, congrArg Host.Outcome.next ((if_neg (by simp [hlow, haon])).trans
    ((if_neg (by simp [hheld])).trans (if_neg (by simp [hheld, haon, hxtal, hrails, hsb, hcool])))), rfl, rfl, rfl, rfl⟩

/-! ## Port references (R355, R491) -/

/-- A fold whose steps leave the state as it is. -/
theorem foldl_idle {f : State → Nat → State} {s : State} (l : List Nat) (h : ∀ a, f s a = s) : l.foldl f s = s := by
  induction l with
  | nil => rfl
  | cons a l ih => rw [List.foldl_cons, h a, ih]

/-- The lock of one quad follows the reference where the quad is not OFF. -/
def lockQuad (w : BitVec 32) (q : Nat) (v : Bool) : BitVec 32 := if v then w ||| (1#32 <<< q) else w &&& ~~~(1#32 <<< q)

theorem lockQuad_getLsbD (w : BitVec 32) {q k : Nat} (v : Bool) (hk : k < 32) :
    (lockQuad w q v).getLsbD k = if k = q then v else w.getLsbD k := by
  have hbit : (1#32 <<< q).getLsbD k = decide (k = q) := by
    rw [BitVec.getLsbD_shiftLeft, BitVec.getLsbD_one]
    by_cases hlt : k < q
    · simp [hlt, show k ≠ q by omega]
    · simp [hlt, hk, show k - q = 0 ↔ k = q by omega]
  cases v with
  | false =>
    rw [lockQuad, if_neg (by simp), BitVec.getLsbD_and, BitVec.getLsbD_not, hbit]
    by_cases hkq : k = q <;> simp only [hkq, hk, decide_true, decide_false, Bool.not_true, Bool.not_false, Bool.and_true, Bool.and_false,
      if_true, if_false]
  | true =>
    rw [lockQuad, if_pos rfl, BitVec.getLsbD_or, hbit]
    by_cases hkq : k = q <;> simp only [hkq, decide_true, decide_false, Bool.or_true, Bool.or_false, if_true, if_false]

theorem foldl_lockQuad_getLsbD (g : Nat → Bool) (l : List Nat) (w : BitVec 32) {k : Nat} (hk : k < 32) :
    (l.foldl (fun w q => lockQuad w q (g q)) w).getLsbD k = if k ∈ l then g k else w.getLsbD k := by
  induction l generalizing w with
  | nil => simp
  | cons q l ih =>
    rw [List.foldl_cons, ih, lockQuad_getLsbD _ _ hk]
    by_cases hkq : k = q
    · simp [hkq]
    · simp [hkq]

/-- The lock of the half writes the power block alone. -/
theorem State.lockHalf_eq (s : State) (half v : Bool) : s.lockHalf half v = s.onPw fun p => { p with
    qlock := (halfQuads half).foldl (fun w q => lockQuad w q (v && (s.quadOf q).cfg.mode ≠ 0)) p.qlock } := by
  have hfold : ∀ (l : List Nat) (t : State), l.foldl (fun t q => t.onPw fun p => { p with
        qlock := if v && (s.quadOf q).cfg.mode ≠ 0 then p.qlock ||| (1#32 <<< q) else p.qlock &&& ~~~(1#32 <<< q) }) t
      = t.onPw fun p => { p with qlock := l.foldl (fun w q => lockQuad w q (v && (s.quadOf q).cfg.mode ≠ 0)) p.qlock } := fun l => by
    induction l with
    | nil => exact fun t => rfl
    | cons q l ih => exact fun t => ih _
  exact hfold _ s

theorem halfQuads_lt {half : Bool} {q : Nat} (h : q ∈ halfQuads half) : q < 32 := List.mem_range.mp (List.mem_filter.mp h).1

theorem State.lockHalf_qlock (s : State) {half : Bool} (v : Bool) {q : Nat} (hq : q ∈ halfQuads half) :
    (s.lockHalf half v).pw.qlock.getLsbD q = (v && (s.quadOf q).cfg.mode ≠ 0) := by
  rw [s.lockHalf_eq, State.onPw_pw]
  exact (foldl_lockQuad_getLsbD _ _ _ (halfQuads_lt hq)).trans (if_pos hq)

/-- The reference of a half is good or lost, and its locks follow. -/
def State.referenced (s : State) (half v : Bool) : State := (s.setPref half v).lockHalf half v

@[simp] theorem State.referenced_keeps (s : State) (half v : Bool) :
    (s.referenced half v).dev = s.dev ∧ (s.referenced half v).prefOk half = v := by
  rw [State.referenced, State.lockHalf_eq]
  cases half <;> exact ⟨rfl, rfl⟩

theorem State.referenced_qlock (s : State) {half : Bool} (v : Bool) {q : Nat} (hq : q ∈ halfQuads half) :
    (s.referenced half v).pw.qlock.getLsbD q = (v && (s.quadOf q).cfg.mode ≠ 0) := (s.setPref half v).lockHalf_qlock v hq

theorem State.portOf_dev {s t : State} (h : t.dev = s.dev) (q p : Nat) : t.portOf q p = s.portOf q p := by
  unfold State.portOf State.quadOf
  rw [h]

/-- No port of the chip is up or training: the loss of a reference takes the locks of its half alone. -/
theorem exec_portReferenceLoss_quiet {s : State} {half : Bool} (hok : s.prefOk half)
    (hquiet : ∀ q p, (s.portOf q p).st ≠ 1 ∧ (s.portOf q p).st ≠ 2) :
    exec (.portReferenceLoss half) s = .next (s.referenced half false) := by
  change execPortReferenceLoss half s = _
  rw [execPortReferenceLoss, if_neg (by simp [hok])]
  refine congrArg Host.Outcome.next (foldl_idle _ fun q => foldl_idle _ fun p => ?_)
  have hport := State.portOf_dev (s.referenced_keeps half false).1 q p
  obtain ⟨hdown, hidle⟩ := hquiet q p
  rw [← hport] at hdown hidle
  exact (if_neg hidle).trans (if_neg hdown)

/-- The ports that may train do so; the power block keeps what the reference has written. -/
theorem exec_portReferenceReturn_absent {s : State} {half : Bool} (hlost : s.prefOk half = false) :
    ∃ t, exec (.portReferenceReturn half) s = .next t ∧ t.pw = (s.referenced half true).pw := by
  refine ⟨_, congrArg Host.Outcome.next (if_neg (by simp [hlost])), ?_⟩
  refine foldl_keeps (·.pw) _ (fun t q => ?_) _ _
  refine foldl_keeps (·.pw) _ (fun t p => ?_) _ _
  dsimp only
  split
  · simp
  · rfl

theorem State.prefOk_pw {s t : State} (h : t.pw = s.pw) (half : Bool) : t.prefOk half = s.prefOk half := by
  unfold State.prefOk
  rw [h]

/-! ## The crystal (R478) -/

@[simp] theorem State.recovery_sub (s : State) (source code a0 a1 a2 : Nat) : (s.recovery source code a0 a1 a2).sub = s.sub := by
  simp [State.recovery]

theorem leads_crystalLoss {s : State} (hxtal : s.pw.xtalOk) (hup : s.pw.released) : Leads .crystalLoss s fun t =>
    t.pw.xtalOk = false ∧ t.pw.fallback = true ∧ t.time = s.time ∧ t.sub = s.sub := by
  refine ⟨_, congrArg Host.Outcome.next ((if_neg (by simp [hxtal])).trans (if_neg (by simp [hup]))), ?_⟩
  split <;> simp

theorem leads_crystalReturn {s : State} (hlost : s.pw.xtalOk = false) (haon : s.pw.aon) (hup : s.pw.released) :
    Leads .crystalReturn s fun t => t.pw.xtalOk = true ∧ t.pw.fallback = false ∧ t.time = s.time := by
  refine ⟨_, congrArg Host.Outcome.next ((if_neg (by simp [hlost, haon])).trans (if_pos hup)), ?_⟩
  split <;> simp

/-! ## JTAG (R527) -/

theorem State.handBack_pw (s : State) : s.handBack.pw = { s.pw with extest := false } := by
  unfold State.handBack
  dsimp only
  split
  · rfl
  · exact (State.emits_frame _ _).2.2.2.2.2.2.2.2.2.2.2.2.2.1

theorem State.boundaryScan_drives (s : State) (cells : List Bool) : s.boundaryScan cells true = { s with
    pw := { s.pw with cells := cells, extest := true },
    out := s.out ++ [.boundaryShift s.pw.cells] ++ [.boundaryDrive cells] } := rfl

/-- While PERST_N is low EXTEST shifts its cells in and drives the pins with them. -/
theorem exec_jtagInstruction_extest {s : State} (cells : List Bool) (hlow : s.pw.perstLow) : exec (.jtagInstruction (.extest cells)) s
    = .next ((s.onPw fun p => { p with jtag := .extest cells }).boundaryScan cells true) := by
  have hruns : jtagRuns (.extest cells) s.pw.perstLow = .extest cells := if_pos hlow
  change execJtagInstruction (.extest cells) s = _
  rw [execJtagInstruction]
  simp only [hruns]

theorem State.handBack_out {s : State} (h : s.pw.extest = false) : s.handBack.out = s.out := by
  simp [State.handBack, h]

end Sys2Proof.Machine

open Sys2Proof.Machine Sys2Proof.Safety in
/-- Settles O54: each row is the branch that its premises choose; the four causes of a warm reset meet in
`State.warmReset_resets`, and the references of the ports in `State.referenced_qlock`. -/
theorem powerClocksAndResets : Obligations.PowerClocksAndResets := by
  unfold Obligations.PowerClocksAndResets
  intro s
  refine ⟨fun c last hcause hup hcool hfree => ?warm, fun hrails hsb hquads => ?sideband,
    fun hlow => ⟨_, congrArg Host.Outcome.next (if_pos hlow), rfl, rfl⟩,
    fun hlost => ⟨_, congrArg Host.Outcome.next (if_neg (by simp [hlost])), rfl, rfl⟩,
    leads_pwrokRise, fun r => leads_railReturn,
    fun hoff hrails => ⟨_, congrArg Host.Outcome.next (if_neg (by simp [hoff, hrails])), rfl, rfl, rfl, rfl, rfl, rfl, rfl⟩,
    leads_thermalTrip, fun half hok hquiet => ⟨_, exec_portReferenceLoss_quiet hok hquiet, ?loss⟩, fun half hlost => ?returns,
    leads_crystalLoss, leads_crystalReturn, fun u hu => ?reset, fun i => rfl, fun c hhigh => ?high, fun c hlow => ?drives⟩
  case warm =>
    obtain ⟨rfl, rfl, hhigh⟩ | ⟨rfl, rfl, hclock⟩ | ⟨rfl, rfl, hok⟩ | ⟨r, above, rfl, rfl, haon, hio, hin, hsb⟩ := hcause
    · exact leads_perstNWarmReset hup hcool hfree hhigh
    · exact leads_hostReferenceLoss hup hcool hfree hclock
    · exact leads_pwrokFall hup hcool hfree hok
    · exact leads_railOutOfRange hup hcool hfree haon hio hin hsb
  case sideband =>
    exact congrArg Host.Outcome.next ((if_neg (by simp [hrails])).trans
      ((if_neg (by decide)).trans ((if_pos (by simpa using hquads)).trans (if_neg (by simp [hsb])))))
  case loss =>
    obtain ⟨hdev, hpref⟩ := s.referenced_keeps half false
    exact ⟨hpref, fun q hq => by simp [s.referenced_qlock false hq], hdev⟩
  case returns =>
    obtain ⟨t, hexec, hpw⟩ := exec_portReferenceReturn_absent hlost
    refine ⟨t, hexec, ?_, fun q hq => ?_⟩
    · rw [State.prefOk_pw hpw, (s.referenced_keeps half true).2]
    · rw [hpw, s.referenced_qlock true hq]
      simp
  case reset =>
    subst hu
    exact ⟨rfl, rfl, State.handBack_pw _, fun hfree => State.handBack_out hfree⟩
  case high =>
    change execJtagInstruction (.extest c) s = execJtagInstruction .bypass s
    simp [execJtagInstruction, jtagRuns, hhigh]
  case drives =>
    rw [exec_jtagInstruction_extest c hlow, State.boundaryScan_drives]
    rfl

/-! # The boot and the records of the Almanac (O50)

A boot is a row of stages each of which keeps what the others write: records leave Plinth's own state (`Plinth.bare`) and the outputs,
the tests of I2C segments that succeed put nothing out, and the release of the endpoint writes its mode after all of them. -/

namespace Sys2Proof.Machine

open Sys2Proof.Safety

/-! ## The stages of a boot (R429, R430) -/

@[simp] theorem State.imageRecord_others (s : State) (copy : Nat) (d : Option (List Byte)) (code : Nat) :
    (s.imageRecord copy d code).out = s.out ∧ (s.imageRecord copy d code).pl.bare = s.pl.bare := by
  unfold State.imageRecord
  cases d <;> simp

@[simp] theorem State.measure_others (s : State) (copy : Nat) (bodies : AMap (List Byte)) (type : Nat) :
    (s.measure copy bodies type).out = s.out ∧ (s.measure copy bodies type).pl.bare = s.pl.bare := by
  simp [State.measure]

@[simp] theorem State.portConfig_others (s : State) (p : Option (List Byte)) :
    (s.portConfig p).out = s.out ∧ (s.portConfig p).pl.bare = s.pl.bare :=
  ⟨foldl_keeps (·.out) _ (fun t e => by simp) _ _, foldl_keeps (·.pl.bare) _ (fun t e => by simp) _ _⟩

@[simp] theorem State.testI2c_bare (s : State) (quad port : Nat) (ok : Bool) : (s.testI2c quad port ok).pl.bare = s.pl.bare := by
  unfold State.testI2c
  dsimp only
  split
  · rfl
  · simp

@[simp] theorem State.testSegments_bare (s : State) (bad : BitVec 128) : (s.testSegments bad).pl.bare = s.pl.bare :=
  foldl_keeps (·.pl.bare) _ (fun t k => by simp) _ _

theorem State.testSegments_sound (s : State) : (s.testSegments 0#128).out = s.out :=
  foldl_keeps (·.out) _ (fun t k => by simp [State.testI2c]) _ _

@[simp] theorem State.commitBoot_others (s : State) (body : Option (List Byte)) :
    (s.commitBoot body).link = s.link ∧ (s.commitBoot body).out = s.out ∧ (s.commitBoot body).pl.bare = s.pl.bare ∧
    (s.commitBoot body).md.gen = 0 := by
  unfold State.commitBoot
  cases body with
  | none => simp
  | some b =>
    dsimp only
    split
    · simp
    · simp

@[simp] theorem State.wake_up (s : State) (k : Nat) : (s.wake k).pw.supUp = s.pw.supUp ∧ (s.wake k).pw.bootDue = s.pw.bootDue := by
  unfold State.wake
  dsimp only
  split
  · simp
  · rw [State.onPw_pw]
    split <;> exact ⟨rfl, rfl⟩

@[simp] theorem State.recomputeAwake_up (s : State) :
    s.recomputeAwake.pw.supUp = s.pw.supUp ∧ s.recomputeAwake.pw.bootDue = s.pw.bootDue :=
  ⟨foldl_keeps (·.pw.supUp) _ (fun t k => (t.wake_up k).1) _ _, foldl_keeps (·.pw.bootDue) _ (fun t k => (t.wake_up k).2) _ _⟩

@[simp] theorem State.armTimers_up (s : State) : s.armTimers.pw.supUp = s.pw.supUp ∧ s.armTimers.pw.bootDue = s.pw.bootDue := ⟨rfl, rfl⟩

/-- What a boot of a sound copy leaves. -/
theorem State.bootNormal_boots (s : State) (mode : Nat) (d : List Byte) (start : BootTest) :
    (s.bootNormal mode d start).link.ep = .normal ∧ (s.bootNormal mode d start).link.ready = true ∧
    (s.bootNormal mode d start).pw.supUp = true ∧ (s.bootNormal mode d start).pw.bootDue = false ∧
    (s.bootNormal mode d start).sx.gen = 1 ∧ (s.bootNormal mode d start).md.gen = 0 ∧
    (s.bootNormal mode d start).pl.bare = { s.pl with img := some (imgFacts d), mode := mode }.bare := by
  unfold State.bootNormal
  dsimp only
  simp [Link.released, Sirax.bootDecode]

theorem State.bootNormal_out (s : State) (mode : Nat) (d : List Byte) {start : BootTest} (h : start.i2cBad = 0) :
    (s.bootNormal mode d start).out = s.out ++ [.drs] := by
  unfold State.bootNormal
  dsimp only
  simp [h, State.testSegments_sound]

/-- What recovery mode leaves. -/
theorem State.bootRecovery_boots (s : State) (micros : Nat) :
    (s.bootRecovery micros).link.ep = .recovery ∧ (s.bootRecovery micros).pl.bare = { s.pl with img := none, mode := 2 }.bare ∧
    (s.bootRecovery micros).out = s.out ++ [.drs] := by
  simp [State.bootRecovery, Link.released]

/-! ## The copies (R429, R525) -/

@[simp] theorem State.beginBoot_out (s : State) : s.beginBoot.out = s.out := by
  unfold State.beginBoot
  dsimp only
  split
  · simp
  · rfl

theorem State.flashRead_out (s : State) (device : Bool) (f : FlashDev) :
    (s.flashRead device f).out = s.out ++ if f.mbit < 512 then [] else [.flashCmd device (.readImage f.octal)] := by
  unfold State.flashRead
  split
  · simp
  · simp

/-- The flash devices are opened, and the first is read. -/
def State.flashOpened (s : State) (start : BootTest) : State :=
  (s.emits (flashOpen start.flash0 false ++ flashOpen start.flash1 true)).flashRead false start.flash0

theorem State.flashOpened_out {s t : State} (start : BootTest) (h : t.out = s.out) : (t.flashOpened start).out = (s.flashOpened start).out := by
  simp [State.flashOpened, State.flashRead_out, State.emits, h]

/-- The first copy has been read and checked. -/
def State.firstChecked (s : State) (a : Option (List Byte)) (start : BootTest) : State :=
  ((s.beginBoot.flashOpened start).imageRecord 0 a (imgCheck a)).onPl fun p => { p with aCode := imgCheck a, aValid := imgCheck a = 0 }

/-- The second copy has been read and checked after the first. -/
def State.secondChecked (s : State) (a b : Option (List Byte)) (start : BootTest) : State :=
  (((s.firstChecked a start).flashRead true start.flash1).imageRecord 1 b (imgCheck b)).onPl fun p =>
    { p with bCode := imgCheck b, bValid := imgCheck b = 0 }

@[simp] theorem State.firstChecked_out (s : State) (a : Option (List Byte)) (start : BootTest) :
    (s.firstChecked a start).out = (s.flashOpened start).out := by
  simp [State.firstChecked, State.flashOpened_out start s.beginBoot_out]

@[simp] theorem State.firstChecked_time (s : State) (a : Option (List Byte)) (start : BootTest) : (s.firstChecked a start).time = s.time := by
  simp [State.firstChecked, State.flashOpened]

theorem State.secondChecked_out (s : State) (a b : Option (List Byte)) (start : BootTest) :
    (s.secondChecked a b start).out = ((s.flashOpened start).flashRead true start.flash1).out := by
  simp [State.secondChecked, State.flashRead_out]

/-- What the check of the first copy found stands after that of the second. -/
theorem State.secondChecked_aCode (s : State) (a b : Option (List Byte)) (start : BootTest) :
    (s.secondChecked a b start).pl.aCode = imgCheck a := by
  have hkept := ((s.firstChecked a start).flashRead true start.flash1).imageRecord_others 1 b (imgCheck b)
  have hcode := congrArg Plinth.aCode hkept.2
  rw [(State.flashRead_frame _ _ _).2.2.2.2.2.2.2.2.2.1] at hcode
  exact hcode

section
variable {s : State} (hready : s.bootReady) (da db : Option (List Byte)) (start : BootTest)
include hready

theorem exec_boot_ready : exec (.boot da db start) s = .next (
    if imgCheck (flashCopy start.flash0 da) = 0 then
      (s.firstChecked (flashCopy start.flash0 da) start).bootNormal 0 ((flashCopy start.flash0 da).getD []) start
    else if imgCheck (flashCopy start.flash1 db) = 0 then
      (s.secondChecked (flashCopy start.flash0 da) (flashCopy start.flash1 db) start).bootNormal 1 ((flashCopy start.flash1 db).getD []) start
    else (s.secondChecked (flashCopy start.flash0 da) (flashCopy start.flash1 db) start).bootRecovery start.micros) :=
  congrArg Host.Outcome.next (if_neg (by simp [hready]))

end

/-! ## Records (R431 to R433, R437, R440, R473) -/

/-- A waiting record is written, and neither the queue falls to 128 nor the last pinned slot is taken. -/
theorem exec_almanacWrite_plain {s : State} {r : AlmReq} {rest : List AlmReq} (hstarted : s.pl.started) (hup : s.pw.released)
    (hqueue : s.pl.alm.queue = r :: rest) (hlen : (rest ++ s.pl.alm.hold.take 1).length ≠ 128) (hseq : s.pl.alm.next ≠ 4095) :
    exec .almanacWrite s = .next (r.vecs.foldl (fun t v => t.signalNow v) (s.onPl fun p => { p with
      alm := Almanac.write { p.alm with queue := rest ++ s.pl.alm.hold.take 1, hold := s.pl.alm.hold.drop 1 } s.time p.bootno r })) := by
  change execAlmanacWrite s = _
  rw [execAlmanacWrite, if_pos (by simp [hstarted, hup]), State.writeNext, hqueue]
  exact congrArg Host.Outcome.next ((if_pos hlen).trans (if_neg hseq))

/-- The record that the writer makes of a request. -/
def Almanac.sealed (a : Almanac) (now : Time) (bootno : Nat) (r : AlmReq) : AlmRec :=
  (AlmRec.mk a.next now r.type r.source bootno r.len r.payload 0 0).seal a.head

/-- A record takes the slot of its sequence number, and no other slot changes. -/
theorem Almanac.write_slots (a : Almanac) (now : Time) (bootno : Nat) (r : AlmReq) :
    AMap.get? (a.write now bootno r).slots (almSlot a.next) = some (a.sealed now bootno r) ∧
    ∀ k, k ≠ almSlot a.next → AMap.get? (a.write now bootno r).slots k = AMap.get? a.slots k :=
  ⟨AMap.get?_put_same _ _ _, fun _ hk => AMap.get?_put_other _ _ hk⟩

/-- The anchors of the pinned records follow the head while pinned slots are written. -/
theorem Almanac.write_anchors (a : Almanac) (now : Time) (bootno : Nat) (r : AlmReq) :
    (a.next < 4096 → (a.write now bootno r).pinnedEnd = (a.sealed now bootno r).chain
      ∧ (a.write now bootno r).tailAnchor = (a.sealed now bootno r).chain)
    ∧ (4096 ≤ a.next → (a.write now bootno r).pinnedEnd = a.pinnedEnd) :=
  ⟨fun hpinned => ⟨if_pos hpinned, if_pos hpinned⟩, fun htail => if_neg (Nat.not_lt.mpr htail)⟩

end Sys2Proof.Machine

open Sys2Proof.Machine Sys2Proof.Safety in
/-- Settles O50: a boot ends in `State.bootNormal` of the first sound copy or in `State.bootRecovery`, on the state that the checks of
the copies leave; a record is `Almanac.sealed`. -/
theorem bootAndAlmanac : Obligations.BootAndAlmanac := by
  unfold Obligations.BootAndAlmanac
  intro s
  refine ⟨fun hready da db a b start o ha hb ho => ?boot, fun hwaits a b start => congrArg Host.Outcome.next (if_pos (by simp [hwaits])),
    fun r rest => exec_almanacWrite_plain, fun a now bootno r => ?record⟩
  case boot =>
    subst ha hb ho
    refine ⟨fun hfirst => ⟨_, (exec_boot_ready hready da db start).trans (congrArg Host.Outcome.next (if_pos hfirst)), ?_⟩,
      fun hfirst hsecond => ⟨_, (exec_boot_ready hready da db start).trans
        (congrArg Host.Outcome.next ((if_neg hfirst).trans (if_pos hsecond))), ?_⟩,
      fun hfirst hsecond => ⟨_, (exec_boot_ready hready da db start).trans
        (congrArg Host.Outcome.next ((if_neg hfirst).trans (if_neg hsecond))), ?_⟩⟩
    · obtain ⟨hep, hopen, hup, hdue, hsx, hmd, hpl⟩ := (s.firstChecked (flashCopy start.flash0 da) start).bootNormal_boots 0
        ((flashCopy start.flash0 da).getD []) start
      refine ⟨hep, hopen, congrArg Plinth.mode hpl, (congrArg Plinth.aValid hpl).trans (by simp [State.firstChecked, hfirst, Plinth.bare]),
        hup, hdue, hsx, hmd, fun hbad => ?_, by simp⟩
      rw [State.bootNormal_out _ _ _ hbad, State.firstChecked_out]
      rfl
    · obtain ⟨hep, hopen, hup, hdue, hsx, hmd, hpl⟩ := (s.secondChecked (flashCopy start.flash0 da) (flashCopy start.flash1 db)
        start).bootNormal_boots 1 ((flashCopy start.flash1 db).getD []) start
      refine ⟨hep, congrArg Plinth.mode hpl, (congrArg Plinth.aCode hpl).trans (s.secondChecked_aCode _ _ start),
        (congrArg Plinth.bValid hpl).trans (by simp [State.secondChecked, hsecond, Plinth.bare]), hup, fun hbad => ?_⟩
      rw [State.bootNormal_out _ _ _ hbad, State.secondChecked_out]
      rfl
    · obtain ⟨hep, hpl, hout⟩ := (s.secondChecked (flashCopy start.flash0 da) (flashCopy start.flash1 db)
        start).bootRecovery_boots start.micros
      refine ⟨hep, congrArg Plinth.mode hpl, congrArg Plinth.img hpl, congrArg Plinth.bCode hpl, ?_⟩
      rw [hout, State.secondChecked_out]
      rfl
  case record =>
    obtain ⟨hslot, hothers⟩ := a.write_slots now bootno r
    obtain ⟨hpinned, htail⟩ := a.write_anchors now bootno r
    exact ⟨_, hslot, rfl, rfl, rfl, rfl, rfl, rfl, rfl, rfl, hpinned, htail, hothers⟩

/-! # The mailboxes (O51)

A row of a channel changes the box and the sender's events of that channel, and the box of the request that its word answers; bells,
interrupts and vectors leave both banks as they are. -/

namespace Sys2Proof.Machine

open Sys2Proof.Safety

/-! ## The banks of boxes and senders (R453, R459) -/

theorem chIdx_lt (ch : Chan) : chIdx ch < 38 := by
  cases ch <;> simp only [chIdx] <;> omega

theorem State.box_modAt {s t : State} {ch : Chan} {f : Box → Box} (h : t.mail.boxes = modAt s.mail.boxes (chIdx ch) f)
    (hk : chIdx ch < s.mail.boxes.length) : t.box ch = f (s.box ch) := by
  rw [State.box, h]
  exact modAt_getD_same _ _ _ _ hk

theorem chIdx_present {s : State} (h : s.mail.boxes.length = 38) (ch : Chan) : chIdx ch < s.mail.boxes.length := h ▸ chIdx_lt ch

/-- A channel whose box is full is one of the channels. -/
theorem State.full_present {s : State} {ch : Chan} (h : (s.box ch).full) : chIdx ch < s.mail.boxes.length := by
  by_contra hk
  have hreset : s.box ch = Box.reset := List.getD_eq_default _ _ (by omega)
  simp [hreset, Box.reset] at h

theorem State.box_modAt_other {s t : State} {ch c : Chan} {f : Box → Box} (h : t.mail.boxes = modAt s.mail.boxes (chIdx c) f)
    (hc : chIdx ch ≠ chIdx c) : t.box ch = s.box ch := by
  rw [State.box, h]
  exact modAt_getD_other _ _ _ hc

theorem State.sender_modAt {s t : State} {ch : Chan} {f : Sender → Sender} (h : t.mail.senders = modAt s.mail.senders (chIdx ch) f)
    (hlen : s.mail.senders.length = 38) : t.sender ch = f (s.sender ch) := by
  rw [State.sender, h]
  exact modAt_getD_same _ _ _ _ (hlen ▸ chIdx_lt ch)

@[simp] theorem State.modBox_banks (s : State) (ch : Chan) (f : Box → Box) :
    (s.modBox ch f).mail.boxes = modAt s.mail.boxes (chIdx ch) f ∧ (s.modBox ch f).mail.senders = s.mail.senders := ⟨rfl, rfl⟩

@[simp] theorem State.modSender_banks (s : State) (ch : Chan) (f : Sender → Sender) :
    (s.modSender ch f).mail.senders = modAt s.mail.senders (chIdx ch) f ∧ (s.modSender ch f).mail.boxes = s.mail.boxes := ⟨rfl, rfl⟩

@[simp] theorem State.modBell_banks (s : State) (ch : Chan) (f : Bell → Bell) :
    (s.modBell ch f).mail.boxes = s.mail.boxes ∧ (s.modBell ch f).mail.senders = s.mail.senders := by
  cases ch <;> exact ⟨rfl, rfl⟩

@[simp] theorem Mail.rung_banks (m : Mail) (ch : Chan) (bit : Nat) :
    (m.rung ch bit).boxes = m.boxes ∧ (m.rung ch bit).senders = m.senders := by
  unfold Mail.rung
  dsimp only
  (repeat' split) <;> exact ⟨rfl, rfl⟩

@[simp] theorem State.ring_banks (s : State) (ch : Chan) (bit : Nat) :
    (s.ring ch bit).mail.boxes = s.mail.boxes ∧ (s.ring ch bit).mail.senders = s.mail.senders := by
  unfold State.ring
  dsimp only
  split
  · simp
  · simp

@[simp] theorem State.serveBell_banks (s : State) (ch : Chan) :
    (s.serveBell ch).mail.boxes = s.mail.boxes ∧ (s.serveBell ch).mail.senders = s.mail.senders := by
  unfold State.serveBell
  split
  · exact ⟨rfl, rfl⟩
  · simp

/-! ## Sends (R455, R457) -/

/-- The box that takes a word. -/
def Box.filled (b : Box) (bit : Nat) (w : Word) : Box := { b with word := w, full := true, bit := bit }

/-- The box of a request that is answered. -/
def Box.paid (b : Box) : Box := { b with owed := false }

theorem State.mbSend_boxes {s : State} {ch : Chan} (bit : Nat) (w : Word) (h : (s.box ch).full = false) : (s.mbSend ch bit w).mail.boxes
    = match owedBy ch with
      | none => modAt s.mail.boxes (chIdx ch) (·.filled bit w)
      | some c => modAt (modAt s.mail.boxes (chIdx ch) (·.filled bit w)) (chIdx c) Box.paid := by
  unfold State.mbSend
  dsimp only
  rw [if_neg (by simp [h]), (State.mbEdge_frame _ _).2.2.2.2.1]
  cases owedBy ch with
  | none => simp only [State.ring_banks, State.modBox_banks]; rfl
  | some c => simp only [State.ring_banks, State.modBox_banks]; rfl

/-- The channel whose request a word answers is another channel. -/
theorem owedBy_other {ch c : Chan} (h : owedBy ch = some c) : chIdx ch ≠ chIdx c := by
  cases ch with
  | plnHost => cases h; decide
  | plnSup => cases h; decide
  | hostSup => cases h
  | supHost => cases h
  | hostPln => cases h
  | supPln => cases h
  | cluSup k => cases h
  | supClu k => cases h

theorem State.mbSend_fills {s : State} {ch : Chan} (bit : Nat) (w : Word) (hlen : s.mail.boxes.length = 38) (h : (s.box ch).full = false) :
    (s.mbSend ch bit w).box ch = (s.box ch).filled bit w := by
  have hboxes := State.mbSend_boxes bit w h
  cases howed : owedBy ch with
  | none =>
    rw [howed] at hboxes
    exact State.box_modAt hboxes (chIdx_present hlen ch)
  | some c =>
    rw [howed] at hboxes
    have hfilled : (s.modBox ch (·.filled bit w)).box ch = (s.box ch).filled bit w :=
      State.box_modAt (f := (·.filled bit w)) rfl (chIdx_present hlen ch)
    exact (State.box_modAt_other (s := s.modBox ch (·.filled bit w)) hboxes (owedBy_other howed)).trans hfilled

/-- A word on an answering channel pays what its request owes. -/
theorem State.mbSend_pays {s : State} {ch c : Chan} (bit : Nat) (w : Word) (hlen : s.mail.boxes.length = 38) (h : (s.box ch).full = false)
    (howed : owedBy ch = some c) : ((s.mbSend ch bit w).box c).owed = false := by
  have hboxes := State.mbSend_boxes bit w h
  rw [howed] at hboxes
  rw [State.box_modAt (s := s.modBox ch (·.filled bit w)) hboxes (chIdx_present (by simpa using hlen) c)]
  rfl

/-- A send into a full channel leaves the boxes and marks the overrun. -/
theorem State.mbSend_overruns {s : State} {ch : Chan} (bit : Nat) (w : Word) (h : (s.box ch).full) :
    (s.mbSend ch bit w).mail.boxes = s.mail.boxes ∧
    (s.mbSend ch bit w).mail.senders = modAt s.mail.senders (chIdx ch) fun e => { e with overrun := true } := by
  unfold State.mbSend
  dsimp only
  rw [if_pos h, (State.mbEdge_frame _ _).2.2.2.2.1]
  simp

/-! ## Receives (R455) -/

/-- The box whose word a receiver has taken; a request to Plinth owes its answer. -/
def Box.taken (b : Box) (ch : Chan) : Box := { b with full := false, owed := b.owed || ch = .hostPln || ch = .supPln }

theorem State.mbTake_banks (s : State) (ch : Chan) : (s.mbTake ch).mail.boxes = modAt s.mail.boxes (chIdx ch) (·.taken ch) ∧
    (s.mbTake ch).mail.senders = modAt s.mail.senders (chIdx ch) fun e => { e with empty := true } := by
  unfold State.mbTake
  dsimp only
  rw [(State.mbEdge_frame _ _).2.2.2.2.1, (State.tellSender_frame _ _).2.2.2.2.2.2.2.2.2.2.1]
  exact ⟨rfl, rfl⟩

theorem State.mbTake_takes {s : State} (ch : Chan) (hboxes : s.mail.boxes.length = 38) (hsenders : s.mail.senders.length = 38) :
    ((s.mbTake ch).box ch).full = false ∧ ((s.mbTake ch).box ch).word = (s.box ch).word ∧ ((s.mbTake ch).sender ch).empty = true ∧
    (((s.mbTake ch).box ch).owed ↔ (s.box ch).owed ∨ ch = .hostPln ∨ ch = .supPln) := by
  obtain ⟨htaken, hemptied⟩ := s.mbTake_banks ch
  rw [State.box_modAt htaken (chIdx_present hboxes ch), State.sender_modAt hemptied hsenders]
  refine ⟨rfl, rfl, rfl, ?_⟩
  simp [Box.taken, or_assoc]

theorem State.mbRead_empty {s : State} {ch : Chan} (show_ : Word → Out) (h : (s.box ch).full = false) :
    s.mbRead ch 8 show_ = s.emit (show_ 0) := by
  simp [State.mbRead, h]

theorem State.mbRead_half (s : State) (ch : Chan) (show_ : Word → Out) : s.mbRead ch 4 show_ = s.emit (show_ 0) := by
  simp [State.mbRead]

theorem State.mbRead_full {s : State} {ch : Chan} (show_ : Word → Out) (h : (s.box ch).full) :
    s.mbRead ch 8 show_ = ((s.mbTake ch).emit (show_ (s.box ch).word)).pumpNotices := by
  simp [State.mbRead, h]

/-! ## What the endpoint passes on (R38) -/

section
variable {s : State} (h : Serves s)
include h

theorem State.bar0Read_serves_sized {size : Nat} (off : Nat) (t : State) (hsize : size = 4 ∨ size = 8) : s.bar0Read off size t = t := by
  obtain ⟨hep, hopens, hkept⟩ := h
  obtain rfl | rfl := hsize <;> simp [State.bar0Read, hep, hopens, hkept]

theorem State.bar0Write_serves_half (t : State) : s.bar0Write 4 true t = t := by
  obtain ⟨hep, hopens, hkept⟩ := h
  simp [State.bar0Write, hep, hopens, hkept]

theorem exec_mailboxSend_host {ch : Chan} {bit : Nat} (w : Word) (hbit : bit < 32) (hhost : chOfHost ch) :
    exec (.mailboxSend ch bit 8 w) s = .next (s.mbSend ch bit w) ∧ exec (.mailboxSend ch bit 4 w) s = .next s :=
  ⟨congrArg Host.Outcome.next ((if_neg (by omega)).trans ((if_pos hhost).trans (State.bar0Write_serves h _))),
    congrArg Host.Outcome.next ((if_neg (by omega)).trans ((if_pos hhost).trans (State.bar0Write_serves_half h _)))⟩

theorem exec_mailboxReceive_supHost {size : Nat} (hsize : size = 4 ∨ size = 8) : exec (.mailboxReceive .supHost size) s
    = .next (s.mbRead .supHost size (.readData 0 0x01C00100 size)) :=
  congrArg Host.Outcome.next ((if_pos rfl).trans (State.bar0Read_serves_sized h _ _ hsize))

theorem exec_mailboxReceive_plnHost {size : Nat} (hsize : size = 4 ∨ size = 8) : exec (.mailboxReceive .plnHost size) s
    = .next (s.mbRead .plnHost size (.readData 0 0x01C01100 size)) :=
  congrArg Host.Outcome.next ((if_neg (by decide)).trans ((if_pos rfl).trans (State.bar0Read_serves_sized h _ _ hsize)))

theorem exec_mailboxStatusWrite_host (plinth stat : Bool) (v : Word) :
    exec (.mailboxStatusWrite (.host plinth) stat none v) s = .next (s.mbStatus plinth stat none v) :=
  congrArg Host.Outcome.next (State.bar0Write_serves h _)

end

/-! ## The senders and receivers inside the 6128 -/

theorem exec_mailboxSend_inner {s : State} {ch : Chan} {bit : Nat} (w : Word) (hbit : bit < 32) (hinner : chOfHost ch = false)
    (hup : s.senderUp ch) :
    exec (.mailboxSend ch bit 4 w) s = .next s
    ∧ (ch ≠ .supHost → exec (.mailboxSend ch bit 8 w) s = .next (s.mbSend ch bit w))
    ∧ (ch = .supHost → soundNotice bit w → exec (.mailboxSend ch bit 8 w) s = .next (s.notice (noticeType w) (bits w.toNat 32 32)))
    ∧ (ch = .supHost → soundNotice bit w = false → exec (.mailboxSend ch bit 8 w) s = .next s) := by
  have hrow : ∀ size, exec (.mailboxSend ch bit size w) s = .next (if !s.senderUp ch || size ≠ 8 then s
      else if ch = .supHost then (if soundNotice bit w then s.notice (noticeType w) (bits w.toNat 32 32) else s)
      else s.mbSend ch bit w) :=
    fun size => congrArg Host.Outcome.next ((if_neg (by omega)).trans (if_neg (by simp [hinner])))
  refine ⟨?_, fun hother => ?_, fun hsup hsound => ?_, fun hsup hbad => ?_⟩
  · rw [hrow, if_pos (by simp)]
  · rw [hrow, if_neg (by simp [hup]), if_neg hother]
  · rw [hrow, if_neg (by simp [hup]), if_pos hsup, if_pos hsound]
  · rw [hrow, if_neg (by simp [hup]), if_pos hsup, if_neg (by simp [hbad])]

theorem exec_mailboxReceive_inner {s : State} {ch : Chan} (hsup : ch ≠ .supHost) (hpln : ch ≠ .plnHost) (hup : s.receiverUp ch) :
    ((s.box ch).full = false → exec (.mailboxReceive ch 8) s = .next (s.emit (.mbRead ch 0)))
    ∧ ((s.box ch).full → ch ≠ .hostSup → exec (.mailboxReceive ch 8) s
      = .next (((s.mbTake ch).emit (.mbRead ch (s.box ch).word)).pumpNotices))
    ∧ ((s.box ch).full → ch = .hostSup → exec (.mailboxReceive ch 8) s = .next ((s.emit (.mbRead ch (s.box ch).word)).obuloTakes))
    ∧ exec (.mailboxReceive ch 4) s = .next (s.emit (.mbRead ch 0)) := by
  have hrow : ∀ size, exec (.mailboxReceive ch size) s = .next (if ch = .hostSup && size = 8 && (s.box ch).full
      then (s.emit (.mbRead ch (s.box ch).word)).obuloTakes else s.mbRead ch size (.mbRead ch)) :=
    fun size => congrArg Host.Outcome.next ((if_neg hsup).trans ((if_neg hpln).trans (if_neg (by simp [hup]))))
  refine ⟨fun hempty => ?_, fun hfull hother => ?_, fun hfull hobulo => ?_, ?_⟩
  · rw [hrow, if_neg (by simp [hempty]), State.mbRead_empty _ hempty]
  · rw [hrow, if_neg (by simp [hother]), State.mbRead_full _ hfull]
  · rw [hrow, if_pos (by rw [hfull]; simp [hobulo])]
  · rw [hrow, if_neg (by simp), State.mbRead_half]

theorem exec_innerBell {s : State} {ch : Chan} (hsup : ch ≠ .supHost) (hpln : ch ≠ .plnHost) (hup : s.receiverUp ch) (half : Option Bool)
    (v : Word) : exec (.mailboxStatusWrite (.inner ch) false half v) s = .next (match bellSource ch with
      | some (inst, _) => (s.modBell ch fun b => b.write half (atHalf half v)).relatch inst
      | none => s.modBell ch fun b => b.write half (atHalf half v)) :=
  congrArg Host.Outcome.next ((if_neg (by simp)).trans (if_neg (by simp [hsup, hpln, hup])))

theorem exec_innerEvents {s : State} {ch : Chan} (hinner : chOfHost ch = false) (hup : s.senderUp ch) (v : Word) :
    exec (.mailboxStatusWrite (.inner ch) true none v) s = .next (s.modSender ch fun e => e.writeStat none v) :=
  congrArg Host.Outcome.next ((if_pos rfl).trans (if_neg (by simp [hinner, hup])))

/-! ## The host's registers (R459 to R461) -/

/-- The vector that a status write may signal again leaves the mailboxes as the write left them. -/
theorem State.signal_if_mail (s : State) (v : Nat) (b : Bool) : (if b then s.signal v else s).mail = s.mail := by
  split <;> simp

theorem State.mbStatus_db_mail (s : State) (v : Word) :
    (s.mbStatus false false none v).mail = { s.mail with sup := s.mail.sup.writeDb none v } :=
  (s.onMail fun m => { m with sup := m.sup.writeDb none v }).signal_if_mail 1 _

theorem State.mbStatus_stat_mail (s : State) (v : Word) : (s.mbStatus true true none v).mail = { s.mail with
    pln := s.mail.pln.writeStat none v, senders := modAt s.mail.senders (chIdx .hostPln) (·.writeStat none v) } :=
  ((s.onMail fun m => { m with pln := m.pln.writeStat none v }).modSender .hostPln (·.writeStat none v)).signal_if_mail 2 _

/-! ## PING (R462) -/

theorem exec_ping_takes {s : State} (hfull : (s.box .hostSup).full) (hup : s.pw.supUp) : exec .ping s = .next s.obuloTakes :=
  congrArg Host.Outcome.next (if_neg (by simp [hfull, hup]))

end Sys2Proof.Machine

open Sys2Proof.Machine Sys2Proof.Safety in
/-- Settles O51: each row is the branch that its premises choose, and what it leaves in the boxes and the senders' events is read from
the banks that it writes. -/
theorem mailboxes : Obligations.Mailboxes := by
  unfold Obligations.Mailboxes
  intro s hboxes hsenders
  refine ⟨fun ch bit w hbit => ⟨fun hhost hserves => exec_mailboxSend_host hserves w hbit hhost, exec_mailboxSend_inner w hbit,
      fun hempty => ?fills, fun hfull => ?overruns⟩,
    fun ch => State.mbTake_takes ch hboxes hsenders, fun ch => exec_mailboxReceive_inner,
    fun bit w hempty => State.mbSend_pays bit w hboxes hempty rfl, fun bit w hempty => State.mbSend_pays bit w hboxes hempty rfl,
    fun hserves => ?halves, fun hserves hfull => ?taken, fun hserves hempty => ?empty,
    fun ch hsup hpln hup half v => ⟨fun inst n hsource => ?bell, fun hsource => ?quietBell⟩,
    fun ch hinner hup v => ⟨_, exec_innerEvents hinner hup v, ?events⟩,
    fun v hserves => ⟨_, exec_mailboxStatusWrite_host hserves false false v, ?db⟩,
    fun v hserves => ⟨_, exec_mailboxStatusWrite_host hserves true true v, ?stat⟩,
    fun hfull hup hping => (exec_ping_takes hfull hup).trans (congrArg Host.Outcome.next (if_pos hping)),
    fun hfull hup hother => (exec_ping_takes hfull hup).trans (congrArg Host.Outcome.next (if_neg hother))⟩
  case fills =>
    rw [State.mbSend_fills bit w hboxes hempty]
    exact ⟨rfl, rfl, rfl⟩
  case overruns =>
    obtain ⟨hkept, hmarked⟩ := State.mbSend_overruns bit w hfull
    exact ⟨by rw [State.box, hkept]; rfl, by rw [State.sender_modAt hmarked hsenders]⟩
  case halves =>
    rw [exec_mailboxReceive_supHost hserves (.inl rfl), exec_mailboxReceive_plnHost hserves (.inl rfl), State.mbRead_half,
      State.mbRead_half]
    exact ⟨rfl, rfl⟩
  case taken => rw [exec_mailboxReceive_supHost hserves (.inr rfl), State.mbRead_full _ hfull]
  case empty => rw [exec_mailboxReceive_plnHost hserves (.inr rfl), State.mbRead_empty _ hempty]
  case bell => rw [exec_innerBell hsup hpln hup, hsource]
  case quietBell => rw [exec_innerBell hsup hpln hup, hsource]
  case events =>
    have hsender : (s.modSender ch fun e => e.writeStat none v).sender ch = (s.sender ch).writeStat none v :=
      State.sender_modAt (f := (·.writeStat none v)) rfl hsenders
    exact ⟨by rw [hsender]; rfl, by rw [hsender]; rfl, by rw [hsender]; rfl, rfl⟩
  case db =>
    have hmail := s.mbStatus_db_mail v
    exact ⟨by rw [hmail]; rfl, by rw [hmail]; rfl, by rw [hmail], by rw [hmail]⟩
  case stat =>
    have hmail := s.mbStatus_stat_mail v
    have hsender : (s.mbStatus true true none v).sender .hostPln = (s.sender .hostPln).writeStat none v :=
      State.sender_modAt (f := (·.writeStat none v)) (by rw [hmail]) hsenders
    exact ⟨by rw [hmail]; rfl, by rw [hmail]; rfl, by rw [hmail]; rfl, by rw [hsender]; rfl⟩

/-! # The host's requests to Plinth (O48)

A request is taken from its channel before anything else happens (`State.plnTaken`); a request that reads its block is refused, goes on
or has waited too long (`State.plnRead`), and what it does then follows from the bytes that the read of the block brings. -/

namespace Sys2Proof.Machine

open Sys2Proof.Safety

/-! ## Reads of host memory by Plinth (R33, R441) -/

@[simp] theorem State.ownReads_link (n : Nat) (s : State) (addr : Word) (pasid : Option (BitVec 20)) (len : Nat) :
    (s.ownReads n addr pasid len).link = s.link := by
  induction n generalizing s addr len with
  | zero => rfl
  | succ n ih =>
    unfold State.ownReads
    split
    · rfl
    · rw [ih]
      simp

/-- A request of a run is at most 512 bytes long. -/
theorem reqLen_le (addr left mrrs : Nat) : reqLen addr left (min 512 mrrs) ≤ 512 := by
  obtain ⟨_, _, haligned, hshort, _⟩ := reqLen_within addr left (min 512 mrrs)
  by_cases h : addr % 64 = 0
  · exact (haligned h).trans (Nat.min_le_left _ _)
  · have := hshort h
    omega

/-- What a read puts out is read requests of at most 512 bytes. -/
theorem State.ownReads_out (n : Nat) (s : State) (addr : Word) (len : Nat) : ∀ o ∈ (s.ownReads n addr none len).out,
    o ∈ s.out ∨ ∃ tag a k, o = .hostRead tag a none s.link.relaxed k ∧ k ≤ 512 := by
  induction n generalizing s addr len with
  | zero => exact fun o ho => .inl ho
  | succ n ih =>
    unfold State.ownReads
    split
    · exact fun o ho => .inl ho
    · intro o ho
      obtain hbefore | ⟨tag, a, k, rfl, hk⟩ := ih _ _ _ o ho
      · simp only [State.emit_out, State.ownTag_frame, List.mem_append, List.mem_singleton] at hbefore
        obtain hbefore | rfl := hbefore
        · exact .inl hbefore
        · exact .inr ⟨_, _, _, rfl, reqLen_le _ _ _⟩
      · exact .inr ⟨tag, a, k, by simp, hk⟩

@[simp] theorem State.memError_bare (s : State) (src a0 a1 a2 : Nat) : (s.memError src a0 a1 a2).pl.bare = s.pl.bare := by
  simp [State.memError]

@[simp] theorem State.ownRead_bare (s : State) (rix : Nat) (addr : Word) (pasid : Option (BitVec 20)) (len : Nat) (d : HostData) :
    (s.ownRead rix addr pasid len d).1.pl.bare = s.pl.bare := by
  have hcounted : ∀ (l : List CplStatus) (t : State), (l.foldl State.countCpl t).pl = t.pl := foldl_keeps (·.pl) _ fun t st => by simp
  unfold State.ownRead
  dsimp only
  split
  · simp
  · split
    · rw [State.memError_bare, hcounted]
      simp
    · rw [(State.eccFix_frame _ _).2.2.2.2.2.2.2.2.1, hcounted]
      simp

theorem fit_length {n : Nat} {bs : List Byte} (h : bs.length = n) : fit n bs = bs := by
  simp [fit, ← h]

/-- A read without PASID that completes soundly: its requests have left, and nothing else happened. -/
theorem State.ownRead_sound (s : State) (rix : Nat) (addr : Word) (len : Nat) (data : List Byte) :
    s.ownRead rix addr none len ⟨.ok, [], .sound, data⟩
      = ((s.withdraw (.own rix)).ownReads (len / 64 + 2) addr none len, some (fit len data)) := rfl

theorem State.ownRead_fails (s : State) (rix : Nat) (addr : Word) (len : Nat) {d : HostData} (h : d.ok = false) :
    (s.ownRead rix addr none len d).2 = none := if_neg (by simp [h])

/-! ## The request is taken (R441, R455) -/

/-- The word of a request has been taken, and its read waits no more. -/
def State.plnTaken (s : State) : State := (s.mbServe .hostPln).onPl fun p => { p with readDue := none }

@[simp] theorem State.plnTaken_time (s : State) : s.plnTaken.time = s.time := by
  simp [State.plnTaken]

theorem State.plnTaken_bare (s : State) : s.plnTaken.pl.bare = { s.pl with readDue := none }.bare := by
  have hbare := (s.mbServe_others .hostPln).2.2.1
  exact congrArg (fun p : Plinth => { p with readDue := none }) hbare

@[simp] theorem State.plnTaken_keeps (s : State) : s.plnTaken.pl.img = s.pl.img ∧ s.plnTaken.pl.nonce = s.pl.nonce :=
  ⟨(congrArg Plinth.img s.plnTaken_bare :), (congrArg Plinth.nonce s.plnTaken_bare :)⟩

theorem State.plnTaken_updateKey (s : State) : s.plnTaken.updateKey = s.updateKey := by
  rw [State.updateKey, s.plnTaken_keeps.1]
  rfl

/-- A request leaves its channel empty, and owes its answer. -/
theorem State.plnTaken_owes {s : State} (h : (s.box .hostPln).full) :
    (s.plnTaken.box .hostPln).full = false ∧ (s.plnTaken.box .hostPln).owed = true := by
  have hbanks : s.plnTaken.mail.boxes = modAt s.mail.boxes (chIdx .hostPln) (·.taken .hostPln) := by
    have hserved : s.plnTaken.mail.boxes = (s.mbTake .hostPln).mail.boxes := ((s.mbTake .hostPln).serveBell_banks .hostPln).1
    rw [hserved, (s.mbTake_banks .hostPln).1]
  rw [State.box_modAt hbanks (State.full_present h)]
  exact ⟨rfl, by simp [Box.taken]⟩

/-! ## Requests that read their block (R441, R445) -/

section
variable {s : State} {w : Word} {op : Nat} (hwaits : s.plnWaits = some w) (hop : reqOp w = op) {pre : State → Option Nat}
  {fail : Word → State → Nat → State} {go : Word → State → State} {f : Word → State → PlnRes}
include hwaits hop

theorem State.plnRead_barred {st : Nat} (hpre : pre s = some st) : s.plnRead op pre fail go = fail w s.plnTaken st := by
  simp [State.plnRead, State.plnTaken, hwaits, hop, hpre]

theorem State.plnRead_goes (hpre : pre s = none) (hready : s.ownReady true 0) : s.plnRead op pre fail go = go w s.plnTaken := by
  simp [State.plnRead, State.plnTaken, hwaits, hop, hpre, hready]

/-- The read has waited for 10 s. -/
theorem State.plnRead_late {due : Nat × Time} (hpre : pre s = none) (hready : s.ownReady true 0 = false) (hasked : s.pl.readDue = some due)
    (hdue : reached s.time due.2) : s.plnRead op pre fail go = fail w (s.plnTaken.withdraw (.own 0)) stHostRead := by
  simp [State.plnRead, State.plnTaken, hwaits, hop, hpre, hready, hasked, hdue]

theorem State.plnServe_serves : s.plnServe op f = (f w (s.mbServe .hostPln)).s.reply w (f w (s.mbServe .hostPln)).status
    (f w (s.mbServe .hostPln)).value := by
  simp [State.plnServe, hwaits, hop]

theorem State.plnLinked_goes (hpre : pre s = none) (hready : s.ownReady true 0) :
    s.plnLinked op pre f = (f w s.plnTaken).s.reply w (f w s.plnTaken).status (f w s.plnTaken).value :=
  State.plnRead_goes hwaits hop hpre hready

end

/-! ## EXTEND, QUOTE and GET_NONCE (R442, R443, R446) -/

/-- The record of an EXTEND with its block. -/
def State.extended (s : State) (b : List Byte) : State :=
  (s.record 5 (0x100 + rd b 0 1) (leBytes 4 (rd b 0 1) ++ leBytes 4 (rd b 4 4) ++ fit 48 (slice b 8 48) ++ leBytes 1 (rd b 56 1)
    ++ fit 96 (slice b 64 96)) 153).flushAlm

/-- A nonce is drawn; the draw may fail its health test. -/
def State.nonceDrawn (s : State) : State :=
  (if Config.rngFails s.fresh then ({ s with fresh := s.fresh + 1 } : State).irqPl 13 else { s with fresh := s.fresh + 1 }).onPl
    fun p => { p with nonce := some (Config.random s.fresh) }

/-- A quote is made and kept. -/
def State.quoted (s : State) (nonce : List Byte) : State :=
  (s.makeQuote nonce).1.onPl fun p => { p with quotes := p.quotes + 1, quote := (s.makeQuote nonce).2 }

section
variable {s : State} {w : Word} (hwaits : s.plnWaits = some w) (d : HostData)
include hwaits

theorem exec_extend_locked (hop : reqOp w = 0x01) (hlock : s.pl.extLock) : exec (.extend d) s = .next (s.plnTaken.reply w 4 0) :=
  congrArg Host.Outcome.next (State.plnRead_barred hwaits hop (if_pos hlock))

theorem exec_extend_late (hop : reqOp w = 0x01) (hfree : s.pl.extLock = false) {due : Nat × Time} (hready : s.ownReady true 0 = false)
    (hasked : s.pl.readDue = some due) (hdue : reached s.time due.2) :
    exec (.extend d) s = .next ((s.plnTaken.withdraw (.own 0)).reply w 6 0) :=
  congrArg Host.Outcome.next (State.plnRead_late hwaits hop (if_neg (by simp [hfree])) hready hasked hdue)

theorem exec_quote_late (hop : reqOp w = 0x03) {due : Nat × Time} (hready : s.ownReady true 0 = false)
    (hasked : s.pl.readDue = some due) (hdue : reached s.time due.2) :
    exec (.quote d) s = .next ((s.plnTaken.withdraw (.own 0)).reply w 6 0) :=
  congrArg Host.Outcome.next (State.plnRead_late hwaits hop rfl hready hasked hdue)

theorem exec_getNonce_late (hop : reqOp w = 0x10) {due : Nat × Time} (hready : s.ownReady true 0 = false)
    (hasked : s.pl.readDue = some due) (hdue : reached s.time due.2) :
    exec (.getNonce d) s = .next ((s.plnTaken.withdraw (.own 0)).reply w 6 0) :=
  congrArg Host.Outcome.next (State.plnRead_late hwaits hop rfl hready hasked hdue)

variable (hready : s.ownReady true 0)
include hready

theorem exec_extend_sound {y : State} {b : List Byte} (hop : reqOp w = 0x01) (hfree : s.pl.extLock = false)
    (hread : s.plnTaken.blockRead w d = (y, some b)) (hindex : rd b 0 1 < 16) (hlen : rd b 56 1 ≤ 96)
    (hblock : blockOk b [(0, 1), (4, 4), (8, 48), (56, 1), (64, 96)]) :
    exec (.extend d) s = .next (((y.extended b).signal 5).reply w 0 ((y.extended b).pl.alm.next - 1)) := by
  change execExtend d s = _
  rw [execExtend, State.plnLinked_goes hwaits hop (if_neg (by simp [hfree])) hready]
  simp only [hread]
  rw [if_neg (by simp [hindex, hlen, hblock])]
  rfl

theorem exec_extend_unread {y : State} (hop : reqOp w = 0x01) (hfree : s.pl.extLock = false)
    (hread : s.plnTaken.blockRead w d = (y, none)) : exec (.extend d) s = .next (y.reply w 6 0) := by
  change execExtend d s = _
  rw [execExtend, State.plnLinked_goes hwaits hop (if_neg (by simp [hfree])) hready]
  simp only [hread]
  rfl

theorem exec_quote_sound {y : State} {b : List Byte} (hop : reqOp w = 0x03) (hread : s.plnTaken.blockRead w d = (y, some b))
    (hblock : blockOk b [(0, 32)]) : exec (.quote d) s
      = .next ((((y.quoted (slice b 0 32)).blockWrite w (y.makeQuote (slice b 0 32)).2).signal 5).reply w 0
        (y.quoted (slice b 0 32)).pl.quotes) := by
  change execQuote d s = _
  rw [execQuote, State.plnLinked_goes hwaits hop rfl hready]
  simp only [hread]
  rw [if_neg (by simp [hblock])]
  simp only [State.quoted, stOk]

theorem exec_quote_unread {y : State} (hop : reqOp w = 0x03) (hread : s.plnTaken.blockRead w d = (y, none)) :
    exec (.quote d) s = .next (y.reply w 6 0) := by
  change execQuote d s = _
  rw [execQuote, State.plnLinked_goes hwaits hop rfl hready]
  simp only [hread]
  rfl

theorem exec_getNonce_sound {y : State} {b : List Byte} (hop : reqOp w = 0x10) (hread : s.plnTaken.blockRead w d = (y, some b))
    (hblock : blockOk b []) : exec (.getNonce d) s
      = .next ((y.nonceDrawn.blockWrite w (leBytes 32 (Config.random y.fresh).toNat)).reply w 0 0) := by
  change execGetNonce d s = _
  rw [execGetNonce, State.plnLinked_goes hwaits hop rfl hready]
  simp only [hread]
  rw [if_neg (by simp [hblock])]
  simp only [State.nonceDrawn, stOk]

theorem exec_getNonce_unread {y : State} (hop : reqOp w = 0x10) (hread : s.plnTaken.blockRead w d = (y, none)) :
    exec (.getNonce d) s = .next (y.reply w 6 0) := by
  change execGetNonce d s = _
  rw [execGetNonce, State.plnLinked_goes hwaits hop rfl hready]
  simp only [hread]
  rfl

end

/-! ## EXTEND_LOCK and an OP that is not listed (R442, R445, R446) -/

theorem exec_extendLock_locks {s : State} {w : Word} (hwaits : s.plnWaits = some w) (hop : reqOp w = 0x02) (haddr : reqAddr w = 0)
    {v : State} (hv : v = (((s.mbServe .hostPln).onPl fun p => { p with extLock := true }).plRecord 6 []).flushAlm) :
    exec .extendLock s = .next (v.reply w 0 (v.pl.alm.next - 1)) := by
  subst hv
  change execExtendLock s = _
  rw [execExtendLock, State.plnServe_serves hwaits hop, if_neg (by simp [haddr])]
  rfl

theorem exec_plinthBadOp_unknown {s : State} {w : Word} (hwaits : s.plnWaits = some w) (hop : knownOp (reqOp w) = false) :
    exec .plinthBadOp s = .next ((s.mbServe .hostPln).reply w 1 0) := by
  change execPlinthBadOp s = _
  rw [execPlinthBadOp, hwaits]
  exact congrArg Host.Outcome.next (if_neg (by simp [hop]))

/-! ## FLASH_UPDATE (R447) -/

/-- The nonce stands while a block is read. -/
theorem State.nonce_blockRead {s y : State} {w : Word} {d : HostData} {b : Option (List Byte)} {n : BitVec 256}
    (hread : s.blockRead w d = (y, b)) (hnonce : s.pl.nonce = some n) : y.pl.nonce = some n := by
  have hbare := s.ownRead_bare 0 (BitVec.ofNat 64 (reqAddr w)) none 2048 d
  have hy : (s.ownRead 0 (BitVec.ofNat 64 (reqAddr w)) none 2048 d).1 = y := congrArg Prod.fst hread
  rw [hy] at hbare
  exact (congrArg Plinth.nonce hbare : y.pl.bare.nonce = s.pl.bare.nonce).trans hnonce

theorem State.flashBar_open {s : State} {key : List Byte} (hidle : s.pl.job = none) (hlock : s.pl.tamperLock = false)
    (hkey : s.updateKey = some key) : s.flashBar = none := by
  simp [State.flashBar, hidle, hlock, hkey]

/-- The image is read; the nonce is spent. -/
def State.imageRead (s : State) (b : List Byte) (image : HostData) : State × Option (List Byte) :=
  (s.onPl fun p => { p with nonce := none }).ownRead 0 (BitVec.ofNat 64 (rd b 8 8)) none (rd b 16 4) image

/-- The writing of an accepted image begins, with its record. -/
def State.flashAccepted (s : State) (target : Nat) (image : List Byte) : State :=
  (s.flashBegin target image).flashRecord 0 target 0 (imgVersion image) (imgDigest image)

section
variable {s : State} {w : Word} (hwaits : s.plnWaits = some w) (hop : reqOp w = 0x11)
include hwaits hop

theorem exec_flashUpdate_busy (hjob : s.pl.job.isSome) (block image : HostData) :
    exec (.flashUpdate block image) s = .next (s.plnTaken.reply w 5 0) :=
  congrArg Host.Outcome.next (State.plnRead_barred hwaits hop (if_pos hjob))

variable (hready : s.ownReady true 0) (hidle : s.pl.job = none) (hlock : s.pl.tamperLock = false) {key : List Byte}
  (hkey : s.updateKey = some key) {block : HostData} {y : State}
include hready hidle hlock hkey

theorem exec_flashUpdate_unread (image : HostData) (hread : s.plnTaken.blockRead w block = (y, none)) :
    exec (.flashUpdate block image) s = .next (y.reply w 6 0) := by
  change execFlashUpdate block image s = _
  rw [execFlashUpdate, State.plnLinked_goes hwaits hop (State.flashBar_open hidle hlock hkey) hready]
  simp only [s.plnTaken_updateKey, hkey, hread]
  rfl

variable {image : HostData} {b d : List Byte} {n : BitVec 256} {v : State} (hread : s.plnTaken.blockRead w block = (y, some b))
  (htarget : rd b 0 1 ≤ 1) (halign : rd b 8 8 % 4096 = 0) (hlen : rd b 16 4 ≤ 16777216)
  (hblock : blockOk b [(0, 1), (8, 8), (16, 4), (32, 96)]) (hnonce : s.pl.nonce = some n) (himage : y.imageRead b image = (v, some d))
include hread htarget halign hlen hblock hnonce himage

theorem exec_flashUpdate_refused {st x : Nat} (hrefuse : v.updRefuse key n (rd b 0 1) (slice b 32 96) d = some (st, x)) :
    exec (.flashUpdate block image) s = .next (v.reply w st x) := by
  have hkept : y.pl.nonce = some n := State.nonce_blockRead hread (s.plnTaken_keeps.2.trans hnonce)
  change execFlashUpdate block image s = _
  rw [execFlashUpdate, State.plnLinked_goes hwaits hop (State.flashBar_open hidle hlock hkey) hready]
  simp only [s.plnTaken_updateKey, hkey, hread]
  rw [if_neg (by simp [htarget, halign, hlen, hblock])]
  unfold State.imageRead at himage
  simp only [hkept, himage, hrefuse]

theorem exec_flashUpdate_accepted (haccept : v.updRefuse key n (rd b 0 1) (slice b 32 96) d = none) :
    exec (.flashUpdate block image) s = .next ((v.flashAccepted (rd b 0 1) d).reply w 0 0) := by
  have hkept : y.pl.nonce = some n := State.nonce_blockRead hread (s.plnTaken_keeps.2.trans hnonce)
  change execFlashUpdate block image s = _
  rw [execFlashUpdate, State.plnLinked_goes hwaits hop (State.flashBar_open hidle hlock hkey) hready]
  simp only [s.plnTaken_updateKey, hkey, hread]
  rw [if_neg (by simp [htarget, halign, hlen, hblock])]
  unfold State.imageRead at himage
  simp only [hkept, himage, haccept, State.flashAccepted, stOk]

end

/-! ## DECODE_LOAD (R280 to R282, R448) -/

section
variable {s : State} {w : Word} (hwaits : s.plnWaits = some w) (hop : reqOp w = 0x20) (hready : s.ownReady true 0)
  (hnormal : s.link.ep ≠ .recovery) (hloads : s.sx.fixed = false) (hlock : s.pl.tamperLock = false) {block body : HostData}
  {y v : State} {b d : List Byte} (hread : s.plnTaken.blockRead w block = (y, some b)) (halign : rd b 8 8 % 64 = 0)
  (hblock : blockOk b [(8, 8), (16, 4), (32, 96), (128, 96)])
  (hbody : y.ownRead 0 (BitVec.ofNat 64 (rd b 8 8)) none (rd b 16 4) body = (v, some d))
include hwaits hop hready hnormal hloads hlock hread halign hblock hbody

/-- The body has been read: its signatures and its entries decide. -/
theorem exec_decodeLoad_read : exec (.decodeLoad block body) s = .next (
    if !v.decodeSigned d (slice b 32 96) (slice b 128 96) then v.decodeFail w 3 d
    else if !decodeOk d then v.decodeFail w 0xD d
    else (v.onSx fun x => { x with load := some ⟨readEntries d, d, addNs v.time 100000000⟩ }).onPl fun p => { p with req := some w }) := by
  have hbar : s.decodeBar = none := by simp [State.decodeBar, hnormal, hloads, hlock]
  change execDecodeLoad block body s = _
  rw [execDecodeLoad, State.plnRead_goes hwaits hop hbar hready]
  simp only [hread]
  rw [if_neg (by simp [halign, hblock])]
  simp only [hbody]
  rfl

end

/-- Time stands while the block and the body are read. -/
theorem State.decodeLoad_time {s y v : State} {w : Word} {block body : HostData} {b d : List Byte}
    (hread : s.plnTaken.blockRead w block = (y, some b))
    (hbody : y.ownRead 0 (BitVec.ofNat 64 (rd b 8 8)) none (rd b 16 4) body = (v, some d)) : v.time = s.time := by
  have hblock := (s.plnTaken.blockRead_frame w block).1
  have hrest := (y.ownRead_frame 0 (BitVec.ofNat 64 (rd b 8 8)) none (rd b 16 4) body).1
  rw [hread] at hblock
  rw [hbody] at hrest
  exact hrest.trans (hblock.trans s.plnTaken_time)

/-! ## The read of a block (R33, R441) -/

theorem State.blockRead_whole (s : State) (w : Word) {data : List Byte} (hlen : data.length = 2048) :
    s.blockRead w ⟨.ok, [], .sound, data⟩
      = ((s.withdraw (.own 0)).ownReads (2048 / 64 + 2) (BitVec.ofNat 64 (reqAddr w)) none 2048, some data) := by
  rw [State.blockRead, State.ownRead_sound, fit_length hlen]

/-- The state after a read of Plinth differs from the one before it in Meridian's requests, the Tally and the outputs alone. -/
def State.ReadsOnly (s v : State) : Prop :=
  v.link = s.link ∧ v.pl = s.pl ∧ v.q = s.q ∧ v.sub = s.sub ∧ v.sx = s.sx ∧ v.dev = s.dev
  ∧ ∀ o ∈ v.out, o ∈ s.out ∨ ∃ tag a n, o = .hostRead tag a none s.link.relaxed n ∧ n ≤ 512

theorem State.ownReads_readsOnly (n : Nat) (s : State) (addr : Word) (len : Nat) :
    s.ReadsOnly ((s.withdraw (.own 0)).ownReads n addr none len) := by
  refine ⟨by simp, by simp, by simp, by simp, by simp, by simp, fun o ho => ?_⟩
  simpa using State.ownReads_out n (s.withdraw (.own 0)) _ _ o ho

/-- A whole block is read by requests of at most 512 bytes, and nothing else happens. -/
theorem State.blockRead_readsOnly (s : State) (w : Word) {data : List Byte} (hlen : data.length = 2048) :
    s.ReadsOnly (s.blockRead w ⟨.ok, [], .sound, data⟩).1 := by
  rw [s.blockRead_whole w hlen]
  exact State.ownReads_readsOnly _ _ _ _

end Sys2Proof.Machine

open Sys2Proof.Machine Sys2Proof.Safety in
/-- Settles O48: each request on the state `State.plnTaken`, by what the read of its block brings. -/
theorem plinthRequests : Obligations.PlinthRequests := by
  unfold Obligations.PlinthRequests
  refine ⟨fun s u w op due hwaits hnot hasked hdue hu => ?late, fun s t u w hwaits hready ht hu => ?ready⟩
  case late =>
    obtain rfl : u = s.plnTaken := hu
    exact ⟨fun hop hfree d => exec_extend_late hwaits d hop hfree hnot hasked hdue,
      fun hop d => exec_quote_late hwaits d hop hnot hasked hdue, fun hop d => exec_getNonce_late hwaits d hop hnot hasked hdue⟩
  case ready =>
    subst ht
    obtain rfl : u = s.plnTaken := hu
    refine ⟨fun hop hlock d => exec_extend_locked hwaits d hop hlock,
      fun d y b v hop hfree hread hindex hlen hblock hv => ?extend, fun v hop haddr hv => exec_extendLock_locks hwaits hop haddr hv,
      fun d y b v q hop hread hblock hq hv => ?quote, fun d y b z hop hread hblock hz => ?nonce,
      exec_plinthBadOp_unknown hwaits,
      fun d y hread => ⟨fun hop hfree => exec_extend_unread hwaits d hready hop hfree hread,
        fun hop => exec_quote_unread hwaits d hready hop hread, fun hop => exec_getNonce_unread hwaits d hready hop hread,
        fun hop hidle hlock hkey image => ?unread⟩,
      fun data hlen => ⟨?whole, fun d hbad => State.ownRead_fails _ _ _ _ hbad, fun v hv => hv ▸ State.blockRead_readsOnly _ w hlen⟩,
      fun hop hjob block image => exec_flashUpdate_busy hwaits hop hjob block image,
      fun i1 y b i2 d key n target v hop hidle hlock hkey hread ht htarget halign hlen hblock hnonce himage =>
        ?flash,
      fun i1 y b i2 v d hop hnormal hloads hlock hread halign hblock hbody => ?decode, State.plnTaken_owes⟩
    case extend =>
      subst hv
      exact exec_extend_sound hwaits d hready hop hfree hread hindex hlen hblock
    case quote =>
      subst hv hq
      exact exec_quote_sound hwaits d hready hop hread hblock
    case nonce =>
      subst hz
      exact exec_getNonce_sound hwaits d hready hop hread hblock
    case unread =>
      obtain ⟨key, hkey⟩ := Option.isSome_iff_exists.mp hkey
      exact exec_flashUpdate_unread hwaits hop hready hidle hlock hkey image hread
    case whole => rw [State.blockRead_whole _ w hlen]
    case flash =>
      subst ht
      exact ⟨exec_flashUpdate_accepted hwaits hop hready hidle hlock hkey hread htarget halign hlen hblock hnonce himage,
        fun st x => exec_flashUpdate_refused hwaits hop hready hidle hlock hkey hread htarget halign hlen hblock hnonce himage⟩
    case decode =>
      have hrow := exec_decodeLoad_read hwaits hop hready hnormal hloads hlock hread halign hblock hbody
      have htime := State.decodeLoad_time hread hbody
      refine ⟨fun hsigned hok => ?_, fun hunsigned => ?_, fun hsigned hbad => ?_⟩
      · rw [hrow, if_neg (by simp [hsigned]), if_neg (by simp [hok]), ← htime]
        rfl
      · rw [hrow, if_pos (by simp [hunsigned])]
        rfl
      · rw [hrow, if_neg (by simp [hsigned]), if_pos (by simp [hbad])]
        rfl
